-- ==== Sys2Proof/Word.lean ====
section
/-! DEFINITION. The words of the model: a byte, a string of bytes, and a sparse table kept as a
list of (key, value) pairs. Everything the spec numbers as a count, an address or a field is a `Nat`. -/
namespace Sys2Proof

/-- One byte of a frame, a descriptor or a memory. -/
abbrev Byte := BitVec 8

/-- A string of bytes, lowest address (first on the wire) first. -/
abbrev Bytes := List Byte

/-- A table by key. Its canonical form has rising keys and lists no entry equal to what an
unlisted key reads as (see `Machine/Sparse.lean`). -/
abbrev Sparse (α : Type) := List (Nat × α)

/-- The value of one Pattern Book object: a number (the unsigned reading of its encoding in
Table 2.1) or, for STR and BLOB, its bytes. -/
inductive Val where
  | num (n : Nat)
  | bytes (b : Bytes)
  deriving DecidableEq, Repr

end Sys2Proof
end

