-- ==== Sys2Proof/Syntax.lean ====
section
/-!
DEFINITION. The commands of the block: ONE inductive, one constructor per row of spec/opcode_table.json, with the operands that the row's rule gives it, and the operands' own structures.
-/
namespace Sys2Proof

/-- The transport of a Pattern Book session (R74, R76). -/
inductive Transport where
  | eth
  | i3c
  deriving DecidableEq, Repr

/-- How a client frame reached the device: on Ethernet the destination address (IPv6 or IPv4, as a number), the UDP port and the link's mode (1 SGMII, 2 1000BASE-X), as R74 says;
on I3C the target address of the private write (R76). -/
structure Arrival where
  v6 : Bool
  dst : Nat
  port : Nat
  phy : Nat
  deriving DecidableEq, Repr

/-- A client frame as it arrives (R78, Tables 2.5 to 2.8): the transport, how it reached the device, the source address and port (`addr`), VERSION (1 on I3C, which has
no such field), FTYPE, the session ID (the handle on I3C), SEQ, the body, and the bytes of the tag (none in HELLO and PROVE). BODY_LEN is the body's length. -/
structure Frame where
  tr : Transport
  via : Arrival
  addr : Nat
  version : Nat
  ftype : Nat
  sid : Nat
  seq : Nat
  body : Bytes
  auth : Bytes
  deriving DecidableEq, Repr

/-- The session slot (0–15 Ethernet, 16–17 I3C) and TAG of a Pattern Book write that has passed
authentication, for the rows that name the write of one object. -/
structure Writer where
  slot : Nat
  tag : Nat
  deriving DecidableEq, Repr

/-- What a write may need from outside the Pattern Book: whether the configuration flash programs without an error (a BOOT value, R66, Table 2.10). -/
structure Verdicts where
  flashOk : Bool
  deriving DecidableEq, Repr

/-- The blocks that have DRAIN-class objects (Table 2.4, the object tables of Bobbin and Treadle). -/
inductive DrainBlock where
  | bobbin
  | treadle
  deriving DecidableEq, Repr

/-- What the media give for the line that a request reads, where it is read from a slot (R213, R680): no error, a corrected one, or an uncorrectable one, with
whether a mirror partner's copy of the line is good. -/
inductive ReadEcc where
  | clean
  | corrected
  | bad (partnerOk : Bool)
  deriving DecidableEq, Repr

/-- What a request carries besides its operation: the requester kind and unit of R767, its source
endpoint ID, map epoch, tag, CID (`hasCid` false on a compatibility port or from a TRF 1.2 partner,
R126), destination endpoint, address (a local offset, or a virtual address when `xlat` is set), and
whether it arrives already forwarded through an inbound window (R146). For a Hearth core's access, `va` is
its virtual address and `cause` the access fault that it takes on poison (R679), both 0 otherwise, and `fwd` says that the core is in M-mode. `ecc`: what the media give
where the request reads a line from them. -/
structure Head where
  kind : Nat
  unit : Nat
  ep : Nat
  epoch : Nat
  tag : Nat
  cid : Nat
  hasCid : Bool
  dst : Nat
  addr : Nat
  xlat : Bool
  fwd : Bool
  va : Nat
  cause : Nat
  ecc : ReadEcc
  deriving DecidableEq, Repr

/-- The far atomic operations (Table 6.2). -/
inductive AOp where
  | add | min | max | swap | cas | and | or | xor
  deriving DecidableEq, Repr

/-- The memory operations that a request carries (Table 6.2, R530). A store is poisoned only as a mirror
write (R695). -/
inductive MemOp where
  | load (len : Nat)
  | store (data : Bytes) (poison : Bool)
  | atomic (op : AOp) (atype rsvd compare : Nat) (operands : Bytes)
  | reduce (rop rtype : Nat) (data : Bytes)
  | blk (group : Nat) (knot span : Bool) (count : Nat) (data : Bytes) (poison : Bool)
  deriving DecidableEq, Repr

/-- A request: its header and its operation. -/
structure Req where
  head : Head
  op : MemOp
  deriving DecidableEq, Repr

/-- A completion that arrives for one of the node's own requests (R282, R283): the tag it answers,
its status (Table 0.3), the epoch it carries, and the line's 64 bytes for ORD_DATA. -/
structure Completion where
  tag : Nat
  status : Nat
  epoch : Nat
  data : Bytes
  deriving DecidableEq, Repr

/-- A load, fetch or store of a Hearth core (R276, R679); its address and virtual address are in the header. -/
inductive CoreAccess where
  | load (len : Nat)
  | fetch (len : Nat)
  | store (data : Bytes)
  deriving DecidableEq, Repr

/-- What the patrol scrubber finds in a bolt's slot (R214): the lines (0–1023) of the bolt in which it corrected an error, and those that could not be corrected. -/
structure ScrubFind where
  corrected : List Nat
  badLines : List Nat
  deriving DecidableEq, Repr

/-- The fields of a coherence message that its handling uses (Table 5.3): the sending agent, the
endpoint and port it came from, CID, tag, the line's local offset, PREV or GRANT (0 I, 1 S, 2 L, 3 E,
4 M), WB_PENDING or KEEP in `flag`, STATUS, HTID and the data; `ecc`: what the media give where the home reads the line for a REQ. -/
structure CohMsg where
  agent : Nat
  ep : Nat
  port : Nat
  cid : Nat
  epoch : Nat
  tag : Nat
  line : Nat
  state : Nat
  flag : Bool
  status : Nat
  htid : Nat
  fwdAgent : Nat
  data : Bytes
  ecc : ReadEcc
  deriving DecidableEq, Repr

/-- The engine blocks that have queues in the control window (Table 3.7). -/
inductive Blk where
  | shuttle | bobbin | tape | treadle
  deriving DecidableEq, Repr

/-- Names an engine queue: block, partition, queue number. -/
structure QueueId where
  blk : Blk
  part : Nat
  q : Nat
  deriving DecidableEq, Repr

/-- The answer that another node gives to a read of a descriptor: the address read (a GFA), the status
and the data. A read that no answer covers completes DEAD (R539). One whose address is this node's own tells with `ecc` what the media give for that line (R213). -/
structure Reply where
  addr : Nat
  status : Nat
  data : Bytes
  ecc : ReadEcc
  deriving DecidableEq, Repr

/-- Names an accepted descriptor: its queue and its position (QPOS). -/
structure DescRef where
  q : QueueId
  pos : Nat
  deriving DecidableEq, Repr

/-- Names a request of the node that has not completed: one that it has issued, by its tag; one that waits
at it, by its number; the first access of a Hearth core that waits in its L2 cluster; or the access of a descriptor that a translation fault holds. -/
inductive ReqRef where
  | issued (tag : Nat)
  | held (seq : Nat)
  | core (core : Nat)
  | desc (d : DescRef)
  deriving DecidableEq, Repr

/-- One entry of a row-split look-up's sub-batch (R354): the owner's local row, the bag, and the weight. -/
structure SubIdx where
  row : Nat
  bag : Nat
  weight : Nat
  deriving DecidableEq, Repr

/-- A partial of a row-split look-up (R354): the bag, how many indices contributed, whether a row line failed, and FULL_DIM FP32
elements. -/
structure Partial where
  bag : Nat
  count : Nat
  bad : Bool
  elems : List Nat
  deriving DecidableEq, Repr

/-- What an entry member sends to another member of a table's group (R350): the entry member's endpoint, the descriptor's queue
and position there, the partition, the submitting endpoint (R383), the number of the member addressed, its own table number, the
descriptor and its lists, or its sub-batch. `bad`: the indices whose list entries did not read OK (R426). -/
structure FanMsg where
  ep : Nat
  q : QueueId
  pos : Nat
  holder : Nat
  member : Nat
  table : Nat
  bytes : Bytes
  idx : Bytes
  off : Bytes
  wt : Bytes
  batch : List SubIdx
  bad : List Nat
  deriving DecidableEq, Repr

/-- A result of a Tape search (R448, R461): the item, its distance (FP32), how it was found, the member that holds it, and the number by
which it ranks among results of equal distance. -/
structure Found where
  id : Nat
  dist : Nat
  reranked : Bool
  side : Bool
  member : Nat
  tie : Nat
  deriving DecidableEq, Repr

/-- A member's report to the entry member (R353, R354, R425, R461); `found`: a search's best entries, by query. -/
structure MemberMsg where
  member : Nat
  status : Nat
  rcode : Nat
  result : Nat
  partials : List Partial
  found : List (List Found)
  deriving DecidableEq, Repr

/-- What a receiver has found for one lane at the end of an equalisation phase (Table 13.12): coefficients of its transmitter as two's complement of 8 bits
(C_PRE, C_POST), CTLE peaking in half decibels, the first DFE tap, eye height in mV and eye width in 1/64 UI. -/
structure EqLane where
  pre : Nat
  post : Nat
  ctle : Nat
  dfe1 : Nat
  eyeMv : Nat
  eyeUi : Nat
  deriving DecidableEq, Repr

/-- A flit as a port receives it: its 256 bytes; under which key its GCM tag verifies (0 none, 1 the current or new key, 2 the old one, R621); and its 208
bytes of units after decryption, for a SEALED flit. -/
structure RxFlit where
  raw : Bytes
  key : Nat
  plain : Bytes
  deriving DecidableEq, Repr

/-- What a LINK flit carries beside its operation (Table 13.8): whether it verifies where AUTH is required, its ACK, and the credits it returns by class. -/
structure LinkHdr where
  authOk : Bool
  ack : Nat
  ackV : Bool
  nak : Bool
  credits : List (Nat × Nat)
  deriving DecidableEq, Repr

/-- What the bring-up of the memories finds (R163, R164): the two DIMMs of each Larder channel in bytes (0 an empty slot), channels whose training
failed, and the raw bytes of each Cellar channel's dies. -/
structure MemoryFound where
  dimms : List (Nat × Nat)
  failed : List Nat
  cellar : List Nat
  deriving DecidableEq, Repr

/-- The commands that the block takes (spec/opcode_table.json), by family in the table's order. -/
inductive Instr where
  /-- PBP_HELLO (R81). -/
  | pbpHello (f : Frame)
  /-- PBP_PROVE (R84). -/
  | pbpProve (f : Frame)
  /-- PBP_PROVE_TIMEOUT (R85). -/
  | pbpProveTimeout (slot : Nat)
  /-- PBP_READ (R90). -/
  | pbpRead (f : Frame)
  /-- PBP_WRITE (R91). -/
  | pbpWrite (f : Frame) (v : Verdicts)
  /-- PBP_DESCRIBE (R90). -/
  | pbpDescribe (f : Frame)
  /-- PBP_ENUM_NEXT (R90). -/
  | pbpEnumNext (f : Frame)
  /-- PBP_STORE (R72). -/
  | pbpStore (f : Frame) (flashOk : Bool)
  /-- PBP_RESTORE_DEFAULTS (R72). -/
  | pbpRestoreDefaults (f : Frame) (flashOk : Bool)
  /-- PBP_SUBSCRIBE (R90). -/
  | pbpSubscribe (f : Frame)
  /-- PBP_UNSUBSCRIBE (R89). -/
  | pbpUnsubscribe (f : Frame)
  /-- PBP_PING (R89). -/
  | pbpPing (f : Frame)
  /-- PBP_WRITE_GROUP (R92). -/
  | pbpWriteGroup (f : Frame) (v : Verdicts)
  /-- PBP_EVENT_ACK (R96). -/
  | pbpEventAck (f : Frame)
  /-- PBP_CLOSE (R87). -/
  | pbpClose (f : Frame)
  /-- SESSION_IDLE_TIMEOUT (R87). -/
  | sessionIdleTimeout (slot : Nat)
  /-- SESSION_LIMIT_REACHED (R87). -/
  | sessionLimitReached (slot : Nat)
  /-- EVENT_RETRY_TIMEOUT (R96). -/
  | eventRetryTimeout (slot : Nat) (eventSeq : Nat)
  /-- SUBSCRIPTION_PERIOD (R90). -/
  | subscriptionPeriod (subId : Nat)
  /-- EVENT_SEND (R97). -/
  | eventSend (subId : Nat)
  /-- DRAIN_END (R764). -/
  | drainEnd (block : DrainBlock)
  /-- I3C_PRIVATE_READ (R77). -/
  | i3cPrivateRead (handle : Nat)
  /-- SESSION_CLOSE (R87). -/
  | sessionClose (w : Writer) (value : Bytes)
  /-- ROLE_KEYS (R101). -/
  | roleKeys (w : Writer) (element : Nat) (value : Bytes)
  /-- OBJECT_WRITE (R61). -/
  | objectWrite (w : Writer) (index : Nat) (sub : Nat) (value : Bytes)
  /-- REGION_CREATE (R116). -/
  | regionCreate (w : Writer) (region : Nat) (value : Bytes)
  /-- REGION_CHANGE (R119). -/
  | regionChange (w : Writer) (region : Nat) (value : Bytes)
  /-- REGION_RELEASE (R122). -/
  | regionRelease (w : Writer) (region : Nat) (value : Bytes)
  /-- REGION_RELEASE_END (R122). -/
  | regionReleaseEnd (region : Nat)
  /-- WINDOW_WRITE (R144). -/
  | windowWrite (w : Writer) (window : Nat) (value : Bytes)
  /-- ROUTE_STAGE (R150). -/
  | routeStage (w : Writer) (value : Bytes)
  /-- MAP_COMMIT (R151). -/
  | mapCommit (w : Writer) (value : Bytes)
  /-- MAP_STAGE_COPY_END (R151). -/
  | mapStageCopyEnd
  /-- MAP_GRACE_END (R152). -/
  | mapGraceEnd
  /-- CW_INV_ASID (R135). -/
  | cwInvAsid (h : Head) (asid : Nat)
  /-- CW_INV_ALL_ASID (R135). -/
  | cwInvAllAsid (h : Head)
  /-- CW_INV_BY_VA (R135). -/
  | cwInvByVa (h : Head) (asid : Nat) (allAsid : Bool)
  /-- INV_COMPLETE (R135). -/
  | invComplete
  /-- CW_FR_RESUME (R140). -/
  | cwFrResume (h : Head) (record : Nat)
  /-- CW_FR_TERMINATE (R140). -/
  | cwFrTerminate (h : Head) (record : Nat)
  /-- FR_RECORD_FREED (R137). -/
  | frRecordFreed
  /-- TRACKER_ALLOCATE (R155). -/
  | trackerAllocate (bank : Nat)
  /-- REQUEST_TIMEOUT (R539). -/
  | requestTimeout (r : ReqRef)
  /-- HOLD_DISCARD (R540). -/
  | holdDiscard (seq : Nat)
  /-- RETRY_RECEIVED (R154). -/
  | retryReceived (c : Completion)
  /-- ORD_LOAD (R279). -/
  | ordLoad (h : Head) (len : Nat)
  /-- ORD_STORE (R282). -/
  | ordStore (h : Head) (data : Bytes)
  /-- ATOMIC_ADD (R390). -/
  | atomicAdd (h : Head) (atype : Nat) (rsvd : Nat) (operands : Bytes)
  /-- ATOMIC_MIN (R390). -/
  | atomicMin (h : Head) (atype : Nat) (rsvd : Nat) (operands : Bytes)
  /-- ATOMIC_MAX (R390). -/
  | atomicMax (h : Head) (atype : Nat) (rsvd : Nat) (operands : Bytes)
  /-- ATOMIC_SWAP (R390). -/
  | atomicSwap (h : Head) (atype : Nat) (rsvd : Nat) (operands : Bytes)
  /-- ATOMIC_CAS (R390). -/
  | atomicCas (h : Head) (atype : Nat) (rsvd : Nat) (compare : Nat) (operands : Bytes)
  /-- ATOMIC_AND (R390). -/
  | atomicAnd (h : Head) (atype : Nat) (rsvd : Nat) (operands : Bytes)
  /-- ATOMIC_OR (R390). -/
  | atomicOr (h : Head) (atype : Nat) (rsvd : Nat) (operands : Bytes)
  /-- ATOMIC_XOR (R390). -/
  | atomicXor (h : Head) (atype : Nat) (rsvd : Nat) (operands : Bytes)
  /-- REDUCE_SUM (R530). -/
  | reduceSum (h : Head) (rtype : Nat) (data : Bytes)
  /-- REDUCE_MIN (R530). -/
  | reduceMin (h : Head) (rtype : Nat) (data : Bytes)
  /-- REDUCE_MAX (R530). -/
  | reduceMax (h : Head) (rtype : Nat) (data : Bytes)
  /-- BLK_WRITE (R284). -/
  | blkWrite (h : Head) (group : Nat) (span : Bool) (data : Bytes) (poison : Bool)
  /-- BLK_KNOT (R285). -/
  | blkKnot (h : Head) (group : Nat) (span : Bool) (count : Nat) (data : Bytes)
  /-- KNOT_PERFORM (R285). -/
  | knotPerform (ep : Nat) (cid : Nat) (group : Nat) (span : Bool)
  /-- KNOT_HOLD_TIMEOUT (R289). -/
  | knotHoldTimeout (ep : Nat) (cid : Nat) (group : Nat) (span : Bool)
  /-- ORD_CMP (R282). -/
  | ordCmp (c : Completion)
  /-- BLK_CMP (R284). -/
  | blkCmp (c : Completion)
  /-- ORD_DATA (R283). -/
  | ordData (c : Completion)
  /-- RD_S (R242). -/
  | rdS (m : CohMsg)
  /-- RD_OWN (R242). -/
  | rdOwn (m : CohMsg)
  /-- UPGRADE (R242). -/
  | upgrade (m : CohMsg)
  /-- RD_PEEK (R242). -/
  | rdPeek (m : CohMsg)
  /-- SLICE_TXN_START (R240). -/
  | sliceTxnStart (line : Nat)
  /-- SNP_ACK (R243). -/
  | snpAck (m : CohMsg)
  /-- SNP_DATA (R243). -/
  | snpData (m : CohMsg)
  /-- CMP_ACK (R241). -/
  | cmpAck (m : CohMsg)
  /-- WB_DIRTY (R251). -/
  | wbDirty (m : CohMsg)
  /-- EVICT_CLEAN (R251). -/
  | evictClean (m : CohMsg)
  /-- SNP_FWD_S (R246). -/
  | snpFwdS (cluster : Nat) (m : CohMsg)
  /-- SNP_FWD_OWN (R246). -/
  | snpFwdOwn (cluster : Nat) (m : CohMsg)
  /-- SNP_RECALL (R246). -/
  | snpRecall (cluster : Nat) (m : CohMsg)
  /-- SNP_PEEK (R246). -/
  | snpPeek (cluster : Nat) (m : CohMsg)
  /-- DATA_HOME (R241). -/
  | dataHome (cluster : Nat) (m : CohMsg)
  /-- DATA_FWD (R241). -/
  | dataFwd (cluster : Nat) (m : CohMsg)
  /-- CMP (R766). -/
  | cmp (cluster : Nat) (m : CohMsg)
  /-- WB_ACK (R250). -/
  | wbAck (cluster : Nat) (m : CohMsg)
  /-- REGION_RECALL (R258). -/
  | regionRecall (w : Writer) (value : Bytes)
  /-- REGION_RECALL_END (R258). -/
  | regionRecallEnd
  /-- SNP_TIMEOUT (R260). -/
  | snpTimeout (line : Nat) (agent : Nat)
  /-- AGENT_EXPEL (R262). -/
  | agentExpel (w : Writer) (value : Bytes)
  /-- AGENT_ADMIT (R271). -/
  | agentAdmit (w : Writer) (agent : Nat) (value : Bytes)
  /-- AGENT_DETACH (R263). -/
  | agentDetach (w : Writer) (agent : Nat) (value : Bytes)
  /-- AGENT_DETACH_END (R263). -/
  | agentDetachEnd (agent : Nat)
  /-- DIR_ECC_ERROR (R267). -/
  | dirEccError (line : Nat)
  /-- DIR_QUERY (R270). -/
  | dirQuery (w : Writer) (value : Bytes)
  /-- CBO_FLUSH (R250). -/
  | cboFlush (core : Nat) (h : Head)
  /-- CBO_CLEAN (R250). -/
  | cboClean (core : Nat) (h : Head)
  /-- CBO_INVAL (R250). -/
  | cboInval (core : Nat) (h : Head)
  /-- CBO_ZERO (R250). -/
  | cboZero (core : Nat) (h : Head)
  /-- HEARTH_AMO (R394). -/
  | hearthAmo (core : Nat) (h : Head) (op : AOp) (unsigned : Bool) (wide : Bool) (operand : Nat)
  /-- HEARTH_LR (R394). -/
  | hearthLr (core : Nat) (h : Head) (wide : Bool)
  /-- HEARTH_SC (R394). -/
  | hearthSc (core : Nat) (h : Head) (wide : Bool) (operand : Nat)
  /-- HEARTH_FENCE (R298). -/
  | hearthFence (core : Nat) (predIO : Bool) (succIO : Bool) (predRW : Bool) (succRW : Bool)
  /-- FENCE_ACQUIRE (R294). -/
  | fenceAcquire (d : DescRef)
  /-- FENCE_RELEASE (R294). -/
  | fenceRelease (d : DescRef)
  /-- FENCE_FULL (R294). -/
  | fenceFull (d : DescRef)
  /-- FENCE_COMPLETE (R300). -/
  | fenceComplete (q : QueueId)
  /-- FLUSH_RANGE (R278). -/
  | flushRange (d : DescRef)
  /-- VC_OPEN_READ (R316). -/
  | vcOpenRead (h : Head) (slot : Nat) (region : Nat) (asid : Nat)
  /-- VC_CLOSE_READ (R313). -/
  | vcCloseRead (h : Head) (slot : Nat) (region : Nat) (asid : Nat)
  /-- VC_OPEN_WORK (R313). -/
  | vcOpenWork (h : Head) (slot : Nat) (region : Nat) (asid : Nat)
  /-- VC_PUBLISH (R317). -/
  | vcPublish (h : Head) (slot : Nat) (region : Nat) (asid : Nat)
  /-- VC_REBASE (R318). -/
  | vcRebase (h : Head) (slot : Nat) (region : Nat) (asid : Nat)
  /-- VC_DISCARD_WORK (R323). -/
  | vcDiscardWork (h : Head) (slot : Nat) (region : Nat) (asid : Nat)
  /-- VC_QUERY (R313). -/
  | vcQuery (h : Head) (slot : Nat) (region : Nat) (asid : Nat)
  /-- VER_FOLD (R322). -/
  | verFold (region : Nat) (page : Nat)
  /-- BASTE_PAGE_FREED (R309). -/
  | bastePageFreed (region : Nat)
  /-- VER_VIEW (R306). -/
  | verView (w : Writer) (region : Nat) (value : Bytes)
  /-- VER_QUERY (R338). -/
  | verQuery (w : Writer) (value : Bytes)
  /-- LEASE_QUERY (R338). -/
  | leaseQuery (w : Writer) (value : Bytes)
  /-- LEASE_RENEW (R329). -/
  | leaseRenew (h : Head) (duration : Nat)
  /-- LEASE_ACK_EXPIRED (R333). -/
  | leaseAckExpired (h : Head)
  /-- LEASE_DEADLINE (R330). -/
  | leaseDeadline (lease : Nat)
  /-- LEASE_EXPIRY (R332). -/
  | leaseExpiry (lease : Nat)
  /-- STALE_HOLD_END (R333). -/
  | staleHoldEnd (lease : Nat)
  /-- LEASE_EXPIRE (R334). -/
  | leaseExpire (w : Writer) (value : Bytes)
  /-- QUEUE_TAIL_WRITE (R376). -/
  | queueTailWrite (h : Head) (q : QueueId) (tail : Nat)
  /-- SLOT_READ_COMPLETE (R376). -/
  | slotReadComplete (q : QueueId) (env : List Reply)
  /-- COMPLETION_RING_SPACE (R376). -/
  | completionRingSpace (q : QueueId)
  /-- BN_START (R342). -/
  | bnStart (w : Writer)
  /-- BN_STOP (R342). -/
  | bnStop (w : Writer)
  /-- BN_STOP_END (R342). -/
  | bnStopEnd
  /-- TAB_START (R347). -/
  | tabStart (w : Writer) (table : Nat)
  /-- TAB_STOP (R347). -/
  | tabStop (w : Writer) (table : Nat)
  /-- TAB_STOP_END (R347). -/
  | tabStopEnd (table : Nat)
  /-- LOOKUP (R371). -/
  | lookup (d : DescRef) (env : List Reply)
  /-- FANOUT_RECEIVE (R350). -/
  | fanoutReceive (m : FanMsg) (env : List Reply)
  /-- CHUNK_DEAL (R341). -/
  | chunkDeal (d : DescRef) (engine : Nat)
  /-- MEMBER_REPORT (R353). -/
  | memberReport (d : DescRef) (m : MemberMsg)
  /-- MEMBER_MISSING_TIMEOUT (R353). -/
  | memberMissingTimeout (d : DescRef)
  /-- TAB_LOAD (R381). -/
  | tabLoad (d : DescRef) (env : List Reply)
  /-- REFRESH_HOT (R367). -/
  | refreshHot (d : DescRef) (env : List Reply)
  /-- VERSION_OPEN_READ (R382). -/
  | versionOpenRead (d : DescRef)
  /-- VERSION_CLOSE_READ (R382). -/
  | versionCloseRead (d : DescRef)
  /-- VERSION_QUERY (R382). -/
  | versionQuery (d : DescRef)
  /-- VERSION_OPEN_WORK (R417). -/
  | versionOpenWork (d : DescRef)
  /-- VERSION_PUBLISH (R417). -/
  | versionPublish (d : DescRef)
  /-- VERSION_REBASE (R417). -/
  | versionRebase (d : DescRef)
  /-- VERSION_DISCARD_WORK (R417). -/
  | versionDiscardWork (d : DescRef)
  /-- REENC_SWEEP (R363). -/
  | reencSweep
  /-- ROW_REENCODE (R364). -/
  | rowReencode (table : Nat) (row : Nat)
  /-- RECORD_CUTOVER (R370). -/
  | recordCutover (table : Nat) (row : Nat)
  /-- OLD_RECORD_FREE (R370). -/
  | oldRecordFree (table : Nat) (bolt : Nat) (slot : Nat)
  /-- STEP_OPEN (R400). -/
  | stepOpen (d : DescRef)
  /-- ACCUMULATE (R402). -/
  | accumulate (d : DescRef) (env : List Reply)
  /-- SEAL (R409). -/
  | seal (d : DescRef)
  /-- SEAL_APPLY (R410). -/
  | sealApply (d : DescRef)
  /-- STEP_DISCARD (R401). -/
  | stepDiscard (d : DescRef)
  /-- ACC_BANK_FAIL (R421). -/
  | accBankFail (bank : Nat) (power : Bool)
  /-- TP_START (R431). -/
  | tpStart (w : Writer)
  /-- TP_STOP (R431). -/
  | tpStop (w : Writer)
  /-- TP_STOP_END (R431). -/
  | tpStopEnd
  /-- VEC_START (R433). -/
  | vecStart (w : Writer) (index : Nat)
  /-- VEC_STOP (R433). -/
  | vecStop (w : Writer) (index : Nat)
  /-- SEARCH (R448). -/
  | search (d : DescRef) (env : List Reply)
  /-- ROUND_OPEN (R443). -/
  | roundOpen (index : Nat)
  /-- PASS_START (R445). -/
  | passStart (index : Nat) (engine : Nat)
  /-- ROUND_END (R448). -/
  | roundEnd (index : Nat) (env : List Reply)
  /-- TAPE_MEMBER_TIMEOUT (R461). -/
  | tapeMemberTimeout (d : DescRef)
  /-- INSERT (R452). -/
  | insert (d : DescRef) (env : List Reply)
  /-- DELETE (R453). -/
  | delete (d : DescRef) (env : List Reply)
  /-- LIST_LOAD (R457). -/
  | listLoad (d : DescRef) (env : List Reply)
  /-- AREA_LOAD (R464). -/
  | areaLoad (d : DescRef) (env : List Reply)
  /-- MERGE (R455). -/
  | merge (d : DescRef)
  /-- MERGE_START (R455). -/
  | mergeStart (engine : Nat)
  /-- MERGE_SWAP (R455). -/
  | mergeSwap (index : Nat) (list : Nat)
  /-- MERGE_FREE (R455). -/
  | mergeFree (index : Nat) (list : Nat)
  /-- GRAPH_RETIRE (R460). -/
  | graphRetire (d : DescRef)
  /-- GRAPH_ADD (R460). -/
  | graphAdd (d : DescRef) (env : List Reply)
  /-- GRAPH_LINK (R460). -/
  | graphLink (d : DescRef) (env : List Reply)
  /-- TD_START (R503). -/
  | tdStart (w : Writer)
  /-- TD_STOP (R503). -/
  | tdStop (w : Writer)
  /-- TD_STOP_END (R503). -/
  | tdStopEnd
  /-- LAUNCH (R497). -/
  | launch (d : DescRef) (env : List Reply)
  /-- LAUNCH_PICK (R498). -/
  | launchPick (d : DescRef) (env : List Reply)
  /-- SYNC_START_REACHED (R500). -/
  | syncStartReached (d : DescRef)
  /-- TD_LOAD_TILE (R480). -/
  | tdLoadTile (array : Nat) (env : List Reply)
  /-- TD_LOAD_SCALE (R480). -/
  | tdLoadScale (array : Nat) (env : List Reply)
  /-- TD_MMA (R469). -/
  | tdMma (array : Nat)
  /-- TD_MMA_ZERO (R480). -/
  | tdMmaZero (array : Nat)
  /-- TD_ACC_ZERO (R480). -/
  | tdAccZero (array : Nat)
  /-- TD_ACC_COPY (R480). -/
  | tdAccCopy (array : Nat)
  /-- TD_ACC_ADD (R480). -/
  | tdAccAdd (array : Nat)
  /-- TD_ACC_LOAD (R480). -/
  | tdAccLoad (array : Nat)
  /-- TD_PULL (R480). -/
  | tdPull (array : Nat)
  /-- TD_PULL_ANY (R493). -/
  | tdPullAny (array : Nat) (arrivals : List Nat)
  /-- TD_CVT (R481). -/
  | tdCvt (array : Nat)
  /-- TD_MULS (R480). -/
  | tdMuls (array : Nat)
  /-- TD_ADDS (R480). -/
  | tdAdds (array : Nat)
  /-- TD_RELU (R480). -/
  | tdRelu (array : Nat)
  /-- TD_GELU (R481). -/
  | tdGelu (array : Nat)
  /-- TD_EXP (R481). -/
  | tdExp (array : Nat)
  /-- TD_RMAX (R480). -/
  | tdRmax (array : Nat)
  /-- TD_RSUM (R480). -/
  | tdRsum (array : Nat)
  /-- TD_SUBR (R480). -/
  | tdSubr (array : Nat)
  /-- TD_DIVR (R480). -/
  | tdDivr (array : Nat)
  /-- TD_ADDV (R480). -/
  | tdAddv (array : Nat)
  /-- TD_MULV (R480). -/
  | tdMulv (array : Nat)
  /-- TD_VLOAD (R480). -/
  | tdVload (array : Nat)
  /-- TD_ITOF (R480). -/
  | tdItof (array : Nat)
  /-- TD_STORE_TILE (R482). -/
  | tdStoreTile (array : Nat)
  /-- TD_STORE_SCALE (R480). -/
  | tdStoreScale (array : Nat)
  /-- TD_WAIT_LOCAL (R483). -/
  | tdWaitLocal (array : Nat)
  /-- TD_WAIT_LAUNCH (R483). -/
  | tdWaitLaunch (array : Nat)
  /-- TD_WAIT_MEM (R483). -/
  | tdWaitMem (array : Nat) (env : List Reply)
  /-- TD_SIGNAL_LAUNCH (R484). -/
  | tdSignalLaunch (array : Nat)
  /-- TD_SIGNAL_STORE (R484). -/
  | tdSignalStore (array : Nat)
  /-- TD_SIGNAL_ADD (R484). -/
  | tdSignalAdd (array : Nat)
  /-- TD_END (R485). -/
  | tdEnd (array : Nat)
  /-- LAUNCH_END (R501). -/
  | launchEnd (d : DescRef)
  /-- WATCHDOG_EXPIRE (R492). -/
  | watchdogExpire (d : DescRef)
  /-- SH_START (R510). -/
  | shStart (w : Writer)
  /-- SH_STOP (R510). -/
  | shStop (w : Writer)
  /-- SH_STOP_END (R510). -/
  | shStopEnd
  /-- PIECE_DEAL (R509). -/
  | pieceDeal (d : DescRef) (engine : Nat)
  /-- COPY (R516). -/
  | copy (d : DescRef) (piece : Nat) (env : List Reply)
  /-- MCAST (R527). -/
  | mcast (d : DescRef) (piece : Nat) (env : List Reply)
  /-- SH_REDUCE (R532). -/
  | shReduce (d : DescRef) (piece : Nat) (env : List Reply)
  /-- SH_REDUCE_TREE (R534). -/
  | shReduceTree (d : DescRef) (env : List Reply)
  /-- STAGE_COUNTER_REACHED (R534). -/
  | stageCounterReached (d : DescRef) (env : List Reply)
  /-- STAGE_WAIT_TIMEOUT (R536). -/
  | stageWaitTimeout (d : DescRef)
  /-- SH_WAIT (R537). -/
  | shWait (d : DescRef) (env : List Reply)
  /-- WAIT_TIMEOUT (R537). -/
  | waitTimeout (d : DescRef)
  /-- ARRIVAL_ADD (R522). -/
  | arrivalAdd (d : DescRef) (dest : Nat)
  /-- MCAST_GROUP (R525). -/
  | mcastGroup (w : Writer) (group : Nat) (v : Bytes)
  /-- BAR_START (R542). -/
  | barStart (w : Writer) (barrier : Nat)
  /-- BAR_STOP (R548). -/
  | barStop (w : Writer) (barrier : Nat)
  /-- BAR_ABORT (R545). -/
  | barAbort (w : Writer) (barrier : Nat)
  /-- BAR_ARRIVE (R543). -/
  | barArrive (h : Head) (barrier : Nat) (v : Nat)
  /-- BAR_TIMEOUT (R545). -/
  | barTimeout (barrier : Nat)
  /-- PORTS_START (R551). -/
  | portsStart (w : Writer)
  /-- PORTS_STOP (R551). -/
  | portsStop (w : Writer)
  /-- JOIN_EPOCH (R553). -/
  | joinEpoch (w : Writer) (value : Bytes)
  /-- PORT_ATTACH (R590). -/
  | portAttach (w : Writer) (port : Nat)
  /-- PORT_DETACH (R592). -/
  | portDetach (w : Writer) (port : Nat)
  /-- PORT_RETRAIN_CMD (R583). -/
  | portRetrainCmd (w : Writer) (port : Nat)
  /-- PORT_FORCE_DOWN (R594). -/
  | portForceDown (w : Writer) (port : Nat)
  /-- ATTACH_POLL (R555). -/
  | attachPoll (port : Nat)
  /-- DETECT_DONE (R555). -/
  | detectDone (port : Nat) (lanes : Nat)
  /-- POLL_DONE (R555). -/
  | pollDone (port : Nat)
  /-- POLL_TIMEOUT (R555). -/
  | pollTimeout (port : Nat)
  /-- EQ_PHASE_END (R559). -/
  | eqPhaseEnd (port : Nat) (lanes : List EqLane) (good : Nat) (partnerGood : Nat)
  /-- EQ_TIMEOUT (R555). -/
  | eqTimeout (port : Nat)
  /-- FIT (R563). -/
  | fit (port : Nat) (block : Bytes)
  /-- FIT_TIMEOUT (R555). -/
  | fitTimeout (port : Nat)
  /-- KEY_PART1 (R618). -/
  | keyPart1 (port : Nat) (part : Bytes)
  /-- KEY_PART2 (R619). -/
  | keyPart2 (port : Nat) (part : Bytes)
  /-- KEY_RESEND (R618). -/
  | keyResend (port : Nat)
  /-- KEY_TIMEOUT (R555). -/
  | keyTimeout (port : Nat)
  /-- DATA_FLIT (R574). -/
  | dataFlit (port : Nat) (f : RxFlit)
  /-- IDLE_FLIT (R571). -/
  | idleFlit (port : Nat) (f : RxFlit)
  /-- ACK_TIMEOUT (R574). -/
  | ackTimeout (port : Nat)
  /-- EQ_REQ (R561). -/
  | eqReq (port : Nat) (l : LinkHdr) (lane : Nat) (post : Bool) (up : Bool)
  /-- EQ_ACK (R561). -/
  | eqAck (port : Nat) (l : LinkHdr) (lane : Nat) (refused : Bool)
  /-- RETRAIN_REQ (R583). -/
  | retrainReq (port : Nat) (l : LinkHdr)
  /-- DOWN_NOTICE (R586). -/
  | downNotice (port : Nat) (l : LinkHdr) (reason : Nat)
  /-- LOSS_OF_SIGNAL (R583). -/
  | lossOfSignal (port : Nat)
  /-- RETRAIN_TIMEOUT (R583). -/
  | retrainTimeout (port : Nat)
  /-- DETACH_TIMEOUT (R592). -/
  | detachTimeout (port : Nat)
  /-- PING (R580). -/
  | ping (port : Nat) (src : Nat) (tag : Nat) (loc : Bool)
  /-- PONG (R580). -/
  | pong (port : Nat) (tag : Nat)
  /-- QUIESCE (R581). -/
  | quiesce (port : Nat) (mask : Nat)
  /-- RESUME (R581). -/
  | resume (port : Nat)
  /-- DETACH_REQ (R593). -/
  | detachReq (port : Nat)
  /-- DETACH_ACK (R592). -/
  | detachAck (port : Nat)
  /-- KEY_UPDATE (R621). -/
  | keyUpdate (port : Nat) (nonce : Bytes) (gen : Nat)
  /-- REKEY_DUE (R621). -/
  | rekeyDue (port : Nat)
  /-- COUNTER_EXHAUSTED (R622). -/
  | counterExhausted (port : Nat)
  /-- NOTICE (R580). -/
  | notice (port : Nat) (ep : Nat) (code : Nat) (unit : Nat) (data : Nat)
  /-- PCIE_MEM_READ (R292). -/
  | pcieMemRead (port : Nat) (tag : Nat) (bar : Nat) (off : Nat) (len : Nat)
  /-- PCIE_MEM_WRITE (R292). -/
  | pcieMemWrite (port : Nat) (bar : Nat) (off : Nat) (data : Bytes) (relaxed : Bool)
  /-- CXL_MEM_RD (R292). -/
  | cxlMemRd (port : Nat) (tag : Nat) (addr : Nat)
  /-- CXL_MEM_WR (R292). -/
  | cxlMemWr (port : Nat) (tag : Nat) (addr : Nat) (data : Bytes) (enables : Nat)
  /-- FLR (R597). -/
  | flr (port : Nat)
  /-- SPDM_GET_VERSION (R623). -/
  | spdmGetVersion (port : Nat)
  /-- SPDM_GET_CAPABILITIES (R623). -/
  | spdmGetCapabilities (port : Nat)
  /-- SPDM_NEGOTIATE_ALGORITHMS (R623). -/
  | spdmNegotiateAlgorithms (port : Nat) (offered : Bool)
  /-- SPDM_GET_DIGESTS (R623). -/
  | spdmGetDigests (port : Nat)
  /-- SPDM_GET_CERTIFICATE (R623). -/
  | spdmGetCertificate (port : Nat) (slot : Nat) (off : Nat) (len : Nat)
  /-- SPDM_CHALLENGE (R623). -/
  | spdmChallenge (port : Nat) (slot : Nat)
  /-- SPDM_GET_MEASUREMENTS (R623). -/
  | spdmGetMeasurements (port : Nat) (index : Nat) (signed : Bool)
  /-- SPDM_KEY_EXCHANGE (R623). -/
  | spdmKeyExchange (port : Nat) (slot : Nat)
  /-- SPDM_FINISH (R623). -/
  | spdmFinish (port : Nat) (ok : Bool)
  /-- SPDM_END_SESSION (R623). -/
  | spdmEndSession (port : Nat)
  /-- IDE_KM_QUERY (R623). -/
  | ideKmQuery (port : Nat)
  /-- IDE_KM_KEY_PROG (R623). -/
  | ideKmKeyProg (port : Nat) (cxl : Bool) (tx : Bool)
  /-- IDE_KM_K_SET_GO (R623). -/
  | ideKmKSetGo (port : Nat) (cxl : Bool) (tx : Bool)
  /-- IDE_KM_K_SET_STOP (R623). -/
  | ideKmKSetStop (port : Nat) (cxl : Bool) (tx : Bool)
  /-- IDENTIFY_MEMORY_DEVICE (R595). -/
  | identifyMemoryDevice (port : Nat)
  /-- GET_SUPPORTED_LOGS (R595). -/
  | getSupportedLogs (port : Nat)
  /-- GET_LOG (R595). -/
  | getLog (port : Nat) (off : Nat) (len : Nat)
  /-- GET_EVENT_RECORDS (R595). -/
  | getEventRecords (port : Nat)
  /-- CLEAR_EVENT_RECORDS (R595). -/
  | clearEventRecords (port : Nat) (count : Nat)
  /-- GET_HEALTH_INFO (R595). -/
  | getHealthInfo (port : Nat)
  /-- GET_PARTITION_INFO (R595). -/
  | getPartitionInfo (port : Nat)
  /-- PART_CREATE (R604). -/
  | partCreate (w : Writer) (value : Bytes)
  /-- PART_REMOVE (R624). -/
  | partRemove (w : Writer) (value : Bytes)
  /-- PART_DRAIN_END (R624). -/
  | partDrainEnd (part : Nat)
  /-- PART_SCRUB_END (R624). -/
  | partScrubEnd (part : Nat)
  /-- PART_HEARTH (R608). -/
  | partHearth (w : Writer) (part : Nat) (value : Bytes)
  /-- VIOL_STICKY (R609). -/
  | violSticky (w : Writer) (value : Bytes)
  /-- DEBUG_UNLOCK (R613). -/
  | debugUnlock (w : Writer) (value : Bytes)
  /-- ARB_ADVANCE_FW (R614). -/
  | arbAdvanceFw (w : Writer) (value : Bytes)
  /-- ARB_ADVANCE_LOADER (R614). -/
  | arbAdvanceLoader (w : Writer) (value : Bytes)
  /-- THIMBLE_HEALTH_FAIL (R615). -/
  | thimbleHealthFail (selfTest : Bool)
  /-- BB_DELIVER (R634). -/
  | bbDeliver (target : Nat)
  /-- BB_COMPLETE (R638). -/
  | bbComplete (core : Nat) (mmode : Bool) (target : Nat) (value : Nat)
  /-- BB_ROUTE (R642). -/
  | bbRoute (core : Nat) (viaPage : Bool) (source : Nat) (value : Nat)
  /-- BB_CAUSE_SET (R632). -/
  | bbCauseSet (core : Nat) (value : Nat)
  /-- BB_P_SOFT_SET (R632). -/
  | bbPSoftSet (core : Nat) (part : Nat) (value : Nat)
  /-- BB_WAKE_TIMEOUT (R645). -/
  | bbWakeTimeout (target : Nat)
  /-- DET_STEP (R657). -/
  | detStep (w : Writer) (value : Bytes)
  /-- RUN_RESET (R660). -/
  | runReset (w : Writer) (value : Bytes)
  /-- SYNC_INTERVAL (R665). -/
  | syncInterval
  /-- SYNC_SAMPLE (R665). -/
  | syncSample
  /-- STICKY_WRITE (R672). -/
  | stickyWrite (w : Writer) (code : Nat) (value : Bytes)
  /-- STICKY_CLEAR_ALL (R672). -/
  | stickyClearAll (w : Writer) (value : Bytes)
  /-- RECOVERY_START (R684). -/
  | recoveryStart
  /-- RECOVERY_END (R682). -/
  | recoveryEnd
  /-- WINDOW_CLOSE (R682). -/
  | windowClose (res : Nat)
  /-- TRACKER_BANK_LOSS (R686). -/
  | trackerBankLoss (bank : Nat)
  /-- RESOURCE_RELEASE (R704). -/
  | resourceRelease (w : Writer) (value : Bytes)
  /-- RESOURCE_QUERY (R704). -/
  | resourceQuery (w : Writer) (value : Bytes)
  /-- LIMP_ENTER (R689). -/
  | limpEnter (w : Writer)
  /-- LIMP_EXIT (R689). -/
  | limpExit (w : Writer)
  /-- MIRROR_BIND (R693). -/
  | mirrorBind (ep : Nat) (unit : Nat) (data : Nat)
  /-- MIRROR_BOUND (R693). -/
  | mirrorBound (ep : Nat) (unit : Nat) (data : Nat)
  /-- MIRROR_REFUSED (R693). -/
  | mirrorRefused (ep : Nat) (unit : Nat) (data : Nat)
  /-- MIRROR_UNBIND (R693). -/
  | mirrorUnbind (ep : Nat) (unit : Nat) (data : Nat)
  /-- MIRROR_BIND_TIMEOUT (R693). -/
  | mirrorBindTimeout (region : Nat)
  /-- MIRROR_WRITE (R696). -/
  | mirrorWrite (h : Head) (op : MemOp)
  /-- MIRROR_WRITE_TIMEOUT (R697). -/
  | mirrorWriteTimeout (tag : Nat)
  /-- MIRROR_REBIND_RETRY (R697). -/
  | mirrorRebindRetry (region : Nat)
  /-- REBUILD_BOLT (R698). -/
  | rebuildBolt (region : Nat)
  /-- MIRROR_TAKEOVER (R700). -/
  | mirrorTakeover (w : Writer) (value : Bytes)
  /-- AGE_SWEEP (R189). -/
  | ageSweep (bolt : Nat)
  /-- EVICT (R190). -/
  | evict (tier : Nat)
  /-- PROMOTE (R193). -/
  | promote (bolt : Nat)
  /-- DEMOTE_POLICY (R194). -/
  | demotePolicy (bolt : Nat)
  /-- DEMOTE_QUOTA (R185). -/
  | demoteQuota (part : Nat) (tier : Nat)
  /-- DEMAND_MOVE_UP (R204). -/
  | demandMoveUp (bolt : Nat)
  /-- MOVE_CUTOVER (R171). -/
  | moveCutover (bolt : Nat) (badUnits : Nat) (retries : List (Nat × Int))
  /-- MOVE_SOURCE_FREE (R171). -/
  | moveSourceFree (tier : Nat) (slot : Nat)
  /-- LEARN_END (R200). -/
  | learnEnd
  /-- ALLOC_SLOT_FREED (R192). -/
  | allocSlotFreed
  /-- PLACE_HINT (R199). -/
  | placeHint (w : Writer) (value : Bytes)
  /-- PLACE_RESET (R200). -/
  | placeReset (w : Writer) (value : Bytes)
  /-- PLACE_FREEZE (R197). -/
  | placeFreeze (w : Writer) (value : Bytes)
  /-- EVACUATE (R217). -/
  | evacuate (w : Writer) (value : Bytes)
  /-- BOLT_QUERY (R219). -/
  | boltQuery (w : Writer) (value : Bytes)
  /-- PATROL_SCRUB (R214). -/
  | patrolScrub (bolt : Nat) (found : ScrubFind)
  /-- TIER_THERMAL (R201). -/
  | tierThermal (larder : Bool) (unit : Nat) (tempC : Int)
  /-- STR_START (R208). -/
  | strStart (w : Writer) (window : Nat)
  /-- STR_STOP (R208). -/
  | strStop (w : Writer) (window : Nat)
  /-- STR_STOP_END (R208). -/
  | strStopEnd (window : Nat)
  /-- STR_ADVANCE (R210). -/
  | strAdvance (window : Nat)
  /-- STR_LAYER_FETCHED (R211). -/
  | strLayerFetched (window : Nat)
  /-- DOM_TARGET (R711). -/
  | domTarget (w : Writer) (dom : Nat) (value : Bytes)
  /-- DOM_TRANSITION_END (R711). -/
  | domTransitionEnd (dom : Nat)
  /-- DOM_IDLE_CG (R712). -/
  | domIdleCg (dom : Nat)
  /-- DOM_IDLE_RET (R712). -/
  | domIdleRet (dom : Nat) (tempC : Int)
  /-- DOM_WAKE (R712). -/
  | domWake (dom : Nat)
  /-- PAD_RELEASE (R716). -/
  | padRelease (w : Writer) (value : Bytes)
  /-- CW_PAD_RELEASE (R716). -/
  | cwPadRelease (h : Head) (dom : Nat)
  /-- CW_PAD_RELEASE_ALL (R717). -/
  | cwPadReleaseAll (h : Head)
  /-- POWER_BROWNOUT (R719). -/
  | powerBrownout (dom : Nat)
  /-- POWER_MARGIN (R720). -/
  | powerMargin (dom : Nat)
  /-- MARGIN_STEP (R720). -/
  | marginStep (dom : Nat)
  /-- AVS_PERIOD (R721). -/
  | avsPeriod (margins : List (Nat × Nat)) (low : List Nat)
  /-- DIVISOR_STEP (R707). -/
  | divisorStep (clockC : Bool)
  /-- PL2_EVAL (R723). -/
  | pl2Eval (meanMw : Nat)
  /-- PL2_SUSTAINED (R723). -/
  | pl2Sustained
  /-- PL1_EVAL (R723). -/
  | pl1Eval (tauMw : Nat) (last10Mw : Nat)
  /-- THROTTLE_STEP (R724). -/
  | throttleStep (dom : Nat) (tempC : Int)
  /-- THERMAL_TRIP (R725). -/
  | thermalTrip (dom : Nat) (tempC : Int)
  /-- HARD_TRIP (R725). -/
  | hardTrip (dom : Nat) (tempC : Int)
  /-- DRAM_EYE_PASS (R726). -/
  | dramEyePass (channel : Nat) (tempC : Int) (steps : List (Nat × Int × Int))
  /-- DEV_TARGET (R729). -/
  | devTarget (w : Writer) (value : Bytes)
  /-- N1_IDLE (R729). -/
  | n1Idle
  /-- WAKE_EVENT (R729). -/
  | wakeEvent (wakeL : Bool)
  /-- N3_ENTRY (R732). -/
  | n3Entry
  /-- N3_WAKE (R732). -/
  | n3Wake (landingBad : List Nat) (otherBad : Bool)
  /-- RESET_CMD (R733). -/
  | resetCmd (w : Writer) (value : Bytes)
  /-- PERST (R733). -/
  | perst (hottestC : Int)
  /-- WATCHDOG_RESET (R733). -/
  | watchdogReset
  /-- REFCLK_LOSS (R706). -/
  | refclkLoss
  /-- REFCLK_RETURN (R706). -/
  | refclkReturn
  /-- VSTBY_APPLY (R741). -/
  | vstbyApply
  /-- BOOT_ROM (R736). -/
  | bootRom
  /-- LOADER_BOOT (R737). -/
  | loaderBoot
  /-- BRINGUP_STAGE (R740). -/
  | bringupStage (found : MemoryFound)
  /-- FW_UPDATE_BEGIN (R739). -/
  | fwUpdateBegin (w : Writer)
  /-- FW_UPDATE_CHUNK (R739). -/
  | fwUpdateChunk (w : Writer) (value : Bytes)
  /-- FW_UPDATE_COMMIT (R739). -/
  | fwUpdateCommit (w : Writer)
  /-- FW_UPDATE_ACTIVATE (R739). -/
  | fwUpdateActivate (w : Writer)
  /-- FW_UPDATE_ABORT (R739). -/
  | fwUpdateAbort (w : Writer)
  /-- FW_CONFIRM (R737). -/
  | fwConfirm (w : Writer) (value : Bytes)
  /-- SLED_PRSNT (R742). -/
  | sledPrsnt
  /-- MAIN_PWRGD_FALL (R752). -/
  | mainPwrgdFall
  /-- VIN_CORE_LOW (R752). -/
  | vinCoreLow
  /-- MAIN_PWRGD_RISE (R752). -/
  | mainPwrgdRise
  /-- HEARTH_LOAD_STORE (R679). -/
  | hearthLoadStore (core : Nat) (h : Head) (a : CoreAccess)
  /-- FLIT_BOUNDARY (R578). -/
  | flitBoundary (port : Nat)
  /-- EYE_HEIGHT_LOW (R561). -/
  | eyeHeightLow (port : Nat) (lane : Nat) (mv : Nat) (post : Bool) (up : Bool)
  /-- COMPAT_LINK_STATE (R555). -/
  | compatLinkState (port : Nat) (ltssm : Nat) (up : Bool) (gen : Nat) (width : Nat) (cxl : Bool)
  /-- PCIE_CONFIG_REQUEST (R600). -/
  | pcieConfigRequest (port : Nat) (write : Bool) (space : Nat) (off : Nat) (value : Nat)
  /-- PCIE_COMPLETION (R147). -/
  | pcieCompletion (port : Nat) (tag : Nat) (cpl : Nat) (poison : Bool) (data : Bytes)
  /-- QUEUE_CFG_WRITE (R376). -/
  | queueCfgWrite (h : Head) (q : QueueId) (v : Nat)
  /-- I3C_ENTDAA (R76). -/
  | i3cEntdaa (byId : Bool) (named : Nat) (addr : Nat)
  /-- ENGINE_FAULT (R676). -/
  | engineFault (kind : Nat) (unit : Nat) (d : Option DescRef)
  /-- SLOT_SCRUBBED (R624). -/
  | slotScrubbed (tier : Nat) (slot : Nat)
  /-- THROTTLE_STEP_UP (R724). -/
  | throttleStepUp (hottestC : Int)
  /-- THERMAL_TRIP_CLEAR (R725). -/
  | thermalTripClear (hottestC : Int)
  /-- RET_OVER_TEMPERATURE (R713). -/
  | retOverTemperature (dom : Nat) (tempC : Int)
  /-- PERST_RELEASE (R740). -/
  | perstRelease
  /-- SLED_PRSNT_ASSERTED (R744). -/
  | sledPrsntAsserted
  /-- VSTBY_LOSS (R729). -/
  | vstbyLoss
  deriving DecidableEq, Repr

end Sys2Proof
end

