-- ==== Sys2Proof/Machine/Bits.lean ====
section
/-! DEFINITION. Bit fields of numbers, little-endian bytes, two's complement, slices of byte strings. -/
namespace Sys2Proof.Machine

/-- Bits [lo + width - 1 : lo] of `v`. -/
def fld (v lo width : Nat) : Nat := v / 2 ^ lo % 2 ^ width

/-- Bit `i` of `v`. -/
def bit (v i : Nat) : Bool := v / 2 ^ i % 2 == 1

/-- `v` with bit `i` set. -/
def setBit (v i : Nat) : Nat := if bit v i then v else v + 2 ^ i

/-- `v` with bit `i` clear. -/
def clrBit (v i : Nat) : Nat := if bit v i then v - 2 ^ i else v

/-- `v` with bit `i` as `b` says. -/
def putBit (v i : Nat) (b : Bool) : Nat := if b then setBit v i else clrBit v i

/-- A Bool as a bit. -/
def b2n (b : Bool) : Nat := if b then 1 else 0

/-- Bits set in the low `w` bits of `v`. -/
def popCount (v w : Nat) : Nat := ((List.range w).filter (fun i => bit v i)).length

/-- The positions of the bits set in the low `w` bits of `v`, rising. -/
def bitsOf (v w : Nat) : List Nat := (List.range w).filter (fun i => bit v i)

/-- `v` with the field [lo + width - 1 : lo] replaced by `x`. -/
def setFld (v lo width x : Nat) : Nat :=
  v - fld v lo width * 2 ^ lo + (x % 2 ^ width) * 2 ^ lo

/-- The two's complement reading of the low `w` bits of `v`. -/
def toSigned (w v : Nat) : Int :=
  let u := v % 2 ^ w
  if u < 2 ^ (w - 1) then (u : Int) else (u : Int) - (2 ^ w : Nat)

/-- The low `w` bits of the two's complement of `i`. -/
def ofSigned (w : Nat) (i : Int) : Nat := (i % ((2 ^ w : Nat) : Int)).toNat

/-- Little-endian value of bytes (R12). -/
def leNat : Bytes → Nat
  | [] => 0
  | b :: t => b.toNat + 256 * leNat t

/-- Big-endian value of bytes. -/
def beNat (b : Bytes) : Nat := leNat b.reverse

/-- `n` little-endian bytes of `v` (R12). -/
def toLe : Nat → Nat → Bytes
  | 0, _ => []
  | n + 1, v => BitVec.ofNat 8 v :: toLe n (v / 256)

/-- `n` zero bytes. -/
def zeros (n : Nat) : Bytes := List.replicate n 0

/-- `n` bytes of all ones (the data of a DEAD read, Table 0.3). -/
def ones (n : Nat) : Bytes := List.replicate n 0xFF

/-- Bytes [off, off + n) of `b`; bytes beyond the end read as zero. -/
def slice (b : Bytes) (off n : Nat) : Bytes :=
  let t := (b.drop off).take n
  t ++ zeros (n - t.length)

/-- The little-endian field of `n` bytes at `off`. -/
def bfld (b : Bytes) (off n : Nat) : Nat := leNat (slice b off n)

/-- `b` with `x` laid over it from `off`; the length stays. -/
def patch (b : Bytes) (off : Nat) (x : Bytes) : Bytes :=
  (b.take off ++ x.take (b.length - off) ++ b.drop (off + x.length)).take b.length

/-- `b` with the little-endian field of `n` bytes at `off` set to `v`. -/
def bset (b : Bytes) (off n v : Nat) : Bytes := patch b off (toLe n v)

/-- Cut `b` into pieces of `n` bytes (fuel bounds the number of pieces). -/
def chunks (n : Nat) : Nat → Bytes → List Bytes
  | 0, _ => []
  | _, [] => []
  | f + 1, b => b.take n :: chunks n f (b.drop n)

/-- The bytes of an ASCII string. -/
def ascii (t : String) : Bytes := t.toList.map (fun c => BitVec.ofNat 8 c.toNat)

/-- Round `n` down to a multiple of `k`. -/
def alignDown (n k : Nat) : Nat := n / k * k

/-- `n ÷ k`, rounded up. -/
def divUp (n k : Nat) : Nat := (n + k - 1) / k

/-- Do the ranges [a, a + n) and [b, b + m) meet? -/
def overlaps (a n b m : Nat) : Bool := decide (a < b + m) && decide (b < a + n)

/-- Serial-number comparison on 16 bits (R154): is `x` equal to or newer than `y`? -/
def epochReached (x y : Nat) : Bool := decide ((x + 65536 - y) % 65536 < 32768)

/-- Add to a counter of `w` bits that wraps. -/
def addW (w a b : Nat) : Nat := (a + b) % 2 ^ w

end Sys2Proof.Machine
end

