-- ==== Sys2Proof/Machine/Dict.lean ====
section
/-!
DEFINITION. The object dictionary (ch. 2): one row per object or array of the spec's object tables, with its type (Table 2.1), access (R90's ACCESS encoding), default, range, change class, and whether it is a status object or a command object (R50, R72). Views of other state are read in Machine/PbRead.lean.
-/
namespace Sys2Proof.Machine

/-- Types of Table 2.1. A BLOB has a fixed or a variable length (R762). -/
inductive OTy where
  | bool | u8 | u16 | u32 | u64 | i8 | i16 | i32 | i64 | f32 | enum
  | bits (bytes : Nat)
  | str (max : Nat)
  | blobFix (len : Nat)
  | blobVar (max : Nat)
  deriving DecidableEq, Repr

/-- Ranges of the object tables' Range column. -/
inductive ORange where
  | any
  | span (lo hi : Int)
  | codes (l : List Nat)
  | clear
  | mask (m : Nat)
  | within (m : Nat)
  | multiple (k : Nat)
  | ipv4 | i3cAddr | tdp | partMask | stream
  deriving DecidableEq, Repr

/-- The block whose run state a STOPPED-class write needs (Table 2.4). -/
inductive OBlk where
  | portBlock | port | table | index | window | barrier | det
  deriving DecidableEq, Repr

/-- Change classes (Table 2.4); `ro` where no role can write. -/
inductive OClass where
  | ro | live | drain | boot
  | stopped (b : OBlk)
  deriving DecidableEq, Repr

/-- A row of the dictionary: indices i0 to i1, sub-indices s0 to s1 of each. -/
structure ORow where
  i0 : Nat
  i1 : Nat
  s0 : Nat
  s1 : Nat
  ty : OTy
  acc : Nat
  dflt : Val
  rng : ORange
  cls : OClass
  status : Bool
  cmd : Bool
  perPart : Bool
  deriving DecidableEq, Repr

/-- A BLOB of zeros with REGION 0xFFFF in its first two bytes (Tables 4.6, 8.1, 10.1). -/
def regionNone (n : Nat) : Bytes := 0xFF :: 0xFF :: zeros (n - 2)

/-- Objects of the range 0x1000. -/
def dictPage10 : List ORow :=
  [
    -- DEVICE_NAME (02, R98)
    { i0 := 0x1000, i1 := 0x1000, s0 := 0, s1 := 0, ty := .str 16, acc := 21, dflt := .bytes (ascii "QN-840"), rng := .any, cls := .ro, status := true, cmd := false, perPart := false },
    -- VENDOR_ID (02, R98)
    { i0 := 0x1001, i1 := 0x1001, s0 := 1, s1 := 1, ty := .u16, acc := 21, dflt := .num 22981, rng := .any, cls := .ro, status := true, cmd := false, perPart := false },
    -- DEVICE_ID (02, R98)
    { i0 := 0x1001, i1 := 0x1001, s0 := 2, s1 := 2, ty := .u16, acc := 21, dflt := .num 2112, rng := .any, cls := .ro, status := true, cmd := false, perPart := false },
    -- STEPPING (02, R98)
    { i0 := 0x1001, i1 := 0x1001, s0 := 3, s1 := 3, ty := .u8, acc := 21, dflt := .num 177, rng := .any, cls := .ro, status := true, cmd := false, perPart := false },
    -- GRADE (02, R98)
    { i0 := 0x1001, i1 := 0x1001, s0 := 4, s1 := 4, ty := .enum, acc := 21, dflt := .num 0, rng := .codes [1, 2], cls := .ro, status := true, cmd := false, perPart := false },
    -- ORDERING_CODE (02, R98)
    { i0 := 0x1001, i1 := 0x1001, s0 := 5, s1 := 5, ty := .str 16, acc := 21, dflt := .bytes [], rng := .any, cls := .ro, status := true, cmd := false, perPart := false },
    -- SERIAL (02, R98)
    { i0 := 0x1001, i1 := 0x1001, s0 := 6, s1 := 6, ty := .str 16, acc := 21, dflt := .bytes [], rng := .any, cls := .ro, status := true, cmd := false, perPart := false },
    -- TREADLE_ENABLED (02, R98)
    { i0 := 0x1002, i1 := 0x1002, s0 := 1, s1 := 1, ty := .bits 1, acc := 21, dflt := .num 0, rng := .any, cls := .ro, status := true, cmd := false, perPart := false },
    -- HEARTH_ENABLED (02, R98)
    { i0 := 0x1002, i1 := 0x1002, s0 := 2, s1 := 2, ty := .bits 2, acc := 21, dflt := .num 0, rng := .any, cls := .ro, status := true, cmd := false, perPart := false },
    -- TAPE_ENABLED (02, R98)
    { i0 := 0x1002, i1 := 0x1002, s0 := 3, s1 := 3, ty := .bits 4, acc := 21, dflt := .num 0, rng := .any, cls := .ro, status := true, cmd := false, perPart := false },
    -- FW_VERSION (02, R98)
    { i0 := 0x1003, i1 := 0x1003, s0 := 1, s1 := 1, ty := .str 32, acc := 21, dflt := .bytes [], rng := .any, cls := .ro, status := true, cmd := false, perPart := false },
    -- FW_LINE (02, R98)
    { i0 := 0x1003, i1 := 0x1003, s0 := 2, s1 := 2, ty := .u8, acc := 21, dflt := .num 3, rng := .any, cls := .ro, status := true, cmd := false, perPart := false },
    -- FW_SECURITY_VERSION (02, R98)
    { i0 := 0x1003, i1 := 0x1003, s0 := 3, s1 := 3, ty := .u32, acc := 21, dflt := .num 0, rng := .any, cls := .ro, status := true, cmd := false, perPart := false },
    -- FW_ACTIVE_IMAGE (02, R98)
    { i0 := 0x1003, i1 := 0x1003, s0 := 4, s1 := 4, ty := .enum, acc := 21, dflt := .num 0, rng := .codes [1, 2], cls := .ro, status := true, cmd := false, perPart := false },
    -- FW_OTHER_VERSION (02, R98)
    { i0 := 0x1003, i1 := 0x1003, s0 := 5, s1 := 5, ty := .str 32, acc := 21, dflt := .bytes [], rng := .any, cls := .ro, status := true, cmd := false, perPart := false },
    -- PBP_VERSION (02, R98)
    { i0 := 0x1003, i1 := 0x1003, s0 := 6, s1 := 6, ty := .u8, acc := 21, dflt := .num 1, rng := .any, cls := .ro, status := true, cmd := false, perPart := false },
    -- DICTIONARY_REVISION (02, R98)
    { i0 := 0x1003, i1 := 0x1003, s0 := 7, s1 := 7, ty := .u32, acc := 21, dflt := .num 0, rng := .any, cls := .ro, status := true, cmd := false, perPart := false },
    -- BOOT_COUNT (02, R98)
    { i0 := 0x1003, i1 := 0x1003, s0 := 8, s1 := 8, ty := .u32, acc := 21, dflt := .num 0, rng := .any, cls := .ro, status := true, cmd := false, perPart := false },
    -- RESET_CAUSE (02, R98)
    { i0 := 0x1003, i1 := 0x1003, s0 := 9, s1 := 9, ty := .enum, acc := 21, dflt := .num 0, rng := .codes [1, 2, 3, 4, 5], cls := .ro, status := true, cmd := false, perPart := false },
    -- DEVICE_CERT (02, R98)
    { i0 := 0x1004, i1 := 0x1004, s0 := 0, s1 := 0, ty := .blobFix 2048, acc := 21, dflt := .bytes (zeros 2048), rng := .any, cls := .ro, status := true, cmd := false, perPart := false },
    -- UPTIME_MS (02, R98)
    { i0 := 0x1006, i1 := 0x1006, s0 := 0, s1 := 0, ty := .u64, acc := 21, dflt := .num 0, rng := .any, cls := .ro, status := true, cmd := false, perPart := false },
    -- PENDING_BOOT (02, R98)
    { i0 := 0x1007, i1 := 0x1007, s0 := 0, s1 := 0, ty := .u16, acc := 21, dflt := .num 0, rng := .any, cls := .ro, status := true, cmd := false, perPart := false },
    -- CFG_STORE_SEQ (02, R98)
    { i0 := 0x1008, i1 := 0x1008, s0 := 1, s1 := 1, ty := .u32, acc := 21, dflt := .num 0, rng := .any, cls := .ro, status := true, cmd := false, perPart := false },
    -- CFG_BANK (02, R98)
    { i0 := 0x1008, i1 := 0x1008, s0 := 2, s1 := 2, ty := .enum, acc := 21, dflt := .num 0, rng := .codes [0, 1, 2], cls := .ro, status := true, cmd := false, perPart := false },
    -- CFG_DIGEST_OK (02, R98)
    { i0 := 0x1008, i1 := 0x1008, s0 := 3, s1 := 3, ty := .bool, acc := 21, dflt := .num 0, rng := .span 0 1, cls := .ro, status := true, cmd := false, perPart := false },
    -- CFG_ENTRIES (02, R98)
    { i0 := 0x1008, i1 := 0x1008, s0 := 4, s1 := 4, ty := .u16, acc := 21, dflt := .num 0, rng := .any, cls := .ro, status := true, cmd := false, perPart := false },
    -- CFG_REJECTED (02, R98)
    { i0 := 0x1008, i1 := 0x1008, s0 := 5, s1 := 5, ty := .u16, acc := 21, dflt := .num 0, rng := .any, cls := .ro, status := true, cmd := false, perPart := false }
  ]

/-- Objects of the range 0x1100. -/
def dictPage11 : List ORow :=
  [
    -- ETH_ENABLE (02, R99)
    { i0 := 0x1100, i1 := 0x1100, s0 := 1, s1 := 1, ty := .bool, acc := 53, dflt := .num 1, rng := .span 0 1, cls := .boot, status := false, cmd := false, perPart := false },
    -- ETH_IPV4_MODE (02, R99)
    { i0 := 0x1100, i1 := 0x1100, s0 := 2, s1 := 2, ty := .enum, acc := 53, dflt := .num 0, rng := .codes [0, 1], cls := .boot, status := false, cmd := false, perPart := false },
    -- ETH_IPV4_ADDR (02, R99)
    { i0 := 0x1100, i1 := 0x1100, s0 := 3, s1 := 3, ty := .u32, acc := 61, dflt := .num 0, rng := .ipv4, cls := .boot, status := false, cmd := false, perPart := false },
    -- ETH_IPV4_PREFIX (02, R99)
    { i0 := 0x1100, i1 := 0x1100, s0 := 4, s1 := 4, ty := .u8, acc := 61, dflt := .num 24, rng := .span 8 30, cls := .boot, status := false, cmd := false, perPart := false },
    -- ETH_IPV4_GATEWAY (02, R99)
    { i0 := 0x1100, i1 := 0x1100, s0 := 5, s1 := 5, ty := .u32, acc := 61, dflt := .num 0, rng := .any, cls := .boot, status := false, cmd := false, perPart := false },
    -- ETH_IPV6_LL (02, R99)
    { i0 := 0x1100, i1 := 0x1100, s0 := 6, s1 := 6, ty := .bool, acc := 53, dflt := .num 1, rng := .span 0 1, cls := .boot, status := false, cmd := false, perPart := false },
    -- ETH_UDP_PORT (02, R99)
    { i0 := 0x1100, i1 := 0x1100, s0 := 7, s1 := 7, ty := .u16, acc := 53, dflt := .num 47210, rng := .span 1024 65535, cls := .boot, status := false, cmd := false, perPart := false },
    -- ETH_PHY_MODE (02, R99)
    { i0 := 0x1100, i1 := 0x1100, s0 := 8, s1 := 8, ty := .enum, acc := 61, dflt := .num 0, rng := .codes [0, 1, 2], cls := .boot, status := false, cmd := false, perPart := false },
    -- I3C_ENABLE (02, R99)
    { i0 := 0x1101, i1 := 0x1101, s0 := 1, s1 := 1, ty := .bool, acc := 53, dflt := .num 1, rng := .span 0 1, cls := .boot, status := false, cmd := false, perPart := false },
    -- I3C_STATIC_ADDR (02, R99)
    { i0 := 0x1101, i1 := 0x1101, s0 := 2, s1 := 2, ty := .u8, acc := 61, dflt := .num 58, rng := .i3cAddr, cls := .boot, status := false, cmd := false, perPart := false },
    -- SESSION_IDLE (02, R99)
    { i0 := 0x1102, i1 := 0x1102, s0 := 1, s1 := 1, ty := .u32, acc := 61, dflt := .num 60, rng := .span 5 3600, cls := .live, status := false, cmd := false, perPart := false },
    -- SESSION_ANON_OBSERVER (02, R99)
    { i0 := 0x1102, i1 := 0x1102, s0 := 2, s1 := 2, ty := .bool, acc := 53, dflt := .num 0, rng := .span 0 1, cls := .live, status := false, cmd := false, perPart := false },
    -- SESSION_MAX_ETH (02, R99)
    { i0 := 0x1102, i1 := 0x1102, s0 := 3, s1 := 3, ty := .u8, acc := 53, dflt := .num 16, rng := .span 1 16, cls := .live, status := false, cmd := false, perPart := false },
    -- SESSIONS (02, R99)
    { i0 := 0x1103, i1 := 0x1103, s0 := 1, s1 := 18, ty := .bits 8, acc := 20, dflt := .num 0, rng := .any, cls := .ro, status := true, cmd := false, perPart := false },
    -- SESSION_CLOSE (02, R99)
    { i0 := 0x1104, i1 := 0x1104, s0 := 0, s1 := 0, ty := .u32, acc := 48, dflt := .num 0, rng := .any, cls := .live, status := false, cmd := true, perPart := false },
    -- ROLE_KEYS (02, R99)
    { i0 := 0x1110, i1 := 0x1110, s0 := 1, s1 := 16, ty := .blobFix 98, acc := 53, dflt := .bytes [], rng := .any, cls := .live, status := false, cmd := false, perPart := false },
    -- PBP_BAD_TAG (02, R99)
    { i0 := 0x1111, i1 := 0x1111, s0 := 1, s1 := 1, ty := .u32, acc := 61, dflt := .num 0, rng := .clear, cls := .live, status := true, cmd := false, perPart := false },
    -- PBP_REPLAYED (02, R99)
    { i0 := 0x1111, i1 := 0x1111, s0 := 2, s1 := 2, ty := .u32, acc := 61, dflt := .num 0, rng := .clear, cls := .live, status := true, cmd := false, perPart := false },
    -- PBP_MALFORMED (02, R99)
    { i0 := 0x1111, i1 := 0x1111, s0 := 3, s1 := 3, ty := .u32, acc := 61, dflt := .num 0, rng := .clear, cls := .live, status := true, cmd := false, perPart := false },
    -- PBP_BUSY_SENT (02, R99)
    { i0 := 0x1111, i1 := 0x1111, s0 := 4, s1 := 4, ty := .u32, acc := 61, dflt := .num 0, rng := .clear, cls := .live, status := true, cmd := false, perPart := false },
    -- EVENT_RETRY_MS (02, R99)
    { i0 := 0x1112, i1 := 0x1112, s0 := 1, s1 := 1, ty := .u16, acc := 61, dflt := .num 200, rng := .span 50 5000, cls := .live, status := false, cmd := false, perPart := false },
    -- EVENT_RETRIES (02, R99)
    { i0 := 0x1112, i1 := 0x1112, s0 := 2, s1 := 2, ty := .u8, acc := 61, dflt := .num 5, rng := .span 1 20, cls := .live, status := false, cmd := false, perPart := false }
  ]

/-- Objects of the range 0x1200. -/
def dictPage12 : List ORow :=
  [
    -- HEM_READ_OK (02, R101)
    { i0 := 0x1200, i1 := 0x1200, s0 := 1, s1 := 1, ty := .bool, acc := 21, dflt := .num 0, rng := .span 0 1, cls := .ro, status := true, cmd := false, perPart := false },
    -- HEM_FACTORY_OFF (02, R101)
    { i0 := 0x1200, i1 := 0x1200, s0 := 2, s1 := 2, ty := .bool, acc := 21, dflt := .num 0, rng := .span 0 1, cls := .ro, status := true, cmd := false, perPart := false },
    -- HEM_DEBUG_LOCK (02, R101)
    { i0 := 0x1200, i1 := 0x1200, s0 := 3, s1 := 3, ty := .enum, acc := 21, dflt := .num 0, rng := .codes [0, 1, 2], cls := .ro, status := true, cmd := false, perPart := false },
    -- HEM_MAX_PARTITIONS (02, R101)
    { i0 := 0x1201, i1 := 0x1201, s0 := 0, s1 := 0, ty := .u8, acc := 21, dflt := .num 0, rng := .span 1 64, cls := .ro, status := true, cmd := false, perPart := false },
    -- HEM_PORT_OUTER (02, R101)
    { i0 := 0x1202, i1 := 0x1202, s0 := 0, s1 := 0, ty := .bits 4, acc := 21, dflt := .num 0, rng := .any, cls := .ro, status := true, cmd := false, perPart := false },
    -- HEM_OWNER_KEY_HASH (02, R101)
    { i0 := 0x1203, i1 := 0x1203, s0 := 0, s1 := 0, ty := .blobFix 48, acc := 21, dflt := .bytes (zeros 48), rng := .any, cls := .ro, status := true, cmd := false, perPart := false },
    -- HEM_TREADLE_DISABLED (02, R101)
    { i0 := 0x1204, i1 := 0x1204, s0 := 1, s1 := 1, ty := .bits 1, acc := 21, dflt := .num 0, rng := .any, cls := .ro, status := true, cmd := false, perPart := false },
    -- HEM_HEARTH_DISABLED (02, R101)
    { i0 := 0x1204, i1 := 0x1204, s0 := 2, s1 := 2, ty := .bits 2, acc := 21, dflt := .num 0, rng := .any, cls := .ro, status := true, cmd := false, perPart := false },
    -- HEM_TAPE_DISABLED (02, R101)
    { i0 := 0x1204, i1 := 0x1204, s0 := 3, s1 := 3, ty := .bits 4, acc := 21, dflt := .num 0, rng := .any, cls := .ro, status := true, cmd := false, perPart := false },
    -- HEM_ARB_FIRMWARE (02, R101)
    { i0 := 0x1205, i1 := 0x1205, s0 := 1, s1 := 1, ty := .u32, acc := 21, dflt := .num 0, rng := .any, cls := .ro, status := true, cmd := false, perPart := false },
    -- HEM_ARB_LOADER (02, R101)
    { i0 := 0x1205, i1 := 0x1205, s0 := 2, s1 := 2, ty := .u32, acc := 21, dflt := .num 0, rng := .any, cls := .ro, status := true, cmd := false, perPart := false },
    -- HEM_MAC_BASE (02, R101)
    { i0 := 0x1206, i1 := 0x1206, s0 := 0, s1 := 0, ty := .u64, acc := 21, dflt := .num 0, rng := .any, cls := .ro, status := true, cmd := false, perPart := false }
  ]

/-- Objects of the range 0x2000. -/
def dictPage20 : List ORow :=
  [
    -- DEV_STATE (18, R743)
    { i0 := 0x2000, i1 := 0x2000, s0 := 1, s1 := 1, ty := .enum, acc := 21, dflt := .num 0, rng := .any, cls := .ro, status := true, cmd := false, perPart := false },
    -- DEV_TARGET (18, R743)
    { i0 := 0x2000, i1 := 0x2000, s0 := 2, s1 := 2, ty := .enum, acc := 61, dflt := .num 0, rng := .codes [0, 1, 2, 3], cls := .live, status := false, cmd := false, perPart := false },
    -- N1_IDLE_US (18, R743)
    { i0 := 0x2000, i1 := 0x2000, s0 := 3, s1 := 3, ty := .u32, acc := 61, dflt := .num 100, rng := .span 10 1000000, cls := .live, status := false, cmd := false, perPart := false },
    -- BRINGUP_STAGE (18, R743)
    { i0 := 0x2000, i1 := 0x2000, s0 := 4, s1 := 4, ty := .enum, acc := 21, dflt := .num 0, rng := .any, cls := .ro, status := true, cmd := false, perPart := false },
    -- RESET_CMD (18, R743)
    { i0 := 0x2000, i1 := 0x2000, s0 := 5, s1 := 5, ty := .u8, acc := 48, dflt := .num 0, rng := .codes [1], cls := .live, status := false, cmd := true, perPart := false },
    -- STATE_CHANGES (18, R743)
    { i0 := 0x2000, i1 := 0x2000, s0 := 6, s1 := 6, ty := .u64, acc := 61, dflt := .num 0, rng := .clear, cls := .live, status := true, cmd := false, perPart := false },
    -- CLK_T_DIV (18, R743)
    { i0 := 0x2001, i1 := 0x2001, s0 := 1, s1 := 1, ty := .u8, acc := 21, dflt := .num 8, rng := .span 5 8, cls := .ro, status := true, cmd := false, perPart := false },
    -- CLK_C_DIV (18, R743)
    { i0 := 0x2001, i1 := 0x2001, s0 := 2, s1 := 2, ty := .u8, acc := 21, dflt := .num 6, rng := .span 4 6, cls := .ro, status := true, cmd := false, perPart := false },
    -- DIV_T_MIN (18, R743)
    { i0 := 0x2001, i1 := 0x2001, s0 := 3, s1 := 3, ty := .u8, acc := 61, dflt := .num 5, rng := .span 5 8, cls := .live, status := false, cmd := false, perPart := false },
    -- DIV_C_MIN (18, R743)
    { i0 := 0x2001, i1 := 0x2001, s0 := 4, s1 := 4, ty := .u8, acc := 61, dflt := .num 4, rng := .span 4 6, cls := .live, status := false, cmd := false, perPart := false },
    -- FREQ_FREEZE (18, R743)
    { i0 := 0x2001, i1 := 0x2001, s0 := 5, s1 := 5, ty := .bool, acc := 61, dflt := .num 0, rng := .span 0 1, cls := .live, status := false, cmd := false, perPart := false },
    -- DIV_CAUSE (18, R743)
    { i0 := 0x2001, i1 := 0x2001, s0 := 6, s1 := 6, ty := .bits 1, acc := 21, dflt := .num 32, rng := .any, cls := .ro, status := true, cmd := false, perPart := false },
    -- DIV_STEPS (18, R743)
    { i0 := 0x2001, i1 := 0x2001, s0 := 7, s1 := 7, ty := .u64, acc := 61, dflt := .num 0, rng := .clear, cls := .live, status := true, cmd := false, perPart := false },
    -- PKG_POWER_MW (18, R743)
    { i0 := 0x2002, i1 := 0x2002, s0 := 1, s1 := 1, ty := .u32, acc := 21, dflt := .num 0, rng := .any, cls := .ro, status := true, cmd := false, perPart := false },
    -- PL1_W (18, R743)
    { i0 := 0x2002, i1 := 0x2002, s0 := 2, s1 := 2, ty := .u16, acc := 53, dflt := .num 420, rng := .tdp, cls := .live, status := false, cmd := false, perPart := false },
    -- PL1_TAU_MS (18, R743)
    { i0 := 0x2002, i1 := 0x2002, s0 := 3, s1 := 3, ty := .u32, acc := 53, dflt := .num 1000, rng := .span 100 10000, cls := .live, status := false, cmd := false, perPart := false },
    -- PL1_EVENTS (18, R743)
    { i0 := 0x2002, i1 := 0x2002, s0 := 4, s1 := 4, ty := .u64, acc := 61, dflt := .num 0, rng := .clear, cls := .live, status := true, cmd := false, perPart := false },
    -- PL2_EVENTS (18, R743)
    { i0 := 0x2002, i1 := 0x2002, s0 := 5, s1 := 5, ty := .u64, acc := 61, dflt := .num 0, rng := .clear, cls := .live, status := true, cmd := false, perPart := false },
    -- AVS_FREEZE (18, R743)
    { i0 := 0x2003, i1 := 0x2003, s0 := 1, s1 := 1, ty := .bool, acc := 61, dflt := .num 0, rng := .span 0 1, cls := .live, status := false, cmd := false, perPart := false },
    -- AVS_PERIOD_US (18, R743)
    { i0 := 0x2003, i1 := 0x2003, s0 := 2, s1 := 2, ty := .u32, acc := 61, dflt := .num 1000, rng := .span 100 100000, cls := .live, status := false, cmd := false, perPart := false },
    -- AVS_STEPS (18, R743)
    { i0 := 0x2003, i1 := 0x2003, s0 := 3, s1 := 3, ty := .u64, acc := 61, dflt := .num 0, rng := .clear, cls := .live, status := true, cmd := false, perPart := false },
    -- TJ_MAX_C (18, R743)
    { i0 := 0x2004, i1 := 0x2004, s0 := 1, s1 := 1, ty := .i8, acc := 21, dflt := .num 0, rng := .any, cls := .ro, status := true, cmd := false, perPart := false },
    -- THROTTLE_C (18, R743)
    { i0 := 0x2004, i1 := 0x2004, s0 := 2, s1 := 2, ty := .i8, acc := 53, dflt := .num 100, rng := .span 85 104, cls := .live, status := false, cmd := false, perPart := false },
    -- RET_MAX_C (18, R743)
    { i0 := 0x2004, i1 := 0x2004, s0 := 3, s1 := 3, ty := .i8, acc := 53, dflt := .num 85, rng := .span 60 100, cls := .live, status := false, cmd := false, perPart := false },
    -- RET_IDLE_US (18, R743)
    { i0 := 0x2004, i1 := 0x2004, s0 := 4, s1 := 4, ty := .u32, acc := 61, dflt := .num 500, rng := .span 10 1000000, cls := .live, status := false, cmd := false, perPart := false },
    -- THROTTLE_EVENTS (18, R743)
    { i0 := 0x2004, i1 := 0x2004, s0 := 5, s1 := 5, ty := .u64, acc := 61, dflt := .num 0, rng := .clear, cls := .live, status := true, cmd := false, perPart := false },
    -- DRAM_EYE_FREEZE (18, R743)
    { i0 := 0x2005, i1 := 0x2005, s0 := 1, s1 := 1, ty := .bool, acc := 61, dflt := .num 0, rng := .span 0 1, cls := .live, status := false, cmd := false, perPart := false },
    -- DRAM_EYE_PERIOD_S (18, R743)
    { i0 := 0x2005, i1 := 0x2005, s0 := 2, s1 := 2, ty := .u32, acc := 61, dflt := .num 60, rng := .span 1 3600, cls := .live, status := false, cmd := false, perPart := false },
    -- FLASH_VT_FREEZE (18, R743)
    { i0 := 0x2005, i1 := 0x2005, s0 := 3, s1 := 3, ty := .bool, acc := 61, dflt := .num 0, rng := .span 0 1, cls := .live, status := false, cmd := false, perPart := false },
    -- DRAM_EYE_ADJUSTS (18, R743)
    { i0 := 0x2005, i1 := 0x2005, s0 := 4, s1 := 4, ty := .u64, acc := 61, dflt := .num 0, rng := .clear, cls := .live, status := true, cmd := false, perPart := false },
    -- FW_UPDATE_CMD (18, R743)
    { i0 := 0x2006, i1 := 0x2006, s0 := 1, s1 := 1, ty := .u8, acc := 48, dflt := .num 0, rng := .codes [1, 2, 3, 4], cls := .live, status := false, cmd := true, perPart := false },
    -- FW_UPDATE_OFFSET (18, R743)
    { i0 := 0x2006, i1 := 0x2006, s0 := 2, s1 := 2, ty := .u32, acc := 48, dflt := .num 0, rng := .any, cls := .live, status := false, cmd := false, perPart := false },
    -- FW_UPDATE_CHUNK (18, R743)
    { i0 := 0x2006, i1 := 0x2006, s0 := 3, s1 := 3, ty := .blobVar 65536, acc := 48, dflt := .bytes [], rng := .any, cls := .live, status := false, cmd := true, perPart := false },
    -- FW_UPDATE_STATE (18, R743)
    { i0 := 0x2006, i1 := 0x2006, s0 := 4, s1 := 4, ty := .enum, acc := 21, dflt := .num 0, rng := .any, cls := .ro, status := true, cmd := false, perPart := false },
    -- FW_CONFIRM (18, R743)
    { i0 := 0x2006, i1 := 0x2006, s0 := 5, s1 := 5, ty := .bool, acc := 48, dflt := .num 0, rng := .span 0 1, cls := .live, status := false, cmd := true, perPart := false },
    -- FW_TRIAL (18, R743)
    { i0 := 0x2006, i1 := 0x2006, s0 := 6, s1 := 6, ty := .enum, acc := 21, dflt := .num 0, rng := .any, cls := .ro, status := true, cmd := false, perPart := false },
    -- DOM_STATE (18, R743)
    { i0 := 0x2010, i1 := 0x2010, s0 := 1, s1 := 197, ty := .enum, acc := 21, dflt := .num 0, rng := .any, cls := .ro, status := true, cmd := false, perPart := false },
    -- DOM_TARGET (18, R743)
    { i0 := 0x2011, i1 := 0x2011, s0 := 1, s1 := 196, ty := .enum, acc := 61, dflt := .num 0, rng := .codes [0, 1, 2], cls := .live, status := false, cmd := false, perPart := false },
    -- DOM_INFO (18, R743)
    { i0 := 0x2012, i1 := 0x2012, s0 := 1, s1 := 197, ty := .blobFix 16, acc := 21, dflt := .bytes (zeros 16), rng := .any, cls := .ro, status := true, cmd := false, perPart := false },
    -- PAD_HELD (18, R743)
    { i0 := 0x2013, i1 := 0x2013, s0 := 0, s1 := 0, ty := .blobFix 25, acc := 21, dflt := .bytes (zeros 25), rng := .any, cls := .ro, status := true, cmd := false, perPart := false },
    -- PAD_RELEASE (18, R743)
    { i0 := 0x2014, i1 := 0x2014, s0 := 0, s1 := 0, ty := .blobFix 25, acc := 60, dflt := .bytes [], rng := .any, cls := .live, status := false, cmd := true, perPart := false },
    -- PRESENCE (18, R743)
    { i0 := 0x2020, i1 := 0x2020, s0 := 1, s1 := 1, ty := .bool, acc := 21, dflt := .num 0, rng := .span 0 1, cls := .ro, status := true, cmd := false, perPart := false },
    -- MAIN_PWRGD (18, R743)
    { i0 := 0x2020, i1 := 0x2020, s0 := 2, s1 := 2, ty := .bool, acc := 21, dflt := .num 0, rng := .span 0 1, cls := .ro, status := true, cmd := false, perPart := false }
  ]

/-- Objects of the range 0x2100. -/
def dictPage21 : List ORow :=
  [
    -- PORTS_RUN (13, R601)
    { i0 := 0x2100, i1 := 0x2100, s0 := 1, s1 := 1, ty := .enum, acc := 21, dflt := .num 1, rng := .any, cls := .ro, status := true, cmd := false, perPart := false },
    -- PORTS_CMD (13, R601)
    { i0 := 0x2100, i1 := 0x2100, s0 := 2, s1 := 2, ty := .u8, acc := 60, dflt := .num 0, rng := .codes [1, 2], cls := .live, status := false, cmd := true, perPart := false },
    -- PORTS_AUTOSTART (13, R601)
    { i0 := 0x2100, i1 := 0x2100, s0 := 3, s1 := 3, ty := .bool, acc := 53, dflt := .num 0, rng := .span 0 1, cls := .boot, status := false, cmd := false, perPart := false },
    -- JOIN_EPOCH (13, R601)
    { i0 := 0x2100, i1 := 0x2100, s0 := 4, s1 := 4, ty := .u16, acc := 48, dflt := .num 0, rng := .span 0 65535, cls := .stopped .portBlock, status := false, cmd := true, perPart := false },
    -- PORTS_ACTIVE (13, R601)
    { i0 := 0x2100, i1 := 0x2100, s0 := 5, s1 := 5, ty := .bits 4, acc := 21, dflt := .num 0, rng := .any, cls := .ro, status := true, cmd := false, perPart := false },
    -- ACK_TIMEOUT_NS (13, R601)
    { i0 := 0x2100, i1 := 0x2100, s0 := 6, s1 := 6, ty := .u32, acc := 61, dflt := .num 1000, rng := .span 200 100000, cls := .live, status := false, cmd := false, perPart := false },
    -- REPLAY_LIMIT (13, R601)
    { i0 := 0x2100, i1 := 0x2100, s0 := 7, s1 := 7, ty := .u8, acc := 61, dflt := .num 4, rng := .span 1 16, cls := .live, status := false, cmd := false, perPart := false },
    -- RETRAIN_MS (13, R601)
    { i0 := 0x2100, i1 := 0x2100, s0 := 8, s1 := 8, ty := .u32, acc := 61, dflt := .num 10, rng := .span 1 1000, cls := .live, status := false, cmd := false, perPart := false },
    -- DETACH_MS (13, R601)
    { i0 := 0x2100, i1 := 0x2100, s0 := 9, s1 := 9, ty := .u32, acc := 61, dflt := .num 20, rng := .span 1 60000, cls := .live, status := false, cmd := false, perPart := false },
    -- ATTACH_POLL_MS (13, R601)
    { i0 := 0x2100, i1 := 0x2100, s0 := 10, s1 := 10, ty := .u32, acc := 61, dflt := .num 100, rng := .span 10 10000, cls := .live, status := false, cmd := false, perPart := false },
    -- PORT_MODE (13, R601)
    { i0 := 0x2101, i1 := 0x2101, s0 := 1, s1 := 32, ty := .enum, acc := 53, dflt := .num 1, rng := .codes [0, 1, 2, 3], cls := .stopped .port, status := false, cmd := false, perPart := false },
    -- PORT_REACH (13, R601)
    { i0 := 0x2102, i1 := 0x2102, s0 := 1, s1 := 32, ty := .enum, acc := 61, dflt := .num 1, rng := .codes [0, 1, 2, 3], cls := .stopped .port, status := false, cmd := false, perPart := false },
    -- PORT_TRF_MAX (13, R601)
    { i0 := 0x2103, i1 := 0x2103, s0 := 1, s1 := 32, ty := .enum, acc := 53, dflt := .num 2, rng := .codes [1, 2], cls := .stopped .port, status := false, cmd := false, perPart := false },
    -- PORT_FEATURES (13, R601)
    { i0 := 0x2104, i1 := 0x2104, s0 := 1, s1 := 32, ty := .bits 4, acc := 53, dflt := .num 63, rng := .mask 63, cls := .stopped .port, status := false, cmd := false, perPart := false },
    -- PORT_AUTO_ATTACH (13, R601)
    { i0 := 0x2105, i1 := 0x2105, s0 := 1, s1 := 32, ty := .bool, acc := 61, dflt := .num 1, rng := .span 0 1, cls := .live, status := false, cmd := false, perPart := false },
    -- PORT_CMD (13, R601)
    { i0 := 0x2106, i1 := 0x2106, s0 := 1, s1 := 32, ty := .u8, acc := 60, dflt := .num 0, rng := .codes [1, 2, 3, 4], cls := .live, status := false, cmd := true, perPart := false },
    -- PORT_STATE (13, R601)
    { i0 := 0x2107, i1 := 0x2107, s0 := 1, s1 := 32, ty := .enum, acc := 21, dflt := .num 0, rng := .any, cls := .ro, status := true, cmd := false, perPart := false },
    -- PORT_DOWN_REASON (13, R601)
    { i0 := 0x2108, i1 := 0x2108, s0 := 1, s1 := 32, ty := .enum, acc := 21, dflt := .num 0, rng := .any, cls := .ro, status := true, cmd := false, perPart := false },
    -- PORT_LINK (13, R601)
    { i0 := 0x2109, i1 := 0x2109, s0 := 1, s1 := 32, ty := .blobFix 48, acc := 21, dflt := .bytes (zeros 48), rng := .any, cls := .ro, status := true, cmd := false, perPart := false },
    -- PORT_EQ_FREEZE (13, R601)
    { i0 := 0x210a, i1 := 0x210a, s0 := 1, s1 := 32, ty := .bool, acc := 61, dflt := .num 0, rng := .span 0 1, cls := .live, status := false, cmd := false, perPart := false },
    -- PORT_EQ (13, R601)
    { i0 := 0x210b, i1 := 0x210b, s0 := 1, s1 := 32, ty := .blobFix 96, acc := 20, dflt := .bytes (zeros 96), rng := .any, cls := .ro, status := true, cmd := false, perPart := false },
    -- PORT_COUNTERS (13, R601)
    { i0 := 0x210c, i1 := 0x210c, s0 := 1, s1 := 32, ty := .blobFix 64, acc := 21, dflt := .bytes (zeros 64), rng := .any, cls := .ro, status := true, cmd := false, perPart := false },
    -- PORT_CLEAR (13, R601)
    { i0 := 0x210d, i1 := 0x210d, s0 := 1, s1 := 32, ty := .bool, acc := 60, dflt := .num 0, rng := .span 0 1, cls := .live, status := false, cmd := true, perPart := false },
    -- PORT_NOTICES (13, R601)
    { i0 := 0x210e, i1 := 0x210e, s0 := 1, s1 := 32, ty := .blobFix 384, acc := 21, dflt := .bytes (zeros 384), rng := .any, cls := .ro, status := true, cmd := false, perPart := false },
    -- COMPAT_APERTURE (13, R601)
    { i0 := 0x2110, i1 := 0x2110, s0 := 1, s1 := 32, ty := .blobFix 16, acc := 61, dflt := .bytes (zeros 16), rng := .any, cls := .stopped .port, status := false, cmd := false, perPart := false },
    -- COMPAT_STATUS (13, R601)
    { i0 := 0x2111, i1 := 0x2111, s0 := 1, s1 := 32, ty := .blobFix 32, acc := 21, dflt := .bytes (zeros 32), rng := .any, cls := .ro, status := true, cmd := false, perPart := false }
  ]

/-- Objects of the range 0x2200. -/
def dictPage22 : List ORow :=
  [
    -- ENDPOINT_ID (03, R160)
    { i0 := 0x2200, i1 := 0x2200, s0 := 1, s1 := 1, ty := .u16, acc := 53, dflt := .num 0, rng := .span 0 65535, cls := .stopped .portBlock, status := false, cmd := false, perPart := false },
    -- ENDPOINT_SET (03, R160)
    { i0 := 0x2200, i1 := 0x2200, s0 := 2, s1 := 2, ty := .bool, acc := 21, dflt := .num 0, rng := .span 0 1, cls := .ro, status := true, cmd := false, perPart := false },
    -- UNIFIED_SIZE (03, R160)
    { i0 := 0x2200, i1 := 0x2200, s0 := 3, s1 := 3, ty := .u64, acc := 21, dflt := .num 0, rng := .any, cls := .ro, status := true, cmd := false, perPart := false },
    -- LANDING_MAPPABLE (03, R160)
    { i0 := 0x2200, i1 := 0x2200, s0 := 4, s1 := 4, ty := .u64, acc := 21, dflt := .num 100663296, rng := .any, cls := .ro, status := true, cmd := false, perPart := false },
    -- REGIONS_VALID (03, R160)
    { i0 := 0x2200, i1 := 0x2200, s0 := 5, s1 := 5, ty := .u16, acc := 21, dflt := .num 0, rng := .span 0 4096, cls := .ro, status := true, cmd := false, perPart := false },
    -- REGIONS_RELEASING (03, R160)
    { i0 := 0x2200, i1 := 0x2200, s0 := 6, s1 := 6, ty := .u16, acc := 21, dflt := .num 0, rng := .span 0 4096, cls := .ro, status := true, cmd := false, perPart := false },
    -- WINDOWS_VALID (03, R160)
    { i0 := 0x2200, i1 := 0x2200, s0 := 7, s1 := 7, ty := .u16, acc := 21, dflt := .num 0, rng := .span 0 4096, cls := .ro, status := true, cmd := false, perPart := false },
    -- MAP_EPOCH (03, R160)
    { i0 := 0x2201, i1 := 0x2201, s0 := 1, s1 := 1, ty := .u16, acc := 21, dflt := .num 0, rng := .any, cls := .ro, status := true, cmd := false, perPart := false },
    -- MAP_GRACE_US (03, R160)
    { i0 := 0x2201, i1 := 0x2201, s0 := 2, s1 := 2, ty := .u32, acc := 61, dflt := .num 500, rng := .span 10 10000, cls := .live, status := false, cmd := false, perPart := false },
    -- MAP_COMMIT (03, R160)
    { i0 := 0x2201, i1 := 0x2201, s0 := 3, s1 := 3, ty := .u16, acc := 53, dflt := .num 0, rng := .any, cls := .live, status := false, cmd := true, perPart := false },
    -- MAP_RETRIES (03, R160)
    { i0 := 0x2201, i1 := 0x2201, s0 := 4, s1 := 4, ty := .u64, acc := 61, dflt := .num 0, rng := .clear, cls := .live, status := true, cmd := false, perPart := false },
    -- MAP_GRACE_HITS (03, R160)
    { i0 := 0x2201, i1 := 0x2201, s0 := 5, s1 := 5, ty := .u64, acc := 61, dflt := .num 0, rng := .clear, cls := .live, status := true, cmd := false, perPart := false },
    -- ROUTE_STAGE (03, R160)
    { i0 := 0x2202, i1 := 0x2202, s0 := 1, s1 := 1, ty := .blobVar 1024, acc := 48, dflt := .bytes [], rng := .any, cls := .live, status := false, cmd := true, perPart := false },
    -- ROUTE_DIGEST (03, R160)
    { i0 := 0x2202, i1 := 0x2202, s0 := 2, s1 := 2, ty := .blobFix 48, acc := 21, dflt := .bytes (zeros 48), rng := .any, cls := .ro, status := true, cmd := false, perPart := false },
    -- ROUTE_STAGE_DIGEST (03, R160)
    { i0 := 0x2202, i1 := 0x2202, s0 := 3, s1 := 3, ty := .blobFix 48, acc := 21, dflt := .bytes (zeros 48), rng := .any, cls := .ro, status := true, cmd := false, perPart := false },
    -- PORT_PARTITIONS (03, R160)
    { i0 := 0x2204, i1 := 0x2204, s0 := 1, s1 := 32, ty := .u64, acc := 53, dflt := .num 18446744073709551615, rng := .any, cls := .live, status := false, cmd := false, perPart := false },
    -- PORT_DEFAULT_CID (03, R160)
    { i0 := 0x2205, i1 := 0x2205, s0 := 1, s1 := 32, ty := .u32, acc := 53, dflt := .num 0, rng := .within 0x800FFFFF, cls := .live, status := false, cmd := false, perPart := false },
    -- FR_QUOTA (03, R160)
    { i0 := 0x2206, i1 := 0x2206, s0 := 1, s1 := 1, ty := .u16, acc := 61, dflt := .num 16, rng := .span 1 256, cls := .live, status := false, cmd := false, perPart := false },
    -- FR_IN_USE (03, R160)
    { i0 := 0x2206, i1 := 0x2206, s0 := 2, s1 := 2, ty := .u16, acc := 21, dflt := .num 0, rng := .span 0 1024, cls := .ro, status := true, cmd := false, perPart := false },
    -- FR_POOL_WAITS (03, R160)
    { i0 := 0x2206, i1 := 0x2206, s0 := 3, s1 := 3, ty := .u64, acc := 61, dflt := .num 0, rng := .clear, cls := .live, status := true, cmd := false, perPart := false },
    -- XLAT_WALKS (03, R160)
    { i0 := 0x2206, i1 := 0x2206, s0 := 4, s1 := 4, ty := .u64, acc := 61, dflt := .num 0, rng := .clear, cls := .live, status := true, cmd := false, perPart := false },
    -- KNOT_ENTRIES (06, R304)
    { i0 := 0x2208, i1 := 0x2208, s0 := 1, s1 := 1, ty := .u16, acc := 21, dflt := .num 4096, rng := .any, cls := .ro, status := true, cmd := false, perPart := false },
    -- KNOT_QUOTA (06, R304)
    { i0 := 0x2208, i1 := 0x2208, s0 := 2, s1 := 2, ty := .u16, acc := 61, dflt := .num 64, rng := .span 1 4096, cls := .live, status := false, cmd := false, perPart := false },
    -- KNOT_HOLD_US (06, R304)
    { i0 := 0x2208, i1 := 0x2208, s0 := 3, s1 := 3, ty := .u32, acc := 61, dflt := .num 2000, rng := .span 50 64000, cls := .live, status := false, cmd := false, perPart := false },
    -- KNOT_IN_USE (06, R304)
    { i0 := 0x2208, i1 := 0x2208, s0 := 4, s1 := 4, ty := .u16, acc := 21, dflt := .num 0, rng := .span 0 4096, cls := .ro, status := true, cmd := false, perPart := false },
    -- KNOTS_HELD (06, R304)
    { i0 := 0x2208, i1 := 0x2208, s0 := 5, s1 := 5, ty := .u16, acc := 21, dflt := .num 0, rng := .span 0 4096, cls := .ro, status := true, cmd := false, perPart := false },
    -- KNOTS_DONE (06, R304)
    { i0 := 0x2208, i1 := 0x2208, s0 := 6, s1 := 6, ty := .u64, acc := 61, dflt := .num 0, rng := .clear, cls := .live, status := true, cmd := false, perPart := false },
    -- KNOT_TIMEOUTS (06, R304)
    { i0 := 0x2208, i1 := 0x2208, s0 := 7, s1 := 7, ty := .u64, acc := 61, dflt := .num 0, rng := .clear, cls := .live, status := true, cmd := false, perPart := false },
    -- KNOT_NO_ENTRY (06, R304)
    { i0 := 0x2208, i1 := 0x2208, s0 := 8, s1 := 8, ty := .u64, acc := 61, dflt := .num 0, rng := .clear, cls := .live, status := true, cmd := false, perPart := false },
    -- FLUSH_RANGES (06, R304)
    { i0 := 0x2208, i1 := 0x2208, s0 := 9, s1 := 9, ty := .u64, acc := 61, dflt := .num 0, rng := .clear, cls := .live, status := true, cmd := false, perPart := false },
    -- FLUSH_LINES (06, R304)
    { i0 := 0x2208, i1 := 0x2208, s0 := 10, s1 := 10, ty := .u64, acc := 61, dflt := .num 0, rng := .clear, cls := .live, status := true, cmd := false, perPart := false },
    -- REGION (03, R160)
    { i0 := 0x2240, i1 := 0x225f, s0 := 1, s1 := 128, ty := .blobFix 64, acc := 61, dflt := .bytes (zeros 64), rng := .any, cls := .live, status := false, cmd := false, perPart := false },
    -- WINDOW (03, R160)
    { i0 := 0x2260, i1 := 0x227f, s0 := 1, s1 := 128, ty := .blobFix 40, acc := 61, dflt := .bytes (zeros 40), rng := .any, cls := .live, status := false, cmd := false, perPart := false }
  ]

/-- Objects of the range 0x2300. -/
def dictPage23 : List ORow :=
  [
    -- PARLOUR_SLOTS (04, R218)
    { i0 := 0x2300, i1 := 0x2300, s0 := 1, s1 := 1, ty := .u32, acc := 21, dflt := .num 0, rng := .any, cls := .ro, status := true, cmd := false, perPart := false },
    -- LARDER_SLOTS (04, R218)
    { i0 := 0x2300, i1 := 0x2300, s0 := 2, s1 := 2, ty := .u32, acc := 21, dflt := .num 0, rng := .any, cls := .ro, status := true, cmd := false, perPart := false },
    -- CELLAR_SLOTS (04, R218)
    { i0 := 0x2300, i1 := 0x2300, s0 := 3, s1 := 3, ty := .u32, acc := 21, dflt := .num 0, rng := .any, cls := .ro, status := true, cmd := false, perPart := false },
    -- MAP_RESERVE (04, R218)
    { i0 := 0x2300, i1 := 0x2300, s0 := 4, s1 := 4, ty := .u64, acc := 21, dflt := .num 0, rng := .any, cls := .ro, status := true, cmd := false, perPart := false },
    -- LARDER_FITTED (04, R218)
    { i0 := 0x2300, i1 := 0x2300, s0 := 5, s1 := 5, ty := .u64, acc := 21, dflt := .num 0, rng := .any, cls := .ro, status := true, cmd := false, perPart := false },
    -- CELLAR_FITTED (04, R218)
    { i0 := 0x2300, i1 := 0x2300, s0 := 6, s1 := 6, ty := .u64, acc := 21, dflt := .num 0, rng := .any, cls := .ro, status := true, cmd := false, perPart := false },
    -- PARLOUR_FREE (04, R218)
    { i0 := 0x2300, i1 := 0x2300, s0 := 7, s1 := 7, ty := .u32, acc := 21, dflt := .num 0, rng := .any, cls := .ro, status := true, cmd := false, perPart := false },
    -- LARDER_FREE (04, R218)
    { i0 := 0x2300, i1 := 0x2300, s0 := 8, s1 := 8, ty := .u32, acc := 21, dflt := .num 0, rng := .any, cls := .ro, status := true, cmd := false, perPart := false },
    -- CELLAR_FREE (04, R218)
    { i0 := 0x2300, i1 := 0x2300, s0 := 9, s1 := 9, ty := .u32, acc := 21, dflt := .num 0, rng := .any, cls := .ro, status := true, cmd := false, perPart := false },
    -- SPARE_P (04, R218)
    { i0 := 0x2300, i1 := 0x2300, s0 := 10, s1 := 10, ty := .u32, acc := 21, dflt := .num 0, rng := .any, cls := .ro, status := true, cmd := false, perPart := false },
    -- SPARE_L (04, R218)
    { i0 := 0x2300, i1 := 0x2300, s0 := 11, s1 := 11, ty := .u32, acc := 21, dflt := .num 0, rng := .any, cls := .ro, status := true, cmd := false, perPart := false },
    -- SPARE_C (04, R218)
    { i0 := 0x2300, i1 := 0x2300, s0 := 12, s1 := 12, ty := .u32, acc := 21, dflt := .num 0, rng := .any, cls := .ro, status := true, cmd := false, perPart := false },
    -- PLACE_FREEZE (04, R218)
    { i0 := 0x2301, i1 := 0x2301, s0 := 1, s1 := 1, ty := .bool, acc := 61, dflt := .num 0, rng := .span 0 1, cls := .live, status := false, cmd := false, perPart := false },
    -- HEAT_DECAY (04, R218)
    { i0 := 0x2301, i1 := 0x2301, s0 := 2, s1 := 2, ty := .u8, acc := 61, dflt := .num 1, rng := .span 1 4, cls := .live, status := false, cmd := false, perPart := false },
    -- PROMOTE_L2P (04, R218)
    { i0 := 0x2301, i1 := 0x2301, s0 := 3, s1 := 3, ty := .u8, acc := 61, dflt := .num 32, rng := .span 1 255, cls := .live, status := false, cmd := false, perPart := false },
    -- PROMOTE_C2P (04, R218)
    { i0 := 0x2301, i1 := 0x2301, s0 := 4, s1 := 4, ty := .u8, acc := 61, dflt := .num 96, rng := .span 1 255, cls := .live, status := false, cmd := false, perPart := false },
    -- DEMOTE_AGE_P (04, R218)
    { i0 := 0x2301, i1 := 0x2301, s0 := 5, s1 := 5, ty := .u8, acc := 61, dflt := .num 8, rng := .span 1 255, cls := .live, status := false, cmd := false, perPart := false },
    -- DEMOTE_AGE_L (04, R218)
    { i0 := 0x2301, i1 := 0x2301, s0 := 6, s1 := 6, ty := .u8, acc := 61, dflt := .num 32, rng := .span 1 255, cls := .live, status := false, cmd := false, perPart := false },
    -- MIN_RESIDENCY_MS (04, R218)
    { i0 := 0x2301, i1 := 0x2301, s0 := 7, s1 := 7, ty := .u32, acc := 61, dflt := .num 2000, rng := .span 0 600000, cls := .live, status := false, cmd := false, perPart := false },
    -- MOVE_BUDGET_PL (04, R218)
    { i0 := 0x2301, i1 := 0x2301, s0 := 8, s1 := 8, ty := .u32, acc := 61, dflt := .num 153600, rng := .span 1000 307200, cls := .live, status := false, cmd := false, perPart := false },
    -- MOVE_BUDGET_LC (04, R218)
    { i0 := 0x2301, i1 := 0x2301, s0 := 9, s1 := 9, ty := .u32, acc := 61, dflt := .num 6400, rng := .span 100 12800, cls := .live, status := false, cmd := false, perPart := false },
    -- FREE_TARGET_P (04, R218)
    { i0 := 0x2301, i1 := 0x2301, s0 := 10, s1 := 10, ty := .u8, acc := 61, dflt := .num 16, rng := .span 1 128, cls := .live, status := false, cmd := false, perPart := false },
    -- FREE_TARGET_L (04, R218)
    { i0 := 0x2301, i1 := 0x2301, s0 := 11, s1 := 11, ty := .u8, acc := 61, dflt := .num 8, rng := .span 1 128, cls := .live, status := false, cmd := false, perPart := false },
    -- FREE_TARGET_C (04, R218)
    { i0 := 0x2301, i1 := 0x2301, s0 := 12, s1 := 12, ty := .u8, acc := 61, dflt := .num 8, rng := .span 1 128, cls := .live, status := false, cmd := false, perPart := false },
    -- EVACUATE (04, R218)
    { i0 := 0x2301, i1 := 0x2301, s0 := 13, s1 := 13, ty := .bits 1, acc := 53, dflt := .num 0, rng := .mask 15, cls := .live, status := false, cmd := false, perPart := false },
    -- EVACUATED (04, R218)
    { i0 := 0x2301, i1 := 0x2301, s0 := 14, s1 := 14, ty := .bits 1, acc := 21, dflt := .num 0, rng := .any, cls := .ro, status := true, cmd := false, perPart := false },
    -- AGE_PERIOD_P_MS (04, R218)
    { i0 := 0x2302, i1 := 0x2302, s0 := 1, s1 := 1, ty := .u32, acc := 61, dflt := .num 1000, rng := .span 100 60000, cls := .live, status := false, cmd := false, perPart := false },
    -- AGE_PERIOD_L_MS (04, R218)
    { i0 := 0x2302, i1 := 0x2302, s0 := 2, s1 := 2, ty := .u32, acc := 61, dflt := .num 2000, rng := .span 500 600000, cls := .live, status := false, cmd := false, perPart := false },
    -- AGE_PERIOD_C_MS (04, R218)
    { i0 := 0x2302, i1 := 0x2302, s0 := 3, s1 := 3, ty := .u32, acc := 61, dflt := .num 16000, rng := .span 4000 3600000, cls := .live, status := false, cmd := false, perPart := false },
    -- LEARNING (04, R218)
    { i0 := 0x2303, i1 := 0x2303, s0 := 1, s1 := 1, ty := .bool, acc := 21, dflt := .num 1, rng := .span 0 1, cls := .ro, status := true, cmd := false, perPart := false },
    -- LEARN_ACCESSES (04, R218)
    { i0 := 0x2303, i1 := 0x2303, s0 := 2, s1 := 2, ty := .u64, acc := 21, dflt := .num 0, rng := .any, cls := .ro, status := true, cmd := false, perPart := false },
    -- LEARN_ELAPSED_MS (04, R218)
    { i0 := 0x2303, i1 := 0x2303, s0 := 3, s1 := 3, ty := .u32, acc := 21, dflt := .num 0, rng := .any, cls := .ro, status := true, cmd := false, perPart := false },
    -- LEARN_MIN_ACCESSES (04, R218)
    { i0 := 0x2303, i1 := 0x2303, s0 := 4, s1 := 4, ty := .u32, acc := 61, dflt := .num 4194304, rng := .span 0 4294967295, cls := .live, status := false, cmd := false, perPart := false },
    -- LEARN_MIN_MS (04, R218)
    { i0 := 0x2303, i1 := 0x2303, s0 := 5, s1 := 5, ty := .u32, acc := 61, dflt := .num 30000, rng := .span 0 3600000, cls := .live, status := false, cmd := false, perPart := false },
    -- PLACE_RESET (04, R218)
    { i0 := 0x2303, i1 := 0x2303, s0 := 6, s1 := 6, ty := .bool, acc := 60, dflt := .num 0, rng := .span 0 1, cls := .live, status := false, cmd := true, perPart := false },
    -- LEARN_ENDED_EARLY (04, R218)
    { i0 := 0x2303, i1 := 0x2303, s0 := 7, s1 := 7, ty := .u32, acc := 61, dflt := .num 0, rng := .clear, cls := .live, status := true, cmd := false, perPart := false },
    -- STACK_THERMAL (04, R218)
    { i0 := 0x2304, i1 := 0x2304, s0 := 1, s1 := 6, ty := .enum, acc := 21, dflt := .num 0, rng := .any, cls := .ro, status := true, cmd := false, perPart := false },
    -- LARDER_THERMAL (04, R218)
    { i0 := 0x2305, i1 := 0x2305, s0 := 1, s1 := 16, ty := .enum, acc := 21, dflt := .num 0, rng := .any, cls := .ro, status := true, cmd := false, perPart := false },
    -- WARM_C (04, R218)
    { i0 := 0x2306, i1 := 0x2306, s0 := 1, s1 := 1, ty := .i8, acc := 53, dflt := .num 85, rng := .span 70 95, cls := .live, status := false, cmd := false, perPart := false },
    -- HOT_C (04, R218)
    { i0 := 0x2306, i1 := 0x2306, s0 := 2, s1 := 2, ty := .i8, acc := 53, dflt := .num 95, rng := .span 75 100, cls := .live, status := false, cmd := false, perPart := false },
    -- HYST_C (04, R218)
    { i0 := 0x2306, i1 := 0x2306, s0 := 3, s1 := 3, ty := .u8, acc := 53, dflt := .num 3, rng := .span 1 10, cls := .live, status := false, cmd := false, perPart := false },
    -- PLACE_HINT (04, R218)
    { i0 := 0x2307, i1 := 0x2307, s0 := 0, s1 := 0, ty := .blobFix 24, acc := 60, dflt := .bytes [], rng := .any, cls := .live, status := false, cmd := true, perPart := false },
    -- BOLT_QUERY (04, R218)
    { i0 := 0x2308, i1 := 0x2308, s0 := 1, s1 := 1, ty := .u64, acc := 61, dflt := .num 0, rng := .any, cls := .live, status := false, cmd := true, perPart := false },
    -- BOLT_INFO (04, R218)
    { i0 := 0x2308, i1 := 0x2308, s0 := 2, s1 := 2, ty := .blobFix 16, acc := 20, dflt := .bytes (zeros 16), rng := .any, cls := .ro, status := true, cmd := false, perPart := false },
    -- MOVES_P_TO_L (04, R218)
    { i0 := 0x2309, i1 := 0x2309, s0 := 1, s1 := 1, ty := .u64, acc := 61, dflt := .num 0, rng := .clear, cls := .live, status := true, cmd := false, perPart := false },
    -- MOVES_L_TO_P (04, R218)
    { i0 := 0x2309, i1 := 0x2309, s0 := 2, s1 := 2, ty := .u64, acc := 61, dflt := .num 0, rng := .clear, cls := .live, status := true, cmd := false, perPart := false },
    -- MOVES_L_TO_C (04, R218)
    { i0 := 0x2309, i1 := 0x2309, s0 := 3, s1 := 3, ty := .u64, acc := 61, dflt := .num 0, rng := .clear, cls := .live, status := true, cmd := false, perPart := false },
    -- MOVES_C_UP (04, R218)
    { i0 := 0x2309, i1 := 0x2309, s0 := 4, s1 := 4, ty := .u64, acc := 61, dflt := .num 0, rng := .clear, cls := .live, status := true, cmd := false, perPart := false },
    -- DEMAND_WAITS (04, R218)
    { i0 := 0x2309, i1 := 0x2309, s0 := 5, s1 := 5, ty := .u64, acc := 61, dflt := .num 0, rng := .clear, cls := .live, status := true, cmd := false, perPart := false },
    -- MOVE_ABANDONED (04, R218)
    { i0 := 0x2309, i1 := 0x2309, s0 := 6, s1 := 6, ty := .u64, acc := 61, dflt := .num 0, rng := .clear, cls := .live, status := true, cmd := false, perPart := false },
    -- EVICT_BLOCKED (04, R218)
    { i0 := 0x2309, i1 := 0x2309, s0 := 7, s1 := 7, ty := .u64, acc := 61, dflt := .num 0, rng := .clear, cls := .live, status := true, cmd := false, perPart := false },
    -- THERMAL_SKIPS (04, R218)
    { i0 := 0x2309, i1 := 0x2309, s0 := 8, s1 := 8, ty := .u64, acc := 61, dflt := .num 0, rng := .clear, cls := .live, status := true, cmd := false, perPart := false },
    -- HINTS_DONE (04, R218)
    { i0 := 0x2309, i1 := 0x2309, s0 := 9, s1 := 9, ty := .u64, acc := 61, dflt := .num 0, rng := .clear, cls := .live, status := true, cmd := false, perPart := false },
    -- MAP_CACHE_MISSES (04, R218)
    { i0 := 0x2309, i1 := 0x2309, s0 := 10, s1 := 10, ty := .u64, acc := 61, dflt := .num 0, rng := .clear, cls := .live, status := true, cmd := false, perPart := false },
    -- ALLOC_WAITS (04, R218)
    { i0 := 0x2309, i1 := 0x2309, s0 := 11, s1 := 11, ty := .u64, acc := 61, dflt := .num 0, rng := .clear, cls := .live, status := true, cmd := false, perPart := false },
    -- PATROL_HOURS (04, R218)
    { i0 := 0x230a, i1 := 0x230a, s0 := 1, s1 := 1, ty := .u16, acc := 61, dflt := .num 24, rng := .span 1 168, cls := .live, status := false, cmd := false, perPart := false },
    -- RETIRE_CE (04, R218)
    { i0 := 0x230a, i1 := 0x230a, s0 := 2, s1 := 2, ty := .u16, acc := 61, dflt := .num 16, rng := .span 1 1024, cls := .live, status := false, cmd := false, perPart := false },
    -- CE_P (04, R218)
    { i0 := 0x230a, i1 := 0x230a, s0 := 3, s1 := 3, ty := .u64, acc := 61, dflt := .num 0, rng := .clear, cls := .live, status := true, cmd := false, perPart := false },
    -- CE_L (04, R218)
    { i0 := 0x230a, i1 := 0x230a, s0 := 4, s1 := 4, ty := .u64, acc := 61, dflt := .num 0, rng := .clear, cls := .live, status := true, cmd := false, perPart := false },
    -- CE_C (04, R218)
    { i0 := 0x230a, i1 := 0x230a, s0 := 5, s1 := 5, ty := .u64, acc := 61, dflt := .num 0, rng := .clear, cls := .live, status := true, cmd := false, perPart := false },
    -- UE_P (04, R218)
    { i0 := 0x230a, i1 := 0x230a, s0 := 6, s1 := 6, ty := .u64, acc := 61, dflt := .num 0, rng := .clear, cls := .live, status := true, cmd := false, perPart := false },
    -- UE_L (04, R218)
    { i0 := 0x230a, i1 := 0x230a, s0 := 7, s1 := 7, ty := .u64, acc := 61, dflt := .num 0, rng := .clear, cls := .live, status := true, cmd := false, perPart := false },
    -- UE_C (04, R218)
    { i0 := 0x230a, i1 := 0x230a, s0 := 8, s1 := 8, ty := .u64, acc := 61, dflt := .num 0, rng := .clear, cls := .live, status := true, cmd := false, perPart := false },
    -- RETIRED_P (04, R218)
    { i0 := 0x230a, i1 := 0x230a, s0 := 9, s1 := 9, ty := .u32, acc := 21, dflt := .num 0, rng := .any, cls := .ro, status := true, cmd := false, perPart := false },
    -- RETIRED_L (04, R218)
    { i0 := 0x230a, i1 := 0x230a, s0 := 10, s1 := 10, ty := .u32, acc := 21, dflt := .num 0, rng := .any, cls := .ro, status := true, cmd := false, perPart := false },
    -- RETIRED_C (04, R218)
    { i0 := 0x230a, i1 := 0x230a, s0 := 11, s1 := 11, ty := .u32, acc := 21, dflt := .num 0, rng := .any, cls := .ro, status := true, cmd := false, perPart := false },
    -- CELLAR_RETRIES (04, R218)
    { i0 := 0x230a, i1 := 0x230a, s0 := 12, s1 := 12, ty := .u64, acc := 61, dflt := .num 0, rng := .clear, cls := .live, status := true, cmd := false, perPart := false },
    -- CELLAR_WEAR (04, R218)
    { i0 := 0x230a, i1 := 0x230a, s0 := 13, s1 := 13, ty := .u8, acc := 21, dflt := .num 0, rng := .span 0 100, cls := .ro, status := true, cmd := false, perPart := false },
    -- STR_DESC (04, R219)
    { i0 := 0x2320, i1 := 0x2320, s0 := 1, s1 := 64, ty := .blobFix 32, acc := 61, dflt := .bytes (regionNone 32), rng := .stream, cls := .stopped .window, status := false, cmd := false, perPart := false },
    -- STR_LAYERS (04, R219)
    { i0 := 0x2321, i1 := 0x2321, s0 := 1, s1 := 64, ty := .blobVar 4100, acc := 61, dflt := .bytes [], rng := .any, cls := .stopped .window, status := false, cmd := false, perPart := false },
    -- STR_SCHED (04, R219)
    { i0 := 0x2322, i1 := 0x2322, s0 := 1, s1 := 64, ty := .blobVar 2048, acc := 61, dflt := .bytes [], rng := .any, cls := .stopped .window, status := false, cmd := false, perPart := false },
    -- STR_CMD (04, R219)
    { i0 := 0x2323, i1 := 0x2323, s0 := 1, s1 := 64, ty := .u8, acc := 60, dflt := .num 0, rng := .codes [1, 2], cls := .live, status := false, cmd := true, perPart := false },
    -- STR_RUN (04, R219)
    { i0 := 0x2324, i1 := 0x2324, s0 := 1, s1 := 64, ty := .enum, acc := 21, dflt := .num 1, rng := .any, cls := .ro, status := true, cmd := false, perPart := false },
    -- STR_POSITION (04, R219)
    { i0 := 0x2325, i1 := 0x2325, s0 := 1, s1 := 64, ty := .u64, acc := 21, dflt := .num 0, rng := .any, cls := .ro, status := true, cmd := false, perPart := false },
    -- STR_READY (04, R219)
    { i0 := 0x2326, i1 := 0x2326, s0 := 1, s1 := 64, ty := .u64, acc := 21, dflt := .num 0, rng := .any, cls := .ro, status := true, cmd := false, perPart := false }
  ]

/-- Objects of the range 0x2400. -/
def dictPage24 : List ORow :=
  [
    -- DIR_ENTRIES (05, R269)
    { i0 := 0x2400, i1 := 0x2400, s0 := 1, s1 := 1, ty := .u32, acc := 21, dflt := .num 4194304, rng := .any, cls := .ro, status := true, cmd := false, perPart := false },
    -- DIR_IN_USE (05, R269)
    { i0 := 0x2400, i1 := 0x2400, s0 := 2, s1 := 2, ty := .u32, acc := 21, dflt := .num 0, rng := .any, cls := .ro, status := true, cmd := false, perPart := false },
    -- SNP_TIMEOUT_US (05, R269)
    { i0 := 0x2400, i1 := 0x2400, s0 := 3, s1 := 3, ty := .u32, acc := 61, dflt := .num 1000, rng := .span 50 64000, cls := .live, status := false, cmd := false, perPart := false },
    -- DIR_COARSE (05, R269)
    { i0 := 0x2400, i1 := 0x2400, s0 := 4, s1 := 4, ty := .u32, acc := 21, dflt := .num 0, rng := .any, cls := .ro, status := true, cmd := false, perPart := false },
    -- DIR_LD (05, R269)
    { i0 := 0x2400, i1 := 0x2400, s0 := 5, s1 := 5, ty := .u32, acc := 21, dflt := .num 0, rng := .any, cls := .ro, status := true, cmd := false, perPart := false },
    -- REQ_RD_S (05, R269)
    { i0 := 0x2401, i1 := 0x2401, s0 := 1, s1 := 1, ty := .u64, acc := 61, dflt := .num 0, rng := .clear, cls := .live, status := true, cmd := false, perPart := false },
    -- REQ_RD_OWN (05, R269)
    { i0 := 0x2401, i1 := 0x2401, s0 := 2, s1 := 2, ty := .u64, acc := 61, dflt := .num 0, rng := .clear, cls := .live, status := true, cmd := false, perPart := false },
    -- REQ_UPGRADE (05, R269)
    { i0 := 0x2401, i1 := 0x2401, s0 := 3, s1 := 3, ty := .u64, acc := 61, dflt := .num 0, rng := .clear, cls := .live, status := true, cmd := false, perPart := false },
    -- REQ_PEEK (05, R269)
    { i0 := 0x2401, i1 := 0x2401, s0 := 4, s1 := 4, ty := .u64, acc := 61, dflt := .num 0, rng := .clear, cls := .live, status := true, cmd := false, perPart := false },
    -- UNCACHED_ACCESSES (05, R269)
    { i0 := 0x2401, i1 := 0x2401, s0 := 5, s1 := 5, ty := .u64, acc := 61, dflt := .num 0, rng := .clear, cls := .live, status := true, cmd := false, perPart := false },
    -- BACK_INV (05, R269)
    { i0 := 0x2401, i1 := 0x2401, s0 := 6, s1 := 6, ty := .u64, acc := 61, dflt := .num 0, rng := .clear, cls := .live, status := true, cmd := false, perPart := false },
    -- FORWARDS (05, R269)
    { i0 := 0x2401, i1 := 0x2401, s0 := 7, s1 := 7, ty := .u64, acc := 61, dflt := .num 0, rng := .clear, cls := .live, status := true, cmd := false, perPart := false },
    -- STALE_WB (05, R269)
    { i0 := 0x2401, i1 := 0x2401, s0 := 8, s1 := 8, ty := .u64, acc := 61, dflt := .num 0, rng := .clear, cls := .live, status := true, cmd := false, perPart := false },
    -- KIND_RECALLS (05, R269)
    { i0 := 0x2401, i1 := 0x2401, s0 := 9, s1 := 9, ty := .u64, acc := 61, dflt := .num 0, rng := .clear, cls := .live, status := true, cmd := false, perPart := false },
    -- LD_DROPPED (05, R269)
    { i0 := 0x2401, i1 := 0x2401, s0 := 10, s1 := 10, ty := .u64, acc := 61, dflt := .num 0, rng := .clear, cls := .live, status := true, cmd := false, perPart := false },
    -- PROTOCOL_ERRORS (05, R269)
    { i0 := 0x2401, i1 := 0x2401, s0 := 11, s1 := 11, ty := .u64, acc := 61, dflt := .num 0, rng := .clear, cls := .live, status := true, cmd := false, perPart := false },
    -- LOST_REPORTED (05, R269)
    { i0 := 0x2401, i1 := 0x2401, s0 := 12, s1 := 12, ty := .u64, acc := 61, dflt := .num 0, rng := .clear, cls := .live, status := true, cmd := false, perPart := false },
    -- LOST_REVERTED (05, R269)
    { i0 := 0x2401, i1 := 0x2401, s0 := 13, s1 := 13, ty := .u64, acc := 61, dflt := .num 0, rng := .clear, cls := .live, status := true, cmd := false, perPart := false },
    -- UNRESPONSIVE_EVENTS (05, R269)
    { i0 := 0x2401, i1 := 0x2401, s0 := 14, s1 := 14, ty := .u64, acc := 61, dflt := .num 0, rng := .clear, cls := .live, status := true, cmd := false, perPart := false },
    -- REGION_RECALL (05, R269)
    { i0 := 0x2402, i1 := 0x2402, s0 := 1, s1 := 1, ty := .u16, acc := 61, dflt := .num 65535, rng := .span 0 4095, cls := .live, status := false, cmd := true, perPart := false },
    -- RECALLS_DONE (05, R269)
    { i0 := 0x2402, i1 := 0x2402, s0 := 2, s1 := 2, ty := .u32, acc := 61, dflt := .num 0, rng := .clear, cls := .live, status := true, cmd := false, perPart := false },
    -- DIR_QUERY (05, R269)
    { i0 := 0x2403, i1 := 0x2403, s0 := 1, s1 := 1, ty := .u64, acc := 61, dflt := .num 0, rng := .any, cls := .live, status := false, cmd := true, perPart := false },
    -- DIR_INFO (05, R269)
    { i0 := 0x2403, i1 := 0x2403, s0 := 2, s1 := 2, ty := .blobFix 16, acc := 20, dflt := .bytes (zeros 16), rng := .any, cls := .ro, status := true, cmd := false, perPart := false },
    -- AGENT_EXPEL (05, R269)
    { i0 := 0x2404, i1 := 0x2404, s0 := 0, s1 := 0, ty := .u8, acc := 48, dflt := .num 0, rng := .span 4 255, cls := .live, status := false, cmd := true, perPart := false },
    -- AGENT (05, R270)
    { i0 := 0x2410, i1 := 0x2410, s0 := 1, s1 := 128, ty := .blobFix 16, acc := 61, dflt := .bytes (zeros 16), rng := .any, cls := .live, status := false, cmd := false, perPart := false },
    -- AGENT (05, R270)
    { i0 := 0x2411, i1 := 0x2411, s0 := 1, s1 := 128, ty := .blobFix 16, acc := 61, dflt := .bytes (zeros 16), rng := .any, cls := .live, status := false, cmd := false, perPart := false },
    -- AGENT_STATE (05, R270)
    { i0 := 0x2412, i1 := 0x2412, s0 := 1, s1 := 128, ty := .enum, acc := 21, dflt := .num 0, rng := .any, cls := .ro, status := true, cmd := false, perPart := false },
    -- AGENT_STATE (05, R270)
    { i0 := 0x2413, i1 := 0x2413, s0 := 1, s1 := 128, ty := .enum, acc := 21, dflt := .num 0, rng := .any, cls := .ro, status := true, cmd := false, perPart := false },
    -- AGENT_HELD (05, R270)
    { i0 := 0x2414, i1 := 0x2414, s0 := 1, s1 := 128, ty := .u32, acc := 21, dflt := .num 0, rng := .any, cls := .ro, status := true, cmd := false, perPart := false },
    -- AGENT_HELD (05, R270)
    { i0 := 0x2415, i1 := 0x2415, s0 := 1, s1 := 128, ty := .u32, acc := 21, dflt := .num 0, rng := .any, cls := .ro, status := true, cmd := false, perPart := false }
  ]

/-- Objects of the range 0x2500. -/
def dictPage25 : List ORow :=
  [
    -- VER_HANDLES (07, R338)
    { i0 := 0x2500, i1 := 0x2500, s0 := 1, s1 := 1, ty := .u16, acc := 21, dflt := .num 16384, rng := .any, cls := .ro, status := true, cmd := false, perPart := false },
    -- VER_HANDLES_IN_USE (07, R338)
    { i0 := 0x2500, i1 := 0x2500, s0 := 2, s1 := 2, ty := .u16, acc := 21, dflt := .num 0, rng := .span 0 16384, cls := .ro, status := true, cmd := false, perPart := false },
    -- FOLD_MBPS (07, R338)
    { i0 := 0x2500, i1 := 0x2500, s0 := 3, s1 := 3, ty := .u32, acc := 61, dflt := .num 4000, rng := .span 100 100000, cls := .live, status := false, cmd := false, perPart := false },
    -- STALE_HOLD_S (07, R338)
    { i0 := 0x2500, i1 := 0x2500, s0 := 4, s1 := 4, ty := .u32, acc := 61, dflt := .num 600, rng := .span 10 86400, cls := .live, status := false, cmd := false, perPart := false },
    -- WORK_MAX (07, R338)
    { i0 := 0x2500, i1 := 0x2500, s0 := 5, s1 := 5, ty := .u8, acc := 61, dflt := .num 8, rng := .span 1 16, cls := .live, status := false, cmd := false, perPart := false },
    -- PUBLISHES (07, R338)
    { i0 := 0x2501, i1 := 0x2501, s0 := 1, s1 := 1, ty := .u64, acc := 61, dflt := .num 0, rng := .clear, cls := .live, status := true, cmd := false, perPart := false },
    -- CONFLICTS (07, R338)
    { i0 := 0x2501, i1 := 0x2501, s0 := 2, s1 := 2, ty := .u64, acc := 61, dflt := .num 0, rng := .clear, cls := .live, status := true, cmd := false, perPart := false },
    -- REBASES (07, R338)
    { i0 := 0x2501, i1 := 0x2501, s0 := 3, s1 := 3, ty := .u64, acc := 61, dflt := .num 0, rng := .clear, cls := .live, status := true, cmd := false, perPart := false },
    -- COW_COPIES (07, R338)
    { i0 := 0x2501, i1 := 0x2501, s0 := 4, s1 := 4, ty := .u64, acc := 61, dflt := .num 0, rng := .clear, cls := .live, status := true, cmd := false, perPart := false },
    -- BASTE_WAITS (07, R338)
    { i0 := 0x2501, i1 := 0x2501, s0 := 5, s1 := 5, ty := .u64, acc := 61, dflt := .num 0, rng := .clear, cls := .live, status := true, cmd := false, perPart := false },
    -- VERSIONS_RECLAIMED (07, R338)
    { i0 := 0x2501, i1 := 0x2501, s0 := 6, s1 := 6, ty := .u64, acc := 61, dflt := .num 0, rng := .clear, cls := .live, status := true, cmd := false, perPart := false },
    -- PAGES_FOLDED (07, R338)
    { i0 := 0x2501, i1 := 0x2501, s0 := 7, s1 := 7, ty := .u64, acc := 61, dflt := .num 0, rng := .clear, cls := .live, status := true, cmd := false, perPart := false },
    -- STALE_ACCESSES (07, R338)
    { i0 := 0x2501, i1 := 0x2501, s0 := 8, s1 := 8, ty := .u64, acc := 61, dflt := .num 0, rng := .clear, cls := .live, status := true, cmd := false, perPart := false },
    -- VER_QUERY (07, R338)
    { i0 := 0x2503, i1 := 0x2503, s0 := 1, s1 := 1, ty := .u16, acc := 61, dflt := .num 0, rng := .span 0 4095, cls := .live, status := false, cmd := true, perPart := false },
    -- VER_INFO (07, R338)
    { i0 := 0x2503, i1 := 0x2503, s0 := 2, s1 := 2, ty := .blobFix 48, acc := 20, dflt := .bytes (zeros 48), rng := .any, cls := .ro, status := true, cmd := false, perPart := false },
    -- LEASE_GRACE_MS (07, R338)
    { i0 := 0x2510, i1 := 0x2510, s0 := 1, s1 := 1, ty := .u32, acc := 61, dflt := .num 250, rng := .span 50 5000, cls := .live, status := false, cmd := false, perPart := false },
    -- LEASES_TOTAL (07, R338)
    { i0 := 0x2510, i1 := 0x2510, s0 := 2, s1 := 2, ty := .u16, acc := 21, dflt := .num 4096, rng := .any, cls := .ro, status := true, cmd := false, perPart := false },
    -- LEASES_IN_USE (07, R338)
    { i0 := 0x2510, i1 := 0x2510, s0 := 3, s1 := 3, ty := .u16, acc := 21, dflt := .num 0, rng := .span 0 4096, cls := .ro, status := true, cmd := false, perPart := false },
    -- LEASE_EXPIRIES (07, R338)
    { i0 := 0x2510, i1 := 0x2510, s0 := 4, s1 := 4, ty := .u64, acc := 61, dflt := .num 0, rng := .clear, cls := .live, status := true, cmd := false, perPart := false },
    -- LATE_RENEWALS (07, R338)
    { i0 := 0x2510, i1 := 0x2510, s0 := 5, s1 := 5, ty := .u64, acc := 61, dflt := .num 0, rng := .clear, cls := .live, status := true, cmd := false, perPart := false },
    -- LEASE_EXPIRE (07, R338)
    { i0 := 0x2510, i1 := 0x2510, s0 := 6, s1 := 6, ty := .u16, acc := 48, dflt := .num 65535, rng := .span 0 4095, cls := .live, status := false, cmd := true, perPart := false },
    -- LEASE_QUERY (07, R338)
    { i0 := 0x2512, i1 := 0x2512, s0 := 1, s1 := 1, ty := .u16, acc := 61, dflt := .num 0, rng := .span 0 4095, cls := .live, status := false, cmd := true, perPart := false },
    -- LEASE_INFO (07, R338)
    { i0 := 0x2512, i1 := 0x2512, s0 := 2, s1 := 2, ty := .blobFix 24, acc := 20, dflt := .bytes (zeros 24), rng := .any, cls := .ro, status := true, cmd := false, perPart := false },
    -- VER_VIEW (07, R338)
    { i0 := 0x2540, i1 := 0x255f, s0 := 1, s1 := 128, ty := .u64, acc := 61, dflt := .num 0, rng := .any, cls := .live, status := false, cmd := false, perPart := false }
  ]

/-- Objects of the range 0x2600. -/
def dictPage26 : List ORow :=
  [
    -- BN_RUN (08, R386)
    { i0 := 0x2600, i1 := 0x2600, s0 := 1, s1 := 1, ty := .enum, acc := 21, dflt := .num 1, rng := .any, cls := .ro, status := true, cmd := false, perPart := false },
    -- BN_CMD (08, R386)
    { i0 := 0x2600, i1 := 0x2600, s0 := 2, s1 := 2, ty := .u8, acc := 60, dflt := .num 0, rng := .codes [1, 2], cls := .live, status := false, cmd := true, perPart := false },
    -- BN_ENGINES_ON (08, R386)
    { i0 := 0x2600, i1 := 0x2600, s0 := 3, s1 := 3, ty := .bits 2, acc := 21, dflt := .num 0, rng := .any, cls := .ro, status := true, cmd := false, perPart := false },
    -- BN_CHUNK_BAGS (08, R386)
    { i0 := 0x2600, i1 := 0x2600, s0 := 4, s1 := 4, ty := .u16, acc := 61, dflt := .num 16, rng := .span 1 1024, cls := .drain, status := false, cmd := false, perPart := false },
    -- BN_ROWCACHE_EN (08, R386)
    { i0 := 0x2600, i1 := 0x2600, s0 := 5, s1 := 5, ty := .bool, acc := 61, dflt := .num 1, rng := .span 0 1, cls := .drain, status := false, cmd := false, perPart := false },
    -- LOOKUPS (08, R386)
    { i0 := 0x2601, i1 := 0x2601, s0 := 1, s1 := 1, ty := .u64, acc := 61, dflt := .num 0, rng := .clear, cls := .live, status := true, cmd := false, perPart := false },
    -- INDICES (08, R386)
    { i0 := 0x2601, i1 := 0x2601, s0 := 2, s1 := 2, ty := .u64, acc := 61, dflt := .num 0, rng := .clear, cls := .live, status := true, cmd := false, perPart := false },
    -- ROW_LINES (08, R386)
    { i0 := 0x2601, i1 := 0x2601, s0 := 3, s1 := 3, ty := .u64, acc := 61, dflt := .num 0, rng := .clear, cls := .live, status := true, cmd := false, perPart := false },
    -- DIR_MISSES (08, R386)
    { i0 := 0x2601, i1 := 0x2601, s0 := 4, s1 := 4, ty := .u64, acc := 61, dflt := .num 0, rng := .clear, cls := .live, status := true, cmd := false, perPart := false },
    -- ROW_CACHE_HITS (08, R386)
    { i0 := 0x2601, i1 := 0x2601, s0 := 5, s1 := 5, ty := .u64, acc := 61, dflt := .num 0, rng := .clear, cls := .live, status := true, cmd := false, perPart := false },
    -- INVALID_HITS (08, R386)
    { i0 := 0x2601, i1 := 0x2601, s0 := 6, s1 := 6, ty := .u64, acc := 61, dflt := .num 0, rng := .clear, cls := .live, status := true, cmd := false, perPart := false },
    -- MISSING_HITS (08, R386)
    { i0 := 0x2601, i1 := 0x2601, s0 := 7, s1 := 7, ty := .u64, acc := 61, dflt := .num 0, rng := .clear, cls := .live, status := true, cmd := false, perPart := false },
    -- ERR_BAGS (08, R386)
    { i0 := 0x2601, i1 := 0x2601, s0 := 8, s1 := 8, ty := .u64, acc := 61, dflt := .num 0, rng := .clear, cls := .live, status := true, cmd := false, perPart := false },
    -- MEMBER_MISSING (08, R386)
    { i0 := 0x2601, i1 := 0x2601, s0 := 9, s1 := 9, ty := .u64, acc := 61, dflt := .num 0, rng := .clear, cls := .live, status := true, cmd := false, perPart := false },
    -- EXCHANGE_BYTES (08, R386)
    { i0 := 0x2601, i1 := 0x2601, s0 := 10, s1 := 10, ty := .u64, acc := 61, dflt := .num 0, rng := .clear, cls := .live, status := true, cmd := false, perPart := false },
    -- REENC_FREEZE (08, R386)
    { i0 := 0x2602, i1 := 0x2602, s0 := 1, s1 := 1, ty := .bool, acc := 61, dflt := .num 0, rng := .span 0 1, cls := .live, status := false, cmd := false, perPart := false },
    -- REENC_PERIOD_MS (08, R386)
    { i0 := 0x2602, i1 := 0x2602, s0 := 2, s1 := 2, ty := .u32, acc := 61, dflt := .num 60000, rng := .span 1000 3600000, cls := .live, status := false, cmd := false, perPart := false },
    -- REENC_BUDGET (08, R386)
    { i0 := 0x2602, i1 := 0x2602, s0 := 3, s1 := 3, ty := .u32, acc := 61, dflt := .num 1000000, rng := .span 1000 100000000, cls := .live, status := false, cmd := false, perPart := false },
    -- TH_FP32 (08, R386)
    { i0 := 0x2602, i1 := 0x2602, s0 := 4, s1 := 4, ty := .u8, acc := 61, dflt := .num 6, rng := .span 0 7, cls := .live, status := false, cmd := false, perPart := false },
    -- TH_BF16 (08, R386)
    { i0 := 0x2602, i1 := 0x2602, s0 := 5, s1 := 5, ty := .u8, acc := 61, dflt := .num 4, rng := .span 0 7, cls := .live, status := false, cmd := false, perPart := false },
    -- TH_FP8 (08, R386)
    { i0 := 0x2602, i1 := 0x2602, s0 := 6, s1 := 6, ty := .u8, acc := 61, dflt := .num 2, rng := .span 0 7, cls := .live, status := false, cmd := false, perPart := false },
    -- REENC_LEARN_PERIODS (08, R386)
    { i0 := 0x2602, i1 := 0x2602, s0 := 7, s1 := 7, ty := .u8, acc := 61, dflt := .num 4, rng := .span 0 255, cls := .live, status := false, cmd := false, perPart := false },
    -- REENC_WIDEN (08, R386)
    { i0 := 0x2602, i1 := 0x2602, s0 := 8, s1 := 8, ty := .u64, acc := 61, dflt := .num 0, rng := .clear, cls := .live, status := true, cmd := false, perPart := false },
    -- REENC_NARROW (08, R386)
    { i0 := 0x2602, i1 := 0x2602, s0 := 9, s1 := 9, ty := .u64, acc := 61, dflt := .num 0, rng := .clear, cls := .live, status := true, cmd := false, perPart := false },
    -- REENC_NOSPACE (08, R386)
    { i0 := 0x2602, i1 := 0x2602, s0 := 10, s1 := 10, ty := .u64, acc := 61, dflt := .num 0, rng := .clear, cls := .live, status := true, cmd := false, perPart := false },
    -- ACC_CELLS (09, R429)
    { i0 := 0x2604, i1 := 0x2604, s0 := 1, s1 := 1, ty := .u32, acc := 21, dflt := .num 2097152, rng := .any, cls := .ro, status := true, cmd := false, perPart := false },
    -- ACC_CELLS_FREE (09, R429)
    { i0 := 0x2604, i1 := 0x2604, s0 := 2, s1 := 2, ty := .u32, acc := 21, dflt := .num 2097152, rng := .any, cls := .ro, status := true, cmd := false, perPart := false },
    -- ACC_BANKS_OK (09, R429)
    { i0 := 0x2604, i1 := 0x2604, s0 := 3, s1 := 3, ty := .bits 2, acc := 21, dflt := .num 65535, rng := .any, cls := .ro, status := true, cmd := false, perPart := false },
    -- STEP_MAX_OPEN (09, R429)
    { i0 := 0x2604, i1 := 0x2604, s0 := 4, s1 := 4, ty := .u8, acc := 21, dflt := .num 4, rng := .any, cls := .ro, status := true, cmd := false, perPart := false },
    -- ACCUMULATES (09, R429)
    { i0 := 0x2605, i1 := 0x2605, s0 := 1, s1 := 1, ty := .u64, acc := 61, dflt := .num 0, rng := .clear, cls := .live, status := true, cmd := false, perPart := false },
    -- ADDENDS (09, R429)
    { i0 := 0x2605, i1 := 0x2605, s0 := 2, s1 := 2, ty := .u64, acc := 61, dflt := .num 0, rng := .clear, cls := .live, status := true, cmd := false, perPart := false },
    -- SEALS (09, R429)
    { i0 := 0x2605, i1 := 0x2605, s0 := 3, s1 := 3, ty := .u64, acc := 61, dflt := .num 0, rng := .clear, cls := .live, status := true, cmd := false, perPart := false },
    -- ROWS_SEALED (09, R429)
    { i0 := 0x2605, i1 := 0x2605, s0 := 4, s1 := 4, ty := .u64, acc := 61, dflt := .num 0, rng := .clear, cls := .live, status := true, cmd := false, perPart := false },
    -- ROWS_PROMOTED (09, R429)
    { i0 := 0x2605, i1 := 0x2605, s0 := 5, s1 := 5, ty := .u64, acc := 61, dflt := .num 0, rng := .clear, cls := .live, status := true, cmd := false, perPart := false },
    -- ROWS_CREATED (09, R429)
    { i0 := 0x2605, i1 := 0x2605, s0 := 6, s1 := 6, ty := .u64, acc := 61, dflt := .num 0, rng := .clear, cls := .live, status := true, cmd := false, perPart := false },
    -- SAT_ROWS (09, R429)
    { i0 := 0x2605, i1 := 0x2605, s0 := 7, s1 := 7, ty := .u64, acc := 61, dflt := .num 0, rng := .clear, cls := .live, status := true, cmd := false, perPart := false },
    -- NAN_ROWS (09, R429)
    { i0 := 0x2605, i1 := 0x2605, s0 := 8, s1 := 8, ty := .u64, acc := 61, dflt := .num 0, rng := .clear, cls := .live, status := true, cmd := false, perPart := false },
    -- LOST_ROWS (09, R429)
    { i0 := 0x2605, i1 := 0x2605, s0 := 9, s1 := 9, ty := .u64, acc := 61, dflt := .num 0, rng := .clear, cls := .live, status := true, cmd := false, perPart := false },
    -- DELTAS_APPLIED (09, R429)
    { i0 := 0x2605, i1 := 0x2605, s0 := 10, s1 := 10, ty := .u64, acc := 61, dflt := .num 0, rng := .clear, cls := .live, status := true, cmd := false, perPart := false },
    -- FAR_ATOMICS (09, R429)
    { i0 := 0x2605, i1 := 0x2605, s0 := 11, s1 := 11, ty := .u64, acc := 61, dflt := .num 0, rng := .clear, cls := .live, status := true, cmd := false, perPart := false },
    -- FAR_ATOMICS_FP (09, R429)
    { i0 := 0x2605, i1 := 0x2605, s0 := 12, s1 := 12, ty := .u64, acc := 61, dflt := .num 0, rng := .clear, cls := .live, status := true, cmd := false, perPart := false },
    -- STEPS_TAINTED (09, R429)
    { i0 := 0x2605, i1 := 0x2605, s0 := 13, s1 := 13, ty := .u64, acc := 61, dflt := .num 0, rng := .clear, cls := .live, status := true, cmd := false, perPart := false },
    -- STEPS_DISCARDED (09, R429)
    { i0 := 0x2605, i1 := 0x2605, s0 := 14, s1 := 14, ty := .u64, acc := 61, dflt := .num 0, rng := .clear, cls := .live, status := true, cmd := false, perPart := false },
    -- TAB_DESC (08, R386)
    { i0 := 0x2610, i1 := 0x2611, s0 := 1, s1 := 128, ty := .blobFix 64, acc := 61, dflt := .bytes (regionNone 64), rng := .any, cls := .stopped .table, status := false, cmd := false, perPart := false },
    -- TAB_MEMBERS (08, R386)
    { i0 := 0x2612, i1 := 0x2613, s0 := 1, s1 := 128, ty := .blobVar 256, acc := 61, dflt := .bytes [], rng := .any, cls := .stopped .table, status := false, cmd := false, perPart := false },
    -- TAB_CMD (08, R386)
    { i0 := 0x2614, i1 := 0x2615, s0 := 1, s1 := 128, ty := .u8, acc := 60, dflt := .num 0, rng := .codes [1, 2], cls := .live, status := false, cmd := true, perPart := false },
    -- TAB_RUN (08, R386)
    { i0 := 0x2616, i1 := 0x2617, s0 := 1, s1 := 128, ty := .enum, acc := 21, dflt := .num 0, rng := .any, cls := .ro, status := true, cmd := false, perPart := false },
    -- TAB_STATS (08, R386)
    { i0 := 0x2618, i1 := 0x2619, s0 := 1, s1 := 128, ty := .blobFix 32, acc := 21, dflt := .bytes (zeros 32), rng := .any, cls := .ro, status := true, cmd := false, perPart := false },
    -- STEP_INFO (09, R429)
    { i0 := 0x261a, i1 := 0x261b, s0 := 1, s1 := 128, ty := .blobFix 80, acc := 21, dflt := .bytes (zeros 80), rng := .any, cls := .ro, status := true, cmd := false, perPart := false }
  ]

/-- Objects of the range 0x2700. -/
def dictPage27 : List ORow :=
  [
    -- TP_RUN (10, R466)
    { i0 := 0x2700, i1 := 0x2700, s0 := 1, s1 := 1, ty := .enum, acc := 21, dflt := .num 1, rng := .any, cls := .ro, status := true, cmd := false, perPart := false },
    -- TP_CMD (10, R466)
    { i0 := 0x2700, i1 := 0x2700, s0 := 2, s1 := 2, ty := .u8, acc := 60, dflt := .num 0, rng := .codes [1, 2], cls := .live, status := false, cmd := true, perPart := false },
    -- TP_ENGINES_ON (10, R466)
    { i0 := 0x2700, i1 := 0x2700, s0 := 3, s1 := 3, ty := .bits 4, acc := 21, dflt := .num 0, rng := .any, cls := .ro, status := true, cmd := false, perPart := false },
    -- ROUND_MIN_Q (10, R466)
    { i0 := 0x2700, i1 := 0x2700, s0 := 4, s1 := 4, ty := .u16, acc := 61, dflt := .num 1024, rng := .span 1 16384, cls := .live, status := false, cmd := false, perPart := false },
    -- ROUND_WAIT_US (10, R466)
    { i0 := 0x2700, i1 := 0x2700, s0 := 5, s1 := 5, ty := .u32, acc := 61, dflt := .num 20000, rng := .span 10 10000000, cls := .live, status := false, cmd := false, perPart := false },
    -- MERGE_SHARE (10, R466)
    { i0 := 0x2700, i1 := 0x2700, s0 := 6, s1 := 6, ty := .u8, acc := 61, dflt := .num 2, rng := .span 1 16, cls := .live, status := false, cmd := false, perPart := false },
    -- MEMBER_WAIT_MS (10, R466)
    { i0 := 0x2700, i1 := 0x2700, s0 := 7, s1 := 7, ty := .u32, acc := 61, dflt := .num 1000, rng := .span 10 60000, cls := .live, status := false, cmd := false, perPart := false },
    -- SEARCHES (10, R466)
    { i0 := 0x2701, i1 := 0x2701, s0 := 1, s1 := 1, ty := .u64, acc := 61, dflt := .num 0, rng := .clear, cls := .live, status := true, cmd := false, perPart := false },
    -- QUERIES (10, R466)
    { i0 := 0x2701, i1 := 0x2701, s0 := 2, s1 := 2, ty := .u64, acc := 61, dflt := .num 0, rng := .clear, cls := .live, status := true, cmd := false, perPart := false },
    -- ROUNDS (10, R466)
    { i0 := 0x2701, i1 := 0x2701, s0 := 3, s1 := 3, ty := .u64, acc := 61, dflt := .num 0, rng := .clear, cls := .live, status := true, cmd := false, perPart := false },
    -- PASSES (10, R466)
    { i0 := 0x2701, i1 := 0x2701, s0 := 4, s1 := 4, ty := .u64, acc := 61, dflt := .num 0, rng := .clear, cls := .live, status := true, cmd := false, perPart := false },
    -- CODES_SCANNED (10, R466)
    { i0 := 0x2701, i1 := 0x2701, s0 := 5, s1 := 5, ty := .u64, acc := 61, dflt := .num 0, rng := .clear, cls := .live, status := true, cmd := false, perPart := false },
    -- INSERTS (10, R466)
    { i0 := 0x2701, i1 := 0x2701, s0 := 6, s1 := 6, ty := .u64, acc := 61, dflt := .num 0, rng := .clear, cls := .live, status := true, cmd := false, perPart := false },
    -- DELETES (10, R466)
    { i0 := 0x2701, i1 := 0x2701, s0 := 7, s1 := 7, ty := .u64, acc := 61, dflt := .num 0, rng := .clear, cls := .live, status := true, cmd := false, perPart := false },
    -- MERGES (10, R466)
    { i0 := 0x2701, i1 := 0x2701, s0 := 8, s1 := 8, ty := .u64, acc := 61, dflt := .num 0, rng := .clear, cls := .live, status := true, cmd := false, perPart := false },
    -- LANE_FULL (10, R466)
    { i0 := 0x2701, i1 := 0x2701, s0 := 9, s1 := 9, ty := .u64, acc := 61, dflt := .num 0, rng := .clear, cls := .live, status := true, cmd := false, perPart := false },
    -- STABLE_FORCED (10, R466)
    { i0 := 0x2701, i1 := 0x2701, s0 := 10, s1 := 10, ty := .u64, acc := 61, dflt := .num 0, rng := .clear, cls := .live, status := true, cmd := false, perPart := false },
    -- EDGES_IGNORED (10, R466)
    { i0 := 0x2701, i1 := 0x2701, s0 := 11, s1 := 11, ty := .u64, acc := 61, dflt := .num 0, rng := .clear, cls := .live, status := true, cmd := false, perPart := false },
    -- TOMB_ROUTED (10, R466)
    { i0 := 0x2701, i1 := 0x2701, s0 := 12, s1 := 12, ty := .u64, acc := 61, dflt := .num 0, rng := .clear, cls := .live, status := true, cmd := false, perPart := false },
    -- MEMBER_MISSING (10, R466)
    { i0 := 0x2701, i1 := 0x2701, s0 := 13, s1 := 13, ty := .u64, acc := 61, dflt := .num 0, rng := .clear, cls := .live, status := true, cmd := false, perPart := false },
    -- VEC_DESC (10, R466)
    { i0 := 0x2710, i1 := 0x2710, s0 := 1, s1 := 16, ty := .blobFix 64, acc := 61, dflt := .bytes (regionNone 64), rng := .any, cls := .stopped .index, status := false, cmd := false, perPart := false },
    -- VEC_MEMBERS (10, R466)
    { i0 := 0x2711, i1 := 0x2711, s0 := 1, s1 := 16, ty := .blobVar 256, acc := 61, dflt := .bytes [], rng := .any, cls := .stopped .index, status := false, cmd := false, perPart := false },
    -- VEC_CMD (10, R466)
    { i0 := 0x2712, i1 := 0x2712, s0 := 1, s1 := 16, ty := .u8, acc := 60, dflt := .num 0, rng := .codes [1, 2], cls := .live, status := false, cmd := true, perPart := false },
    -- VEC_RUN (10, R466)
    { i0 := 0x2713, i1 := 0x2713, s0 := 1, s1 := 16, ty := .enum, acc := 21, dflt := .num 0, rng := .any, cls := .ro, status := true, cmd := false, perPart := false },
    -- VEC_STATS (10, R466)
    { i0 := 0x2714, i1 := 0x2714, s0 := 1, s1 := 16, ty := .blobFix 32, acc := 21, dflt := .bytes (zeros 32), rng := .any, cls := .ro, status := true, cmd := false, perPart := false }
  ]

/-- Objects of the range 0x2800. -/
def dictPage28 : List ORow :=
  [
    -- TD_RUN (11, R507)
    { i0 := 0x2800, i1 := 0x2800, s0 := 1, s1 := 1, ty := .enum, acc := 21, dflt := .num 1, rng := .any, cls := .ro, status := true, cmd := false, perPart := false },
    -- TD_CMD (11, R507)
    { i0 := 0x2800, i1 := 0x2800, s0 := 2, s1 := 2, ty := .u8, acc := 60, dflt := .num 0, rng := .codes [1, 2], cls := .live, status := false, cmd := true, perPart := false },
    -- TD_ARRAYS_ON (11, R507)
    { i0 := 0x2800, i1 := 0x2800, s0 := 3, s1 := 3, ty := .bits 1, acc := 21, dflt := .num 0, rng := .any, cls := .ro, status := true, cmd := false, perPart := false },
    -- TD_SERVICE_MASK (11, R507)
    { i0 := 0x2800, i1 := 0x2800, s0 := 4, s1 := 4, ty := .bits 1, acc := 61, dflt := .num 255, rng := .mask 255, cls := .drain, status := false, cmd := false, perPart := false },
    -- TD_WATCHDOG_MAX_US (11, R507)
    { i0 := 0x2800, i1 := 0x2800, s0 := 5, s1 := 5, ty := .u32, acc := 61, dflt := .num 1000000, rng := .span 100 60000000, cls := .live, status := false, cmd := false, perPart := false },
    -- TD_IMAGE_REUSE (11, R507)
    { i0 := 0x2800, i1 := 0x2800, s0 := 6, s1 := 6, ty := .bool, acc := 61, dflt := .num 1, rng := .span 0 1, cls := .drain, status := false, cmd := false, perPart := false },
    -- LAUNCHES (11, R507)
    { i0 := 0x2801, i1 := 0x2801, s0 := 1, s1 := 1, ty := .u64, acc := 61, dflt := .num 0, rng := .clear, cls := .live, status := true, cmd := false, perPart := false },
    -- SERVICE_LAUNCHES (11, R507)
    { i0 := 0x2801, i1 := 0x2801, s0 := 2, s1 := 2, ty := .u64, acc := 61, dflt := .num 0, rng := .clear, cls := .live, status := true, cmd := false, perPart := false },
    -- INSTRUCTIONS (11, R507)
    { i0 := 0x2801, i1 := 0x2801, s0 := 3, s1 := 3, ty := .u64, acc := 61, dflt := .num 0, rng := .clear, cls := .live, status := true, cmd := false, perPart := false },
    -- MMAS (11, R507)
    { i0 := 0x2801, i1 := 0x2801, s0 := 4, s1 := 4, ty := .u64, acc := 61, dflt := .num 0, rng := .clear, cls := .live, status := true, cmd := false, perPart := false },
    -- IMAGE_LOADS (11, R507)
    { i0 := 0x2801, i1 := 0x2801, s0 := 5, s1 := 5, ty := .u64, acc := 61, dflt := .num 0, rng := .clear, cls := .live, status := true, cmd := false, perPart := false },
    -- BAD_PROGRAMS (11, R507)
    { i0 := 0x2801, i1 := 0x2801, s0 := 6, s1 := 6, ty := .u64, acc := 61, dflt := .num 0, rng := .clear, cls := .live, status := true, cmd := false, perPart := false },
    -- WATCHDOGS (11, R507)
    { i0 := 0x2801, i1 := 0x2801, s0 := 7, s1 := 7, ty := .u64, acc := 61, dflt := .num 0, rng := .clear, cls := .live, status := true, cmd := false, perPart := false },
    -- V_EXECUTED (11, R507)
    { i0 := 0x2801, i1 := 0x2801, s0 := 8, s1 := 8, ty := .u64, acc := 61, dflt := .num 0, rng := .clear, cls := .live, status := true, cmd := false, perPart := false },
    -- V_FORCED (11, R507)
    { i0 := 0x2801, i1 := 0x2801, s0 := 9, s1 := 9, ty := .u64, acc := 61, dflt := .num 0, rng := .clear, cls := .live, status := true, cmd := false, perPart := false },
    -- LATE_STARTS (11, R507)
    { i0 := 0x2801, i1 := 0x2801, s0 := 10, s1 := 10, ty := .u64, acc := 61, dflt := .num 0, rng := .clear, cls := .live, status := true, cmd := false, perPart := false },
    -- ARRAY_STATE (11, R507)
    { i0 := 0x2802, i1 := 0x2802, s0 := 1, s1 := 8, ty := .enum, acc := 21, dflt := .num 0, rng := .any, cls := .ro, status := true, cmd := false, perPart := false },
    -- ARRAY_BUSY (11, R507)
    { i0 := 0x2803, i1 := 0x2803, s0 := 1, s1 := 8, ty := .u64, acc := 21, dflt := .num 0, rng := .any, cls := .ro, status := true, cmd := false, perPart := false }
  ]

/-- Objects of the range 0x2900. -/
def dictPage29 : List ORow :=
  [
    -- SH_RUN (12, R547)
    { i0 := 0x2900, i1 := 0x2900, s0 := 1, s1 := 1, ty := .enum, acc := 21, dflt := .num 1, rng := .any, cls := .ro, status := true, cmd := false, perPart := false },
    -- SH_CMD (12, R547)
    { i0 := 0x2900, i1 := 0x2900, s0 := 2, s1 := 2, ty := .u8, acc := 60, dflt := .num 0, rng := .codes [1, 2], cls := .live, status := false, cmd := true, perPart := false },
    -- SH_ENGINES_ON (12, R547)
    { i0 := 0x2900, i1 := 0x2900, s0 := 3, s1 := 3, ty := .bits 4, acc := 21, dflt := .num 0, rng := .any, cls := .ro, status := true, cmd := false, perPart := false },
    -- STAGE_WAIT_MS (12, R547)
    { i0 := 0x2900, i1 := 0x2900, s0 := 4, s1 := 4, ty := .u32, acc := 61, dflt := .num 1000, rng := .span 10 60000, cls := .live, status := false, cmd := false, perPart := false },
    -- WAIT_MAX_MS (12, R547)
    { i0 := 0x2900, i1 := 0x2900, s0 := 5, s1 := 5, ty := .u32, acc := 61, dflt := .num 10000, rng := .span 1 600000, cls := .live, status := false, cmd := false, perPart := false },
    -- COPIES (12, R547)
    { i0 := 0x2901, i1 := 0x2901, s0 := 1, s1 := 1, ty := .u64, acc := 61, dflt := .num 0, rng := .clear, cls := .live, status := true, cmd := false, perPart := false },
    -- MCASTS (12, R547)
    { i0 := 0x2901, i1 := 0x2901, s0 := 2, s1 := 2, ty := .u64, acc := 61, dflt := .num 0, rng := .clear, cls := .live, status := true, cmd := false, perPart := false },
    -- REDUCES (12, R547)
    { i0 := 0x2901, i1 := 0x2901, s0 := 3, s1 := 3, ty := .u64, acc := 61, dflt := .num 0, rng := .clear, cls := .live, status := true, cmd := false, perPart := false },
    -- BYTES_WRITTEN (12, R547)
    { i0 := 0x2901, i1 := 0x2901, s0 := 4, s1 := 4, ty := .u64, acc := 61, dflt := .num 0, rng := .clear, cls := .live, status := true, cmd := false, perPart := false },
    -- ARRIVAL_ADDS (12, R547)
    { i0 := 0x2901, i1 := 0x2901, s0 := 5, s1 := 5, ty := .u64, acc := 61, dflt := .num 0, rng := .clear, cls := .live, status := true, cmd := false, perPart := false },
    -- KNOT_FALLBACKS (12, R547)
    { i0 := 0x2901, i1 := 0x2901, s0 := 6, s1 := 6, ty := .u64, acc := 61, dflt := .num 0, rng := .clear, cls := .live, status := true, cmd := false, perPart := false },
    -- V_EXECUTED (12, R547)
    { i0 := 0x2901, i1 := 0x2901, s0 := 7, s1 := 7, ty := .u64, acc := 61, dflt := .num 0, rng := .clear, cls := .live, status := true, cmd := false, perPart := false },
    -- TREE_STAGES (12, R547)
    { i0 := 0x2901, i1 := 0x2901, s0 := 8, s1 := 8, ty := .u64, acc := 61, dflt := .num 0, rng := .clear, cls := .live, status := true, cmd := false, perPart := false },
    -- WAITS (12, R547)
    { i0 := 0x2901, i1 := 0x2901, s0 := 9, s1 := 9, ty := .u64, acc := 61, dflt := .num 0, rng := .clear, cls := .live, status := true, cmd := false, perPart := false },
    -- WAIT_TIMEOUTS (12, R547)
    { i0 := 0x2901, i1 := 0x2901, s0 := 10, s1 := 10, ty := .u64, acc := 61, dflt := .num 0, rng := .clear, cls := .live, status := true, cmd := false, perPart := false },
    -- CPL_TIMEOUT_US (12, R547)
    { i0 := 0x2908, i1 := 0x2908, s0 := 1, s1 := 1, ty := .u32, acc := 61, dflt := .num 2000, rng := .span 50 64000, cls := .live, status := false, cmd := false, perPart := false },
    -- HOLD_US (12, R547)
    { i0 := 0x2908, i1 := 0x2908, s0 := 2, s1 := 2, ty := .u32, acc := 61, dflt := .num 1000, rng := .span 25 32000, cls := .live, status := false, cmd := false, perPart := false },
    -- DEAD_TARGETS (12, R547)
    { i0 := 0x2908, i1 := 0x2908, s0 := 3, s1 := 3, ty := .u64, acc := 61, dflt := .num 0, rng := .clear, cls := .live, status := true, cmd := false, perPart := false },
    -- MCAST_GROUP (12, R547)
    { i0 := 0x2920, i1 := 0x2921, s0 := 1, s1 := 128, ty := .blobFix 144, acc := 61, dflt := .bytes (zeros 144), rng := .any, cls := .live, status := false, cmd := false, perPart := false },
    -- BAR_DESC (12, R547)
    { i0 := 0x2930, i1 := 0x2931, s0 := 1, s1 := 128, ty := .blobFix 32, acc := 61, dflt := .bytes (zeros 32), rng := .any, cls := .stopped .barrier, status := false, cmd := false, perPart := false },
    -- BAR_MEMBERS (12, R547)
    { i0 := 0x2932, i1 := 0x2933, s0 := 1, s1 := 128, ty := .blobVar 2048, acc := 61, dflt := .bytes [], rng := .any, cls := .stopped .barrier, status := false, cmd := false, perPart := false },
    -- BAR_CMD (12, R547)
    { i0 := 0x2934, i1 := 0x2935, s0 := 1, s1 := 128, ty := .u8, acc := 60, dflt := .num 0, rng := .codes [1, 2, 3], cls := .live, status := false, cmd := true, perPart := false },
    -- BAR_RUN (12, R547)
    { i0 := 0x2936, i1 := 0x2937, s0 := 1, s1 := 128, ty := .enum, acc := 21, dflt := .num 1, rng := .any, cls := .ro, status := true, cmd := false, perPart := false },
    -- BAR_STATUS (12, R547)
    { i0 := 0x2938, i1 := 0x2939, s0 := 1, s1 := 128, ty := .blobFix 24, acc := 21, dflt := .bytes (zeros 24), rng := .any, cls := .ro, status := true, cmd := false, perPart := false }
  ]

/-- Objects of the range 0x2a00. -/
def dictPage2A : List ORow :=
  [
    -- PART_CREATE (14, R627)
    { i0 := 0x2a00, i1 := 0x2a00, s0 := 1, s1 := 1, ty := .u8, acc := 48, dflt := .num 255, rng := .any, cls := .live, status := false, cmd := true, perPart := false },
    -- PART_REMOVE (14, R627)
    { i0 := 0x2a00, i1 := 0x2a00, s0 := 2, s1 := 2, ty := .u8, acc := 48, dflt := .num 255, rng := .any, cls := .live, status := false, cmd := true, perPart := false },
    -- DRAIN_MS (14, R627)
    { i0 := 0x2a00, i1 := 0x2a00, s0 := 3, s1 := 3, ty := .u32, acc := 53, dflt := .num 10, rng := .span 1 1000, cls := .live, status := false, cmd := false, perPart := false },
    -- SCRUB_MBPS (14, R627)
    { i0 := 0x2a00, i1 := 0x2a00, s0 := 4, s1 := 4, ty := .u32, acc := 53, dflt := .num 16000, rng := .span 1000 200000, cls := .live, status := false, cmd := false, perPart := false },
    -- CELLAR_ERASE_MBPS (14, R627)
    { i0 := 0x2a00, i1 := 0x2a00, s0 := 5, s1 := 5, ty := .u32, acc := 53, dflt := .num 2000, rng := .span 100 12800, cls := .live, status := false, cmd := false, perPart := false },
    -- PARTS_ACTIVE (14, R627)
    { i0 := 0x2a00, i1 := 0x2a00, s0 := 6, s1 := 6, ty := .bits 8, acc := 21, dflt := .num 1, rng := .any, cls := .ro, status := true, cmd := false, perPart := false },
    -- PARTS_REMOVING (14, R627)
    { i0 := 0x2a00, i1 := 0x2a00, s0 := 7, s1 := 7, ty := .bits 8, acc := 21, dflt := .num 0, rng := .any, cls := .ro, status := true, cmd := false, perPart := false },
    -- PART_AT_RESET (14, R627)
    { i0 := 0x2a00, i1 := 0x2a00, s0 := 8, s1 := 8, ty := .bits 8, acc := 53, dflt := .num 1, rng := .partMask, cls := .boot, status := false, cmd := false, perPart := false },
    -- LINK_REKEY_FLITS (14, R627)
    { i0 := 0x2a10, i1 := 0x2a10, s0 := 1, s1 := 1, ty := .u64, acc := 53, dflt := .num 1099511627776, rng := .span 1048576 281474976710656, cls := .live, status := false, cmd := false, perPart := false },
    -- LINK_REKEY_S (14, R627)
    { i0 := 0x2a10, i1 := 0x2a10, s0 := 2, s1 := 2, ty := .u32, acc := 53, dflt := .num 3600, rng := .span 60 86400, cls := .live, status := false, cmd := false, perPart := false },
    -- LINK_REKEYS (14, R627)
    { i0 := 0x2a10, i1 := 0x2a10, s0 := 3, s1 := 3, ty := .u64, acc := 61, dflt := .num 0, rng := .clear, cls := .live, status := true, cmd := false, perPart := false },
    -- LINK_PEERS (14, R627)
    { i0 := 0x2a11, i1 := 0x2a11, s0 := 1, s1 := 64, ty := .blobFix 48, acc := 53, dflt := .bytes [], rng := .any, cls := .live, status := false, cmd := false, perPart := false },
    -- LINK_KEY_STATE (14, R627)
    { i0 := 0x2a12, i1 := 0x2a12, s0 := 1, s1 := 32, ty := .blobFix 32, acc := 21, dflt := .bytes (zeros 32), rng := .any, cls := .ro, status := true, cmd := false, perPart := false },
    -- VIOL_STICKY (14, R627)
    { i0 := 0x2a20, i1 := 0x2a20, s0 := 1, s1 := 1, ty := .bool, acc := 48, dflt := .num 0, rng := .span 0 1, cls := .live, status := true, cmd := false, perPart := false },
    -- VIOL_COUNT (14, R627)
    { i0 := 0x2a20, i1 := 0x2a20, s0 := 2, s1 := 2, ty := .u64, acc := 48, dflt := .num 0, rng := .clear, cls := .live, status := true, cmd := false, perPart := false },
    -- VIOL_FIRST (14, R627)
    { i0 := 0x2a20, i1 := 0x2a20, s0 := 3, s1 := 3, ty := .blobFix 48, acc := 16, dflt := .bytes (zeros 48), rng := .any, cls := .ro, status := true, cmd := false, perPart := false },
    -- THIMBLE_STATE (14, R627)
    { i0 := 0x2a21, i1 := 0x2a21, s0 := 1, s1 := 1, ty := .enum, acc := 21, dflt := .num 0, rng := .any, cls := .ro, status := true, cmd := false, perPart := false },
    -- KEYS_GENERATED (14, R627)
    { i0 := 0x2a21, i1 := 0x2a21, s0 := 2, s1 := 2, ty := .u64, acc := 21, dflt := .num 0, rng := .any, cls := .ro, status := true, cmd := false, perPart := false },
    -- KEYS_DESTROYED (14, R627)
    { i0 := 0x2a21, i1 := 0x2a21, s0 := 3, s1 := 3, ty := .u64, acc := 21, dflt := .num 0, rng := .any, cls := .ro, status := true, cmd := false, perPart := false },
    -- ARB_ADVANCE_FW (14, R627)
    { i0 := 0x2a22, i1 := 0x2a22, s0 := 1, s1 := 1, ty := .u32, acc := 48, dflt := .num 0, rng := .any, cls := .live, status := false, cmd := true, perPart := false },
    -- ARB_ADVANCE_LOADER (14, R627)
    { i0 := 0x2a22, i1 := 0x2a22, s0 := 2, s1 := 2, ty := .u32, acc := 48, dflt := .num 0, rng := .any, cls := .live, status := false, cmd := true, perPart := false },
    -- LOADER_SECURITY_VERSION (14, R627)
    { i0 := 0x2a22, i1 := 0x2a22, s0 := 3, s1 := 3, ty := .u32, acc := 21, dflt := .num 0, rng := .any, cls := .ro, status := true, cmd := false, perPart := false },
    -- DEBUG_UNLOCK (14, R627)
    { i0 := 0x2a23, i1 := 0x2a23, s0 := 0, s1 := 0, ty := .u32, acc := 48, dflt := .num 0, rng := .any, cls := .live, status := false, cmd := true, perPart := false },
    -- DEBUG_OPEN (14, R627)
    { i0 := 0x2a23, i1 := 0x2a23, s0 := 1, s1 := 1, ty := .bool, acc := 21, dflt := .num 0, rng := .span 0 1, cls := .ro, status := true, cmd := false, perPart := false }
  ]

/-- Objects of the range 0x2b00. -/
def dictPage2B : List ORow :=
  [
    -- BB_DELIVERIES (15, R649)
    { i0 := 0x2b00, i1 := 0x2b00, s0 := 1, s1 := 1, ty := .u64, acc := 61, dflt := .num 0, rng := .clear, cls := .live, status := true, cmd := false, perPart := false },
    -- BB_OOC_COUNT (15, R649)
    { i0 := 0x2b00, i1 := 0x2b00, s0 := 2, s1 := 2, ty := .u64, acc := 61, dflt := .num 0, rng := .clear, cls := .live, status := true, cmd := false, perPart := false },
    -- BB_FALLBACKS (15, R649)
    { i0 := 0x2b00, i1 := 0x2b00, s0 := 3, s1 := 3, ty := .u64, acc := 61, dflt := .num 0, rng := .clear, cls := .live, status := true, cmd := false, perPart := false },
    -- BB_WAKES (15, R649)
    { i0 := 0x2b00, i1 := 0x2b00, s0 := 4, s1 := 4, ty := .u64, acc := 61, dflt := .num 0, rng := .clear, cls := .live, status := true, cmd := false, perPart := false },
    -- BB_SERVICE_DROPS (15, R649)
    { i0 := 0x2b00, i1 := 0x2b00, s0 := 5, s1 := 5, ty := .u64, acc := 61, dflt := .num 0, rng := .clear, cls := .live, status := true, cmd := false, perPart := false },
    -- BB_TARGET (15, R649)
    { i0 := 0x2b01, i1 := 0x2b01, s0 := 1, s1 := 32, ty := .u32, acc := 21, dflt := .num 0, rng := .any, cls := .ro, status := true, cmd := false, perPart := false },
    -- BB_PEND_ALL (15, R649)
    { i0 := 0x2b02, i1 := 0x2b02, s0 := 0, s1 := 0, ty := .blobFix 128, acc := 21, dflt := .bytes (zeros 128), rng := .any, cls := .ro, status := true, cmd := false, perPart := false }
  ]

/-- Objects of the range 0x2c00. -/
def dictPage2C : List ORow :=
  [
    -- DET_MODE (16, R670)
    { i0 := 0x2c00, i1 := 0x2c00, s0 := 0, s1 := 0, ty := .enum, acc := 61, dflt := .num 0, rng := .codes [0, 1, 2], cls := .stopped .det, status := false, cmd := false, perPart := false },
    -- DET_RUN (16, R670)
    { i0 := 0x2c01, i1 := 0x2c01, s0 := 1, s1 := 1, ty := .enum, acc := 21, dflt := .num 1, rng := .any, cls := .ro, status := true, cmd := false, perPart := false },
    -- DET_STEP (16, R670)
    { i0 := 0x2c01, i1 := 0x2c01, s0 := 2, s1 := 2, ty := .u8, acc := 60, dflt := .num 0, rng := .codes [1], cls := .live, status := false, cmd := true, perPart := false },
    -- DET_SWEEP_STEPS (16, R670)
    { i0 := 0x2c01, i1 := 0x2c01, s0 := 3, s1 := 3, ty := .u16, acc := 61, dflt := .num 64, rng := .span 1 65535, cls := .live, status := false, cmd := false, perPart := false },
    -- DET_STEPS (16, R670)
    { i0 := 0x2c01, i1 := 0x2c01, s0 := 4, s1 := 4, ty := .u64, acc := 61, dflt := .num 0, rng := .clear, cls := .live, status := true, cmd := false, perPart := false },
    -- RUN_RECORD (16, R670)
    { i0 := 0x2c02, i1 := 0x2c02, s0 := 0, s1 := 0, ty := .blobFix 96, acc := 21, dflt := .bytes (zeros 96), rng := .any, cls := .ro, status := true, cmd := false, perPart := false },
    -- RUN_RESET (16, R670)
    { i0 := 0x2c03, i1 := 0x2c03, s0 := 0, s1 := 0, ty := .bool, acc := 60, dflt := .num 0, rng := .span 0 1, cls := .live, status := false, cmd := true, perPart := false },
    -- SYNC_ROLE (16, R670)
    { i0 := 0x2c10, i1 := 0x2c10, s0 := 1, s1 := 1, ty := .enum, acc := 53, dflt := .num 0, rng := .codes [0, 1], cls := .live, status := false, cmd := false, perPart := false },
    -- SYNC_MASTER (16, R670)
    { i0 := 0x2c10, i1 := 0x2c10, s0 := 2, s1 := 2, ty := .u16, acc := 53, dflt := .num 0, rng := .any, cls := .live, status := false, cmd := false, perPart := false },
    -- SYNC_INTERVAL_MS (16, R670)
    { i0 := 0x2c10, i1 := 0x2c10, s0 := 3, s1 := 3, ty := .u32, acc := 61, dflt := .num 100, rng := .span 10 10000, cls := .live, status := false, cmd := false, perPart := false },
    -- SYNC_STEP_LIMIT (16, R670)
    { i0 := 0x2c10, i1 := 0x2c10, s0 := 4, s1 := 4, ty := .u32, acc := 61, dflt := .num 1000, rng := .span 10 1000000, cls := .live, status := false, cmd := false, perPart := false },
    -- SYNC_STATE (16, R670)
    { i0 := 0x2c10, i1 := 0x2c10, s0 := 5, s1 := 5, ty := .enum, acc := 21, dflt := .num 0, rng := .any, cls := .ro, status := true, cmd := false, perPart := false },
    -- SYNC_OFFSET (16, R670)
    { i0 := 0x2c10, i1 := 0x2c10, s0 := 6, s1 := 6, ty := .i32, acc := 21, dflt := .num 0, rng := .any, cls := .ro, status := true, cmd := false, perPart := false },
    -- SYNC_RATE_PPB (16, R670)
    { i0 := 0x2c10, i1 := 0x2c10, s0 := 7, s1 := 7, ty := .i32, acc := 21, dflt := .num 0, rng := .any, cls := .ro, status := true, cmd := false, perPart := false },
    -- SYNC_COUNT (16, R670)
    { i0 := 0x2c10, i1 := 0x2c10, s0 := 8, s1 := 8, ty := .u64, acc := 21, dflt := .num 0, rng := .any, cls := .ro, status := true, cmd := false, perPart := false },
    -- SYNC_LOCK_LOSSES (16, R670)
    { i0 := 0x2c10, i1 := 0x2c10, s0 := 9, s1 := 9, ty := .u64, acc := 61, dflt := .num 0, rng := .clear, cls := .live, status := true, cmd := false, perPart := false },
    -- SYNC_STEPS (16, R670)
    { i0 := 0x2c10, i1 := 0x2c10, s0 := 10, s1 := 10, ty := .u64, acc := 61, dflt := .num 0, rng := .clear, cls := .live, status := true, cmd := false, perPart := false }
  ]

/-- Objects of the range 0x3000. -/
def dictPage30 : List ORow :=
  [
    -- STICKY_MAP (17, R704)
    { i0 := 0x3000, i1 := 0x3000, s0 := 1, s1 := 1, ty := .blobFix 32, acc := 21, dflt := .bytes (zeros 32), rng := .any, cls := .ro, status := true, cmd := false, perPart := false },
    -- STICKY_CLEAR_ALL (17, R704)
    { i0 := 0x3000, i1 := 0x3000, s0 := 2, s1 := 2, ty := .bool, acc := 60, dflt := .num 0, rng := .span 0 1, cls := .live, status := false, cmd := true, perPart := false },
    -- FAULTS_TOTAL (17, R704)
    { i0 := 0x3000, i1 := 0x3000, s0 := 3, s1 := 3, ty := .u64, acc := 61, dflt := .num 0, rng := .clear, cls := .live, status := true, cmd := false, perPart := false }
  ]

/-- Objects of the range 0x3100. -/
def dictPage31 : List ORow :=
  [
    -- STICKY (17, R704)
    { i0 := 0x3101, i1 := 0x31ff, s0 := 1, s1 := 1, ty := .bool, acc := 61, dflt := .num 0, rng := .span 0 1, cls := .live, status := true, cmd := false, perPart := false },
    -- COUNT (17, R704)
    { i0 := 0x3101, i1 := 0x31ff, s0 := 2, s1 := 2, ty := .u64, acc := 61, dflt := .num 0, rng := .clear, cls := .live, status := true, cmd := false, perPart := false },
    -- FIRST (17, R704)
    { i0 := 0x3101, i1 := 0x31ff, s0 := 3, s1 := 3, ty := .blobFix 160, acc := 21, dflt := .bytes (zeros 160), rng := .any, cls := .ro, status := true, cmd := false, perPart := false },
    -- LAST (17, R704)
    { i0 := 0x3101, i1 := 0x31ff, s0 := 4, s1 := 4, ty := .u64, acc := 21, dflt := .num 0, rng := .any, cls := .ro, status := true, cmd := false, perPart := false }
  ]

/-- Objects of the range 0x3200. -/
def dictPage32 : List ORow :=
  [
    -- WINDOW_L1_MS (17, R704)
    { i0 := 0x3200, i1 := 0x3200, s0 := 1, s1 := 1, ty := .u32, acc := 61, dflt := .num 10, rng := .span 1 10000, cls := .live, status := false, cmd := false, perPart := false },
    -- WINDOW_L2_MS (17, R704)
    { i0 := 0x3200, i1 := 0x3200, s0 := 2, s1 := 2, ty := .u32, acc := 61, dflt := .num 1000, rng := .span 10 600000, cls := .live, status := false, cmd := false, perPart := false },
    -- WINDOW_L3_MS (17, R704)
    { i0 := 0x3200, i1 := 0x3200, s0 := 3, s1 := 3, ty := .u32, acc := 61, dflt := .num 60000, rng := .span 1000 3600000, cls := .live, status := false, cmd := false, perPart := false },
    -- LIMP_CLASSES (17, R704)
    { i0 := 0x3200, i1 := 0x3200, s0 := 4, s1 := 4, ty := .bits 2, acc := 53, dflt := .num 1022, rng := .mask 65535, cls := .live, status := false, cmd := false, perPart := false },
    -- RECOVERIES (17, R704)
    { i0 := 0x3200, i1 := 0x3200, s0 := 5, s1 := 5, ty := .u64, acc := 61, dflt := .num 0, rng := .clear, cls := .live, status := true, cmd := false, perPart := false },
    -- RECOVERY_QUEUE (17, R704)
    { i0 := 0x3200, i1 := 0x3200, s0 := 6, s1 := 6, ty := .u16, acc := 21, dflt := .num 0, rng := .any, cls := .ro, status := true, cmd := false, perPart := false },
    -- RECOVERY_LOG (17, R704)
    { i0 := 0x3200, i1 := 0x3200, s0 := 7, s1 := 7, ty := .blobFix 768, acc := 21, dflt := .bytes (zeros 768), rng := .any, cls := .ro, status := true, cmd := false, perPart := false },
    -- RESOURCE_QUERY (17, R704)
    { i0 := 0x3200, i1 := 0x3200, s0 := 8, s1 := 8, ty := .u16, acc := 61, dflt := .num 0, rng := .any, cls := .live, status := false, cmd := true, perPart := false },
    -- RESOURCE_INFO (17, R704)
    { i0 := 0x3200, i1 := 0x3200, s0 := 9, s1 := 9, ty := .blobFix 16, acc := 21, dflt := .bytes (zeros 16), rng := .any, cls := .ro, status := true, cmd := false, perPart := false },
    -- RESOURCE_RELEASE (17, R704)
    { i0 := 0x3200, i1 := 0x3200, s0 := 10, s1 := 10, ty := .u16, acc := 48, dflt := .num 0, rng := .any, cls := .live, status := false, cmd := true, perPart := false }
  ]

/-- Objects of the range 0x3300. -/
def dictPage33 : List ORow :=
  [
    -- LIMP_STATE (17, R704)
    { i0 := 0x3300, i1 := 0x3300, s0 := 1, s1 := 1, ty := .enum, acc := 21, dflt := .num 0, rng := .any, cls := .ro, status := true, cmd := false, perPart := false },
    -- LIMP_CMD (17, R704)
    { i0 := 0x3300, i1 := 0x3300, s0 := 2, s1 := 2, ty := .u8, acc := 48, dflt := .num 0, rng := .codes [1, 2], cls := .live, status := false, cmd := true, perPart := false },
    -- LIMP_RESET (17, R704)
    { i0 := 0x3300, i1 := 0x3300, s0 := 3, s1 := 3, ty := .bool, acc := 53, dflt := .num 0, rng := .span 0 1, cls := .live, status := false, cmd := false, perPart := false },
    -- LIMP_WINDOW_S (17, R704)
    { i0 := 0x3300, i1 := 0x3300, s0 := 4, s1 := 4, ty := .u32, acc := 53, dflt := .num 600, rng := .span 10 86400, cls := .live, status := false, cmd := false, perPart := false },
    -- LIMP_ENTERED (17, R704)
    { i0 := 0x3300, i1 := 0x3300, s0 := 5, s1 := 5, ty := .u64, acc := 21, dflt := .num 0, rng := .any, cls := .ro, status := true, cmd := false, perPart := false }
  ]

/-- Objects of the range 0x3400. -/
def dictPage34 : List ORow :=
  [
    -- BAR_LATE (12, R547)
    { i0 := 0x3400, i1 := 0x3401, s0 := 1, s1 := 128, ty := .blobFix 2048, acc := 21, dflt := .bytes (zeros 2048), rng := .any, cls := .ro, status := true, cmd := false, perPart := false },
    -- BAR_SUSPECT (12, R547)
    { i0 := 0x3402, i1 := 0x3403, s0 := 1, s1 := 128, ty := .blobFix 128, acc := 21, dflt := .bytes (zeros 128), rng := .any, cls := .ro, status := true, cmd := false, perPart := false },
    -- BAR_WINDOW (12, R547)
    { i0 := 0x3404, i1 := 0x3405, s0 := 1, s1 := 128, ty := .u16, acc := 21, dflt := .num 0, rng := .any, cls := .ro, status := true, cmd := false, perPart := false }
  ]

/-- Objects of the range 0x3600. -/
def dictPage36 : List ORow :=
  [
    -- FAILURE_DOMAIN (17, R704)
    { i0 := 0x3600, i1 := 0x3600, s0 := 1, s1 := 1, ty := .u32, acc := 53, dflt := .num 0, rng := .any, cls := .stopped .portBlock, status := false, cmd := false, perPart := false },
    -- MIRROR_WRITE_US (17, R704)
    { i0 := 0x3600, i1 := 0x3600, s0 := 2, s1 := 2, ty := .u32, acc := 61, dflt := .num 500, rng := .span 50 32000, cls := .live, status := false, cmd := false, perPart := false },
    -- MIRROR_REBUILD_MBPS (17, R704)
    { i0 := 0x3600, i1 := 0x3600, s0 := 3, s1 := 3, ty := .u32, acc := 61, dflt := .num 2000, rng := .span 100 50000, cls := .live, status := false, cmd := false, perPart := false },
    -- MIRROR_BIND_MS (17, R704)
    { i0 := 0x3600, i1 := 0x3600, s0 := 4, s1 := 4, ty := .u32, acc := 61, dflt := .num 10, rng := .span 1 1000, cls := .live, status := false, cmd := false, perPart := false },
    -- MIRROR_AUTO_REBUILD (17, R704)
    { i0 := 0x3600, i1 := 0x3600, s0 := 5, s1 := 5, ty := .bool, acc := 61, dflt := .num 1, rng := .span 0 1, cls := .live, status := false, cmd := false, perPart := false },
    -- MIRROR_TAKEOVER (17, R704)
    { i0 := 0x3600, i1 := 0x3600, s0 := 6, s1 := 6, ty := .u16, acc := 48, dflt := .num 65535, rng := .span 0 4095, cls := .live, status := false, cmd := true, perPart := false },
    -- MIRROR_WRITES (17, R704)
    { i0 := 0x3601, i1 := 0x3601, s0 := 1, s1 := 1, ty := .u64, acc := 61, dflt := .num 0, rng := .clear, cls := .live, status := true, cmd := false, perPart := false },
    -- MIRROR_REPAIRS (17, R704)
    { i0 := 0x3601, i1 := 0x3601, s0 := 2, s1 := 2, ty := .u64, acc := 61, dflt := .num 0, rng := .clear, cls := .live, status := true, cmd := false, perPart := false },
    -- REBUILD_BYTES (17, R704)
    { i0 := 0x3601, i1 := 0x3601, s0 := 3, s1 := 3, ty := .u64, acc := 61, dflt := .num 0, rng := .clear, cls := .live, status := true, cmd := false, perPart := false },
    -- MIRROR_ROLE (17, R704)
    { i0 := 0x3640, i1 := 0x365f, s0 := 1, s1 := 128, ty := .enum, acc := 61, dflt := .num 0, rng := .codes [0, 1], cls := .live, status := false, cmd := false, perPart := false },
    -- MIRROR_STATE (17, R704)
    { i0 := 0x3660, i1 := 0x367f, s0 := 1, s1 := 128, ty := .enum, acc := 21, dflt := .num 0, rng := .any, cls := .ro, status := true, cmd := false, perPart := false },
    -- MIRROR_REBUILD (17, R704)
    { i0 := 0x3680, i1 := 0x369f, s0 := 1, s1 := 128, ty := .blobFix 48, acc := 21, dflt := .bytes (zeros 48), rng := .any, cls := .ro, status := true, cmd := false, perPart := false }
  ]

/-- Objects of the range 0x4300. -/
def dictPage43 : List ORow :=
  [
    -- PQ_QUOTA_P (04, R219)
    { i0 := 0x4300, i1 := 0x4300, s0 := 1, s1 := 64, ty := .u32, acc := 53, dflt := .num 4294967295, rng := .any, cls := .live, status := false, cmd := false, perPart := true },
    -- PQ_RESERVE_P (04, R219)
    { i0 := 0x4301, i1 := 0x4301, s0 := 1, s1 := 64, ty := .u32, acc := 53, dflt := .num 0, rng := .any, cls := .live, status := false, cmd := false, perPart := true },
    -- PQ_QUOTA_L (04, R219)
    { i0 := 0x4302, i1 := 0x4302, s0 := 1, s1 := 64, ty := .u32, acc := 53, dflt := .num 4294967295, rng := .any, cls := .live, status := false, cmd := false, perPart := true },
    -- PQ_RESERVE_L (04, R219)
    { i0 := 0x4303, i1 := 0x4303, s0 := 1, s1 := 64, ty := .u32, acc := 53, dflt := .num 0, rng := .any, cls := .live, status := false, cmd := false, perPart := true },
    -- PQ_QUOTA_C (04, R219)
    { i0 := 0x4304, i1 := 0x4304, s0 := 1, s1 := 64, ty := .u32, acc := 53, dflt := .num 4294967295, rng := .any, cls := .live, status := false, cmd := false, perPart := true },
    -- PQ_RESERVE_C (04, R219)
    { i0 := 0x4305, i1 := 0x4305, s0 := 1, s1 := 64, ty := .u32, acc := 53, dflt := .num 0, rng := .any, cls := .live, status := false, cmd := false, perPart := true },
    -- PQ_HOMED_P (04, R219)
    { i0 := 0x4306, i1 := 0x4306, s0 := 1, s1 := 64, ty := .u32, acc := 21, dflt := .num 0, rng := .any, cls := .ro, status := true, cmd := false, perPart := true },
    -- PQ_HOMED_L (04, R219)
    { i0 := 0x4307, i1 := 0x4307, s0 := 1, s1 := 64, ty := .u32, acc := 21, dflt := .num 0, rng := .any, cls := .ro, status := true, cmd := false, perPart := true },
    -- PQ_HOMED_C (04, R219)
    { i0 := 0x4308, i1 := 0x4308, s0 := 1, s1 := 64, ty := .u32, acc := 21, dflt := .num 0, rng := .any, cls := .ro, status := true, cmd := false, perPart := true },
    -- PQ_COMMITTED (04, R219)
    { i0 := 0x4309, i1 := 0x4309, s0 := 1, s1 := 64, ty := .u32, acc := 21, dflt := .num 0, rng := .any, cls := .ro, status := true, cmd := false, perPart := true }
  ]

/-- Objects of the range 0x4500. -/
def dictPage45 : List ORow :=
  [
    -- LEASE_MS (07, R338)
    { i0 := 0x4500, i1 := 0x4500, s0 := 1, s1 := 64, ty := .u32, acc := 61, dflt := .num 1000, rng := .span 100 60000, cls := .live, status := false, cmd := false, perPart := true },
    -- LEASE_QUOTA (07, R338)
    { i0 := 0x4501, i1 := 0x4501, s0 := 1, s1 := 64, ty := .u16, acc := 53, dflt := .num 64, rng := .span 1 4096, cls := .live, status := false, cmd := false, perPart := true },
    -- HANDLE_QUOTA (07, R338)
    { i0 := 0x4502, i1 := 0x4502, s0 := 1, s1 := 64, ty := .u16, acc := 53, dflt := .num 1024, rng := .span 1 16384, cls := .live, status := false, cmd := false, perPart := true },
    -- LEASES_HELD (07, R338)
    { i0 := 0x4503, i1 := 0x4503, s0 := 1, s1 := 64, ty := .u16, acc := 21, dflt := .num 0, rng := .any, cls := .ro, status := true, cmd := false, perPart := true },
    -- HANDLES_HELD (07, R338)
    { i0 := 0x4504, i1 := 0x4504, s0 := 1, s1 := 64, ty := .u16, acc := 21, dflt := .num 0, rng := .any, cls := .ro, status := true, cmd := false, perPart := true }
  ]

/-- Objects of the range 0x4600. -/
def dictPage46 : List ORow :=
  [
    -- BN_ENGINE_MASK (08, R386)
    { i0 := 0x4600, i1 := 0x4600, s0 := 1, s1 := 64, ty := .bits 2, acc := 53, dflt := .num 65535, rng := .mask 65535, cls := .live, status := false, cmd := false, perPart := true },
    -- BN_WEIGHT (08, R386)
    { i0 := 0x4601, i1 := 0x4601, s0 := 1, s1 := 64, ty := .u8, acc := 53, dflt := .num 1, rng := .span 1 64, cls := .live, status := false, cmd := false, perPart := true },
    -- ACC_QUOTA (09, R429)
    { i0 := 0x4602, i1 := 0x4602, s0 := 1, s1 := 64, ty := .u32, acc := 53, dflt := .num 2097152, rng := .span 0 2097152, cls := .live, status := false, cmd := false, perPart := true },
    -- ACC_HELD (09, R429)
    { i0 := 0x4603, i1 := 0x4603, s0 := 1, s1 := 64, ty := .u32, acc := 21, dflt := .num 0, rng := .any, cls := .ro, status := true, cmd := false, perPart := true }
  ]

/-- Objects of the range 0x4700. -/
def dictPage47 : List ORow :=
  [
    -- TP_WEIGHT (10, R466)
    { i0 := 0x4700, i1 := 0x4700, s0 := 1, s1 := 64, ty := .u8, acc := 53, dflt := .num 1, rng := .span 1 64, cls := .live, status := false, cmd := false, perPart := true },
    -- TP_QUERIES (10, R466)
    { i0 := 0x4701, i1 := 0x4701, s0 := 1, s1 := 64, ty := .u64, acc := 21, dflt := .num 0, rng := .any, cls := .ro, status := true, cmd := false, perPart := true }
  ]

/-- Objects of the range 0x4800. -/
def dictPage48 : List ORow :=
  [
    -- TD_ARRAY_MASK (11, R507)
    { i0 := 0x4800, i1 := 0x4800, s0 := 1, s1 := 64, ty := .bits 1, acc := 53, dflt := .num 255, rng := .mask 255, cls := .live, status := false, cmd := false, perPart := true },
    -- TD_WEIGHT (11, R507)
    { i0 := 0x4801, i1 := 0x4801, s0 := 1, s1 := 64, ty := .u8, acc := 53, dflt := .num 1, rng := .span 1 64, cls := .live, status := false, cmd := false, perPart := true }
  ]

/-- Objects of the range 0x4900. -/
def dictPage49 : List ORow :=
  [
    -- SH_ENGINE_MASK (12, R547)
    { i0 := 0x4900, i1 := 0x4900, s0 := 1, s1 := 64, ty := .bits 4, acc := 53, dflt := .num 4294967295, rng := .mask 4294967295, cls := .live, status := false, cmd := false, perPart := true },
    -- SH_WEIGHT (12, R547)
    { i0 := 0x4901, i1 := 0x4901, s0 := 1, s1 := 64, ty := .u8, acc := 53, dflt := .num 1, rng := .span 1 64, cls := .live, status := false, cmd := false, perPart := true },
    -- SH_BYTES (12, R547)
    { i0 := 0x4902, i1 := 0x4902, s0 := 1, s1 := 64, ty := .u64, acc := 21, dflt := .num 0, rng := .any, cls := .ro, status := true, cmd := false, perPart := true }
  ]

/-- Objects of the range 0x4a00. -/
def dictPage4A : List ORow :=
  [
    -- PART_STATE (14, R627)
    { i0 := 0x4a00, i1 := 0x4a00, s0 := 1, s1 := 64, ty := .enum, acc := 21, dflt := .num 0, rng := .any, cls := .ro, status := true, cmd := false, perPart := true },
    -- PART_HEARTH (14, R627)
    { i0 := 0x4a01, i1 := 0x4a01, s0 := 1, s1 := 64, ty := .bits 2, acc := 53, dflt := .num 0, rng := .mask 65535, cls := .live, status := false, cmd := false, perPart := true },
    -- PART_ENTRY (14, R627)
    { i0 := 0x4a02, i1 := 0x4a02, s0 := 1, s1 := 64, ty := .u64, acc := 53, dflt := .num 0, rng := .multiple 4, cls := .live, status := false, cmd := false, perPart := true },
    -- PART_INCARNATION (14, R627)
    { i0 := 0x4a03, i1 := 0x4a03, s0 := 1, s1 := 64, ty := .u16, acc := 21, dflt := .num 0, rng := .span 0 4095, cls := .ro, status := true, cmd := false, perPart := true },
    -- PART_KEY (14, R627)
    { i0 := 0x4a04, i1 := 0x4a04, s0 := 1, s1 := 64, ty := .enum, acc := 21, dflt := .num 0, rng := .any, cls := .ro, status := true, cmd := false, perPart := true },
    -- PART_VIOLATIONS (14, R627)
    { i0 := 0x4a05, i1 := 0x4a05, s0 := 1, s1 := 64, ty := .u64, acc := 48, dflt := .num 0, rng := .clear, cls := .live, status := true, cmd := false, perPart := true },
    -- PART_REMOVAL (14, R627)
    { i0 := 0x4a06, i1 := 0x4a06, s0 := 1, s1 := 64, ty := .blobFix 48, acc := 21, dflt := .bytes (zeros 48), rng := .any, cls := .ro, status := true, cmd := false, perPart := true }
  ]

/-- Objects of the range 0x4b00. -/
def dictPage4B : List ORow :=
  [
    -- BB_P_DELIVERIES (15, R649)
    { i0 := 0x4b00, i1 := 0x4b00, s0 := 1, s1 := 64, ty := .u64, acc := 21, dflt := .num 0, rng := .any, cls := .ro, status := true, cmd := false, perPart := true }
  ]

/-- Objects of the range 0x4c00. -/
def dictPage4C : List ORow :=
  [
    -- V_OPS (16, R670)
    { i0 := 0x4c00, i1 := 0x4c00, s0 := 1, s1 := 64, ty := .u64, acc := 21, dflt := .num 0, rng := .any, cls := .ro, status := true, cmd := false, perPart := true }
  ]

/-- Objects of the range 0x4d00. -/
def dictPage4D : List ORow :=
  [
    -- METER_P_RD (17, R704)
    { i0 := 0x4d00, i1 := 0x4d00, s0 := 1, s1 := 64, ty := .u64, acc := 21, dflt := .num 0, rng := .any, cls := .ro, status := true, cmd := false, perPart := true },
    -- METER_P_WR (17, R704)
    { i0 := 0x4d01, i1 := 0x4d01, s0 := 1, s1 := 64, ty := .u64, acc := 21, dflt := .num 0, rng := .any, cls := .ro, status := true, cmd := false, perPart := true },
    -- METER_L_RD (17, R704)
    { i0 := 0x4d02, i1 := 0x4d02, s0 := 1, s1 := 64, ty := .u64, acc := 21, dflt := .num 0, rng := .any, cls := .ro, status := true, cmd := false, perPart := true },
    -- METER_L_WR (17, R704)
    { i0 := 0x4d03, i1 := 0x4d03, s0 := 1, s1 := 64, ty := .u64, acc := 21, dflt := .num 0, rng := .any, cls := .ro, status := true, cmd := false, perPart := true },
    -- METER_C_RD (17, R704)
    { i0 := 0x4d04, i1 := 0x4d04, s0 := 1, s1 := 64, ty := .u64, acc := 21, dflt := .num 0, rng := .any, cls := .ro, status := true, cmd := false, perPart := true },
    -- METER_C_WR (17, R704)
    { i0 := 0x4d05, i1 := 0x4d05, s0 := 1, s1 := 64, ty := .u64, acc := 21, dflt := .num 0, rng := .any, cls := .ro, status := true, cmd := false, perPart := true },
    -- METER_FAR_ATOMICS (17, R704)
    { i0 := 0x4d06, i1 := 0x4d06, s0 := 1, s1 := 64, ty := .u64, acc := 21, dflt := .num 0, rng := .any, cls := .ro, status := true, cmd := false, perPart := true },
    -- METER_MIGRATIONS (17, R704)
    { i0 := 0x4d07, i1 := 0x4d07, s0 := 1, s1 := 64, ty := .u64, acc := 21, dflt := .num 0, rng := .any, cls := .ro, status := true, cmd := false, perPart := true },
    -- METER_TREADLE_CYCLES (17, R704)
    { i0 := 0x4d08, i1 := 0x4d08, s0 := 1, s1 := 64, ty := .u64, acc := 21, dflt := .num 0, rng := .any, cls := .ro, status := true, cmd := false, perPart := true },
    -- METER_TAPE_CODES (17, R704)
    { i0 := 0x4d09, i1 := 0x4d09, s0 := 1, s1 := 64, ty := .u64, acc := 21, dflt := .num 0, rng := .any, cls := .ro, status := true, cmd := false, perPart := true },
    -- METER_PORT_RX (17, R704)
    { i0 := 0x4d0a, i1 := 0x4d0a, s0 := 1, s1 := 64, ty := .u64, acc := 21, dflt := .num 0, rng := .any, cls := .ro, status := true, cmd := false, perPart := true },
    -- METER_PORT_TX (17, R704)
    { i0 := 0x4d0b, i1 := 0x4d0b, s0 := 1, s1 := 64, ty := .u64, acc := 21, dflt := .num 0, rng := .any, cls := .ro, status := true, cmd := false, perPart := true },
    -- METER_HEARTH_CYCLES (17, R704)
    { i0 := 0x4d0c, i1 := 0x4d0c, s0 := 1, s1 := 64, ty := .u64, acc := 21, dflt := .num 0, rng := .any, cls := .ro, status := true, cmd := false, perPart := true },
    -- METER_ALL (17, R704)
    { i0 := 0x4d10, i1 := 0x4d10, s0 := 1, s1 := 64, ty := .blobFix 104, acc := 21, dflt := .bytes (zeros 104), rng := .any, cls := .ro, status := true, cmd := false, perPart := true }
  ]

/-- The rows of an index page (the high byte of the index). -/
def dictPage : Nat → List ORow
  | 0x10 => dictPage10
  | 0x11 => dictPage11
  | 0x12 => dictPage12
  | 0x20 => dictPage20
  | 0x21 => dictPage21
  | 0x22 => dictPage22
  | 0x23 => dictPage23
  | 0x24 => dictPage24
  | 0x25 => dictPage25
  | 0x26 => dictPage26
  | 0x27 => dictPage27
  | 0x28 => dictPage28
  | 0x29 => dictPage29
  | 0x2a => dictPage2A
  | 0x2b => dictPage2B
  | 0x2c => dictPage2C
  | 0x30 => dictPage30
  | 0x31 => dictPage31
  | 0x32 => dictPage32
  | 0x33 => dictPage33
  | 0x34 => dictPage34
  | 0x36 => dictPage36
  | 0x43 => dictPage43
  | 0x45 => dictPage45
  | 0x46 => dictPage46
  | 0x47 => dictPage47
  | 0x48 => dictPage48
  | 0x49 => dictPage49
  | 0x4a => dictPage4A
  | 0x4b => dictPage4B
  | 0x4c => dictPage4C
  | 0x4d => dictPage4D
  | _ => []

/-- Every page that holds an object, rising. -/
def dictPages : List Nat := [0x10, 0x11, 0x12, 0x20, 0x21, 0x22, 0x23, 0x24, 0x25, 0x26, 0x27, 0x28, 0x29, 0x2a, 0x2b, 0x2c, 0x30, 0x31, 0x32, 0x33, 0x34, 0x36, 0x43, 0x45, 0x46, 0x47, 0x48, 0x49, 0x4a, 0x4b, 0x4c, 0x4d]

/-- Does the row name INDEX:SUB? -/
def ORow.has (r : ORow) (i s : Nat) : Bool :=
  decide (r.i0 ≤ i) && decide (i ≤ r.i1) && decide (r.s0 ≤ s) && decide (s ≤ r.s1)

/-- The row of INDEX:SUB. -/
def dictFind (i s : Nat) : Option ORow := (dictPage (i / 256)).find? (fun r => r.has i s)

/-- The key of INDEX:SUB. -/
def okey (i s : Nat) : Nat := i * 256 + s

/-- What an object that nothing has changed reads as (R50), by key. -/
def objDefault (k : Nat) : Val :=
  match dictFind (k / 256) (k % 256) with
  | some r => r.dflt
  | none => .num 0

/-- Size on the wire of a fixed-size type; 0 for STR and BLOB (Table 2.1). -/
def OTy.size : OTy → Nat
  | .bool => 1 | .u8 => 1 | .u16 => 2 | .u32 => 4 | .u64 => 8
  | .i8 => 1 | .i16 => 2 | .i32 => 4 | .i64 => 8 | .f32 => 4 | .enum => 2
  | .bits n => n
  | .str _ => 0 | .blobFix _ => 0 | .blobVar _ => 0

/-- Type code (Table 2.1). -/
def OTy.code : OTy → Nat
  | .bool => 1 | .u8 => 2 | .u16 => 3 | .u32 => 4 | .u64 => 5
  | .i8 => 6 | .i16 => 7 | .i32 => 8 | .i64 => 9 | .f32 => 0x0A | .enum => 0x0B
  | .bits _ => 0x0C | .str _ => 0x0D | .blobFix _ => 0x0E | .blobVar _ => 0x0E

/-- The greatest length (MAXSIZE of DESCRIBE). -/
def OTy.maxSize : OTy → Nat
  | .str n => n
  | .blobFix n => n
  | .blobVar n => n
  | t => t.size

/-- Is the type signed? -/
def OTy.signed : OTy → Bool
  | .i8 => true | .i16 => true | .i32 => true | .i64 => true
  | _ => false

/-- STR and BLOB values are bytes; the others are numbers. -/
def OTy.isBytes : OTy → Bool
  | .str _ => true | .blobFix _ => true | .blobVar _ => true
  | _ => false

/-- The CLASS code of DESCRIBE (R90). -/
def OClass.code : OClass → Nat
  | .ro => 0 | .live => 1 | .drain => 2 | .stopped _ => 3 | .boot => 4

/-- The wire form of a value (R51). -/
def encodeVal (t : OTy) : Val → Bytes
  | .num n => toLe t.size n
  | .bytes b => b

end Sys2Proof.Machine
end

