-- ==== Sys2Proof/Machine/Sparse.lean ====
section
/-! DEFINITION. Sparse tables: reading, writing and erasing by key, in one canonical form. -/
namespace Sys2Proof.Machine

/-- The value under key `k`, where an unlisted key reads as `d k`. -/
def sget {α : Type} (d : Nat → α) : Sparse α → Nat → α
  | [], k => d k
  | (a, v) :: t, k => if k = a then v else sget d t k

/-- Write `v` under key `k`, keeping keys rising and dropping an entry that equals `d k`. -/
def sput {α : Type} [DecidableEq α] (d : Nat → α) : Sparse α → Nat → α → Sparse α
  | [], k, v => if v = d k then [] else [(k, v)]
  | (a, w) :: t, k, v =>
    if k < a then (if v = d k then (a, w) :: t else (k, v) :: (a, w) :: t)
    else if k = a then (if v = d k then t else (k, v) :: t)
    else (a, w) :: sput d t k v

/-- Keys rise strictly from above `lo`, and no entry equals the default. -/
def swfFrom {α : Type} [DecidableEq α] (d : Nat → α) : Nat → Sparse α → Bool
  | _, [] => true
  | lo, (a, v) :: t => decide (lo ≤ a) && decide (v ≠ d a) && swfFrom d (a + 1) t

/-- The canonical form of a sparse table. -/
def swf {α : Type} [DecidableEq α] (d : Nat → α) (m : Sparse α) : Bool := swfFrom d 0 m

/-- Apply `f` to the value under key `k`. -/
def smod {α : Type} [DecidableEq α] (d : Nat → α) (m : Sparse α) (k : Nat) (f : α → α) : Sparse α :=
  sput d m k (f (sget d m k))

/-- The entry under `k`, if one is listed. -/
def sfind {α : Type} : Sparse α → Nat → Option α
  | [], _ => none
  | (a, v) :: t, k => if k = a then some v else sfind t k

/-- Insert or replace the entry under `k`; keys stay rising. -/
def sset {α : Type} : Sparse α → Nat → α → Sparse α
  | [], k, v => [(k, v)]
  | (a, w) :: t, k, v =>
    if k < a then (k, v) :: (a, w) :: t
    else if k = a then (k, v) :: t
    else (a, w) :: sset t k v

/-- Remove the entry under `k`. -/
def sdel {α : Type} : Sparse α → Nat → Sparse α
  | [], _ => []
  | (a, w) :: t, k => if k = a then t else (a, w) :: sdel t k

/-- Apply `f` to the entry under `k`, if one is listed. -/
def supd {α : Type} : Sparse α → Nat → (α → α) → Sparse α
  | [], _, _ => []
  | (a, w) :: t, k, f => if k = a then (a, f w) :: t else (a, w) :: supd t k f

/-- The least number from `n` upward, over `fuel` candidates, that `taken` does not hold. -/
def firstFree (taken : Nat → Bool) : Nat → Nat → Option Nat
  | _, 0 => none
  | n, fuel + 1 => if taken n then firstFree taken (n + 1) fuel else some n

/-- Insert `k` into a rising list of numbers. -/
def ninsert : List Nat → Nat → List Nat
  | [], k => [k]
  | a :: t, k => if k < a then k :: a :: t else if k = a then a :: t else a :: ninsert t k

/-- The first `n` numbers. -/
def upTo (n : Nat) : List Nat := List.range n

/-- Keep `f`'s answers, in the list's order, threading a state. -/
def foldMapS {σ α β : Type} (f : σ → α → β × σ) : σ → List α → List β × σ
  | s, [] => ([], s)
  | s, a :: t =>
    let r := f s a
    let q := foldMapS f r.2 t
    (r.1 :: q.1, q.2)

end Sys2Proof.Machine
end

