-- ==== Sys2Proof/Machine/State.lean ====
section
/-! DEFINITION. The state of the block: every register, table, buffer, counter, mode and pin that the spec gives it, as plain data, with the queue of waiting commands, and the state after reset. -/
namespace Sys2Proof.Machine

/-- A value staged by WRITE segments (R91). -/
structure Staged where
  index : Nat
  sub : Nat
  totalLen : Nat
  data : Bytes
  deriving DecidableEq, Repr

/-- A RESPONSE as sent (R89): OPCODE, TAG, ABORT and the bytes after ABORT. -/
structure Response where
  opcode : Nat
  tag : Nat
  abort : Nat
  body : Bytes
  deriving DecidableEq, Repr

/-- An EVENT (R95). `subId` 0 for kinds 2, 3 and 5. -/
structure Event where
  subId : Nat
  kind : Nat
  seq : Nat
  index : Nat
  sub : Nat
  type : Nat
  data : Bytes
  deriving DecidableEq, Repr

/-- An event sent and not yet acknowledged (R96): attempts made and when the last was. -/
structure Unacked where
  ev : Event
  attempts : Nat
  sentAt : Nat
  deriving DecidableEq, Repr

/-- A frame that the device sends (Table 2.7). -/
inductive PbpFrame where
  | helloReply (body : Bytes)
  | accept (role idleTimeout : Nat)
  | response (r : Response)
  | event (e : Event)
  | close (reason : Nat)
  | busy
  deriving DecidableEq, Repr

/-- A frame that waits for a private read of an I3C session (R77): its SEQ, itself and its tag. -/
structure ReadyFrame where
  seq : Nat
  frame : PbpFrame
  auth : Bytes
  deriving DecidableEq, Repr

/-- A WRITE_GROUP whose response is still waited for (R92): its TAG, the entries not yet answered, and the abort code and sub-index of one that was refused. -/
structure GroupWait where
  tag : Nat
  left : Nat
  abort : Nat
  failSub : Nat
  deriving DecidableEq, Repr

/-- One session slot (R80 to R93, R100). Times are in ticks of 10 ns. `hello` and `reply`: the bodies of the handshake, which the role proof covers (R84); `c2d` and `d2c`: the
session keys, which the Thimble holds (R82). -/
structure Session where
  inUse : Bool
  halfOpen : Bool
  sid : Nat
  role : Nat
  claimed : Nat
  keySlot : Nat
  addr : Nat
  openedAt : Nat
  lastFrame : Nat
  clientSeq : Nat
  deviceSeq : Nat
  framesIn : Nat
  framesOut : Nat
  outstanding : Nat
  kept : List Response
  staged : Option Staged
  nextEvent : Nat
  unacked : List Unacked
  waiting : List Event
  ready : List ReadyFrame
  boltQuery : Nat
  dirQuery : Nat
  verQuery : Nat
  leaseQuery : Nat
  resourceQuery : Nat
  groups : List GroupWait
  hello : Bytes
  reply : Bytes
  c2d : Bytes
  d2c : Bytes
  deriving DecidableEq, Repr

/-- An empty session slot. -/
def Session.free : Session :=
  { inUse := false, halfOpen := false, sid := 0, role := 0, claimed := 0, keySlot := 0, addr := 0,
    openedAt := 0, lastFrame := 0, clientSeq := 0, deviceSeq := 0, framesIn := 0, framesOut := 0,
    outstanding := 0, kept := [], staged := none, nextEvent := 0, unacked := [], waiting := [],
    ready := [], boltQuery := 0, dirQuery := 0, verQuery := 0, leaseQuery := 0, resourceQuery := 0, groups := [],
    hello := [], reply := [], c2d := [], d2c := [] }

/-- A subscription (R90, R97): the values last sent per sub-index, an unsent event held back, when
the last event was sent, and when the next period ends. -/
structure Subscription where
  id : Nat
  slot : Nat
  index : Nat
  sub : Nat
  mode : Nat
  periodMs : Nat
  minIntervalMs : Nat
  last : Sparse Val
  held : Bool
  sentAt : Nat
  dueAt : Nat
  deriving DecidableEq, Repr

/-- A pending DRAIN value (R63, R64): `key` is INDEX × 256 + SUB; `group` numbers the write it
belongs to, and `isGroup` says that this was a WRITE_GROUP. -/
structure DrainValue where
  block : DrainBlock
  key : Nat
  value : Val
  slot : Nat
  sid : Nat
  tag : Nat
  group : Nat
  isGroup : Bool
  deriving DecidableEq, Repr

/-- One bank of the stored set in the configuration flash (R70): its sequence number (0: an empty bank), its entries by object, and the digest of them. The spec does not give
how a bank's bytes lie in the flash: it is held as this record (log entry 64). -/
structure StoreBank where
  seq : Nat
  digest : Bytes
  entries : Sparse Val
  deriving DecidableEq, Repr

/-- A bank that nothing has been stored into. -/
def StoreBank.empty : StoreBank := { seq := 0, digest := [], entries := [] }

/-- A WRITE whose response waits for work that it started (R711, R258, R263, R120, R693), with the sub-index written. -/
structure WaitingWrite where
  slot : Nat
  sid : Nat
  tag : Nat
  opcode : Nat
  sub : Nat
  deriving DecidableEq, Repr

/-- The Pattern Book agent (ch. 2): session slots 0–15 (Ethernet) and 16–17 (I3C), the next session
ID, subscriptions, pending DRAIN values, the two banks of the stored set, the I3C address, BUSY frames that wait for a private read, when the standby
responder last shook hands (plus 1), the frames of ended I3C sessions that wait for a private read, by slot (R77, R87), and the values after reset of objects that the flash
gives and that change later (R50): by object. -/
structure PbState where
  sessions : Sparse Session
  nextSid : Nat
  subs : List Subscription
  nextSub : Nat
  drains : List DrainValue
  nextGroup : Nat
  bank1 : StoreBank
  bank2 : StoreBank
  rejected : Nat
  i3cDynamic : Nat
  i3cBusy : Nat
  lastHandshake : Nat
  i3cTail : List (Nat × ReadyFrame)
  atBoot : Sparse Nat
  deriving DecidableEq, Repr

/-- No session, no subscription, empty flash banks (the flash contents: log entry 5). -/
def PbState.reset : PbState :=
  { sessions := [], nextSid := 1, subs := [], nextSub := 1, drains := [], nextGroup := 0,
    bank1 := StoreBank.empty, bank2 := StoreBank.empty, rejected := 0, i3cDynamic := 0, i3cBusy := 0,
    lastHandshake := 0, i3cTail := [], atBoot := [] }

/-- A region (Table 3.2). `valid` is V. `releasing`: the release of R122 has begun and not ended. -/
structure Region where
  valid : Bool
  releasing : Bool
  base : Nat
  size : Nat
  enc : Bool
  tile : Bool
  lostPolicy : Bool
  mirror : Bool
  kind : Nat
  owner : Nat
  tierPolicy : Nat
  mirrorEp : Nat
  shareRd : Nat
  shareWr : Nat
  mirrorBase : Nat
  deriving DecidableEq, Repr

/-- A descriptor of all zeros. -/
def Region.none : Region :=
  { valid := false, releasing := false, base := 0, size := 0, enc := false, tile := false,
    lostPolicy := false, mirror := false, kind := 0, owner := 0, tierPolicy := 0, mirrorEp := 0,
    shareRd := 0, shareWr := 0, mirrorBase := 0 }

/-- An inbound window entry (Table 3.6). -/
structure Window where
  valid : Bool
  compat : Bool
  ro : Bool
  blkOk : Bool
  atomicOk : Bool
  wbase : Nat
  wsize : Nat
  target : Nat
  owner : Nat
  port : Nat
  targetCid : Nat
  share : Nat
  deriving DecidableEq, Repr

/-- An entry of all zeros. -/
def Window.none : Window :=
  { valid := false, compat := false, ro := false, blkOk := false, atomicOk := false, wbase := 0,
    wsize := 0, target := 0, owner := 0, port := 0, targetCid := 0, share := 0 }

/-- The routing map (R149 to R152): port masks of the active and the staging bank by endpoint, the
current epoch, the epoch it replaced with the time of that commit while grace may run, ROUTE_STAGE
writes held while a copy is in progress, and whether one is. -/
structure RouteState where
  active : Sparse Nat
  staging : Sparse Nat
  epoch : Nat
  prev : Option (Nat × Nat)
  copying : Bool
  heldStage : List (Nat × Nat × Bytes)
  deriving DecidableEq, Repr

/-- A cached translation (R134): where it is cached (requester kind 0 for a Vestibule, else the
engine's kind; the unit), the CID, page, what the walk gave, and the context entry that it began from, which is cached with it. -/
structure XlatEntry where
  kind : Nat
  unit : Nat
  cid : Nat
  vpn : Nat
  pageBase : Nat
  user : Bool
  read : Bool
  write : Bool
  dirty : Bool
  ctx : Nat
  deriving DecidableEq, Repr

/-- An open translation-fault record (Table 3.10, R136 to R141), under its partition's index `n`. -/
structure FaultRec where
  part : Nat
  n : Nat
  cid : Nat
  cause : Nat
  attached : Nat
  kind : Nat
  unit : Nat
  read : Bool
  write : Bool
  atomic : Bool
  user : Bool
  vpn : Nat
  level : Nat
  pte : Nat
  opened : Nat
  total : Nat
  timedOut : Nat
  deriving DecidableEq, Repr

/-- Why a request waits: behind an earlier ORD request of its source (R279); for a tracker (R155);
in a fault record (R136) or for one to free (R137); for its bolt to be moved up (R204), or for the cutover of its move (R171 step 4); for a slot
(R192); for a basting page (R309); for a line's transaction (R240, R253, R256); for the knot of a
rebuild's bolt (R698); for the mirror write or the forwarded request that stands for it, with the
status and data that it will complete with (R695), or for the request forwarded for it (R146);
`ready`: nothing any more, with the status that its line's transaction gives it, and the line's value where a peek returned one; `ends`: nothing, and it
completes with a status (R140); `discarded`: for its completion timeout only (R192, R540). -/
inductive Why where
  | order
  | tracker
  | faultRec (part n : Nat)
  | faultWait (vpn cause level pte : Nat) (user : Bool)
  | bolt (b : Nat)
  | cutover (b : Nat)
  | slot
  | baste (region : Nat)
  | line (ln : Nat)
  | span (region bolt : Nat)
  | away (status : Nat) (data : Bytes)
  | forwarded
  | ready (served : Option (Nat × Option Bytes))
  | ends (status : Nat)
  | discarded
  deriving DecidableEq, Repr

/-- What the completion of a request of the node's own is for: nothing that waits; a held request that
it stands for (a forwarded request, R146, or a mirror write, R695); a descriptor's own write of `n` bytes at
destination `dest`, or its add to an arrival counter; a mirror write
that a descriptor waits for; a rebuild's span
(R698); a sync sample (R665): the stamp t1 and the replays counted at every port then. -/
inductive IssFor where
  | none
  | held (seq : Nat)
  | desc (q : QueueId) (pos dest n : Nat)
  | descAdd (q : QueueId) (pos dest : Nat)
  | descMirror (q : QueueId) (pos : Nat)
  | rebuild (region bolt : Nat)
  | sync (t1 mark : Nat)
  deriving DecidableEq, Repr

/-- A request that waits at the node: its place in the order of arrival and when it arrived. `checked`:
it has passed the check at the memory, under the descriptor `desc` (R118). `deadline`: when its completion timeout ends (R539); `discardAt`: when
it has waited for HOLD_US as it stood at its arrival (R540, R62). `xlatVpn`: the page it was translated through (R135). `win`: the window entry that it matched at its arrival, once it has been
matched (R144). `owed`: the class of the port credit that it still holds (R155). `target`: what waits for a request of the node itself. -/
structure Held where
  seq : Nat
  since : Nat
  deadline : Nat
  why : Why
  req : Req
  target : IssFor
  checked : Bool
  xlatVpn : Option Nat
  discardAt : Nat
  desc : Region
  win : Option (Option Window)
  owed : Option Nat
  deriving DecidableEq, Repr

/-- A request that the node has issued and that has not completed (R539): its number, the tag it carries once sent (RPORT × 4,096 + TAG, R570), the request, when
it was issued, when its completion timeout ends (R539), whether it has been sent (R280), the map epoch that its reissue waits for (R154), what
its completion is for, and the region whose mirror write it is (R695). -/
structure Issued where
  tag : Nat
  wire : Option Nat
  req : Req
  at_ : Nat
  deadline : Nat
  sent : Bool
  retryEpoch : Option Nat
  target : IssFor
  mirror : Option Nat
  port : Nat
  deriving DecidableEq, Repr

/-- An invalidation in progress or waiting (R135): the CIDs' partition, what it drops, and, once it is in
progress, the requests translated with a dropped entry that have not completed, and the descriptors with such requests still to come. -/
structure Inval where
  part : Nat
  started : Bool
  waits : List Nat
  descs : List DescRef
  asid : Option Nat
  vpn : Option Nat
  deriving DecidableEq, Repr

/-- The common control-window registers of one partition (Tables 3.8 and 3.9). -/
structure CwCommon where
  xlatBase : Nat
  xlatCount : Nat
  invVa : Nat
  overflow : Bool
  done : Nat
  notifyAddr : Nat
  notifyData : Nat
  deriving DecidableEq, Repr

/-- Their reset values. -/
def CwCommon.reset : CwCommon :=
  { xlatBase := 0, xlatCount := 0, invVa := 0, overflow := false, done := 0, notifyAddr := 0,
    notifyData := 0 }

/-- A translation fault met by an engine or a core while its command runs (the model's own: `none`
between steps, log entry 13): CID, requester, page, cause, level, last PTE, the kind of access, whether the tables were walked, and the record of the violation that
a read of the walk was (R130). -/
structure Trap where
  cid : Nat
  kind : Nat
  unit : Nat
  vpn : Nat
  cause : Nat
  level : Nat
  pte : Nat
  user : Bool
  write : Bool
  atomic : Bool
  walked : Bool
  viol : Option Bytes
  deriving DecidableEq, Repr

/-- Why an engine's access cannot be made yet (the model's own: `none` between steps, log entry 13): its bolt is to be moved up first (R204); an earlier request to
its destination has not completed (R148, R153, R154, R279); no tracker is free (R155); its line is busy (R240), or is to be recalled first (R121); a write's bolt takes a slot in the Cellar, and is then to be moved up (R175). The command that makes it has no effect, and is sent again. -/
inductive Stall where
  | bolt (b : Nat)
  | route
  | tracker
  | line
  | place (b region q : Nat)
  | recall (region line kind unit cid : Nat)
  deriving DecidableEq, Repr

/-- What the node holds of requests (ch. 3, R26 to R28, R539, R540): requests that wait, requests it
has issued, fault records, cached translations, invalidations, the control windows' common registers,
the tracker banks that work (R686), a trap or a stall met by the command that runs, completions
not yet handed on, lines written by the home that are to be mirrored, and descriptors that a resolved record translates again (R140), each with its place in the order of
arrival (these five the model's own, empty between steps, log entry 13). -/
structure AccState where
  nextSeq : Nat
  held : List Held
  issued : List Issued
  nextTag : Nat
  faults : List FaultRec
  xlat : List XlatEntry
  invals : List Inval
  cw : Sparse CwCommon
  banksOk : Nat
  trap : Option Trap
  stall : Option Stall
  done : List (IssFor × Nat × Bytes)
  mirrorDue : List Nat
  again : List (Nat × DescRef)
  deriving DecidableEq, Repr

/-- Nothing waits, nothing is cached. -/
def AccState.reset : AccState :=
  { nextSeq := 0, held := [], issued := [], nextTag := 0, faults := [], xlat := [], invals := [],
    cw := [], banksOk := 0xFFFF, trap := none, stall := none, done := [], mirrorDue := [], again := [] }

/-- A bolt map entry (Table 4.2) with its pending count and the tally by quadrant of R170. `pins`
counts what holds the bolt in the Parlour (stream windows and the hot set); PIN reads 1 when it is
not zero. `movedAt`: its last cutover (`none`: it has never moved); `promoted`: that was a promotion of R193; `hinted`: 1 until the sweep after a hint, 2 after it (R199);
`sweptAt`: the sweeper's last visit;
`cellarBad`: the lines of the 4 KiB units that the Cellar could not correct which have not been rewritten in full since (R206). -/
structure Bolt where
  home : Nat
  moving : Bool
  pins : Nat
  tile : Bool
  age : Nat
  heat : Nat
  part : Nat
  quad : Nat
  slot : Nat
  cellarBad : List Nat
  region : Nat
  lastMove : Nat
  movedAt : Option Nat
  promoted : Bool
  hinted : Nat
  sweptAt : Option Nat
  pendingN : Nat
  tally : List Nat
  deriving DecidableEq, Repr

/-- An unallocated bolt: every field zero (Table 4.2). -/
def Bolt.none : Bolt :=
  { home := 0, moving := false, pins := 0, tile := false, age := 0, heat := 0, part := 0, quad := 0,
    slot := 0, cellarBad := [], region := 0, lastMove := 0, movedAt := Option.none, promoted := false, hinted := 0,
    sweptAt := Option.none, pendingN := 0, tally := [] }

/-- Why a bolt moves (R195); `need`: an eviction that a waiting request needs. -/
inductive MoveCause where
  | demand | need | evict | stream | promote | demote | hint | retire
  deriving DecidableEq, Repr

/-- A move in progress (R171): the bolt, its destination, and why; the next line of the first pass (step 2), the pass (0 the first, 1 and 2 the further ones of
step 3, 3 the hold of step 4), the lines that the pass has yet to copy, and those written since they were copied. -/
structure Move where
  bolt : Nat
  tier : Nat
  slot : Nat
  cause : MoveCause
  next : Nat
  pass : Nat
  work : List Nat
  dirty : List Nat
  deriving DecidableEq, Repr

/-- A freed slot that is not yet usable (R174, R171 step 6): zero-fill or erase is due, and for which
partition it counts in a removal (R628); `waits`: the requests checked before the cutover that has freed it (step 6). -/
structure FreedSlot where
  tier : Nat
  slot : Nat
  part : Nat
  ready : Bool
  waits : List Nat
  deriving DecidableEq, Repr

/-- A PLACE_HINT that is held or not yet carried out (R197, R199): first bolt, bolts, tier. -/
structure Hint where
  first : Nat
  count : Nat
  tier : Nat
  deriving DecidableEq, Repr

/-- The run of one stream window (R207 to R211): run state, position, highest ready value, the layers
fetched, the layer being fetched, the bolts it pins, and the values written to its advance word that it has not taken yet. -/
structure StreamRun where
  run : Nat
  pos : Nat
  ready : Nat
  fetched : List Nat
  fetching : Option Nat
  pinned : List Nat
  writes : List Nat
  deriving DecidableEq, Repr

/-- STOPPED, at position 0. -/
def StreamRun.reset : StreamRun :=
  { run := 1, pos := 0, ready := 0, fetched := [], fetching := none, pinned := [], writes := [] }

/-- Thermal state of a stack or channel (R201): 0 NORMAL, 1 WARM, 2 HOT, and when it last changed. -/
structure TierHeat where
  state : Nat
  changedAt : Option Nat
  deriving DecidableEq, Repr

/-- The tiers and their placement (ch. 4): sizes found at bring-up (R163), the bolt map, moves,
freed and retired slots, corrected errors per slot (tier, slot, when, how many: R215) and the slots' last patrol visits, held hints, promotion and decision queues,
learning phase, thermal states and stream windows (a decision is a bolt with 0 a promotion queued, 1 one for the next step boundary, 2 and 3 a demotion by policy or quota, 16 + v a promotion whose victim v is demoted first: R193, R198); `upQueue`: bolts whose move-up is asked for and not open yet, in order of arrival (R205); `late`: lines written back from caches
whose bolt has no slot yet or is still in the Cellar, with the quadrant of the writer (R175, R192; log entry 79); `mapCache`: the bolts whose map entries are cached, with their tags, oldest
first (R169); `allowPL` and `allowLC`: what the move budgets have left over, in 1/200 B (R195); `scrubs`: when a slot was last visited by the patrol
scrubber (tier × 2^32 + slot; plus 1); `refreshes`: how often each Cellar block has been refreshed (R214). -/
structure TierState where
  up : Bool
  larderFitted : List Nat
  cellarRaw : Nat
  cellarFitted : List Nat
  parlourSlots : Nat
  larderSlots : Nat
  cellarSlots : Nat
  mapReserve : Nat
  unifiedSize : Nat
  spareP : Nat
  spareL : Nat
  spareC : Nat
  map : Sparse Bolt
  moves : List Move
  freed : List FreedSlot
  retired : List (Nat × Nat)
  slotErrors : List (Nat × Nat × Nat × Nat)
  hints : List Hint
  queued : List (Nat × Nat)
  learning : Bool
  learnAccesses : Nat
  learnStart : Nat
  stackHeat : Sparse TierHeat
  larderHeat : Sparse TierHeat
  quarantined : List (Nat × Nat)
  noSlot : Bool
  streams : Sparse StreamRun
  upQueue : List Nat
  late : List (Nat × Nat)
  mapCache : List (Nat × Nat)
  allowPL : Int
  allowLC : Int
  scrubs : Sparse Nat
  refreshes : Sparse Nat
  deriving DecidableEq, Repr

/-- Before bring-up: nothing is sized, and no bolt is allocated. -/
def TierState.reset : TierState :=
  { up := false, larderFitted := [], cellarRaw := 0, cellarFitted := [], parlourSlots := 0, larderSlots := 0, cellarSlots := 0, mapReserve := 0, unifiedSize := 0,
    spareP := 0, spareL := 0, spareC := 0, map := [], moves := [], freed := [], retired := [], slotErrors := [], hints := [], queued := [], learning := false,
    learnAccesses := 0, learnStart := 0, stackHeat := [], larderHeat := [], quarantined := [], noSlot := false, streams := [], upQueue := [], late := [],
    mapCache := [], allowPL := 0, allowLC := 0, scrubs := [], refreshes := [] }

/-- A directory entry (Table 5.2, Table 5.11). `st`: 1 X, 2 SX, 3 SC, 4 LD. `owner` in X and LD,
`lead` in SX and SC. `used` orders entries of a set by last use (R257). -/
structure DirEntry where
  st : Nat
  owner : Nat
  sharers : List Nat
  leadV : Bool
  lead : Nat
  groups : Nat
  part : Nat
  used : Nat
  deriving DecidableEq, Repr

/-- What a transaction at the home does (R240): a REQ of an agent; an uncached read or write of a
requester that is no agent (R253); a recall before an access of another kind (R256); a
back-invalidation (R257); a region recall (R258); the recall of R267; the recall of a detach (R263). -/
inductive TxnKind where
  | rdS | rdOwn | upgrade | peek
  | uncachedRead | uncachedWrite | kindRecall
  | backInv | regionRecall | eccRecall | detach
  deriving DecidableEq, Repr

/-- A writeback held in a transaction (R254, R255). -/
structure HeldWb where
  agent : Nat
  dirty : Bool
  keep : Bool
  data : Bytes
  poison : Bool
  deriving DecidableEq, Repr

/-- A transaction on a busy line (R240 to R243, R254, R268). `snoops`: agents whose answer is awaited,
with the snoop sent (1 FWD_S, 2 FWD_OWN, 3 RECALL, 4 PEEK) and when. `forward`: the lead or owner to
which the forward goes once the recalls are answered. `wbWait`: agents that answered WB_PENDING and
whose writeback is awaited, each with its snoop. `granted`/`grant`: the grant that has been sent, by the home or by the holder; `acked`: its CMP_ACK
has arrived. `agent` is 0xFFF where no agent asked; `tag` is then the held request's number. -/
structure Txn where
  kind : TxnKind
  agent : Nat
  tag : Nat
  cid : Nat
  started : Nat
  snoops : List (Nat × Nat × Nat)
  forward : Option Nat
  wbWait : List (Nat × Nat)
  held : List HeldWb
  granted : Bool
  grant : Nat
  acked : Bool
  status : Nat
  lost : Bool
  pol : Bool
  deriving DecidableEq, Repr

/-- A coherent request, or a home action, that waits at its slice for a busy line, for the end of a
recall, or for a directory entry (R240, R257, R258). `pol`: the LOST_POLICY of the descriptor under which it was checked (R118). -/
structure WaitTxn where
  line : Nat
  kind : TxnKind
  agent : Nat
  tag : Nat
  cid : Nat
  since : Nat
  pol : Bool
  deriving DecidableEq, Repr

/-- A line in an L2 cluster (Table 5.1): 1 S, 2 L, 3 E, 4 M; WB pending keeps its place with state 0
(R246). `dirty` for a VER line (R276, R324), whose state is 3 or 4 with `coh` false. `mark`: poisoned. `tag`: the partition and incarnation whose access brought it in (R606). -/
structure L2Line where
  st : Nat
  coh : Bool
  wbPending : Bool
  cid : Nat
  data : Bytes
  mark : Bool
  tag : Nat
  deriving DecidableEq, Repr

/-- What a core asks of its L2 cluster: an access, an AMO, LR or SC, or a cache-block operation (1 flush,
2 clean, 3 inval, 4 zero). -/
inductive CoreOp where
  | acc (a : CoreAccess)
  | amo (op : AOp) (unsigned wide : Bool) (operand : Nat)
  | lr (wide : Bool)
  | sc (wide : Bool) (operand : Nat)
  | cbo (k : Nat)
  deriving DecidableEq, Repr

/-- An operation of a core that waits in its L2 cluster for a grant or for WB_ACK; `sent`: a REQ for the line
has been sent for it; `dead`: its completion timeout has ended, and it only takes its grant (R261). -/
structure L2Pend where
  seq : Nat
  deadline : Nat
  dead : Bool
  cluster : Nat
  line : Nat
  core : Nat
  addr : Nat
  va : Nat
  cid : Nat
  op : CoreOp
  sent : Bool
  deriving DecidableEq, Repr

/-- A coherence agent 4 to 255 (Tables 5.10 and 5.12). `st`: 0 FREE, 1 ACTIVE, 2 UNRESPONSIVE,
3 DETACHING, 4 RECOVERING. -/
structure Agent where
  ep : Nat
  port : Nat
  v : Bool
  cacheless : Bool
  part : Nat
  credits : Nat
  st : Nat
  deriving DecidableEq, Repr

/-- A free agent number. -/
def Agent.none : Agent :=
  { ep := 0, port := 0, v := false, cacheless := false, part := 0, credits := 0, st := 0 }

/-- A recall in progress or waiting (R258): its region, the partition whose agents are in scope
(`none`: every agent), the write that waits for its end, and the descriptor that this write sets then (R118, R120). -/
structure Recall where
  region : Nat
  scope : Option Nat
  write : Option WaitingWrite
  new : Option Region
  deriving DecidableEq, Repr

/-- A REQ that waits for a tracker (R155): its place in the order of arrival, itself, and whether its port's credit is owed for it. -/
structure TrackReq where
  seq : Nat
  msg : CohMsg
  kind : TxnKind
  owed : Bool
  deriving DecidableEq, Repr

/-- Coherence (ch. 5): the directory by line number, transactions by line number, waiting
transactions in order, L2 lines by cluster × 2^48 + line number, agents, recalls (the first is in
progress), the writes that wait for the end of a detach, the REQs that wait for a tracker (R155), and the lines in SC that have been recalled from an agent (agent, line)
and not granted to it since (R259, R263). -/
structure CohState where
  dir : Sparse DirEntry
  useClock : Nat
  txns : Sparse Txn
  waits : List WaitTxn
  l2 : Sparse L2Line
  l2pend : List L2Pend
  reserve : List (Nat × Nat)
  agents : Sparse Agent
  unresponsive : List Nat
  recalls : List Recall
  detachWrites : List (Nat × WaitingWrite)
  trackWait : List TrackReq
  swept : List (Nat × Nat)
  deriving DecidableEq, Repr

/-- No line is cached. -/
def CohState.reset : CohState :=
  { dir := [], useClock := 0, txns := [], waits := [], l2 := [], l2pend := [], reserve := [],
    agents := [], unresponsive := [], recalls := [], detachWrites := [], trackWait := [], swept := [] }

/-- A knot held for its span (R285): its request as it was checked, when its hold time ends (R289, R304), and its COUNT. -/
structure HeldKnot where
  held : Held
  deadline : Nat
  count : Nat
  deriving DecidableEq, Repr

/-- An entry of the knot table (R285, R288, R765): group of a source, with the count and the held
knot of each span parity. -/
structure KnotEntry where
  ep : Nat
  cid : Nat
  group : Nat
  count0 : Nat
  count1 : Nat
  knot0 : Option HeldKnot
  knot1 : Option HeldKnot
  deriving DecidableEq, Repr

/-- Ordering (ch. 6): the knot table, and fences of the Hearth cores: (core, the number of the
first later access, the tag of the first later request): a later uncached access of the core waits for the
earlier ones (R298). -/
structure OrdState where
  knots : List KnotEntry
  coreFences : List (Nat × Nat × Nat)
  deriving DecidableEq, Repr

/-- A page image in the basting area (R307): the page, the version from which it applies, the basting
page that holds it, and its content by offset in the page. -/
structure Image where
  page : Nat
  label : Nat
  baste : Nat
  data : Sparse Byte
  poison : List Nat
  deriving DecidableEq, Repr

/-- A working version (R308): the CID and holder of its handle, its base, and its copies (label 0). -/
structure Work where
  cid : Nat
  holder : Nat
  base : Nat
  copies : List Image
  deriving DecidableEq, Repr

/-- A read handle (R310) on a version; `stale` after its lease expired (R332). -/
structure ReadHandle where
  cid : Nat
  holder : Nat
  version : Nat
  stale : Bool
  deriving DecidableEq, Repr

/-- The version state of a region (R305 to R308): view size, head, next number, ground version, the
history of images, working versions, read handles, and stale working handles (cid, holder). -/
structure VerRegion where
  view : Nat
  head : Nat
  next : Nat
  ground : Nat
  images : List Image
  works : List Work
  reads : List ReadHandle
  staleWork : List (Nat × Nat)
  deriving DecidableEq, Repr

/-- A lease (R328, Table 7.3): `st` 0 FREE, 1 ACTIVE, 2 LAPSING, 3 EXPIRED. `durationMs`, and times in
ticks. -/
structure Lease where
  ep : Nat
  part : Nat
  st : Nat
  durationMs : Nat
  deadline : Nat
  expiredAt : Nat
  deriving DecidableEq, Repr

/-- A command slot (Table 7.6). -/
structure VcSlot where
  arg : Nat
  result : Nat
  version : Nat
  pages : Nat
  first : Nat
  aux : Nat
  deriving DecidableEq, Repr

/-- Its reset value. -/
def VcSlot.reset : VcSlot := { arg := 0, result := 0, version := 0, pages := 0, first := 0, aux := 0 }

/-- Versions and leases (ch. 7): version state by region, the storage form of TAB regions (R326: 1
plain, 2 versioned), leases by number, command slots by partition × 256 + slot, expiry counts, and when the next page may be folded (FOLD_MBPS). -/
structure VerState where
  regions : Sparse VerRegion
  forms : Sparse Nat
  leases : Sparse Lease
  slots : Sparse VcSlot
  expiries : Sparse Nat
  foldNext : Nat
  deriving DecidableEq, Repr

/-- No version, no lease. -/
def VerState.reset : VerState := { regions := [], forms := [], leases := [], slots := [], expiries := [], foldNext := 0 }

/-- An arrival counter that a descriptor advances (R522): the destination (a member's number), its GFA, the CID of the adds, and the bytes
landed that no add has counted yet. -/
structure ArrDue where
  dest : Nat
  addr : Nat
  cid : Nat
  unit : Nat
  due : Nat
  since : Nat
  vpn : Option Nat
  deriving DecidableEq, Repr

/-- A share of a descriptor of another member (R350): that member's endpoint, the descriptor's queue and position there, and
this node's member number. -/
structure EntryRef where
  ep : Nat
  q : QueueId
  pos : Nat
  member : Nat
  deriving DecidableEq, Repr

/-- The lists that came with a share, or with which a descriptor was accepted: indices, offsets, weights, and the sub-batch of a
row-split look-up. -/
structure Lists where
  idx : Bytes
  off : Bytes
  wt : Bytes
  batch : List SubIdx
  bad : List Nat
  deriving DecidableEq, Repr

/-- The last line of a Shuttle piece for one destination that waits for other lines (R520, R521): as a knot of a group, or as an ORD store of its
bytes. -/
structure KnotDue where
  piece : Nat
  member : Nat
  addr : Nat
  cid : Nat
  unit : Nat
  knot : Bool
  last : Bool
  group : Nat
  count : Nat
  data : Bytes
  poison : Bool
  vpn : Option Nat
  deriving DecidableEq, Repr

/-- A descriptor that the scheduler has accepted: its position, its 64 B, the endpoint whose TAIL store
submitted it (R383), the engine a scheduler dealt it to, whether it has run, its outstanding writes to
other nodes and mirror writes, the members that have not reported, the fault record that holds it
(R377), and its completion so far. `ord` orders acceptances; `rcFrom` is the
member whose RCODE it is; `partials`: a row-split look-up's partials by member, and `owed` the bags that each owner touches; `found`: a
search's results by member and query; `outs`: outstanding writes by destination; `heldEnd`: the status with which the access of a launch that a fault
record held has ended (R491), and `heldBy` the destination number of the instruction it belongs to; `pausedT`: ticks spent in fault records (R492). Of a Shuttle descriptor: `group`, the members read at acceptance (R526); `dealt`, its pieces and their engines;
`doneP`, the pieces whose lines have been issued; `knots`, last lines that wait; `spans`, open groups by destination number; `polledAt`, when a WAIT last read. `ctT`, `stageT`, `waitT`, `memberT`: the
timeouts that hold for it, as they stood at acceptance (R62): completion, reduction stage, WAIT, search members. `trap`: the fault that it waits with, in its record or for one (R137), and
`trapSeq`, its place in the order of arrival; `stalledAt`: since when a read of it has waited for a move-up, an earlier request or a tracker (R204, R153, R155). -/
structure Desc where
  pos : Nat
  bytes : Bytes
  holder : Nat
  acceptedAt : Nat
  engine : Option Nat
  ran : Bool
  ranAt : Nat
  waitRemote : Nat
  waitMirror : Nat
  members : List Nat
  fault : Option (Nat × Nat)
  status : Nat
  rcode : Nat
  result : Nat
  missing : Nat
  phase : Nat
  ord : Nat
  rcFrom : Nat
  arr : List ArrDue
  entry : Option EntryRef
  lists : Option Lists
  partials : List (Nat × Partial)
  owed : List (Nat × Nat)
  hits : Nat
  found : List (Nat × List (List Found))
  outs : List (Nat × Nat)
  heldEnd : Option Nat
  heldBy : Nat
  pausedT : Nat
  group : List Nat
  dealt : List (Nat × Nat)
  doneP : List Nat
  knots : List KnotDue
  spans : List (Nat × Nat)
  polledAt : Nat
  ctT : Nat
  stageT : Nat
  waitT : Nat
  memberT : Nat
  trap : Option Trap
  trapSeq : Nat
  stalledAt : Option Nat
  deriving DecidableEq, Repr

/-- An engine queue (Tables 8.5 and 8.6): its registers; the endpoint that submitted each slot not yet
read; accepted descriptors in order; completion entries that wait for space (R376). -/
structure Queue where
  qbase : Nat
  log2n : Nat
  en : Bool
  halted : Bool
  overrun : Bool
  tail : Nat
  head : Nat
  cqbase : Nat
  cqLog2n : Nat
  cqEn : Bool
  irqEn : Bool
  cqHead : Nat
  cqTail : Nat
  phase : Bool
  submitters : List (Nat × Nat)
  accepted : List Desc
  waiting : List Bytes
  deriving DecidableEq, Repr

/-- Its reset value (Table 8.6). -/
def Queue.reset : Queue :=
  { qbase := 0, log2n := 0, en := false, halted := false, overrun := false, tail := 0, head := 0,
    cqbase := 0, cqLog2n := 0, cqEn := false, irqEn := false, cqHead := 0, cqTail := 0, phase := true,
    submitters := [], accepted := [], waiting := [] }

/-- A new record of a row in progress (R370): the table, the local row, the new record's place, whether the row is hot
afterwards, the delta log (newest last, R418), and the step of a promotion at seal. -/
structure RowMove where
  table : Nat
  row : Nat
  fmt : Nat
  band : Nat
  bolt : Nat
  slot : Nat
  hot : Bool
  deltas : List (List Nat)
  deriving DecidableEq, Repr

/-- A row that a step has touched (R399, R403, R405): its count, its flags, its accumulator bank and its accumulators (units of
2^−FRAC_BITS in EXACT mode, FP32 bits in FLOAT mode). -/
structure StepRow where
  row : Nat
  n : Nat
  sat : Bool
  nan : Bool
  lost : Bool
  bank : Nat
  acc : List Int
  deriving DecidableEq, Repr

/-- An open step of a table (R398 to R401): `st` 1 OPEN, 2 SEALING, 3 TAINTED; `exact_`: its mode; the partition that opened it;
the rows reserved in each bank, and those not yet taken; `sealOrd`: the acceptance number of its SEAL. -/
structure Step where
  table : Nat
  step : Nat
  st : Nat
  exact_ : Bool
  part : Nat
  cells : Nat
  res : List Nat
  left : List Nat
  rows : List StepRow
  sealOrd : Nat
  deriving DecidableEq, Repr

/-- The Bobbin block beside its objects (ch. 8, 9): moves of rows, old records not yet freed (table, bolt, slot), decisions of the
re-encoding loop not yet carried out (table, row, format), when the loop last swept, sweeps since START by table, decisions in the
current second (its start, their number), bolts pinned for hot sets (table, bolt), open steps, and by table
the number of the first acceptance after its STOP, the step boundaries since its START (R658), and by partition the descriptors dealt to engines while others waited (R341). -/
structure BobState where
  moves : List RowMove
  oldRecs : List (Nat × Nat × Nat)
  queue : List (Nat × Nat × Nat)
  sweptAt : Nat
  sweeps : Sparse Nat
  second : Nat × Nat
  pinned : List (Nat × Nat)
  steps : List Step
  stopOrd : Sparse Nat
  bounds : Sparse Nat
  dealt : Sparse Nat
  deriving DecidableEq, Repr

/-- Nothing moves, no step is open. -/
def BobState.reset : BobState :=
  { moves := [], oldRecs := [], queue := [], sweptAt := 0, sweeps := [], second := (0, 0), pinned := [], steps := [], stopOrd := [], bounds := [], dealt := [] }

/-- A candidate of a query (R445): its distance (FP32), the number by which it ranks among equal distances (R450), its item and
re-rank slot, whether it lies in a chain, and whether its ID-block line read POISON (R449). -/
structure VecCand where
  dist : Nat
  tie : Nat
  id : Nat
  rslot : Nat
  side : Bool
  bad : Bool
  deriving DecidableEq, Repr

/-- A query of a round (R443, R444): its descriptor and number there, whether it is stable, its FP32 elements, its probe set (list, coarse
distance), and its candidates so far, best first. -/
structure RoundQuery where
  d : DescRef
  n : Nat
  stable : Bool
  vec : List Nat
  probes : List (Nat × Nat)
  cand : Nat
  cands : List VecCand
  deriving DecidableEq, Repr

/-- The round of an index: its queries in order, and the passes still to run (list, positions of its queries). -/
structure Round where
  index : Nat
  queries : List RoundQuery
  passes : List (Nat × List Nat)
  deriving DecidableEq, Repr

/-- A new version of a list that is being written (R455, R457): its lane, first lane bolt, bolts and positions, the old chain, and the
LIST_LOAD that it is for, and the number that the next acceptance had when it began. -/
structure VecMerge where
  index : Nat
  list : Nat
  lane : Nat
  first : Nat
  n : Nat
  count : Nat
  oldChain : Nat
  load : Option DescRef
  since : Nat
  deriving DecidableEq, Repr

/-- An old version not yet freed (Table 10.6 step 5): its bolts, its bitmap pages and its chain. -/
structure VecFree where
  index : Nat
  list : Nat
  lane : Nat
  first : Nat
  n : Nat
  bitmap : Nat
  pages : Nat
  chain : Nat
  deriving DecidableEq, Repr

/-- The Tape block beside its objects (ch. 10): rounds, lists queued for merge (index, list), merges, old versions to free, and by index
the number of the first acceptance after its STOP. -/
structure TapeState where
  rounds : List Round
  mergeQ : List (Nat × Nat)
  merges : List VecMerge
  frees : List VecFree
  stopOrd : Sparse Nat
  deriving DecidableEq, Repr

/-- No round, no merge. -/
def TapeState.reset : TapeState := { rounds := [], mergeQ := [], merges := [], frees := [], stopOrd := [] }

/-- Storage of a Treadle array (Table 11.1). -/
inductive TdLoc where
  | slot (n : Nat)
  | scale (n : Nat)
  | bank (n : Nat)
  | vreg (n : Nat)
  deriving DecidableEq, Repr

/-- What a piece of storage holds (R488, R490): the tag of the partition that last wrote it (0: nothing has), its poison mark, its bytes. -/
structure TdCell where
  tag : Nat
  poison : Bool
  data : Bytes
  deriving DecidableEq, Repr

/-- Storage that nothing has written. -/
def TdCell.empty : TdCell := { tag := 0, poison := false, data := [] }

/-- The part that an array's instruction memory holds (R499): partition tag, translated image address, IMAGE_ID, part, and the two words
of each instruction. -/
structure TdCode where
  tag : Nat
  addr : Nat
  id : Nat
  part : Nat
  code : List (Nat × Nat)
  deriving DecidableEq, Repr

/-- A Treadle array: tile slots, scale slots, banks and vector registers by number, and its instruction memory. -/
structure TdArray where
  slots : Sparse TdCell
  scales : Sparse TdCell
  banks : Sparse TdCell
  vregs : Sparse TdCell
  code : Option TdCode
  deriving DecidableEq, Repr

/-- An array after power-on. -/
def TdArray.reset : TdArray := { slots := [], scales := [], banks := [], vregs := [], code := none }

/-- A part of a launch that runs (R477, R483): its array, the first instruction not executed and those executed beyond it, local counters, instructions whose stores
are outstanding with the counter each raises, and storage that another unit's instruction has written before the instruction that reads or writes it
(R487). -/
structure PartRun where
  array : Nat
  ended : Bool
  base : Nat
  done : List Nat
  counters : Sparse Nat
  storing : List (Nat × Option Nat)
  raced : List (TdLoc × Nat)
  deriving DecidableEq, Repr

/-- A launch that has been picked (R498 to R501): its arrays, the part table, parts by number, launch counters, cycles and V instructions, whether it has started, waits
for its START_COUNT, started late, has expired, and when its watchdog began. -/
structure Launch where
  d : DescRef
  cid : Nat
  arrays : List Nat
  image : List (List (Nat × Nat))
  addr : Nat
  id : Nat
  independent : Bool
  parts : Sparse PartRun
  counters : Sparse Nat
  cycles : Nat
  vcount : Nat
  started : Bool
  late : Bool
  expired : Bool
  startedAt : Nat
  deriving DecidableEq, Repr

/-- The Treadle block beside its objects (ch. 11): the arrays, the launches that have been picked, and by partition those picked while others waited (R498). -/
structure TdState where
  arrays : Sparse TdArray
  launches : List Launch
  dealt : Sparse Nat
  deriving DecidableEq, Repr

/-- Nothing runs. -/
def TdState.reset : TdState := { arrays := [], launches := [], dealt := [] }

/-- A barrier (R542 to R546) beside its objects: the open episode, the ranks that have arrived in it and
when it was opened, whether its timeout has been counted, the last ranks of the most recent episodes,
newest first, and the ranks marked suspect. -/
structure Barrier where
  episode : Nat
  arrived : List Nat
  openedAt : Nat
  timedOut : Bool
  completed : Nat
  stray : Nat
  duplicates : Nat
  timeouts : Nat
  lasts : List Nat
  suspects : List Nat
  deriving DecidableEq, Repr

/-- A barrier that has never been started. -/
def Barrier.reset : Barrier :=
  { episode := 0, arrived := [], openedAt := 0, timedOut := false, completed := 0, stray := 0,
    duplicates := 0, timeouts := 0, lasts := [], suspects := [] }

/-- The engine queues of every partition, by block × 1,024 + partition × 16 + queue (queue 8 holds the shares of other
members' descriptors; 0 Shuttle, 1 Bobbin,
2 Tape, 3 Treadle), the barriers, and `shGroup`, the GROUP number that a Shuttle engine took last (R520). `rowLines` and `dirLines`: the lines that the Bobbin row and directory caches hold (engine,
line, partition tag, version), oldest first (R343, R344). `bob`: the Bobbin block's own state. `heldShares`: shares that have arrived during a drain (R63). `shDealt`: by partition the Shuttle pieces dealt while other
partitions waited (R509). -/
structure EngState where
  bob : BobState
  tape : TapeState
  td : TdState
  queues : Sparse Queue
  barriers : Sparse Barrier
  shGroup : Sparse Nat
  rowLines : List (Nat × Nat × Nat × Nat)
  dirLines : List (Nat × Nat × Nat × Nat)
  heldShares : List FanMsg
  shDealt : Sparse Nat
  deriving DecidableEq, Repr

/-- Every queue at its reset value. -/
def EngState.reset : EngState := { bob := BobState.reset, tape := TapeState.reset, td := TdState.reset, queues := [], barriers := [], shGroup := [], rowLines := [], dirLines := [], heldShares := [], shDealt := [] }

/-- A message that waits at a port's transmitter: its class and its bytes (R569). -/
structure TxMsg where
  cls : Nat
  bytes : Bytes
  deriving DecidableEq, Repr

/-- An unacknowledged DATA flit: its SEQ, its bytes as sent, the messages that begin in it, and the key under which it was sent (R574, R576). -/
structure TxFlit where
  seq : Nat
  bytes : Bytes
  msgs : Nat
  key : Nat
  deriving DecidableEq, Repr

/-- A link key of one direction (R620, R621): its number, its generation, the flits counted under it, when it was made, and its key and salt. -/
structure LinkKey where
  id : Nat
  gen : Nat
  count : Nat
  madeAt : Nat
  key : Bytes
  salt : Bytes
  deriving DecidableEq, Repr

/-- The KEY exchange of a port (R618): its ephemeral private key, its own part 1, the partner's part 1 once received, and when part 1 was sent last. -/
structure KeyEx where
  priv : Nat
  mine : Bytes
  theirs : Option Bytes
  sentAt : Nat
  deriving DecidableEq, Repr

/-- A CXL event record, or a request that a compatibility port has refused. -/
structure HostEvent where
  status : Nat
  addr : Nat
  deriving DecidableEq, Repr

/-- The function of a compatibility port (R595 to R600, R623): what configuration requests have written, by kind × 65,536 + offset (0 configuration
space, 1 MSI-X table, 2 HDM decoders); the IDE streams established (0 none, 1 PCIe, 2 also CXL); SPDM: the stage of the
connection (0 none, 1 version, 2 capabilities, 3 algorithms), whether a handshake is open, whether a secure session is; IDE keys programmed by stream × 2 +
direction, and those in use; event records, oldest first; Flex Bus mode 1 when CXL.mem runs. -/
structure HostFn where
  regs : Sparse Nat
  ide : Nat
  spdm : Nat
  handshake : Bool
  session : Bool
  ideKeys : List Nat
  ideGo : List Nat
  events : List HostEvent
  deriving DecidableEq, Repr

/-- A function after reset. -/
def HostFn.reset : HostFn :=
  { regs := [], ide := 0, spdm := 0, handshake := false, session := false, ideKeys := [], ideGo := [], events := [] }

/-- What a fabric port holds beside its objects (ch. 13): the classes that its partner has quiesced
(bit c: class c, R581); when it entered its state; the stage of its training (2 DETECT, 3 POLL, 4 EQ, 5 FIT) and the equalisation phase; the state DETECT was entered
from, and whether an ATTACH did; lanes good; converged values held, and whether this training started from them (R560); its own FIT block of this round and the
partner's offer, and restarts; the KEY exchange, keys of the two directions, a new and an old one each (R621), the SEQ of the flit that carries a KEY_UPDATE;
the transmitter: waiting messages by order of arrival, the rest of a split message (1 in a SEALED flit, plus 2 for a KEY_UPDATE), unacknowledged flits, the next SEQ, when ACK last advanced, replays of the
oldest, credits held by class, round robin, flits since a CTL message led; the receiver: the last SEQ accepted and whether there is one, whether a NAK is out and due, an incomplete
message, credits to return; requests of the partner in progress (tag, class; compatibility: 16 PCIe read, 17 posted write, 18 CXL read, 19 CXL write);
PINGs sent; a detach: 0 none, 1 ours, 2 the partner's, when it began, whether DETACH_ACK has arrived or been sent; the last poll; lanes' last EQ_REQ;
what a retrain was caused by; and its compatibility function. -/
structure PortDyn where
  quiesce : Nat
  since : Nat
  stage : Nat
  phase : Nat
  cameFrom : Nat
  byAttach : Bool
  good : Nat
  history : Bool
  fromHeld : Bool
  fitMine : Bytes
  fitOffer : Option Bytes
  fitTries : Nat
  keyEx : Option KeyEx
  linkSecret : Bytes
  txKey : Option LinkKey
  txOld : Option LinkKey
  rxKey : Option LinkKey
  rxOld : Option LinkKey
  updateSeq : Option Nat
  updateKey : Option LinkKey
  txq : List TxMsg
  split : Option (Nat × Bytes)
  replay : List TxFlit
  resend : Nat
  txSeq : Nat
  ackAt : Nat
  replays : Nat
  credits : List Nat
  turn : Nat
  sinceCtl : Nat
  rxSeq : Nat
  rxAny : Bool
  nakOut : Bool
  nakDue : Bool
  rxPart : Bytes
  owedCr : List Nat
  inReqs : List (Nat × Nat)
  pings : List Nat
  detach : Nat
  detachAt : Nat
  ackIn : Bool
  ackOut : Bool
  pollAt : Nat
  eqAsked : Sparse Nat
  cause : Nat
  host : HostFn
  deriving DecidableEq, Repr

/-- A port after reset. -/
def PortDyn.reset : PortDyn :=
  { quiesce := 0, since := 0, stage := 0, phase := 0, cameFrom := 1, byAttach := false, good := 0, history := false, fromHeld := false, fitMine := [],
    fitOffer := Option.none, fitTries := 0, keyEx := Option.none, linkSecret := [], txKey := Option.none, txOld := Option.none, rxKey := Option.none, rxOld := Option.none,
    updateSeq := Option.none, updateKey := Option.none, txq := [], split := Option.none, replay := [], resend := 0, txSeq := 0, ackAt := 0, replays := 0, credits := [], turn := 0,
    sinceCtl := 0, rxSeq := 4095, rxAny := false, nakOut := false, nakDue := false, rxPart := [], owedCr := List.replicate 8 0, inReqs := [], pings := [], detach := 0, detachAt := 0,
    ackIn := false, ackOut := false, pollAt := 0, eqAsked := [], cause := 0, host := HostFn.reset }

/-- The fields of the Hem as read at the last reset (Table 14.3, R102), the fuses of the two
anti-rollback counters as they now stand (R614), and the fused provisioned ID of the I3C target (R76). -/
structure Hem where
  readOk : Bool
  factoryOff : Bool
  debugLock : Nat
  maxPartitions : Nat
  portOuter : Nat
  ownerKeyHash : Bytes
  treadleDisabled : Nat
  hearthDisabled : Nat
  tapeDisabled : Nat
  arbFirmware : Nat
  arbLoader : Nat
  arbFirmwareFuse : Nat
  arbLoaderFuse : Nat
  macBase : Nat
  i3cId : Nat
  grade : Nat
  serial : Bytes
  orderingCode : Bytes
  deriving DecidableEq, Repr

/-- A partition (Table 14.1, R606, R624): `st` 0 FREE, 1 ACTIVE, 2 DRAINING, 3 SCRUBBING; incarnation;
memory key 0 none, 1 in use, 2 destroyed; and its removal record, with the time of the fence on the model's own clock. -/
structure Partition where
  st : Nat
  incarnation : Nat
  key : Nat
  fencedAt : Nat
  fencedT : Nat
  drainedAt : Nat
  timedOut : Bool
  lateWrites : Nat
  deriving DecidableEq, Repr

/-- FREE, never created. -/
def Partition.free : Partition :=
  { st := 0, incarnation := 0, key := 0, fencedAt := 0, fencedT := 0, drainedAt := 0, timedOut := false,
    lateWrites := 0 }

/-- Partitions and security (ch. 14): the Hem, partitions, tags of Landing lines (partition × 4,096 +
incarnation, plus 1; 0 is an untagged line), the debug port: whether it was unlocked and is open, and the Hearth cores that do not run. -/
structure SecState where
  hem : Hem
  parts : Sparse Partition
  landTags : Sparse Nat
  debugUnlocked : Bool
  debugOpen : Bool
  idleCores : List Nat
  deriving DecidableEq, Repr

/-- The Hem of the part that this model is (log entry 4): grade A, nothing disabled, 64 partitions, every port inner, no Owner key. -/
def Hem.part : Hem :=
  { readOk := true, factoryOff := true, debugLock := 1, maxPartitions := 64, portOuter := 0, ownerKeyHash := List.replicate 48 0, treadleDisabled := 0,
    hearthDisabled := 0, tapeDisabled := 0, arbFirmware := 0, arbLoader := 0, arbFirmwareFuse := 0, arbLoaderFuse := 0, macBase := 0, i3cId := 0, grade := 1, serial := [],
    orderingCode := [] }

/-- Right after reset: every partition FREE; cores 2 to 15 idle until a partition has them (R608), cores 0 and 1 until the boot ROM starts. -/
def SecState.reset : SecState :=
  { hem := Hem.part, parts := [], landTags := [], debugUnlocked := false, debugOpen := false, idleCores := List.range 16 }

/-- The recovery window of a resource (R681, R682): the highest level whose window is open (0: none),
when it closes (`none`: the recovery has not ended), whether the resource is held out of service, its
recoveries, and the code of the fault that opened the window. -/
structure RecWindow where
  level : Nat
  closes : Option Nat
  out : Bool
  count : Nat
  code : Nat
  deriving DecidableEq, Repr

/-- No window, in service. -/
def RecWindow.none : RecWindow := { level := 0, closes := Option.none, out := false, count := 0, code := 0 }

/-- An entry of the recovery sequencer's queue (R684), or of RECOVERY_LOG once it has ended. -/
structure RecEntry where
  res : Nat
  fromLevel : Nat
  level : Nat
  code : Nat
  queuedAt : Nat
  startedAt : Nat
  endedAt : Nat
  deriving DecidableEq, Repr

/-- A mirror bind outstanding or waiting for one to the same endpoint (R693): the region's number, its
descriptor as written, whether the write creates it, the write that waits, whether MIRROR_BIND has been sent, and when. -/
structure Bind where
  region : Nat
  new : Region
  create : Bool
  write : Option WaitingWrite
  sent : Bool
  sentAt : Nat
  deriving DecidableEq, Repr

/-- Faults and recovery (ch. 17) beside the records, which are Pattern Book objects: windows by
resource ID, the sequencer's queue, the recovery that runs, RECOVERY_LOG newest first, the run-state
objects that were RUNNING at entry to limp, whether a limp escalation has reset the node (R690), mirror binds in progress, and when each DEGRADED
region last tried its bind again (R697). -/
structure FaultState where
  windows : Sparse RecWindow
  queue : List RecEntry
  running : Option RecEntry
  log : List RecEntry
  limpBlocks : List Nat
  limpResetDue : Bool
  binds : List Bind
  rebindAt : Sparse Nat
  deriving DecidableEq, Repr

/-- No fault. -/
def FaultState.reset : FaultState :=
  { windows := [], queue := [], running := Option.none, log := [], limpBlocks := [], limpResetDue := false, binds := [], rebindAt := [] }

/-- A transition of a power domain to a state, and the write of DOM_TARGET that waits for its end (R711). -/
structure DomMove where
  dom : Nat
  to_ : Nat
  write : Option WaitingWrite
  deriving DecidableEq, Repr

/-- Power, clocks and bring-up (ch. 18, 19): VSTBY and REFCLK present; PERST_L asserted; the sled pulled (R742); THERM_TRIP_L asserted, and the trip at
105 °C in force; the divisors that the power and thermal loops demand (0 none), and those of domains with a margin demand; when a divisor was last stepped, and the
thermal loop last acted; low-margin episodes: when each last raised its level, and when margin returned or the level reached 0 (times plus 1), and the level of bias
and assist by domain; targets of the regulators in mV, and learned ones by domain × 16 + divisor; the DRAM read eye's delay and reference offsets by channel × 256 +
lane (Larder channels 0–15, Parlour stacks 16–21), and when and at what temperature the last pass was; flash threshold offsets by block; transitions in
progress; when N0 was left, and the domains that were ON then; whether the save image and its key exist; the configuration flash's bytes by offset; the loader copy and
firmware image that run (0 none); bytes received of an update; and when the device was last reset; when AVS, PL1 and PL2 were last evaluated (R721, R723). -/
structure PwrState where
  vstby : Bool
  refclk : Bool
  perst : Bool
  sledGone : Bool
  tripped : Bool
  hot105 : Bool
  powerT : Nat
  powerC : Nat
  thermalT : Nat
  thermalC : Nat
  marginPos : Sparse Nat
  stepAt : Option Nat
  throttleAt : Option Nat
  marginLow : Sparse Nat
  marginOk : Sparse Nat
  level : Sparse Nat
  volts : Sparse Nat
  learned : Sparse Nat
  eye : Sparse (Int × Int)
  eyeAt : Sparse (Nat × Int)
  flashVt : Sparse Int
  moves : List DomMove
  leftN0 : Nat
  wasOn : List Nat
  saved : Bool
  saveKey : Bool
  flash : Sparse Byte
  runLoader : Nat
  runImage : Nat
  received : Nat
  resetAt : Nat
  avsAt : Nat
  pl1At : Nat
  pl2At : Nat
  deriving DecidableEq, Repr

/-- Right after power-on: VSTBY and REFCLK present, PERST_L asserted; an erased flash (log entry 5). -/
def PwrState.reset : PwrState :=
  { vstby := true, refclk := true, perst := true, sledGone := false, tripped := false, hot105 := false, powerT := 0, powerC := 0, thermalT := 0, thermalC := 0,
    marginPos := [], stepAt := Option.none, throttleAt := Option.none, marginLow := [], marginOk := [], level := [], volts := [], learned := [], eye := [], eyeAt := [],
    flashVt := [], moves := [], leftN0 := 0, wasOn := [], saved := false, saveKey := false, flash := [], runLoader := 0, runImage := 0, received := 0, resetAt := 0, avsAt := 0, pl1At := 0, pl2At := 0 }

/-- What the block sends or shows to the outside, newest first in `State.out` (log entry 6). -/
inductive Out where
  /-- A Pattern Book frame to a session slot (255: to none) and its client's address (Table 2.7, R75), with its SEQ and its tag. -/
  | pbp (slot addr seq : Nat) (f : PbpFrame) (auth : Bytes)
  /-- The in-band interrupt of an I3C session (R77). -/
  | i3cInterrupt (slot code : Nat)
  /-- The completion of a request: to which requester, its status, the current epoch (R152) and data. -/
  | completion (req : Head) (status epoch : Nat) (data : Bytes)
  /-- A request of the node that leaves by a port of the route (R105, R149), under the node's tag. -/
  | issue (tag port : Nat) (r : Req)
  /-- A coherence message from the home to an agent (Table 5.4): class, opcode, agent, message. -/
  | toAgent (cls opcode agent : Nat) (m : CohMsg)
  /-- A coherence message from an L2 cluster to the home or to another agent. -/
  | fromCluster (cls opcode cluster : Nat) (m : CohMsg)
  /-- What a Hearth core's access gives: its data, or the cause of the trap it takes. -/
  | core (core status : Nat) (data : Bytes)
  | coreTrap (core cause xtval : Nat)
  /-- A descriptor and its lists sent to another member of a table's or index's group, and a member's report (R350, R353). -/
  | fanout (ep : Nat) (m : FanMsg)
  | report (ep : Nat) (q : QueueId) (pos : Nat) (m : MemberMsg)
  /-- An EVT NOTICE sent on a port (R580): CODE, UNIT and DATA. -/
  | notice (port code unit data : Nat)
  /-- A flit sent on a port (Table 13.7); training ordered sets and detection are not shown. -/
  | flit (port : Nat) (bytes : Bytes)
  /-- What a compatibility port sends its host (R599): the tag, kind (16 PCIe read, 18 CXL read, 19 CXL write), completion (0 successful, 1 completer abort,
  2 unsupported request), whether it is poisoned, and its data. -/
  | hostCpl (port tag kind cpl : Nat) (poison : Bool) (data : Bytes)
  /-- An MSI-X vector sent by a compatibility port. -/
  | msix (port vector : Nat)
  /-- A Hearth core starts at an address with a value in a0, or stops (R608, R719); the trap of an external interrupt that it takes: level, new pc, source (R634). -/
  | coreStart (core pc a0 : Nat)
  | coreStop (core : Nat)
  | coreIrq (core level pc source : Nat)
  /-- An answer of the function's DOE or CXL mailbox, or to a configuration read: port, what was asked, bytes. -/
  | hostAnswer (port code : Nat) (data : Bytes)
  deriving DecidableEq, Repr

/-- A sync sample that was kept (R665): the round trip t2 − t1, and 2 (M + 0.5) − (t1 + t2), both in sixteenths of a tick. -/
structure SyncSample where
  rtt : Nat
  twice : Int
  deriving DecidableEq, Repr

/-- Determinism and time (ch. 16): the model's clock in ticks of 10 ns since VSTBY was applied; the sync counter with its four fraction bits; what
is left of a slew in sixteenths, the CLK_F cycles until the next may be applied, and the rate trim's remainder in parts of 10^9 of a sixteenth (R666); the samples
of this interval; the last offset; and how many offsets in a row were within ±2 ticks or beyond, or were missing (Table 16.3); when the interval began, when its last sample was sent, and how many have been (R665). -/
structure DetState where
  now : Nat
  count : Nat
  frac : Nat
  slewLeft : Int
  slewIn : Nat
  rateAcc : Int
  samples : List SyncSample
  lastOffset : Option Int
  within : Nat
  beyond : Nat
  missed : Nat
  intervalAt : Nat
  sampleAt : Nat
  sampleN : Nat
  deriving DecidableEq, Repr

/-- Time 0. -/
def DetState.reset : DetState :=
  { now := 0, count := 0, frac := 0, slewLeft := 0, slewIn := 0, rateAcc := 0, samples := [], lastOffset := Option.none, within := 0, beyond := 0, missed := 0, intervalAt := 0, sampleAt := 0, sampleN := 0 }

/-- The Bell Board (ch. 15): the cause latches that are set; BB_ROUTE by source; sources enabled and masked; by target the source in service, BB_VBASE
bits [63:16], when the wake timer started (plus 1), and the targets whose timer has expired; BB_OOC_STATUS.VALID and BB_OOC_RECORD; and the partitions whose
BB_P_STATUS.ROUTE_ERR is set. -/
structure BellState where
  latches : List Nat
  routes : Sparse Nat
  enabled : List Nat
  masked : List Nat
  service : Sparse Nat
  vbase : Sparse Nat
  wakes : Sparse Nat
  expired : List Nat
  oocValid : Bool
  oocRecord : Nat
  routeErr : List Nat
  deriving DecidableEq, Repr

/-- Table 15.5's reset values; source 1's route is valid and names target 0 (R640: its accessors). -/
def BellState.reset : BellState :=
  { latches := [], routes := [], enabled := [], masked := [], service := [], vbase := [], wakes := [], expired := [], oocValid := false, oocRecord := 0, routeErr := [] }

/-- Why a step faults: no command does (see Refusal). -/
inductive Fault where
  /-- Raised by no command: the spec gives every command of the table an effect. Safe. -/
  | none_
  deriving DecidableEq, Repr

/-- Why a step is refused. -/
inductive Refusal where
  /-- The command has no meaning in this model yet (raised by Dispatch alone). Safe. -/
  | notModelled (mnemonic : String)
  deriving DecidableEq, Repr

/-- The whole state of the block. `free` numbers the free values taken (the model's own field, log
entry 3). -/
structure State where
  pending : List Instr
  out : List Out
  free : Nat
  obj : Sparse Val
  pb : PbState
  mem : List Host.Cell
  poison : List Nat
  regions : Sparse Region
  windows : Sparse Window
  route : RouteState
  acc : AccState
  tier : TierState
  coh : CohState
  ord : OrdState
  ver : VerState
  sec : SecState
  det : DetState
  bell : BellState
  flt : FaultState
  eng : EngState
  ports : Sparse PortDyn
  pwr : PwrState
  deriving DecidableEq, Repr

/-- The machine right after a power-on reset (R733): stage RESET, every switched domain OFF, every object at its default but RESET_CAUSE, which names that reset (R98), nothing in memory, the
flash as it stands (log entry 5), fuses as log entry 4 says. -/
def State.reset : State :=
  { pending := [], out := [], free := 0, obj := [(0x100309, .num 1)], pb := PbState.reset, mem := [], poison := [], regions := [], windows := [],
    route := { active := [], staging := [], epoch := 0, prev := Option.none, copying := false, heldStage := [] },
    acc := AccState.reset, tier := TierState.reset, coh := CohState.reset, ord := { knots := [], coreFences := [] }, ver := VerState.reset,
    sec := SecState.reset, det := DetState.reset, bell := BellState.reset, flt := FaultState.reset, eng := EngState.reset, ports := [], pwr := PwrState.reset }

end Sys2Proof.Machine
end

