-- ==== Sys2Proof/Machine/Wire.lean ====
section
/-! DEFINITION. What goes over a TRF port, bit by bit: messages (R234, R283, R569, Tables 5.3, 6.1, 13.9), flits (R568, Tables 13.7, 13.8), the CRC and the FEC of R573. -/
namespace Sys2Proof.Machine

/-- A message of class 0 to 7 as it travels: its endpoints, epoch, RPORT, whether it translates and is LOCAL, the two words of its header, the extension
unit's bits [15:0], and its payload. -/
structure WireMsg where
  dst : Nat
  src : Nat
  epoch : Nat
  hops : Nat
  rport : Nat
  xlat : Bool
  ext : Nat
  loc : Bool
  w0 : Nat
  w1 : Nat
  payload : Bytes
  deriving DecidableEq, Repr

/-- Units of a message: route header, extension unit, header, payload (R569). -/
def wireUnits (m : WireMsg) : Nat := 3 + b2n m.xlat + divUp m.payload.length 8

/-- A message as bytes (Table 13.9). -/
def wireBytes (m : WireMsg) : Bytes :=
  toLe 8 (m.dst % 2 ^ 16 + m.src % 2 ^ 16 * 2 ^ 16 + m.epoch % 2 ^ 16 * 2 ^ 32 + wireUnits m % 16 * 2 ^ 48 + m.hops % 16 * 2 ^ 52 +
      m.rport % 32 * 2 ^ 56 + b2n m.xlat * 2 ^ 61 + b2n m.loc * 2 ^ 62) ++
    (if m.xlat then toLe 8 (m.ext % 2 ^ 16) else []) ++ toLe 8 m.w0 ++ toLe 8 m.w1 ++
    m.payload ++ zeros (8 * divUp m.payload.length 8 - m.payload.length)

/-- The SIZE field of a route header. -/
def wireSize (b : Bytes) : Nat := fld (bfld b 0 8) 48 4

/-- A message from its bytes. -/
def wireParse (b : Bytes) : WireMsg :=
  let r := bfld b 0 8
  let x := bit r 61
  let h := if x then 16 else 8
  { dst := fld r 0 16, src := fld r 16 16, epoch := fld r 32 16, hops := fld r 52 4, rport := fld r 56 5, xlat := x,
    ext := if x then bfld b 8 2 else 0, loc := bit r 62, w0 := bfld b h 8, w1 := bfld b (h + 8) 8, payload := b.drop (h + 16) }

/-- Fields that every message header has (Tables 5.3 and 6.1). -/
def whClass (m : WireMsg) : Nat := fld m.w0 0 4
def whOp (m : WireMsg) : Nat := fld m.w0 4 6
def whStatus (m : WireMsg) : Nat := fld m.w0 10 4
def whTag (m : WireMsg) : Nat := fld m.w0 16 12
def whCid (m : WireMsg) : Nat := fld m.w0 44 20
def whLine (m : WireMsg) : Nat := fld m.w1 6 42 * 64
def whSrcAgent (m : WireMsg) : Nat := fld m.w0 28 8
def whFwdAgent (m : WireMsg) : Nat := fld m.w0 36 8
def whFlags (m : WireMsg) : Nat := fld m.w1 0 6
def whHtid (m : WireMsg) : Nat := fld m.w1 48 16
def whByteOff (m : WireMsg) : Nat := fld m.w0 28 6
def whLen (m : WireMsg) : Nat := fld m.w0 34 6 + 1
def whRed (m : WireMsg) : Nat := fld m.w0 40 4
def whGroup (m : WireMsg) : Nat := fld m.w0 28 16
def whKnot (m : WireMsg) : Bool := bit m.w1 0
def whSpan (m : WireMsg) : Bool := bit m.w1 1
def whFwd (m : WireMsg) : Bool := bit m.w1 2
def whCount (m : WireMsg) : Nat := fld m.w1 48 16

/-- The first word of a header. -/
def hdr0 (cls op status tag f28 f34 f40 cid : Nat) : Nat :=
  cls % 16 + op % 64 * 2 ^ 4 + status % 16 * 2 ^ 10 + tag % 4096 * 2 ^ 16 + f28 % 64 * 2 ^ 28 + f34 % 64 * 2 ^ 34 + f40 % 16 * 2 ^ 40 + cid % 2 ^ 20 * 2 ^ 44

/-- The second word of a header. -/
def hdr1 (flags addr high : Nat) : Nat := flags % 64 + addr % 2 ^ 48 / 64 * 64 + high % 2 ^ 16 * 2 ^ 48

/-- AOP codes (Table 9.1). -/
def aopCode : AOp → Nat
  | .add => 0 | .min => 1 | .max => 2 | .swap => 3 | .cas => 4 | .and => 5 | .or => 6 | .xor => 7

/-- The operation of an AOP code. -/
def aopOf (n : Nat) : Option AOp := [AOp.add, .min, .max, .swap, .cas, .and, .or, .xor][n]?

/-- The payload line of a store or reduction: its bytes at their line positions. -/
def atLine (off : Nat) (d : Bytes) : Bytes := slice (zeros off ++ d) 0 64

/-- A request as a message (R283, R388, R530); `tag` as the node numbers it: RPORT × 4,096 + TAG. A poisoned write of a mirror carries POISON in STATUS
(log entry 43). -/
def reqWire (r : Req) (tag : Nat) (withCid : Bool) : WireMsg :=
  let h := r.head
  let off := h.addr % 64
  let cid := if withCid then h.cid else 0
  let m : WireMsg := { dst := h.dst, src := h.ep, epoch := h.epoch, hops := 0, rport := tag / 4096, xlat := h.xlat, ext := h.addr / 2 ^ 48,
                       loc := false, w0 := 0, w1 := hdr1 (4 * b2n h.fwd) h.addr 0, payload := [] }
  match r.op with
  | .load n => { m with w0 := hdr0 5 1 0 tag off (n - 1) 0 cid }
  | .store d p => { m with w0 := hdr0 5 2 (if p then 2 else 0) tag off (d.length - 1) 0 cid, payload := atLine off d }
  | .atomic op t rs c x =>
    { m with w0 := hdr0 5 3 0 tag off (x.length - 1) 0 cid, payload := slice (toLe 1 (aopCode op) ++ toLe 1 t ++ toLe 6 rs ++ toLe 8 c ++ x) 0 64 }
  | .reduce rop rt d => { m with w0 := hdr0 5 4 0 tag off (d.length - 1) (rop + 4 * rt) cid, payload := atLine off d }
  | .blk g k sp n d p =>
    { m with w0 := hdr0 6 1 (if p then 2 else 0) tag g (g / 64) (g / 4096) cid
             w1 := hdr1 (b2n k + 2 * b2n sp + 4 * b2n h.fwd) h.addr (if k then n else 0), payload := d }

/-- A completion as a message (Table 6.2): ORD_DATA when it carries data, BLK_CMP for class 6, ORD_CMP else. -/
def cmpWire (h : Head) (cls status epoch src : Nat) (d : Bytes) : WireMsg :=
  { dst := h.ep, src := src, epoch := epoch, hops := 0, rport := h.tag / 4096, xlat := false, ext := 0, loc := false
    w0 := hdr0 (if d.isEmpty then 3 else 4) (if cls = 6 then 0x11 else 0x10) status h.tag 0 0 0 h.cid
    w1 := hdr1 0 h.addr 0, payload := d }

/-- A coherence message of the home (Table 5.3). PREV or GRANT lie in FLAGS [2:0], WB_PENDING in [3]. -/
def cohWire (cls op src epoch : Nat) (m : CohMsg) (dst : Nat) : WireMsg :=
  { dst := dst, src := src, epoch := epoch, hops := 0, rport := 0, xlat := false, ext := 0, loc := false
    w0 := cls % 16 + op % 64 * 2 ^ 4 + m.status % 16 * 2 ^ 10 + m.tag % 4096 * 2 ^ 16 + m.agent % 256 * 2 ^ 28 + m.fwdAgent % 256 * 2 ^ 36 +
      m.cid % 2 ^ 20 * 2 ^ 44
    w1 := hdr1 (m.state % 8 + 8 * b2n m.flag) m.line m.htid, payload := if cls = 4 then slice m.data 0 64 else [] }

/-- A coherence message received: KEEP of WB_DIRTY is FLAGS [0]. -/
def cohOf (m : WireMsg) (port : Nat) : CohMsg :=
  let keep := whClass m == 4 && whOp m == 4
  { agent := whSrcAgent m, ep := m.src, port := port, cid := whCid m, epoch := m.epoch, tag := whTag m, line := whLine m,
    state := if keep then 0 else whFlags m % 8, flag := if keep then bit (whFlags m) 0 else bit (whFlags m) 3, status := whStatus m,
    htid := whHtid m, fwdAgent := whFwdAgent m, data := m.payload.take 64, ecc := .clean }

/-- A CTL message (Table 13.10). -/
def ctlWire (op tag dst src epoch : Nat) (loc : Bool) (payload : Bytes) : WireMsg :=
  { dst := dst, src := src, epoch := epoch, hops := 0, rport := tag / 4096, xlat := false, ext := 0, loc := loc, w0 := hdr0 0 op 0 tag 0 0 0 0, w1 := 0,
    payload := payload }

/-- A NOTICE (R580). -/
def noticeWire (dst src epoch code unit data : Nat) : WireMsg :=
  { dst := dst, src := src, epoch := epoch, hops := 0, rport := 0, xlat := false, ext := 0, loc := false, w0 := hdr0 7 1 0 0 0 0 0 0, w1 := 0
    payload := toLe 2 code ++ toLe 2 unit ++ zeros 4 ++ toLe 8 data }

/-- The request that an ORD or BLK message carries, or none where its opcode is not of Table 6.2 or its AOP is reserved. `hasCid`: the link carries the CID. -/
def reqOf (m : WireMsg) (port : Nat) (hasCid : Bool) : Req × Bool :=
  let off := whByteOff m
  let blk := whClass m == 6
  let line := whLine m + (if m.xlat then m.ext * 2 ^ 48 else 0)
  let h : Head := { kind := 0, unit := port, ep := m.src, epoch := m.epoch, tag := m.rport * 4096 + whTag m, cid := if hasCid then whCid m else 0,
                    hasCid := hasCid, dst := m.dst, addr := if blk then line else line + off, xlat := m.xlat, fwd := whFwd m, va := 0, cause := 0, ecc := .clean }
  let n := whLen m
  let d := slice m.payload off n
  let poison := whStatus m == 2
  match whClass m, whOp m with
  | 6, 1 => ({ head := h, op := .blk (whGroup m) (whKnot m) (whSpan m) (whCount m) (slice m.payload 0 64) poison }, true)
  | 5, 1 => ({ head := h, op := .load n }, true)
  | 5, 2 => ({ head := h, op := .store d poison }, true)
  | 5, 3 =>
    (match aopOf (bfld m.payload 0 1) with
    | some op => ({ head := h, op := .atomic op (bfld m.payload 1 1) (bfld m.payload 2 6) (bfld m.payload 8 8) (slice m.payload 16 n) }, true)
    | none => ({ head := h, op := .load n }, false))
  | 5, 4 => ({ head := h, op := .reduce (fld (whRed m) 0 2) (fld (whRed m) 2 2) d }, true)
  | _, _ => ({ head := h, op := .load 1 }, false)

/-- The CRC-32 of R573, one byte more: reflected polynomial 0xEDB8_8320. -/
def crcByte (c b : Nat) : Nat := (List.range 8).foldl (fun x _ => if x % 2 = 1 then (x / 2).xor 0xEDB88320 else x / 2) (c.xor b)

/-- CRC-32 of bytes. -/
def crc32 (d : Bytes) : Nat := (d.foldl (fun c b => crcByte c b.toNat) 0xFFFFFFFF).xor 0xFFFFFFFF

/-- Multiply by α in GF(2⁸) modulo x⁸ + x⁴ + x³ + x² + 1 (R573). -/
def gfX (a : Nat) : Nat := if a < 128 then 2 * a else (2 * a).xor 0x11D

/-- Multiply in GF(2⁸). -/
def gfMul (a b : Nat) : Nat := ((List.range 8).foldl (fun (st : Nat × Nat) i => (if bit b i then st.1.xor st.2 else st.1, gfX st.2)) (0, a)).1

/-- α to a power. -/
def gfPow : Nat → Nat
  | 0 => 1
  | n + 1 => gfX (gfPow n)

/-- The inverse: a to the 254th. -/
def gfInv (a : Nat) : Nat :=
  let sq := fun x => gfMul x x
  let p := (List.range 6).foldl (fun (st : Nat × Nat) _ => (gfMul st.1 (sq st.2), sq st.2)) (sq a, sq a)
  p.1

/-- A polynomial at a point, the coefficient of the highest power first. -/
def gfEval (p : List Nat) (x : Nat) : Nat := p.foldl (fun v c => (gfMul v x).xor c) 0

/-- The generator of the code: the product of (x − α^i), i from 0 to 7, highest power first (R573). -/
def rsGen : List Nat :=
  (List.range 8).foldl (fun g i => ((g ++ [0]).zip (0 :: g)).map (fun (e : Nat × Nat) => e.1.xor (gfMul e.2 (gfPow i)))) [1]

/-- The 8 parity bytes of 120 message bytes, the first byte the highest power (log entry 44). -/
def rsParity (d : List Nat) : List Nat :=
  d.foldl (fun (r : List Nat) b =>
    let f := b.xor (r.getD 0 0)
    ((r.drop 1 ++ [0]).zip (rsGen.drop 1)).map (fun (e : Nat × Nat) => e.1.xor (gfMul f e.2))) (List.replicate 8 0)

/-- The syndromes of a codeword. -/
def rsSyn (w : List Nat) : List Nat := (List.range 8).map (fun i => gfEval w (gfPow i))

/-- One step of the Berlekamp–Massey iteration on (locator, previous locator, previous discrepancy, length, shift); locators have the constant first. -/
def bmStep (syn : List Nat) (st : List Nat × List Nat × Nat × Nat × Nat) (n : Nat) : List Nat × List Nat × Nat × Nat × Nat :=
  let (c, b, bd, l, m) := st
  let d := (List.range (l + 1)).foldl (fun v i => v.xor (gfMul (c.getD i 0) (syn.getD (n - i) 0))) 0
  if d = 0 then (c, b, bd, l, m + 1)
  else
    let f := gfMul d (gfInv bd)
    let sh := List.replicate m 0 ++ b.map (gfMul f)
    let k := max c.length sh.length
    let c' := (List.range k).map (fun i => (c.getD i 0).xor (sh.getD i 0))
    if 2 * l ≤ n then (c', c, d, n + 1 - l, 1) else (c', b, bd, l, m + 1)

/-- The error locator and the number of errors it stands for. -/
def rsLocator (syn : List Nat) : List Nat × Nat :=
  let r := (List.range 8).foldl (bmStep syn) ([1], [1], 1, 0, 1)
  (r.1, r.2.2.2.1)

/-- Correct a codeword of 128 bytes: up to four byte errors (R573). The bytes, and how many were corrected; none where more are wrong. -/
def rsDecode (w : List Nat) : Option (List Nat × Nat) :=
  let syn := rsSyn w
  if syn.all (· == 0) then some (w, 0)
  else
    let (c, l) := rsLocator syn
    -- powers p whose byte is wrong: c(α^−p) = 0
    let bad := (List.range 128).filter (fun p => gfEval c.reverse (gfPow (255 - p)) == 0)
    if 4 < l || bad.length ≠ l then none
    else
      -- the evaluator syn(x) c(x) modulo x^8, and the derivative of c
      let om := (List.range 8).map (fun k => (List.range (k + 1)).foldl (fun v i => v.xor (gfMul (syn.getD i 0) (c.getD (k - i) 0))) 0)
      let dc := (List.range c.length).map (fun i => if i % 2 = 0 then c.getD (i + 1) 0 else 0)
      let val := fun (p : Nat) =>
        let x := gfPow (255 - p)
        gfMul (gfPow p) (gfMul (gfEval om.reverse x) (gfInv (gfEval dc.reverse x)))
      let w' := (w.zip (List.range 128)).map (fun e => if bad.contains (127 - e.2) then e.1.xor (val (127 - e.2)) else e.1)
      if (rsSyn w').all (· == 0) then some (w', l) else none

/-- The bytes of one parity of a flit's codeword: even or odd bytes of 0x00 to 0xEF, then of the parity (R573). -/
def flitWord (raw : Bytes) (k : Nat) : List Nat := (List.range 128).map (fun i => bfld raw (2 * i + k) 1)

/-- A flit after FEC: its first 240 bytes, and the symbols corrected; where a codeword cannot be corrected, the bytes as received. -/
def flitFec (raw : Bytes) : Bytes × Nat :=
  let a := flitWord raw 0
  let b := flitWord raw 1
  let x := (rsDecode a).getD (a, 0)
  let y := (rsDecode b).getD (b, 0)
  ((x.1.zip y.1).flatMap (fun e => toLe 1 e.1 ++ toLe 1 e.2) |>.take 240, x.2 + y.2)

/-- A flit of 256 bytes from its first 0xEC: CRC and FEC parity appended. -/
def flitSeal (b : Bytes) : Bytes :=
  let d := slice b 0 0xEC
  let d := d ++ toLe 4 (crc32 d)
  let word := fun (k : Nat) => (List.range 120).map (fun i => bfld d (2 * i + k) 1)
  let p0 := rsParity (word 0)
  let p1 := rsParity (word 1)
  d ++ (p0.zip p1).flatMap (fun e => toLe 1 e.1 ++ toLe 1 e.2)

/-- Fields of the flit header and credit word (Table 13.8). -/
def flType (b : Bytes) : Nat := fld (bfld b 0 8) 0 2
def flSealed (b : Bytes) : Bool := bit (bfld b 0 8) 2
def flAuth (b : Bytes) : Bool := bit (bfld b 0 8) 3
def flCont (b : Bytes) : Nat := fld (bfld b 0 8) 4 5
def flSeq (b : Bytes) : Nat := fld (bfld b 0 8) 12 12
def flAck (b : Bytes) : Nat := fld (bfld b 0 8) 24 12
def flAckV (b : Bytes) : Bool := bit (bfld b 0 8) 36
def flNak (b : Bytes) : Bool := bit (bfld b 0 8) 37
def flLinkOp (b : Bytes) : Nat := fld (bfld b 0 8) 40 8
def flCredits (b : Bytes) : List (Nat × Nat) :=
  let w := bfld b 8 4
  [(fld w 0 4, fld w 4 12), (fld w 16 4, fld w 20 12)].filter (fun e => decide (e.1 < 8))

/-- A flit header. -/
def flitHeader (ftype : Nat) (sealed auth : Bool) (cont seq ack : Nat) (ackV nak : Bool) (linkOp : Nat) : Nat :=
  ftype % 4 + 4 * b2n sealed + 8 * b2n auth + cont % 32 * 2 ^ 4 + seq % 4096 * 2 ^ 12 + ack % 4096 * 2 ^ 24 + b2n ackV * 2 ^ 36 + b2n nak * 2 ^ 37 +
    linkOp % 256 * 2 ^ 40

/-- The CRC of a flit is good. -/
def flitCrcOk (b : Bytes) : Bool := bfld b 0xEC 4 == crc32 (slice b 0 0xEC)

end Sys2Proof.Machine
end

