-- ==== Sys2Proof/Machine/Ops.lean ====
section
/-! DEFINITION. Operations shared by every family: Pattern Book object values, counters, outputs, time, cause latches, memory bytes and lines, partitions and CIDs. -/
namespace Sys2Proof.Machine

/-- The outcome of a command that goes on. -/
abbrev Res := Host.Outcome State Fault Refusal

/-- The value in effect of an object that State holds as such. -/
def getObj (s : State) (i k : Nat) : Val := sget objDefault s.obj (okey i k)

/-- Set the value in effect of an object. -/
def setObj (s : State) (i k : Nat) (v : Val) : State :=
  { s with obj := sput objDefault s.obj (okey i k) v }

/-- A numeric object's value. -/
def num (s : State) (i k : Nat) : Nat :=
  match getObj s i k with
  | .num n => n
  | .bytes b => leNat b

/-- A STR or BLOB object's bytes. -/
def blob (s : State) (i k : Nat) : Bytes :=
  match getObj s i k with
  | .num _ => []
  | .bytes b => b

/-- Set a numeric object. -/
def setNum (s : State) (i k n : Nat) : State := setObj s i k (.num n)

/-- Set a STR or BLOB object. -/
def setBlob (s : State) (i k : Nat) (b : Bytes) : State := setObj s i k (.bytes b)

/-- Raise a counter object by `n`, wrapping at 64 bits. -/
def bumpBy (s : State) (i k n : Nat) : State := setNum s i k (addW 64 (num s i k) n)

/-- Raise a counter object by one. -/
def bump (s : State) (i k : Nat) : State := bumpBy s i k 1

/-- Ticks of 10 ns (R665's count unit) in a microsecond, a millisecond, a second. -/
def usT (n : Nat) : Nat := n * 100

/-- Milliseconds in ticks. -/
def msT (n : Nat) : Nat := n * 100000

/-- Seconds in ticks. -/
def secT (n : Nat) : Nat := n * 100000000

/-- Has a time passed since `t` of at least `d` ticks? -/
def due (s : State) (t d : Nat) : Bool := decide (t + d ≤ s.det.now)

/-- The node's endpoint ID (R104). -/
def endpointId (s : State) : Nat := num s 0x2200 1

/-- A port's dynamic state. -/
def getPort (s : State) (p : Nat) : PortDyn := sget (fun _ => PortDyn.reset) s.ports p

/-- Set it. -/
def setPort (s : State) (p : Nat) (x : PortDyn) : State :=
  { s with ports := sput (fun _ => PortDyn.reset) s.ports p x }

/-- PORT_STATE of a port (Table 13.1). -/
def portState (s : State) (p : Nat) : Nat := num s 0x2107 (p + 1)

/-- Is a port's mode PCIE or CXL (R550)? -/
def portCompat (s : State) (p : Nat) : Bool := decide (2 ≤ num s 0x2101 (p + 1))

/-- Did a port's link negotiate a feature of Table 13.6? -/
def portFeature (s : State) (p f : Nat) : Bool :=
  bfld (blob s 0x2109 (p + 1)) 0 1 == 2 && bit (bfld (blob s 0x2109 (p + 1)) 4 4) f

/-- Raise a field of PORT_COUNTERS (Table 13.13). -/
def portCount (s : State) (p off n : Nat) : State :=
  let b := slice (blob s 0x210C (p + 1)) 0 64
  setBlob s 0x210C (p + 1) (bset b off 8 (addW 64 (bfld b off 8) n))

/-- Charge port bytes to a partition: received 0x4D0A, sent 0x4D0B (R703). -/
def meterPort (s : State) (index part n : Nat) : State := bumpBy s index (part % 64 + 1) n

/-- Queue a message at a TRF port's transmitter, while the port is ACTIVE, RETRAIN or DETACHING; a message that carries a CID is charged to its
partition (R703). -/
def queueTx (s : State) (p cls : Nat) (part : Option Nat) (m : WireMsg) : State :=
  if 7 ≤ portState s p && portState s p ≤ 9 then
    let x := getPort s p
    let s := match part with | some q => meterPort s 0x4D0B q (8 * wireUnits m) | none => s
    setPort s p { x with txq := x.txq ++ [{ cls := cls, bytes := wireBytes m }] }
  else s

/-- COMPAT_STATUS: raise a U64 field (refused 8, poisoned completions 16). -/
def compatCount (s : State) (p off n : Nat) : State :=
  let b := slice (blob s 0x2111 (p + 1)) 0 32
  setBlob s 0x2111 (p + 1) (bset b off 8 (addW 64 (bfld b off 8) n))

/-- A completion leaves by a compatibility port (Table 13.19). `kind` as `PortDyn.inReqs` codes it. -/
def hostComplete (s : State) (p tag kind status addr : Nat) (d : Bytes) : State :=
  let out := fun (s : State) (o : Out) => { s with out := o :: s.out }
  let fails := status == 1 || status == 7 || status == 6
  match kind with
  | 16 =>
    let s := if status = 2 then compatCount s p 16 1 else s
    out s (.hostCpl p tag 16 (if status = 6 then 2 else if fails then 1 else 0) (status == 2) (if fails then [] else d))
  | 18 =>
    let poison := status == 2 || fails
    let s := if poison then compatCount s p 16 1 else s
    out s (.hostCpl p tag 18 0 poison (if fails then ones d.length else d))
  | 19 =>
    let x := getPort s p
    let s := if fails then setPort s p { x with host := { x.host with events := x.host.events ++ [{ status := status, addr := addr }] } } else s
    out s (.hostCpl p tag 19 0 false [])
  | _ => s

/-- Remove the first entry for a tag. -/
def dropTag : List (Nat × Nat) → Nat → List (Nat × Nat)
  | [], _ => []
  | e :: l, t => if e.1 = t then l else e :: dropTag l t

/-- A request that arrived by a port is completed: the class under which it arrived is known by its tag (R570). One whose port has gone DOWN since then
is known no more, and its completion is discarded (R587). -/
def portComplete (s : State) (h : Head) (status epoch : Nat) (d : Bytes) : State :=
  let x := getPort s h.unit
  match x.inReqs.find? (fun e => e.1 == h.tag) with
  | none => s
  | some e =>
    let k := e.2
    let s := setPort s h.unit { x with inReqs := dropTag x.inReqs h.tag }
    if portCompat s h.unit then
      hostComplete (if k = 17 then s else meterPort s 0x4D0B (fld h.cid 14 6) (16 + d.length)) h.unit h.tag k status h.addr d
    else queueTx s h.unit (if d.isEmpty then 3 else 4) (some (fld h.cid 14 6)) (cmpWire h k status epoch (num s 0x2200 1) d)

/-- Send or show `o` to the outside; what leaves by a TRF port waits at its transmitter (R578). -/
def emit (s : State) (o : Out) : State :=
  let s := { s with out := o :: s.out }
  let me := num s 0x2200 1
  match o with
  | .completion rq st ep d => portComplete s rq st ep d
  | .issue _ p r => if portCompat s p then s else queueTx s p (match r.op with | .blk .. => 6 | _ => 5) (some (fld r.head.cid 14 6)) (reqWire r r.head.tag (portFeature s p 0))
  | .toAgent cls op a m =>
    if a < 4 then s
    else match sfind s.coh.agents a with
      | some g => queueTx s g.port cls (some (fld m.cid 14 6)) (cohWire cls op me s.route.epoch { m with agent := 0xFF } g.ep)
      | none => s
  | .notice p code unit data => queueTx s p 7 none (noticeWire (bfld (blob s 0x2109 (p + 1)) 8 2) me s.route.epoch code unit data)
  | _ => s

/-- Send several. -/
def emits (s : State) (l : List Out) : State := l.foldl emit s

/-- Take a fresh number for a free value (log entry 3). -/
def freshFree (s : State) : Nat × State := (s.free, { s with free := s.free + 1 })

/-- Compatibility ports whose default partition is `p`: PORT_DEFAULT_CID valid and of an ACTIVE partition, MSI-X enabled (R598). -/
def msixPorts (s : State) (p : Nat) : List Nat :=
  (upTo 32).filter (fun n => portCompat s n && bit (num s 0x2205 (n + 1)) 31 && fld (num s 0x2205 (n + 1)) 14 6 == p &&
    (sget (fun _ => Partition.free) s.sec.parts p).st == 1)

/-- A partition's source has risen: the MSI-X vector of its kind is sent by the ports that follow it (Table 13.18). -/
def msixRise (s : State) (p k : Nat) : State :=
  (msixPorts s p).foldl (fun s n => { s with out := .msix n k :: s.out }) s

/-- Set the cause latch of a Bell Board source (R630, R632). -/
def latch (s : State) (src : Nat) : State :=
  let rise := !s.bell.latches.contains src && decide (128 ≤ src) && decide (src < 896)
  let s := { s with bell := { s.bell with latches := ninsert s.bell.latches src } }
  if rise then msixRise s ((src - 128) / 12) ((src - 128) % 12) else s

/-- The source of partition `p`'s kind `k` (Table 15.1). -/
def partSource (p k : Nat) : Nat := 128 + 12 * p + k

/-- The partition of a CID (R123). -/
def cidPart (cid : Nat) : Nat := fld cid 14 6

/-- The address-space ID of a CID. -/
def cidAsid (cid : Nat) : Nat := fld cid 0 14

/-- The CID of a partition and an ASID. -/
def mkCid (p asid : Nat) : Nat := p % 64 * 16384 + asid % 16384

/-- A partition's entry. -/
def getPart (s : State) (p : Nat) : Partition := sget (fun _ => Partition.free) s.sec.parts p

/-- Set a partition's entry. -/
def setPart (s : State) (p : Nat) (x : Partition) : State :=
  { s with sec := { s.sec with parts := sput (fun _ => Partition.free) s.sec.parts p x } }

/-- A partition exists only while it is ACTIVE (R602). -/
def partExists (s : State) (p : Nat) : Bool :=
  decide (p < s.sec.hem.maxPartitions) && decide ((getPart s p).st = 1)

/-- The tag of a partition's on-die entries (R606), never 0. -/
def partTag (s : State) (p : Nat) : Nat := p * 4096 + (getPart s p).incarnation + 1

/-- A region. -/
def getRegion (s : State) (r : Nat) : Region := sget (fun _ => Region.none) s.regions r

/-- Set a region. -/
def setRegion (s : State) (r : Nat) (x : Region) : State :=
  { s with regions := sput (fun _ => Region.none) s.regions r x }

/-- A bolt's map entry. -/
def getBolt (s : State) (b : Nat) : Bolt := sget (fun _ => Bolt.none) s.tier.map b

/-- Set a bolt's map entry. -/
def setBolt (s : State) (b : Nat) (x : Bolt) : State :=
  { s with tier := { s.tier with map := sput (fun _ => Bolt.none) s.tier.map b x } }

/-- The byte at a local offset; a byte that nothing has written reads as zero (R117, R167). -/
def memGet (m : List Host.Cell) (a : Nat) : Byte := sget (fun _ => (0 : Byte)) m a

/-- Write one byte. -/
def memPut (m : List Host.Cell) (a : Nat) (b : Byte) : List Host.Cell := sput (fun _ => (0 : Byte)) m a b

/-- `n` bytes from a local offset. -/
def memRead (m : List Host.Cell) (a : Nat) : Nat → Bytes
  | 0 => []
  | n + 1 => memGet m a :: memRead m (a + 1) n

/-- Write bytes from a local offset on. -/
def memWrite (m : List Host.Cell) (a : Nat) : Bytes → List Host.Cell
  | [] => m
  | b :: t => memWrite (memPut m a b) (a + 1) t

/-- The canonical form of memory: addresses strictly rising, and no entry that equals what an unlisted address reads as. -/
def Memory.wf (m : List Host.Cell) : Bool := swf (fun _ => (0 : Byte)) m

/-- The canonical form of the object store: keys strictly rising, and no entry at its default. -/
def Objects.wf (m : Sparse Val) : Bool := swf objDefault m

/-- Drop every byte of a range, so that it reads as zero. -/
def memZero (m : List Host.Cell) (a n : Nat) : List Host.Cell :=
  m.filter (fun c => decide (c.1 < a) || decide (a + n ≤ c.1))

/-- The line number of a local offset. -/
def lineOf (a : Nat) : Nat := a / 64

/-- Is the line of a local offset marked as poisoned (R677)? -/
def isPoison (s : State) (a : Nat) : Bool := s.poison.contains (lineOf a)

/-- Mark the line. -/
def markPoison (s : State) (a : Nat) : State := { s with poison := ninsert s.poison (lineOf a) }

/-- Clear the mark. -/
def clearPoison (s : State) (a : Nat) : State := { s with poison := s.poison.filter (· ≠ lineOf a) }

/-- The directory slice, and tracker bank, of a local offset (R228, R28). -/
def sliceOf (a : Nat) : Nat := (fld a 6 4).xor (fld a 10 4)

/-- The directory set of a local offset (R228). -/
def setOf (a : Nat) : Nat := (fld a 10 14).xor (fld a 24 14)

/-- The quadrant of a requester (Table 1.1): 0 NW, 1 NE, 2 SW, 3 SE. -/
def quadOf (kind unit : Nat) : Nat :=
  match kind with
  | 0 => unit / 8 % 4
  | 1 => unit / 8 % 4
  | 2 => unit / 4 % 4
  | 3 => unit / 8 % 4
  | 4 => unit / 2 % 4
  | 5 => unit / 4 % 4
  | _ => 0

/-- Is a port ACTIVE (7) or COMPAT_L0 (12)? -/
def portUp (s : State) (p : Nat) : Bool := portState s p == 7 || portState s p == 12

/-- Is the port outer by its negotiated link (Table 13.11, OUTER)? -/
def portOuterLink (s : State) (p : Nat) : Bool := bfld (blob s 0x2109 (p + 1)) 2 1 == 1

/-- Does a trained inner TRF port stand behind `p` (R222, R271)? -/
def innerTrf (s : State) (p : Nat) : Bool := decide (p < 32) && portState s p == 7 && !portOuterLink s p

/-- Is limp in force (R688)? -/
def inLimp (s : State) : Bool := num s 0x3300 1 == 1

/-- The port mask of the active bank for an endpoint (R149). -/
def routeMask (s : State) (ep : Nat) : Nat := sget (fun _ => 0) s.route.active ep

/-- Per-partition object `i` of partition `p` (R49). -/
def pnum (s : State) (i p : Nat) : Nat := num s i (p + 1)

/-- Set it. -/
def setPnum (s : State) (i p n : Nat) : State := setNum s i (p + 1) n

/-- Raise a per-partition counter. -/
def pbumpBy (s : State) (i p n : Nat) : State := bumpBy s i (p + 1) n

/-- Element `i` of a numbered array of objects (128 to an index). -/
def arrNum (s : State) (base i : Nat) : Nat := num s (base + i / 128) (i % 128 + 1)

/-- Its bytes. -/
def arrBlob (s : State) (base i : Nat) : Bytes := blob s (base + i / 128) (i % 128 + 1)

/-- Set a numeric element. -/
def setArrNum (s : State) (base i n : Nat) : State := setNum s (base + i / 128) (i % 128 + 1) n

/-- Set the bytes of an element. -/
def setArrBlob (s : State) (base i : Nat) (b : Bytes) : State := setBlob s (base + i / 128) (i % 128 + 1) b

/-- The determinism setting: 0 FREE, 1 MARK, 2 FORBID (0x2C00:00). -/
def detMode (s : State) : Nat := num s 0x2C00 0

/-- Raise a 64-bit counter of the run record (Table 16.2). -/
def runBump (s : State) (off : Nat) : State :=
  let b := blob s 0x2C02 0
  setBlob s 0x2C02 0 (bset b off 8 (addW 64 (bfld b off 8) 1))

/-- Set a bit of FLAGS of the run record (Table 16.2): 0 MODE_CHANGED, 1 LAYOUT_CHANGED, 2 UNITS_CHANGED. -/
def runFlag (s : State) (k : Nat) : State :=
  let b := blob s 0x2C02 0
  setBlob s 0x2C02 0 (bset b 0x0A 1 (setBit (bfld b 0x0A 1) k))

/-- Under MARK, count one V operation (R660): in the record, and in V_OPS of its partition. -/
def markV (s : State) (off p : Nat) : State :=
  if detMode s = 1 then pbumpBy (runBump s off) 0x4C00 p 1 else s

/-- A violation (R609): counted, the sticky bit set, and VIOL_FIRST filled when the bit was clear.
`first` is the record after its SYNC field. -/
def violation (s : State) (cid : Option Nat) (first : Bytes) : State :=
  let s := bump s 0x2A20 2
  let s := match cid with
    | some c => pbumpBy s 0x4A05 (cidPart c) 1
    | none => s
  if num s 0x2A20 1 == 1 then s
  else
    let rec_ := toLe 8 s.det.count ++ first
    setBlob (setNum s 0x2A20 1 1) 0x2A20 3 (rec_ ++ zeros (48 - rec_.length))

/-- VIOL_FIRST after SYNC for a request (Table 14.2): KIND, UNIT, OPCODE and class, CID, source
endpoint, address and region. -/
def violReq (kind unit opcode cls cid ep addr region : Nat) : Bytes :=
  toLe 1 kind ++ toLe 1 unit ++ toLe 2 (opcode % 256 + cls * 256) ++ toLe 4 cid ++ toLe 2 ep ++
    zeros 6 ++ toLe 8 addr ++ toLe 2 region

/-- VIOL_FIRST after SYNC for the Pattern Book (kind 6): opcode, role claimed, transport, session, key. -/
def violPb (opcode role transport sid key : Nat) : Bytes :=
  toLe 1 6 ++ toLe 1 0xFF ++ toLe 2 opcode ++ zeros 4 ++ zeros 2 ++ toLe 1 role ++ toLe 1 transport ++
    toLe 4 sid ++ toLe 8 key ++ toLe 2 0xFFFF

/-- A conditional state change. -/
def whenS (b : Bool) (s : State) (f : State → State) : State := if b then f s else s

/-- Thread a state through a list. -/
def forS {α : Type} (l : List α) (s : State) (f : State → α → State) : State := l.foldl f s

end Sys2Proof.Machine
end

