-- ==== Sys2Proof/Machine/Sha384.lean ====
section
/-! DEFINITION. SHA-384 (the digest the spec names in R70, R84, R150, R619, R736 and elsewhere), as
FIPS 180-4 defines it: PRESUMED, log entry 2. -/
namespace Sys2Proof.Machine

/-- The first `n` primes from `k` on, of which `found` (newest first) are known: FIPS 180-4 takes its constants from the primes. `n` bounds the numbers tried. -/
def primesFrom : Nat → Nat → List Nat → List Nat
  | 0, _, found => found.reverse
  | n + 1, k, found => primesFrom n (k + 1) (if found.all (fun p => k % p != 0) then k :: found else found)

/-- The greatest number below `x + 2 ^ n` whose `e`-th power is not above `v`, built bit by bit from the top. -/
def rootBits (e v : Nat) : Nat → Nat → Nat
  | 0, x => x
  | n + 1, x => rootBits e v n (if (x + 2 ^ n) ^ e ≤ v then x + 2 ^ n else x)

/-- The first 64 bits of the fraction of the `e`-th root of `p`. -/
def rootFrac (e p : Nat) : BitVec 64 := BitVec.ofNat 64 (rootBits e (p * 2 ^ (64 * e)) 70 0)

/-- The round constants (FIPS 180-4, section 4.2.3): from the cube roots of the first 80 primes, 2 to 409. -/
def shaK : List (BitVec 64) := (primesFrom 408 2 []).map (rootFrac 3)

/-- The initial hash value of SHA-384 (FIPS 180-4, section 5.3.4): from the square roots of the ninth to sixteenth primes. -/
def shaH0 : List (BitVec 64) := ((primesFrom 52 2 []).drop 8).map (rootFrac 2)

/-- The message schedule: from 16 words (newest first) on, `n` more words. -/
def shaSchedule : Nat → List (BitVec 64) → List (BitVec 64)
  | 0, w => w
  | n + 1, w =>
    let x2 := w.getD 1 0
    let x15 := w.getD 14 0
    let s0 := x15.rotateRight 1 ^^^ x15.rotateRight 8 ^^^ (x15 >>> 7)
    let s1 := x2.rotateRight 19 ^^^ x2.rotateRight 61 ^^^ (x2 >>> 6)
    shaSchedule n ((w.getD 15 0 + s0 + w.getD 6 0 + s1) :: w)

/-- The 80 rounds over working words a to h. -/
def shaRounds : List (BitVec 64 × BitVec 64) → List (BitVec 64) → List (BitVec 64)
  | (k, w) :: t, [a, b, c, d, e, f, g, h] =>
    let s1 := e.rotateRight 14 ^^^ e.rotateRight 18 ^^^ e.rotateRight 41
    let ch := (e &&& f) ^^^ (~~~e &&& g)
    let t1 := h + s1 + ch + k + w
    let s0 := a.rotateRight 28 ^^^ a.rotateRight 34 ^^^ a.rotateRight 39
    let maj := (a &&& b) ^^^ (a &&& c) ^^^ (b &&& c)
    shaRounds t [t1 + s0 + maj, a, b, c, d + t1, e, f, g]
  | _, v => v

/-- One block of 128 bytes. -/
def shaBlock (h : List (BitVec 64)) (blk : Bytes) : List (BitVec 64) :=
  let w0 := (chunks 8 16 blk).map (fun c => BitVec.ofNat 64 (beNat c))
  let ws := (shaSchedule 64 w0.reverse).reverse
  List.zipWith (fun x y => x + y) h (shaRounds (shaK.zip ws) h)

/-- Padding to whole blocks of 128 bytes. -/
def shaPad (b : Bytes) : Bytes :=
  let n := b.length
  let k := (239 - n % 128) % 128
  b ++ (0x80 :: zeros k) ++ (toLe 16 (8 * n)).reverse

/-- SHA-384 of a byte string: 48 bytes. -/
def sha384 (b : Bytes) : Bytes :=
  let p := shaPad b
  let h := (chunks 128 (p.length / 128) p).foldl shaBlock shaH0
  (h.take 6).flatMap (fun w => (toLe 8 w.toNat).reverse)

end Sys2Proof.Machine
end

