-- ==== Sys2Proof/Machine/Reset.lean ====
section
/-! DEFINITION. The resets of Table 18.10: what survives one. -/
namespace Sys2Proof.Machine

/-- Is an object's value kept when the switched domains lose theirs: fault records (R674), the count of boots in the flash, and the pins' levels? -/
def keptObj (records : Bool) (k : Nat) : Bool :=
  let i := k / 256
  (records && ((decide (0x3100 ≤ i) && decide (i < 0x3200)) || k == okey 0x3000 3)) || i == 0x2020 || k == okey 0x1003 8

/-- What the digest of a bank covers (R70): its sequence number and its entries, each with its object, its length and its bytes. -/
def bankBytes (seq : Nat) (entries : Sparse Val) : Bytes :=
  toLe 4 seq ++ entries.flatMap (fun e =>
    let b := match e.2 with | .num n => toLe 8 n | .bytes b => b
    toLe 3 e.1 ++ toLe 4 b.length ++ b)

/-- The bank of the stored set in use (R71): the valid one, whose digest is that of its contents, with the higher sequence number. -/
def storeBank (s : State) : Nat × StoreBank :=
  let ok := fun (b : StoreBank) => b.seq != 0 && b.digest == sha384 (bankBytes b.seq b.entries)
  if ok s.pb.bank1 && (!ok s.pb.bank2 || decide (s.pb.bank2.seq < s.pb.bank1.seq)) then (1, s.pb.bank1)
  else if ok s.pb.bank2 then (2, s.pb.bank2)
  else (0, StoreBank.empty)

/-- What the flash gives at a reset to objects that change later (R50): CFG_STORE_SEQ, CFG_BANK and CFG_ENTRIES. -/
def bootValues (s : State) : Sparse Nat :=
  let c := storeBank s
  [(okey 0x1008 1, c.2.seq), (okey 0x1008 2, c.1), (okey 0x1008 4, c.2.entries.length % 65536)].filter (fun e => e.2 != 0)

/-- Every switched domain loses its state, and the tiers their contents; the always-on domain, the flash and the fuses keep theirs (R674, R663, R70). The Hem is read
again, so that advanced floors count (R102, R614). -/
def wipe (s : State) (records : Bool) : State :=
  let p := s.pwr
  let h := s.sec.hem
  { State.reset with
    pending := s.pending, out := s.out, free := s.free, obj := s.obj.filter (fun e => keptObj records e.1)
    det := { DetState.reset with now := s.det.now, count := if records then s.det.count else 0, frac := if records then s.det.frac else 0 }
    pb := { PbState.reset with bank1 := s.pb.bank1, bank2 := s.pb.bank2, i3cDynamic := if records then s.pb.i3cDynamic else 0, atBoot := bootValues s }
    sec := { SecState.reset with hem := { h with arbFirmware := h.arbFirmwareFuse, arbLoader := h.arbLoaderFuse } }
    pwr := { PwrState.reset with vstby := p.vstby, refclk := p.refclk, perst := p.perst, sledGone := p.sledGone, tripped := p.tripped, flash := p.flash, resetAt := s.det.now } }

/-- A reset (Table 18.10); its cause is RESET_CAUSE (R99). A power-on reset loses the fault records and restarts the counter. -/
def deviceReset (s : State) (cause : Nat) : State :=
  let s := setNum (wipe s (cause != 1)) 0x1003 9 cause
  if cause ≤ 2 then { s with pwr := { s.pwr with sledGone := false } } else s

/-- The limp escalation (R690). -/
def limpReset (s : State) : State := if s.flt.limpResetDue then deviceReset s 5 else s

end Sys2Proof.Machine
end

