-- ==== Sys2Proof/Config.lean ====
section
/-! DEFINITION. What an implementation fixes and what the spec leaves open: constants without a body, so that nothing can be proved of their values (log entries 3 and 14). -/
namespace Sys2Proof.Config

/-- The fixed hash of source and destination endpoint that chooses a port of a mask (R149). -/
opaque routeHash : Nat → Nat → Nat

/-- The port of a mask that one BLK write takes (R149: sprayed over every port). -/
opaque sprayPick : Nat → Nat

/-- A free number, one for each use (log entry 3). -/
opaque freeNat : Nat → Nat

/-- A free byte, one for each use. -/
opaque freeByte : Nat → Byte

/-- A sum of FP32 terms as a service launch outside the fixed split forms it: it may follow the arrays that are ON (R442). -/
opaque serviceSum : Nat → List Nat → Nat

/-- How far EXP lies from the correctly rounded value, as a free choice for each FP32 operand (R481). -/
opaque expUlp : Nat → Nat

/-- The same for GELU. -/
opaque geluUlp : Nat → Nat

/-- The bits of a NaN result, for each kind of operation and its operands: the spec says of most operations only that the result is NaN (log entry 197). -/
opaque nanBits : Nat → Nat → Nat → Nat

/-- Bytes that the Thimble draws or derives and that leave it: nonces, public keys, signatures (R615, R618), by number of the draw. -/
opaque thimbleByte : Nat → Nat → Byte

/-- The device identity public key, and the debug identity public key in its place (Table 14.4, R613), byte by byte. -/
opaque identityByte : Bool → Nat → Byte

/-- DEVICE_CERT, and the certificates before it in the chain of slot 0 (R623): bytes, with or without the debug identity (R613), and how many come before. -/
opaque certByte : Bool → Nat → Byte
opaque chainByte : Nat → Byte
opaque chainLength : Nat

/-- The Yeryn root hash in the boot ROM (R736), byte by byte. -/
opaque rootByte : Nat → Byte

/-- The Landing bank that holds a line of mappable Landing: the spec gives no interleave. -/
opaque landBank : Nat → Nat

/-- The fused safe voltage of a domain at a divisor of its clock, and its fused floor, in steps of 5 mV above 0.60 V: the trim fuses are not given (R721). -/
opaque safeStep : Nat → Nat → Nat
opaque floorStep : Nat → Nat

/-- Telemetry of a domain at a time: its current in mA, and its sensor in °C, as a two's complement byte (R723, R724). -/
opaque currentMa : Nat → Nat → Nat
opaque sensorC : Nat → Nat → Nat

/-- How far the Cellar's flash is worn, by time: the spec does not give the rated erase cycles. -/
opaque cellarWear : Nat → Nat

/-- Is a Hearth core in WFI at a time? Its program is the sender's. -/
opaque coreWaits : Nat → Nat → Bool

end Sys2Proof.Config
end

