-- ==== Sys2Proof/Machine/FloatNum.lean ====
section
/-! DEFINITION. Floating-point numbers as exact dyadic rationals, and their rounding to the formats of the spec (round to nearest, ties to even): FP32, BF16, FP16, E4M3, E5M2 and the small formats. A value is NaN, an infinity, or sign × man × 2^exp. -/
namespace Sys2Proof.Machine

/-- A floating-point value without a format. -/
inductive FNum where
  | nan
  | inf (neg : Bool)
  | fin (neg : Bool) (man : Nat) (exp : Int)
  deriving DecidableEq, Repr

/-- A binary format: exponent bits, fraction bits, bias, and whether the top exponent holds infinities
and NaN (`ieee`), or only one NaN code of all ones (`nanOnly`: E4M3), or numbers alone. -/
structure FFmt where
  eb : Nat
  fb : Nat
  bias : Int
  ieee : Bool
  nanOnly : Bool
  deriving DecidableEq, Repr

def fmtF32 : FFmt := { eb := 8, fb := 23, bias := 127, ieee := true, nanOnly := false }
def fmtBf16 : FFmt := { eb := 8, fb := 7, bias := 127, ieee := true, nanOnly := false }
def fmtF16 : FFmt := { eb := 5, fb := 10, bias := 15, ieee := true, nanOnly := false }
def fmtE4m3 : FFmt := { eb := 4, fb := 3, bias := 7, ieee := false, nanOnly := true }
def fmtE5m2 : FFmt := { eb := 5, fb := 2, bias := 15, ieee := true, nanOnly := false }
def fmtE2m3 : FFmt := { eb := 2, fb := 3, bias := 1, ieee := false, nanOnly := false }
def fmtE3m2 : FFmt := { eb := 3, fb := 2, bias := 3, ieee := false, nanOnly := false }
def fmtE2m1 : FFmt := { eb := 2, fb := 1, bias := 1, ieee := false, nanOnly := false }

/-- The value that `bits` has in format `f`. -/
def fdec (f : FFmt) (bits : Nat) : FNum :=
  let neg := bit bits (f.eb + f.fb)
  let e := fld bits f.fb f.eb
  let m := fld bits 0 f.fb
  let top := 2 ^ f.eb - 1
  if f.ieee && e == top then (if m == 0 then .inf neg else .nan)
  else if f.nanOnly && e == top && m == 2 ^ f.fb - 1 then .nan
  else if e == 0 then .fin neg m (1 - f.bias - f.fb)
  else .fin neg (m + 2 ^ f.fb) ((e : Int) - f.bias - f.fb)

/-- `m × 2^(-sh)` rounded to nearest, ties to even; `sticky` says that the true value is slightly above. -/
def rneShift (m sh : Nat) (sticky : Bool) : Nat :=
  let q := m / 2 ^ sh
  let r := m % 2 ^ sh
  let half := 2 ^ sh / 2
  if sh = 0 then (if sticky then q else q)
  else if half < r || (r == half && (sticky || q % 2 == 1)) then q + 1 else q

/-- The largest finite magnitude's bits in a format. -/
def fmaxBits (f : FFmt) : Nat :=
  if f.ieee then (2 ^ f.eb - 1) * 2 ^ f.fb - 1
  else if f.nanOnly then 2 ^ (f.eb + f.fb) - 2
  else 2 ^ (f.eb + f.fb) - 1

/-- The canonical quiet NaN of a format. -/
def fnanBits (f : FFmt) : Nat :=
  if f.ieee then (2 ^ f.eb - 1) * 2 ^ f.fb + 2 ^ (f.fb - 1) else 2 ^ (f.eb + f.fb) - 1

/-- Sign bit. -/
def fsign (f : FFmt) (neg : Bool) : Nat := if neg then 2 ^ (f.eb + f.fb) else 0

/-- Round the magnitude `man × 2^exp` (plus a hair when `sticky`) into the format's bits without sign;
`none` when it rounds beyond the largest finite value. -/
def froundMag (f : FFmt) (man : Nat) (exp : Int) (sticky : Bool) : Option Nat :=
  if man = 0 then some 0
  else
    let top : Int := (Nat.log2 man : Int) + exp
    let emin : Int := 1 - f.bias
    let e : Int := if top < emin then emin else top
    -- unit in the last place at exponent e
    let ulp : Int := e - f.fb
    let q : Nat := if exp < ulp then rneShift man (ulp - exp).toNat sticky else man * 2 ^ (exp - ulp).toNat
    -- a carry moves to the next exponent by itself in the bits
    let bits : Nat := if q < 2 ^ f.fb then q
      else ((e + f.bias).toNat - 1) * 2 ^ f.fb + q
    if fmaxBits f < bits then none else some bits

/-- Round to a format; overflow gives infinity, or the largest value where `sat` or where the format has
no infinity. -/
def fenc (f : FFmt) (sat : Bool) (x : FNum) : Nat :=
  match x with
  | .nan => fnanBits f
  | .inf neg => fsign f neg + (if f.ieee && !sat then (2 ^ f.eb - 1) * 2 ^ f.fb else fmaxBits f)
  | .fin neg m e =>
    match froundMag f m e false with
    | some b => fsign f neg + b
    | none => fsign f neg + (if f.ieee && !sat then (2 ^ f.eb - 1) * 2 ^ f.fb else fmaxBits f)

/-- Is a value negative (or −0)? -/
def fneg? : FNum → Bool
  | .nan => false
  | .inf n => n
  | .fin n _ _ => n

/-- The exact sum. A zero sum of opposite values is +0 (round to nearest). -/
def fadd : FNum → FNum → FNum
  | .nan, _ => .nan
  | _, .nan => .nan
  | .inf a, .inf b => if a == b then .inf a else .nan
  | .inf a, _ => .inf a
  | _, .inf b => .inf b
  | .fin a m e, .fin b n g =>
    let lo := min e g
    let x : Int := (if a then -1 else 1) * (m * 2 ^ (e - lo).toNat : Nat)
    let y : Int := (if b then -1 else 1) * (n * 2 ^ (g - lo).toNat : Nat)
    let z := x + y
    if z = 0 then .fin (a && b) 0 0 else .fin (decide (z < 0)) z.natAbs lo

/-- Negation. -/
def fneg : FNum → FNum
  | .nan => .nan
  | .inf n => .inf (!n)
  | .fin n m e => .fin (!n) m e

/-- Absolute value. -/
def fabs : FNum → FNum
  | .nan => .nan
  | .inf _ => .inf false
  | .fin _ m e => .fin false m e

/-- The exact difference. -/
def fsub (a b : FNum) : FNum := fadd a (fneg b)

/-- The exact product. -/
def fmul : FNum → FNum → FNum
  | .nan, _ => .nan
  | _, .nan => .nan
  | .inf a, .inf b => .inf (a != b)
  | .inf a, .fin b m _ => if m = 0 then .nan else .inf (a != b)
  | .fin a m _, .inf b => if m = 0 then .nan else .inf (a != b)
  | .fin a m e, .fin b n g => .fin (a != b) (m * n) (e + g)

/-- The quotient, rounded into a format (a quotient has no dyadic form in general). -/
def fdivTo (f : FFmt) (sat : Bool) (x y : FNum) : Nat :=
  match x, y with
  | .nan, _ => fnanBits f
  | _, .nan => fnanBits f
  | .inf _, .inf _ => fnanBits f
  | .inf a, .fin b _ _ => fenc f sat (.inf (a != b))
  | .fin a _ _, .inf b => fsign f (a != b)
  | .fin a m e, .fin b n g =>
    if n = 0 then (if m = 0 then fnanBits f else fenc f sat (.inf (a != b)))
    else if m = 0 then fsign f (a != b)
    else
      -- enough quotient bits for one correct rounding, with the remainder as sticky
      let sh := f.fb + 4 + Nat.log2 n + 400
      let q := m * 2 ^ sh / n
      let r := m * 2 ^ sh % n
      match froundMag f q (e - g - sh) (decide (0 < r)) with
      | some v => fsign f (a != b) + v
      | none => fenc f sat (.inf (a != b))

/-- The integer square root (fuel bounds the halving). -/
def isqrtAux : Nat → Nat → Nat → Nat → Nat
  | 0, lo, _, _ => lo
  | fuel + 1, lo, hi, n =>
    if hi ≤ lo + 1 then lo
    else
      let mid := (lo + hi) / 2
      if mid * mid ≤ n then isqrtAux fuel mid hi n else isqrtAux fuel lo mid n

/-- The integer square root. -/
def isqrt (n : Nat) : Nat := isqrtAux (Nat.log2 n + 2) 0 (n + 1) n

/-- The square root rounded into a format. -/
def fsqrtTo (f : FFmt) (x : FNum) : Nat :=
  match x with
  | .nan => fnanBits f
  | .inf neg => if neg then fnanBits f else fenc f false (.inf false)
  | .fin neg m e =>
    if m = 0 then fsign f neg
    else if neg then fnanBits f
    else
      let sh : Nat := 64 + (if (e - 64) % 2 = 0 then 0 else 1)
      let sh2 : Nat := sh
      let n := m * 2 ^ (sh2 + 64)
      let e' := e - (sh2 + 64 : Nat)
      -- make the exponent even
      let n' := if e' % 2 = 0 then n else n * 2
      let e2 := if e' % 2 = 0 then e' else e' - 1
      let q := isqrt n'
      match froundMag f q (e2 / 2) (decide (q * q < n')) with
      | some v => v
      | none => fenc f false (.inf false)

/-- Order of two values that are not NaN, with −0 below +0: is `x` below `y`? -/
def fltTotal (x y : FNum) : Bool :=
  match x, y with
  | .inf a, .inf b => a && !b
  | .inf a, _ => a
  | _, .inf b => !b
  | .fin a m e, .fin b n g =>
    let lo := min e g
    let u := m * 2 ^ (e - lo).toNat
    let v := n * 2 ^ (g - lo).toNat
    if a && !b then true
    else if !a && b then false
    else if a then decide (v < u) else decide (u < v)
  | _, _ => false

/-- IEEE less-than (−0 equals +0; false with a NaN). -/
def flt (x y : FNum) : Bool :=
  match x, y with
  | .nan, _ => false
  | _, .nan => false
  | .fin a m e, .fin b n g => if m = 0 && n = 0 then false else fltTotal (.fin a m e) (.fin b n g)
  | a, b => fltTotal a b

/-- Is it a NaN? -/
def isNan : FNum → Bool
  | .nan => true
  | _ => false

/-- Is it finite? -/
def isFin : FNum → Bool
  | .fin _ _ _ => true
  | _ => false

/-- The value of an integer. -/
def ofInt (i : Int) : FNum := .fin (decide (i < 0)) i.natAbs 0

/-- Rounded to the nearest integer, ties to even. -/
def froundInt : FNum → Int
  | .fin neg m e =>
    let q : Nat := if 0 ≤ e then m * 2 ^ e.toNat else rneShift m (-e).toNat false
    if neg then -(q : Int) else q
  | _ => 0

/-- The bits of a NaN result where the spec names none: a free NaN for each operation and its operands (log entry 197). A format with one NaN code has that code. -/
def nanOf (f : FFmt) (op a b : Nat) : Nat :=
  if f.ieee then fsign f (bit (Config.nanBits op a b) 0) + (2 ^ f.eb - 1) * 2 ^ f.fb + (Config.nanBits op a b / 2 % (2 ^ f.fb - 1) + 1) else fnanBits f

/-- A value rounded into a format, with the bits of a NaN free. -/
def fencFree (f : FFmt) (sat : Bool) (op a b : Nat) (x : FNum) : Nat := if isNan x then nanOf f op a b else fenc f sat x

/-- Bits in a format, those of a NaN free. -/
def nanFree (f : FFmt) (op a b r : Nat) : Nat := if isNan (fdec f r) then nanOf f op a b else r

-- FP32 operations on bit patterns, round to nearest even
/-- FP32 sum. -/
def f32add (a b : Nat) : Nat := fencFree fmtF32 false 0 a b (fadd (fdec fmtF32 a) (fdec fmtF32 b))
/-- FP32 difference. -/
def f32sub (a b : Nat) : Nat := fencFree fmtF32 false 1 a b (fsub (fdec fmtF32 a) (fdec fmtF32 b))
/-- FP32 product. -/
def f32mul (a b : Nat) : Nat := fencFree fmtF32 false 2 a b (fmul (fdec fmtF32 a) (fdec fmtF32 b))
/-- FP32 quotient. -/
def f32div (a b : Nat) : Nat := nanFree fmtF32 3 a b (fdivTo fmtF32 false (fdec fmtF32 a) (fdec fmtF32 b))
/-- FP32 square root. -/
def f32sqrt (a : Nat) : Nat := nanFree fmtF32 4 a 0 (fsqrtTo fmtF32 (fdec fmtF32 a))
/-- An integer as FP32. -/
def f32ofInt (i : Int) : Nat := fenc fmtF32 false (ofInt i)

end Sys2Proof.Machine
end

