-- ==== Sys2Proof/Machine/Operands.lean ====
section
/-! DEFINITION. Operand forms of the memory operations: element types of far atomics and reductions, and what each operation makes of an element (R388 to R391, R530). -/
namespace Sys2Proof.Machine

/-- Element size by ATYPE (R389): 0 I32, 1 U32, 2 I64, 3 U64, 4 F32, 5 BF16. -/
def atypeSize : Nat → Nat
  | 0 => 4 | 1 => 4 | 2 => 8 | 3 => 8 | 4 => 4 | 5 => 2
  | _ => 0

/-- Is ATYPE a floating-point type? -/
def atypeFloat (t : Nat) : Bool := t == 4 || t == 5

/-- The format of a floating-point ATYPE. -/
def atypeFmt (t : Nat) : FFmt := if t = 5 then fmtBf16 else fmtF32

/-- RTYPE of a REDUCE (R530) as an ATYPE: 0 I32, 1 I64, 2 F32, 3 BF16. -/
def rtypeAtype : Nat → Nat
  | 0 => 0 | 1 => 2 | 2 => 4 | 3 => 5
  | _ => 6

/-- The sum of two elements (Table 9.2): modulo 2 to the width, or rounded once with a canonical NaN. -/
def elemAdd (t x y : Nat) : Nat :=
  if atypeFloat t then fenc (atypeFmt t) false (
    -- BF16: computed in FP32, rounded once to BF16
    if t = 5 then fdec fmtF32 (fenc fmtF32 false (fadd (fdec fmtBf16 x) (fdec fmtBf16 y)))
    else fadd (fdec fmtF32 x) (fdec fmtF32 y))
  else (x + y) % 2 ^ (8 * atypeSize t)

/-- Is `x` below `y` in the type's order (Table 9.2)? -/
def elemLt (t x y : Nat) : Bool :=
  match t with
  | 0 => decide (toSigned 32 x < toSigned 32 y)
  | 2 => decide (toSigned 64 x < toSigned 64 y)
  | 4 => fltTotal (fdec fmtF32 x) (fdec fmtF32 y)
  | 5 => fltTotal (fdec fmtBf16 x) (fdec fmtBf16 y)
  | _ => decide (x < y)

/-- The smaller or the larger of memory `x` and operand `y`; a NaN in either gives the canonical NaN. -/
def elemMinMax (t : Nat) (max_ : Bool) (x y : Nat) : Nat :=
  if atypeFloat t && (isNan (fdec (atypeFmt t) x) || isNan (fdec (atypeFmt t) y)) then fnanBits (atypeFmt t)
  else if max_ then (if elemLt t x y then y else x)
  else (if elemLt t y x then y else x)

/-- One element under a far atomic (Table 9.2). -/
def elemOp (op : AOp) (t compare x y : Nat) : Nat :=
  match op with
  | .add => elemAdd t x y
  | .min => elemMinMax t false x y
  | .max => elemMinMax t true x y
  | .swap => y
  | .cas => if x = compare % 2 ^ (8 * atypeSize t) then y else x
  | .and => x.land y
  | .or => x.lor y
  | .xor => x.xor y

/-- Every element of `old` under the operation with the operand elements in order; `n` bounds the count. -/
def elemsOp (op : AOp) (t compare : Nat) : Nat → Bytes → Bytes → Bytes
  | 0, old, _ => old
  | n + 1, old, x =>
    let z := atypeSize t
    if old.length < z || z = 0 then old
    else toLe z (elemOp op t compare (leNat (old.take z)) (leNat (x.take z))) ++
      elemsOp op t compare n (old.drop z) (x.drop z)

/-- Does an ATOMIC break R389 (it then completes UNSUP)? `off` is BYTE_OFF; the operand bytes give LEN. -/
def atomicBad (op : AOp) (t rsvd off : Nat) (x : Bytes) : Bool :=
  let z := atypeSize t
  let n := x.length
  rsvd != 0 || z == 0 || off % z != 0 || n % z != 0 || n == 0 || decide (48 < n) ||
  (match op with
   | .swap => n != z || t == 5
   | .cas => n != z || t == 5
   | .and => atypeFloat t
   | .or => atypeFloat t
   | .xor => atypeFloat t
   | _ => false)

/-- Does an atomic carry the V flag (R391)? -/
def atomicV (op : AOp) (t : Nat) : Bool := op == .add && atypeFloat t

/-- Does a REDUCE break R530? -/
def reduceBad (rop rtype off : Nat) (x : Bytes) : Bool :=
  let z := atypeSize (rtypeAtype rtype)
  decide (2 < rop) || z == 0 || off % z != 0 || x.length % z != 0 || x.length == 0

/-- The far-atomic operation of a REDUCE's ROP. -/
def ropAOp : Nat → AOp
  | 0 => .add | 1 => .min
  | _ => .max

end Sys2Proof.Machine
end

