-- ==== Sys2Proof/Machine/Flags.lean ====
section
/-! DEFINITION. The fault flags: recording a fault in its sticky bit and records (R671 to R673), the recovery ladder and its windows (R681 to R684), and entry to limp (R688 to R690): what every family calls when it detects a fault. -/
namespace Sys2Proof.Machine

/-- A resource ID (Table 17.2). -/
def resId (cls unit : Nat) : Nat := cls * 4096 + unit % 4096

/-- An engine's resource ID: kind 1 Shuttle group, 2 Bobbin, 3 Tape, 4 Treadle, 5 core, 6 L2 cluster. -/
def engRes (kind unit : Nat) : Nat := resId 9 (kind * 256 + unit % 256)

/-- The last level of a resource's row in Table 17.4. -/
def lastLevel (res : Nat) : Nat :=
  match res / 4096 with
  | 1 => 3 | 2 => 3 | 3 => 3 | 4 => 3
  | 5 => 2 | 6 => 2 | 7 => 2 | 8 => 2
  | 9 => 3
  | _ => 0

/-- A resource's recovery window. -/
def getWindow (s : State) (res : Nat) : RecWindow := sget (fun _ => RecWindow.none) s.flt.windows res

/-- Set it. -/
def setWindow (s : State) (res : Nat) (w : RecWindow) : State :=
  { s with flt := { s.flt with windows := sput (fun _ => RecWindow.none) s.flt.windows res w } }

/-- The highest level whose window is open now (R682). -/
def openLevel (s : State) (res : Nat) : Nat :=
  let w := getWindow s res
  match w.closes with
  | none => w.level
  | some t => if s.det.now < t then w.level else 0

/-- How long a window of a level stays open after its recovery (WINDOW_Ln_MS). -/
def windowTicks (s : State) (level : Nat) : Nat := msT (num s 0x3200 level)

/-- FIRST of a fault record (Table 17.3). -/
def firstRecord (s : State) (code res part level status addr : Nat) (detail : Bytes) : Bytes :=
  let b := toLe 8 s.det.count ++ toLe 2 code ++ toLe 2 res ++ toLe 1 part ++ toLe 1 level ++
    toLe 1 status ++ zeros 1 ++ toLe 8 addr ++ detail
  b ++ zeros (160 - b.length)

/-- Record a detection (R671, R673): COUNT and LAST, STICKY and FIRST when STICKY was clear, the
partition's cause latch; FAULTS_TOTAL counts every detection. `part` 0xFF for none. -/
def recordFault (s : State) (code res part level status addr : Nat) (detail : Bytes) : State :=
  let i := 0x3100 + code
  let s := bump (bump s 0x3000 3) i 2
  let s := setNum s i 4 s.det.count
  let s := if num s i 1 == 1 then s
    else setBlob (setNum s i 1 1) i 3 (firstRecord s code res part level status addr detail)
  if part < 64 then latch s (partSource part 8) else s

/-- Record a fault that starts no recovery (LEVEL 0). -/
def noteFault (s : State) (code res part status addr : Nat) (detail : Bytes) : State :=
  recordFault s code res part 0 status addr detail

/-- The ports that are ACTIVE. -/
def activePorts (s : State) : List Nat := (upTo 32).filter (fun p => portState s p == 7)

/-- Send a NOTICE on a port (R580, R675). -/
def sendNotice (s : State) (port code unit data : Nat) : State := emit s (.notice port code unit data)

/-- The run-state objects of the four engine blocks (R688): Bobbin, Tape, Treadle, Shuttle. -/
def limpRunObjects : List Nat := [okey 0x2600 1, okey 0x2700 1, okey 0x2800 1, okey 0x2900 1]

/-- Entry to limp (R688): record LIMP, set LIMP_STATE and LIMP_ENTERED, NOTICE on every ACTIVE port,
stop the engine blocks. The freezes and the clock demand follow from LIMP_STATE. -/
def enterLimp (s : State) (res code : Nat) : State :=
  let s := noteFault s 0x49 res 0xFF 0xFF 0 (toLe 2 code)
  let running := limpRunObjects.filter (fun k => num s (k / 256) (k % 256) == 3)
  let s := setNum (setNum s 0x3300 1 1) 0x3300 5 s.det.count
  let s := { s with flt := { s.flt with limpBlocks := running } }
  let s := forS running s (fun s k => setNum s (k / 256) (k % 256) 2)
  forS (activePorts s) s (fun s p => sendNotice s p 0x49 res code)

/-- Hold a resource out of service at its last level (R682); a Bobbin engine or an array that leaves service changes the units (R660). -/
def holdOut (s : State) (res : Nat) : State :=
  let s := if res / 256 = 0x92 || res / 256 = 0x94 then runFlag s 2 else s
  setWindow s res { getWindow s res with out := true }

/-- A handling beyond the last level (R682, R690): limp, or held out of service. Answers the LEVEL that
FIRST records. -/
def beyondLast (s : State) (res code : Nat) : Nat × State :=
  if bit (num s 0x3200 4) (res / 4096) then
    if inLimp s then
      let within := decide (s.det.count < num s 0x3300 5 + secT (num s 0x3300 4))
      if within && num s 0x3300 3 == 1 then
        (4, holdOut { s with flt := { s.flt with limpResetDue := true } } res)
      else (lastLevel res, holdOut s res)
    else (4, holdOut (enterLimp s res code) res)
  else (lastLevel res, holdOut s res)

/-- Queue a recovery of level 2 or above (R684): one entry per resource, its level raised in place. -/
def queueRecovery (s : State) (e : RecEntry) : State :=
  let q := s.flt.queue
  let q' := if q.any (fun x => x.res == e.res)
    then q.map (fun x => if x.res == e.res then { x with level := max x.level e.level } else x)
    else q ++ [e]
  let s := { s with flt := { s.flt with queue := q' } }
  setNum s 0x3200 6 q'.length

/-- Open (or raise) the window of a resource at a level; it closes when `closes` says. -/
def openWindow (s : State) (res level code : Nat) (closes : Option Nat) : State :=
  let w := getWindow s res
  setWindow s res { w with level := max (openLevel s res) level, closes := closes,
                           count := w.count + 1, code := code }

/-- Push an entry on RECOVERY_LOG, which keeps 32, newest first. -/
def logRecovery (s : State) (e : RecEntry) : State :=
  bump { s with flt := { s.flt with log := (e :: s.flt.log).take 32 } } 0x3200 5

/-- A fault enters recovery (R681, R682): handled at max(n, k + 1); ESCALATION above n; level 1 ends at
once and opens its window; higher levels wait for the sequencer; beyond the last level, limp or out of
service. Answers the level recorded and the new state. Classes other than 2 to 9 follow R683. -/
def enterLadder (s : State) (res n code : Nat) : Nat × State :=
  let k := openLevel s res
  let earlier := (getWindow s res).code
  let lvl := max n (k + 1)
  let esc := fun (s : State) (to_ : Nat) =>
    noteFault s 0x48 res 0xFF 0xFF 0 (toLe 1 n ++ toLe 1 to_ ++ toLe 2 earlier ++ toLe 2 code)
  if lastLevel res < lvl then
    let r := beyondLast s res code
    (r.1, esc r.2 r.1)
  else
    let s := if n < lvl then esc s lvl else s
    if lvl = 1 then
      let s := openWindow s res 1 code (some (s.det.now + windowTicks s 1))
      (1, logRecovery s { res := res, fromLevel := n, level := 1, code := code, queuedAt := s.det.now,
                          startedAt := s.det.now, endedAt := s.det.now })
    else
      (lvl, queueRecovery s { res := res, fromLevel := n, level := lvl, code := code,
                              queuedAt := s.det.now, startedAt := 0, endedAt := 0 })

/-- Detect a fault that enters recovery at level `n` (Table 17.1's Ladder column). -/
def detectFault (s : State) (code res n part status addr : Nat) (detail : Bytes) : State :=
  let r := enterLadder s res n code
  recordFault r.2 code res part r.1 status addr detail

/-- Is a resource held out of service (R682)? -/
def outOfService (s : State) (res : Nat) : Bool := (getWindow s res).out

end Sys2Proof.Machine
end

