-- ==== Sys2Proof/Machine/VecImage.lean ====
section
/-! DEFINITION. Tape indexes (R432, R434, R435, R437): descriptor fields, the areas of the image, and the lanes of its store bolts. -/
namespace Sys2Proof.Machine

/-- VEC_DESC of an index. -/
def vecDesc (s : State) (x : Nat) : Bytes := blob s 0x2710 (x + 1)

/-- Fields of Table 10.1. -/
def vecRegion (s : State) (x : Nat) : Nat := bfld (vecDesc s x) 0 2
def vecIp (s : State) (x : Nat) : Bool := bfld (vecDesc s x) 2 1 == 1
def vecResidual (s : State) (x : Nat) : Bool := bit (bfld (vecDesc s x) 3 1) 0
def vecGraph (s : State) (x : Nat) : Bool := bit (bfld (vecDesc s x) 3 1) 1
def vecM (s : State) (x : Nat) : Nat := bfld (vecDesc s x) 4 1
def vecBits (s : State) (x : Nat) : Nat := bfld (vecDesc s x) 5 1
def vecRrFmt (s : State) (x : Nat) : Nat := bfld (vecDesc s x) 6 1
def vecMembers (s : State) (x : Nat) : Nat := bfld (vecDesc s x) 7 1
def vecDim (s : State) (x : Nat) : Nat := bfld (vecDesc s x) 8 2
def vecNlist (s : State) (x : Nat) : Nat := bfld (vecDesc s x) 0x0C 4
def vecRrRegion (s : State) (x : Nat) : Nat := bfld (vecDesc s x) 0x10 2
def vecMember (s : State) (x : Nat) : Nat := bfld (vecDesc s x) 0x12 1
def vecGraphR (s : State) (x : Nat) : Nat := bfld (vecDesc s x) 0x13 1
def vecSidePages (s : State) (x : Nat) : Nat := bfld (vecDesc s x) 0x14 4
def vecRoundMax (s : State) (x : Nat) : Nat := bfld (vecDesc s x) 0x18 2
def vecCandMax (s : State) (x : Nat) : Nat := bfld (vecDesc s x) 0x1A 2
def vecMergeChain (s : State) (x : Nat) : Nat := bfld (vecDesc s x) 0x1C 4
def vecMergeTomb (s : State) (x : Nat) : Nat := bfld (vecDesc s x) 0x20 2
def vecEntryCount (s : State) (x : Nat) : Nat := bfld (vecDesc s x) 0x22 1

/-- C, DS and CB of R432. -/
def vecC (s : State) (x : Nat) : Nat := 2 ^ vecBits s x
def vecDs (s : State) (x : Nat) : Nat := vecDim s x / vecM s x
def vecCb (s : State) (x : Nat) : Nat := vecM s x * vecBits s x / 8

/-- VB of R438: bytes of a re-rank vector. -/
def vecVb (s : State) (x : Nat) : Nat := divUp (vecDim s x * (if vecRrFmt s x = 1 then 4 else 2)) 64 * 64

/-- Round up to a multiple of 64 KiB. -/
def up64k (n : Nat) : Nat := divUp n 65536 * 65536

/-- Offsets of the areas of Table 10.2 in the image. -/
def vecCentOff : Nat := 65536
def vecBookOff (s : State) (x : Nat) : Nat := vecCentOff + up64k (vecNlist s x * vecDim s x * 4)
def vecDirOff (s : State) (x : Nat) : Nat := vecBookOff s x + up64k (vecC s x * vecDim s x * 4)
def vecGraphOff (s : State) (x : Nat) : Nat := vecDirOff s x + up64k (vecNlist s x * 32)
def vecWorkOff (s : State) (x : Nat) : Nat := vecGraphOff s x + (if vecGraph s x then up64k (vecNlist s x * 256) else 0)
def vecSideOff (s : State) (x : Nat) : Nat := vecWorkOff s x + up64k (vecRoundMax s x * vecCandMax s x * 16)
def vecStoreOff (s : State) (x : Nat) : Nat := vecSideOff s x + up64k (vecSidePages s x * 4096)

/-- The image's base. -/
def vecBase (s : State) (x : Nat) : Nat := (getRegion s (vecRegion s x)).base

/-- Whole bolts of the list store. -/
def vecStoreBolts (s : State) (x : Nat) : Nat := ((getRegion s (vecRegion s x)).size - vecStoreOff s x) / 65536

/-- Lane bolts of a lane (R435). -/
def laneBolts (s : State) (x lane : Nat) : Nat := (vecStoreBolts s x + 31 - lane) / 32

/-- The stored value of VEC_RUN. -/
def vecRunRaw (s : State) (x : Nat) : Nat := num s 0x2713 (x + 1)

/-- The bolt number of lane bolt `b` of a lane. -/
def laneBolt (s : State) (x lane b : Nat) : Nat := (vecBase s x + vecStoreOff s x) / 65536 + b * 32 + lane

/-- The lane, and Cellar channel, that a bolt is bound to as a store bolt of an index (R178, R435). -/
def vecLane (s : State) (bolt : Nat) : Option Nat :=
  match (upTo 16).find? (fun x => vecRunRaw s x != 0 && decide (vecBase s x + vecStoreOff s x ≤ bolt * 65536) &&
      decide (bolt * 65536 < vecBase s x + vecStoreOff s x + vecStoreBolts s x * 65536)) with
  | some x => some ((bolt - (vecBase s x + vecStoreOff s x) / 65536) % 32)
  | none => none

/-- May a bolt be placed in a unit: a store bolt of an index lies on its lane's Cellar channel. -/
def laneOk (s : State) (bolt t u : Nat) : Bool :=
  if t = 3 then (match vecLane s bolt with | some h => u == h | none => true) else true

end Sys2Proof.Machine
end

