-- ==== Sys2Proof/Machine/Tiers.lean ====
section
/-! DEFINITION. Tiers and placement (ch. 4), first part: sizes, slots and their units, quotas, allocating and freeing bolts, starting and ending moves, counting accesses. -/
namespace Sys2Proof.Machine

/-- The first offset of Landing, of its accumulator pool, and of what follows it (Table 3.1). -/
def landBase : Nat := 0xF00000000000
def accBase : Nat := 0xF00006000000
def accEnd : Nat := 0xF00008000000

/-- Is an offset in the mappable Landing? -/
def inLanding (a : Nat) : Bool := decide (landBase ≤ a) && decide (a < accBase)

/-- Is an offset in populated unified memory (R107)? -/
def inUnified (s : State) (a : Nat) : Bool := decide (a < s.tier.unifiedSize)

/-- A bolt is 64 KiB (R166). -/
def boltOf (a : Nat) : Nat := a / 65536

/-- Where the byte at offset `o` of a bolt lies in its slot (R179): as seen, or in tile layout. -/
def storedOff (tile : Bool) (o : Nat) : Nat :=
  if tile then fld o 7 3 * 8192 + o / 1024 * 128 + o % 128 else o

/-- The 4 KiB unit of the slot in which line `k` of a bolt is stored (R206, R179). -/
def unitOfLine (tile : Bool) (k : Nat) : Nat := storedOff tile (k * 64) / 4096

/-- The lines of a 4 KiB unit of the slot. -/
def unitLines (tile : Bool) (u : Nat) : List Nat := (upTo 1024).filter (fun k => unitOfLine tile k == u)

/-- The slot count of a tier (1 Parlour, 2 Larder, 3 Cellar). -/
def tierSlots (s : State) (t : Nat) : Nat :=
  match t with
  | 1 => s.tier.parlourSlots
  | 2 => s.tier.larderSlots
  | 3 => s.tier.cellarSlots
  | _ => 0

/-- Placement units of a tier: 6 stacks, 4 quadrants of the Larder (R177, R178), 32 Cellar channels. -/
def tierUnits (t : Nat) : Nat :=
  match t with
  | 1 => 6
  | 2 => 4
  | _ => 32

/-- Larder capacity fitted in quadrant `q`'s four channels. -/
def larderQuad (s : State) (q : Nat) : Nat :=
  ((List.range 4).map (fun k => s.tier.larderFitted.getD (4 * q + k) 0)).sum

/-- The first slot of unit `u`: slots are numbered unit after unit (log entry 12). The Larder's units
share its slots as their fitted capacity; the others' units share theirs equally. -/
def unitFirst (s : State) (t u : Nat) : Nat :=
  if t = 2 then
    let total := ((List.range 4).map (larderQuad s)).sum
    if total = 0 then 0
    else ((List.range u).map (larderQuad s)).sum * tierSlots s 2 / total
  else u * tierSlots s t / tierUnits t

/-- The units of a tier's retired slots in the order of retirement: the spare that takes the k-th retired slot's place belongs to the same unit, and is slot number
slot count + k (R215, log entry 12). -/
def spareUnits (s : State) (t : Nat) : List Nat :=
  (s.tier.retired.filter (fun r => r.1 == t)).foldl (fun us r =>
    us ++ [if r.2 < tierSlots s t then ((upTo (tierUnits t)).filter (fun u => decide (unitFirst s t u ≤ r.2))).length - 1
           else us.getD (r.2 - tierSlots s t) 0]) []

/-- The unit that holds a slot. -/
def unitOfSlot (s : State) (t slot : Nat) : Nat :=
  if slot < tierSlots s t then ((upTo (tierUnits t)).filter (fun u => decide (unitFirst s t u ≤ slot))).length - 1
  else (spareUnits s t).getD (slot - tierSlots s t) 0

/-- The spares in use of unit `u`, by slot number. -/
def unitSpares (s : State) (t u : Nat) : List Nat :=
  let us := spareUnits s t
  ((upTo us.length).filter (fun k => us.getD k 0 == u)).map (tierSlots s t + ·)

/-- Units of a tier in quadrant `q` (R177; stacks as Table 1.1). -/
def quadUnits (t q : Nat) : List Nat :=
  match t with
  | 1 => (match q with
    | 0 => [0, 1] | 1 => [3, 4] | 2 => [1, 2]
    | _ => [4, 5])
  | 2 => [q]
  | _ => (upTo 8).map (8 * q + ·)

/-- Resource IDs of the channels or the stack of a unit (Table 17.2). -/
def unitResources (t u : Nat) : List Nat :=
  match t with
  | 1 => [resId 2 u]
  | 2 => (upTo 4).map (fun k => resId 3 (4 * u + k))
  | _ => [resId 4 u]

/-- The power domain of a Cellar channel is OFF, or HELD, which counts as OFF (R192, R710, R714): domain 52 + channel of DOM_STATE. -/
def cellarOff (s : State) (u : Nat) : Bool := decide (num s 0x2010 (52 + u + 1) < 2)

/-- The EVACUATE quadrants that close a unit to placement (R217): stacks 0, 3, 2 and 5, the quadrant's
Larder and Cellar channels. -/
def evacuated (s : State) (t u : Nat) : Bool :=
  let e := num s 0x2301 0x0D
  match t with
  | 1 => (u == 0 && bit e 0) || (u == 3 && bit e 1) || (u == 2 && bit e 2) || (u == 5 && bit e 3)
  | 2 => bit e u
  | _ => bit e (u / 8)

/-- Is a unit quarantined (Table 17.4)? -/
def quarantined (s : State) (t u : Nat) : Bool := s.tier.quarantined.contains (t, u)

/-- May bolts be placed in a unit at all (R192, R217)? -/
def unitOpen (s : State) (t u : Nat) : Bool :=
  !quarantined s t u && !evacuated s t u && !(t == 3 && cellarOff s u)

/-- Slots of a tier in use: homes, destinations of moves, freed slots not yet ready, retired slots. -/
def usedSlots (s : State) (t : Nat) : List Nat :=
  let live := (s.tier.map.filter (fun e => e.2.home == t)).map (fun e => e.2.slot) ++
    (s.tier.moves.filter (fun m => m.tier == t)).map (·.slot) ++
    (s.tier.freed.filter (fun f => f.tier == t)).map (·.slot)
  live ++ ((s.tier.retired.filter (fun r => r.1 == t)).map (·.2)).filter (fun x => !live.contains x)

/-- Free slots of unit `u`. -/
def unitFree (s : State) (t u : Nat) : Nat :=
  let lo := unitFirst s t u
  let hi := unitFirst s t (u + 1)
  let spares := unitSpares s t u
  (hi - lo) + spares.length - ((usedSlots s t).filter (fun x => (decide (lo ≤ x) && decide (x < hi)) || spares.contains x)).length

/-- Free slots of the tier over its open units. -/
def tierFree (s : State) (t : Nat) : Nat :=
  (((upTo (tierUnits t)).filter (unitOpen s t)).map (unitFree s t)).sum

/-- The free slot of lowest number in unit `u`. -/
def unitSlot (s : State) (t u : Nat) : Option Nat :=
  let lo := unitFirst s t u
  let hi := unitFirst s t (u + 1)
  let used := usedSlots s t
  match firstFree (fun n => used.contains n) lo (min (hi - lo) (used.length + 1)) with
  | some n => some n
  | none => (unitSpares s t u).find? (fun n => !used.contains n)

/-- Of a list of units, the one with most free slots, lowest number first among equals (R177). -/
def bestUnit (s : State) (t : Nat) (us : List Nat) : Option Nat :=
  us.foldl (fun b u =>
    if unitFree s t u = 0 then b
    else match b with
      | none => some u
      | some v => if unitFree s t v < unitFree s t u then some u else some v) none

/-- The quadrants from `q` on: itself, row neighbour, column neighbour, diagonal (R177). -/
def quadOrder (q : Nat) : List Nat := [q, q.xor 1, q.xor 2, q.xor 3]

/-- A destination slot in tier `t` for quadrant `q` among the units that `ok` admits. -/
def pickSlot (s : State) (t q : Nat) (ok : Nat → Bool) : Option Nat :=
  (quadOrder q).foldl (fun r k =>
    match r with
    | some x => some x
    | none =>
      match bestUnit s t ((quadUnits t k).filter (fun u => unitOpen s t u && ok u)) with
      | some u => unitSlot s t u
      | none => none) none

/-- The quota of a partition in a tier (R181); 0xFFFF_FFFF stands for the slot count. -/
def quota (s : State) (p t : Nat) : Nat :=
  let q := pnum s (0x4300 + 2 * (t - 1)) p
  if q = 0xFFFFFFFF then tierSlots s t else q

/-- The reserve of a partition in a tier. -/
def reserve (s : State) (p t : Nat) : Nat := pnum s (0x4301 + 2 * (t - 1)) p

/-- Bolts of a partition homed in a tier (0x4306 to 0x4308). -/
def homed (s : State) (p t : Nat) : Nat :=
  (s.tier.map.filter (fun e => e.2.home == t && e.2.part == p)).length

/-- Has a partition room in a tier (R184): the bolts homed there and those on their way there are fewer than its quota? -/
def roomIn (s : State) (p t : Nat) : Bool :=
  decide (homed s p t + (s.tier.moves.filter (fun m => m.tier == t && (getBolt s m.bolt).part == p && (getBolt s m.bolt).home != t)).length < quota s p t)

/-- TIER_POLICY fields (Table 4.4). -/
def polFirst (p : Nat) : Nat := fld p 0 2
def polCeiling (p : Nat) : Nat := if bit p 2 then 2 else 1
/-- The lowest tier the loop demotes to: code 0 Cellar (3), 1 Larder (2), 2 Parlour (1). -/
def polFloor (p : Nat) : Nat := 3 - fld p 3 2
def polInPlace (p : Nat) : Bool := bit p 5

/-- Does a TIER_POLICY break R187: reserved bits, FLOOR 3, or FLOOR above CEILING? -/
def policyBad (p : Nat) : Bool :=
  fld p 6 2 != 0 || fld p 3 2 == 3 || decide (polFloor p < polCeiling p)

/-- The tiers to try for a new bolt of a region, in order (R187, R188): FIRST limited by FLOOR, then the
next tiers down, then the highest that is available. -/
def allocOrder (policy : Nat) : List Nat :=
  let f := if polFirst policy = 0 then 2 else polFirst policy
  let t := min f (polFloor policy)
  (match t with
   | 1 => [1, 2, 3]
   | 2 => [2, 3]
   | _ => [3]) ++ [1, 2, 3]

/-- The learning phase ends at once (R200) when an allocation finds no free slot without eviction. -/
def learnEndEarly (s : State) : State :=
  if s.tier.learning then bump { s with tier := { s.tier with learning := false } } 0x2303 7 else s

/-- Where a new bolt goes: the first tier of the order with a free slot within the quota, else the
highest tier with one. -/
def allocPlace (s : State) (b p policy q : Nat) : Option (Nat × Nat) :=
  let try_ := fun (r : Option (Nat × Nat)) (t : Nat) =>
    match r with
    | some x => some x
    | none => if roomIn s p t then (pickSlot s t q (laneOk s b t)).map (fun x => (t, x)) else none
  (allocOrder policy).foldl try_ none

/-- Retag the cached map entry of a bolt (R169). -/
def mapTag (s : State) (b tag : Nat) : State :=
  { s with tier := { s.tier with mapCache := s.tier.mapCache.map (fun e => if e.1 = b then (b, tag) else e) } }

/-- An access reads the bolt's map entry (R169): one that its slice of the cache does not hold is a miss, and takes the place of the slice's oldest when all 16,384
are taken (log entry 80). -/
def mapTouch (s : State) (b : Nat) : State :=
  let x := getBolt s b
  let tag := if x.home = 0 then 0 else partTag s x.part
  if s.tier.mapCache.contains (b, tag) then s
  else
    let l := s.tier.mapCache.filter (fun e => e.1 != b)
    let l := if 16384 ≤ (l.filter (fun e => e.1 % 16 == b % 16)).length
      then (match l.find? (fun e => e.1 % 16 == b % 16) with | some e => l.erase e | none => l) else l
    bump { s with tier := { s.tier with mapCache := l ++ [(b, tag)] } } 0x2309 0x0A

/-- A bolt takes a slot (R167): its entry holds its region, owner and the quadrant of its first writer, and its map-cache entry the owner's tag. -/
def homeBolt (s : State) (b r q t slot : Nat) : State :=
  let g := getRegion s r
  mapTag (setBolt s b { Bolt.none with home := t, tile := g.tile, part := g.owner, quad := q, slot := slot, region := r }) b (partTag s g.owner)

/-- Take a slot for an unallocated bolt before its first write (R167). `none`: no slot (R192). -/
def allocBolt (s : State) (b r : Nat) (q : Nat) : Option State :=
  let g := getRegion s r
  match allocPlace s b g.owner g.tierPolicy q with
  | none => none
  | some (t, slot) => some (homeBolt s b r q t slot)

/-- Free a slot: Parlour and Larder slots are zero-filled before reuse, Cellar slots are marked free at
once (R174); while the partition is being removed the slot waits for its scrub (R628). -/
def freeSlot (s : State) (t slot part : Nat) : State :=
  let removing := (getPart s part).st == 2 || (getPart s part).st == 3
  if t = 3 && !removing then s
  else { s with tier := { s.tier with
    freed := s.tier.freed ++ [{ tier := t, slot := slot, part := part, ready := true, waits := [] }] } }

/-- Drop the move of a bolt, if any, freeing its destination slot; counted (R174). -/
def abandonMove (s : State) (b : Nat) : State :=
  match s.tier.moves.find? (fun m => m.bolt == b) with
  | none => s
  | some m =>
    let s := { s with tier := { s.tier with moves := s.tier.moves.filter (fun m => m.bolt != b) } }
    let s := bump s 0x2309 6
    let s := setBolt s b { getBolt s b with moving := false }
    freeSlot s m.tier m.slot (getBolt s b).part

/-- Return a bolt to the pool: its move is abandoned, the map entry is set unallocated, then the slot is
freed (R174); its bytes and poison are gone. -/
def releaseBolt (s : State) (b : Nat) : State :=
  let s := abandonMove s b
  let x := getBolt s b
  if x.home = 0 then s
  else
    let s := mapTag (setBolt { s with tier := { s.tier with upQueue := s.tier.upQueue.filter (· ≠ b), late := s.tier.late.filter (fun e => e.1 / 1024 != b) } } b Bolt.none) b 0
    let s := freeSlot s x.home x.slot x.part
    { s with mem := memZero s.mem (b * 65536) 65536
             poison := s.poison.filter (fun l => decide (l < b * 1024) || decide (b * 1024 + 1024 ≤ l)) }

/-- Release every bolt of a range (bolts are the allocated ones in the map). -/
def releaseBolts (s : State) (first n : Nat) : State :=
  forS ((s.tier.map.map (·.1)).filter (fun b => decide (first ≤ b) && decide (b < first + n))) s releaseBolt

/-- Count one access to a bolt (R170) from quadrant `q`. -/
def countAccess (s : State) (b q : Nat) : State :=
  let s := mapTouch s b
  let x := getBolt s b
  if x.home = 0 then s
  else
    let t := (List.range 4).map (fun k => x.tally.getD k 0 + (if k = q then 1 else 0))
    let s := { s with tier := { s.tier with
      learnAccesses := s.tier.learnAccesses + (if s.tier.learning then 1 else 0) } }
    setBolt s b { x with pendingN := min 255 (x.pendingN + 1), tally := t }

/-- Open a move (R171 step 1): destination slot taken, MOVING set. A bolt that is moving starts none; nothing is programmed into the flash once the sled is going (R742). -/
def startMove (s : State) (b t slot : Nat) (c : MoveCause) : State :=
  let x := getBolt s b
  if x.moving || x.home = 0 || (t = 3 && s.pwr.sledGone) then s
  else setBolt { s with tier := { s.tier with
    moves := s.tier.moves ++ [{ bolt := b, tier := t, slot := slot, cause := c, next := 0, pass := 0, work := [], dirty := [] }] } } b { x with moving := true }

/-- Is every line of a moving bolt copied (R171)? -/
def Move.copied (m : Move) : Bool := (if m.pass = 0 then m.next == 1024 else m.work.isEmpty) && m.dirty.isEmpty

/-- The next pass of a move begins when one has ended with lines written behind it (R171 steps 3 and 4): after two further passes new writes are held. -/
def Move.nextPass (m : Move) : Move :=
  if (if m.pass = 0 then m.next == 1024 else m.work.isEmpty) && !m.dirty.isEmpty then
    { m with pass := min 3 (m.pass + 1), work := m.dirty, dirty := [] }
  else m

/-- Copy up to `n` lines of a move; what is left of `n`, and the move. The fuel bounds the passes. -/
def Move.copy : Nat → Nat → Move → Nat × Move
  | 0, n, m => (n, m)
  | f + 1, n, m =>
    let m := m.nextPass
    if n = 0 || m.copied then (n, m)
    else if m.pass = 0 then
      let k := min n (1024 - m.next)
      Move.copy f (n - k) { m with next := m.next + k }
    else
      let k := min n m.work.length
      Move.copy f (n - k) { m with work := m.work.drop k }

/-- A line of a moving bolt is written at its source (R171 step 2): one that has been copied is marked dirty. -/
def lineWritten (s : State) (ln : Nat) : State :=
  { s with tier := { s.tier with moves := s.tier.moves.map (fun m =>
    if m.bolt = ln / 1024 && (decide (0 < m.pass) || decide (ln % 1024 < m.next)) then { m with dirty := ninsert m.dirty (ln % 1024) } else m) } }

/-- Do new writes to a bolt wait for its cutover (R171 step 4)? -/
def moveHolds (s : State) (b : Nat) : Bool := s.tier.moves.any (fun m => m.bolt == b && m.pass == 3)

/-- A line is rewritten in full: it is no longer one of those that the Cellar could not correct (R206). -/
def lineRewritten (s : State) (a : Nat) : State :=
  let x := getBolt s (boltOf a)
  if x.cellarBad.isEmpty then s else setBolt s (boltOf a) { x with cellarBad := x.cellarBad.filter (· ≠ lineOf a % 1024) }

/-- The move counters (0x2309:01 to 04) by source and destination. -/
def countMove (s : State) (from_ to_ : Nat) : State :=
  if from_ = 1 && to_ = 2 then bump s 0x2309 1
  else if from_ = 2 && to_ = 1 then bump s 0x2309 2
  else if from_ = 2 && to_ = 3 then bump s 0x2309 3
  else if from_ = 3 && to_ ≠ 3 then bump s 0x2309 4
  else s

/-- Cutover (R171 step 5): HOME, SLOT and LAST_MOVE in one update, MOVING clear; metered (R176). The
source slot waits to be freed until `MOVE_SOURCE_FREE` (step 6), for the requests checked until now. CELLAR_POISON marks become line marks; lines written back meanwhile
are in their place. -/
def cutover (s : State) (b : Nat) : State :=
  match s.tier.moves.find? (fun m => m.bolt == b) with
  | none => s
  | some m =>
    let x := getBolt s b
    let s := { s with tier := { s.tier with
      moves := s.tier.moves.filter (fun m => m.bolt != b)
      freed := s.tier.freed ++ [{ tier := x.home, slot := x.slot, part := x.part, ready := false,
                                  waits := (s.acc.held.filter (fun h => h.checked && boltOf h.req.head.addr == b)).map (·.seq) }]
      late := s.tier.late.filter (fun e => e.1 / 1024 != b) } }
    let s := countMove s x.home m.tier
    let s := pbumpBy s 0x4D07 x.part 1
    setBolt s b { x with home := m.tier, slot := m.slot, moving := false, movedAt := some s.det.now, promoted := m.cause == .promote,
                         lastMove := s.det.count / 1024 % 2 ^ 32 }

/-- May the loop place into a unit: not WARM for a promotion or hint, not HOT for any move but a demand
move-up (R202)? -/
def thermalOk (s : State) (t : Nat) (limit : Nat) (u : Nat) : Bool :=
  match t with
  | 1 => decide ((if s.pwr.hot105 then 2 else (sget (fun _ => ({ state := 0, changedAt := none } : TierHeat)) s.tier.stackHeat u).state) < limit)
  | 2 => (upTo 4).all (fun k =>
      decide ((if s.pwr.hot105 then 2 else (sget (fun _ => ({ state := 0, changedAt := none } : TierHeat)) s.tier.larderHeat (4 * u + k)).state) < limit))
  | _ => true

/-- Search the quadrants in order for a destination slot (R177) whose unit is cool enough (R202): the slot, and how many units were skipped for their thermal state alone. -/
def coolSearch (s : State) (t limit : Nat) (ok : Nat → Bool) : List Nat → Option Nat × Nat
  | [] => (none, 0)
  | k :: rest =>
    let us := (quadUnits t k).filter (fun u => unitOpen s t u && ok u && unitFree s t u != 0)
    let hot := (us.filter (fun u => !thermalOk s t limit u)).length
    match bestUnit s t (us.filter (thermalOk s t limit)) with
    | some u => (unitSlot s t u, hot)
    | none =>
      let r := coolSearch s t limit ok rest
      (r.1, hot + r.2)

/-- A destination slot for the loop: `limit` 1 excludes WARM and HOT units, 2 HOT ones; each unit skipped is counted (R202). -/
def pickCool (s : State) (t q limit : Nat) (ok : Nat → Bool) : Option Nat × State :=
  let r := coolSearch s t limit ok (quadOrder q)
  (r.1, if r.2 = 0 then s else bumpBy s 0x2309 8 r.2)

/-- Is the placement loop frozen (R197, R688)? -/
def placeFrozen (s : State) : Bool := num s 0x2301 1 == 1 || inLimp s

/-- Queue a decision for the next step boundary (R198): 1 promotion, 2 demotion by policy, 3 by quota (`b`
is then partition × 4 + tier). -/
def queueDecision (s : State) (b what : Nat) : State :=
  if s.tier.queued.contains (b, what) then s
  else { s with tier := { s.tier with queued := s.tier.queued ++ [(b, what)] } }

/-- Have MIN_RESIDENCY_MS passed since the bolt's last move (R190)? -/
def resident (s : State) (x : Bolt) : Bool :=
  match x.movedAt with
  | none => true
  | some t => due s t (msT (num s 0x2301 7))

/-- The lowest tier to which the loop demotes a bolt. -/
def boltFloor (s : State) (x : Bolt) : Nat := polFloor (getRegion s x.region).tierPolicy

/-- The bolt with the highest AGE, in sweep order, among those that `ok` admits (R190). -/
def oldestOf (s : State) (ok : Bolt → Bool) : Option (Nat × Bolt) :=
  (s.tier.map.filter (fun e => ok e.2)).foldl (fun (r : Option (Nat × Bolt)) e =>
    match r with
    | none => some e
    | some v => if v.2.age < e.2.age then some e else some v) none

/-- May a bolt of a partition be demoted from a tier because its quota there is exceeded (R185): not below its FLOOR (R188), and a promoted one not within
MIN_RESIDENCY_MS (R193)? -/
def quotaVictim (s : State) (p t : Nat) (x : Bolt) : Bool :=
  x.home == t && x.part == p && x.pins == 0 && !x.moving && decide (t < boltFloor s x) && (!x.promoted || resident s x)

/-- Move a bolt one tier down, or, where its partition's quota there is used, to the next tier that has room (R184, R190), if a slot is free there. -/
def demoteOne (s : State) (b : Nat) (c : MoveCause) : State :=
  let x := getBolt s b
  match ([1, 2].map (x.home + ·)).find? (fun t => decide (t ≤ 3) && roomIn s x.part t) with
  | none => s
  | some t =>
    let r := pickCool s t x.quad 2 (laneOk s b t)
    match r.1 with
    | some slot => startMove r.2 b t slot c
    | none => r.2

/-- Demote the oldest bolt of a partition that exceeds its quota in a tier (R185). -/
def demoteQuotaNow (s : State) (p t : Nat) : State :=
  if (t = 1 || t = 2) && quota s p t < homed s p t then
    match oldestOf s (quotaVictim s p t) with
    | some v => demoteOne s v.1 .demote
    | none => s
  else s

/-- The destination tier of a demand move-up (R204). -/
def demandTier (s : State) (b : Nat) : Nat :=
  let x := getBolt s b
  let pol := (getRegion s x.region).tierPolicy
  if !s.tier.learning && num s 0x2301 4 ≤ x.heat && polCeiling pol = 1 && pickSlot s 1 x.quad (fun _ => true) ≠ none
  then 1 else 2

/-- The Cellar channel of a bolt homed there. -/
def boltChannel (s : State) (b : Nat) : Nat := unitOfSlot s 3 (getBolt s b).slot

/-- A bolt homed in the Cellar is needed: its move-up queues in order of arrival (R204, R205), unless one is in progress or asked for (R173). -/
def askMoveUp (s : State) (b : Nat) : State :=
  let x := getBolt s b
  if x.home ≠ 3 || x.moving || s.tier.upQueue.contains b then s
  else { s with tier := { s.tier with upQueue := s.tier.upQueue ++ [b] } }

/-- Open the move-up of a bolt that is the next of its channel in the queue (R204, R205): at most 32 at a time for each channel. The Larder's quota may be overrun; the
partition's oldest Larder bolt is then demoted (R184), when the loop may do so (R197, R198, R200). -/
def openMoveUp (s : State) (b : Nat) : State :=
  let x := getBolt s b
  let ch := boltChannel s b
  let running := (s.tier.moves.filter (fun m => m.cause == .demand && boltChannel s m.bolt == ch)).length
  if (s.tier.upQueue.filter (fun k => boltChannel s k == ch)).head? ≠ some b || x.home ≠ 3 || x.moving || 32 ≤ running || cellarOff s ch then s
  else
    let t := demandTier s b
    match pickSlot s t x.quad (fun _ => true) with
    | none => learnEndEarly s
    | some slot =>
      let overrun := !roomIn s x.part t
      let s := startMove { s with tier := { s.tier with upQueue := s.tier.upQueue.filter (· ≠ b) } } b t slot .demand
      if !overrun || placeFrozen s || s.tier.learning then s
      else if detMode s = 2 then queueDecision s (x.part * 4 + t) 3
      else
        match oldestOf s (quotaVictim s x.part t) with
        | some v => demoteOne s v.1 .demote
        | none => s

/-- A request from quadrant `q` reaches the bolt of an offset (R170). -/
def reachFrom (s : State) (q a : Nat) : State := if inLanding a then s else countAccess s (boltOf a) q

/-- Count one line access at its tier for a partition (R703, Table 17.9). -/
def meterTier (s : State) (a p : Nat) (write : Bool) : State :=
  if inLanding a then s
  else
    let h := (getBolt s (boltOf a)).home
    if h = 0 then s else pbumpBy s (0x4D00 + 2 * (h - 1) + b2n write) p 64

/-- An access from quadrant `q` for partition `p` that reaches a bolt: counted for placement (R170) and metered. -/
def touchFrom (s : State) (q p a : Nat) (write : Bool) : State :=
  if inLanding a then s else meterTier (countAccess s (boltOf a) q) a p write

/-- An access of a requester. -/
def touch (s : State) (kind unit cid a : Nat) (write : Bool) : State := touchFrom s (quadOf kind unit) (cidPart cid) a write

/-- A write needs a slot and none is free (R192): counted, TIER_SPARE the first time since a slot was available, and the learning
phase ends (R200). -/
def noSlot (s : State) : State :=
  let s := bump (learnEndEarly s) 0x2309 0x0B
  if s.tier.noSlot then s
  else noteFault { s with tier := { s.tier with noSlot := true } } 7 0 0xFF 0xFF 0 [0]

/-- Give the bolt of an offset a slot before its first write (R167). `none`: there is none. -/
def ensureBolt (s : State) (r a kind unit : Nat) : Option State :=
  if inLanding a || (getBolt s (boltOf a)).home != 0 then some s
  else allocBolt s (boltOf a) r (quadOf kind unit)

/-- A tier has an available slot again (R192). -/
def slotsBack (s : State) : State :=
  if s.tier.noSlot && tierFree s 1 + tierFree s 2 + tierFree s 3 != 0 then { s with tier := { s.tier with noSlot := false } } else s

/-- The home cannot put a written-back line in its place yet: its bolt has no slot, or is in the Cellar (R175, R192; log entry 79). -/
def lateLine (s : State) (ln q : Nat) : State :=
  { s with tier := { s.tier with late := s.tier.late.filter (fun e => e.1 != ln) ++ [(ln, q)] } }

end Sys2Proof.Machine
end

