-- ==== Sys2Proof/Machine/Coherence.lean ====
section
/-! DEFINITION. Coherence in the domain (ch. 5), first part: the home. Directory entries, beginning a transaction (Table 5.6), snoop answers (R243, R254), writebacks (R251, R255), recalls (R257, R258), recovery of an agent (R262). -/
namespace Sys2Proof.Machine

/-- The directory entry of a line, if any agent may hold it (R229). -/
def dirGet (s : State) (ln : Nat) : Option DirEntry := sfind s.coh.dir ln

/-- Write a directory entry, marking it most recently used. -/
def dirSet (s : State) (ln : Nat) (e : DirEntry) : State :=
  { s with coh := { s.coh with dir := sset s.coh.dir ln { e with used := s.coh.useClock },
                               useClock := s.coh.useClock + 1 } }

/-- The line becomes I. -/
def dirDel (s : State) (ln : Nat) : State := { s with coh := { s.coh with dir := sdel s.coh.dir ln } }

/-- The transaction that keeps a line busy. -/
def txnGet (s : State) (ln : Nat) : Option Txn := sfind s.coh.txns ln

/-- Write it. -/
def txnSet (s : State) (ln : Nat) (t : Txn) : State :=
  { s with coh := { s.coh with txns := sset s.coh.txns ln t } }

/-- End it. -/
def txnDel (s : State) (ln : Nat) : State := { s with coh := { s.coh with txns := sdel s.coh.txns ln } }

/-- An agent's entry (4 to 255). -/
def getAgent (s : State) (a : Nat) : Agent := sget (fun _ => Agent.none) s.coh.agents a

/-- Set it. -/
def setAgent (s : State) (a : Nat) (x : Agent) : State :=
  { s with coh := { s.coh with agents := sput (fun _ => Agent.none) s.coh.agents a x } }

/-- An L2 cluster whose cores are all disabled is never admitted (R221). -/
def clusterAdmitted (s : State) (c : Nat) : Bool :=
  decide (c < 4) && fld s.sec.hem.hearthDisabled (4 * c) 4 != 15

/-- Is agent `a` admitted? -/
def admitted (s : State) (a : Nat) : Bool := if a < 4 then clusterAdmitted s a else (getAgent s a).v

/-- Every admitted agent. -/
def admittedAll (s : State) : List Nat :=
  (upTo 4).filter (clusterAdmitted s) ++ (s.coh.agents.filter (fun e => e.2.v)).map (·.1)

/-- The region that holds a local offset. -/
def regionAt (s : State) (a : Nat) : Option Nat :=
  (s.regions.find? (fun e => e.2.valid && decide (e.2.base ≤ a) && decide (a < e.2.base + e.2.size))).map (·.1)

/-- A message with nothing but a line and a tag. -/
def cohBlank (line tag cid : Nat) : CohMsg :=
  { agent := 0xFF, ep := 0, port := 0xFF, cid := cid, epoch := 0, tag := tag, line := line * 64,
    state := 0, flag := false, status := 0, htid := sliceOf (line * 64) * 4096, fwdAgent := 0, data := [], ecc := .clean }

/-- Send a message from the home to an agent (Table 5.4). -/
def toAgent (s : State) (cls op a : Nat) (m : CohMsg) : State := emit s (.toAgent cls op a m)

/-- DATA_HOME (class 4, opcode 1) with a grant. -/
def sendDataHome (s : State) (a ln tag cid grant status : Nat) (d : Bytes) : State :=
  toAgent s 4 1 a { cohBlank ln tag cid with state := grant, status := status, data := d }

/-- DATA_HOME with the line read from memory: one line read at its tier for the CID's partition (R703). -/
def sendMemory (s : State) (a ln tag cid grant status : Nat) : State :=
  sendDataHome (meterTier s (ln * 64) (cidPart cid) false) a ln tag cid grant status (memRead s.mem (ln * 64) 64)

/-- CMP (class 3, opcode 2). -/
def sendCmp (s : State) (a ln tag cid grant status : Nat) : State :=
  toAgent s 3 2 a { cohBlank ln tag cid with state := grant, status := status }

/-- WB_ACK (class 3, opcode 5). -/
def sendWbAck (s : State) (a ln : Nat) : State := toAgent s 3 5 a (cohBlank ln 0 0)

/-- A protocol error (R235, R223): counted, and COH_PROTOCOL is recorded (R268). -/
def protocolError (s : State) (a op cls port : Nat) : State :=
  let s := bump s 0x2401 0x0B
  noteFault s 0x10 (resId 10 a) (if a < 4 then 0xFF else (getAgent s a).part) 0xFF 0
    (toLe 1 op ++ toLe 1 cls ++ toLe 1 port)

/-- The memory value of a line. -/
def lineData (s : State) (ln : Nat) : Bytes := memRead s.mem (ln * 64) 64

/-- The quadrant of an agent's Hall stop: its cluster's, or its port's. -/
def agentQuad (s : State) (a : Nat) : Nat := if a < 4 then a else (getAgent s a).port / 8 % 4

/-- The partition for which a cached line's access counts: its directory entry's, else its region's owner. -/
def linePart (s : State) (ln : Nat) : Nat :=
  match dirGet s ln with
  | some e => e.part
  | none => match regionAt s (ln * 64) with
    | some r => (getRegion s r).owner
    | none => 0

/-- A line that agent `a` wrote back needs a slot outside the Cellar (R167, R175, R192): a bolt without one takes it in the agent's quadrant (R177); where there is none
yet, or the bolt is to be moved up first, the home keeps the line until then (log entry 79). -/
def lineSlot (s : State) (a ln : Nat) : State :=
  let late := fun (s : State) => lateLine s ln (agentQuad s a)
  match (getBolt s (ln / 1024)).home with
  | 0 => (match regionAt s (ln * 64) with
    | none => s
    | some r => match allocBolt s (ln / 1024) r (agentQuad s a) with
      | some s => if (getBolt s (ln / 1024)).home = 3 then late (askMoveUp (bump s 0x2309 5) (ln / 1024)) else s
      | none => late (noSlot s))
  | 3 => late (askMoveUp (bump s 0x2309 5) (ln / 1024))
  | _ => s

/-- Agent `a`'s copy of a whole line is written to memory, poisoned or not (R266); a line of a mirrored region is then sent to its
partner (R38, R695), at the end of the command. A line of an encrypted region whose owner's key is destroyed is discarded (R617). -/
def lineWrite (s : State) (a ln : Nat) (d : Bytes) (poison : Bool) : State :=
  match s.regions.find? (fun e => e.2.releasing && e.2.enc && (getPart s e.2.owner).key == 2 && decide (e.2.base ≤ ln * 64) && decide (ln * 64 < e.2.base + e.2.size)) with
  | some e => setPart s e.2.owner { getPart s e.2.owner with lateWrites := (getPart s e.2.owner).lateWrites + 1 }
  | none =>
  let s := lineSlot s a ln
  let s := touchFrom s (agentQuad s a) (linePart s ln) (ln * 64) true
  let s := { s with mem := memWrite s.mem (ln * 64) (slice d 0 64) }
  let s := lineRewritten (lineWritten s ln) (ln * 64)
  let s := if poison then markPoison s (ln * 64) else clearPoison s (ln * 64)
  match regionAt s (ln * 64) with
  | some r => if (getRegion s r).mirror
      then { s with acc := { s.acc with mirrorDue := s.acc.mirrorDue ++ [ln] } } else s
  | none => s

/-- Status of a read of the line from memory: POISON (2) or OK. -/
def lineStatus (s : State) (ln : Nat) : Nat := if isPoison s (ln * 64) then 2 else 0

/-- Holders that an entry names exactly, or may name by group (R230, R231). -/
def holders (s : State) (e : DirEntry) : List Nat :=
  match e.st with
  | 1 => [e.owner]
  | 2 => e.sharers
  | 3 => (admittedAll s).filter (fun a => bit e.groups (a / 4) || (e.leadV && a == e.lead))
  | _ => []

/-- Send a snoop (class 2): 1 FWD_S, 2 FWD_OWN, 3 RECALL, 4 PEEK. A forward is counted (0x2401:07). -/
def sendSnoop (s : State) (ln op a tag cid fwd : Nat) : State :=
  toAgent (whenS (op == 1 || op == 2) s (fun s => bump s 0x2401 7)) 2 op a { cohBlank ln tag cid with fwdAgent := fwd }

/-- Snoops sent to an agent and not yet answered, and the forwards that are to go to it (R238). -/
def snoopsOut (s : State) (a : Nat) : Nat :=
  (s.coh.txns.map (fun e => (e.2.snoops.filter (fun x => x.1 == a)).length + b2n (e.2.forward == some a))).sum

/-- An agent's SNP_CREDITS; 64 for a cluster (R271). -/
def snpCredits (s : State) (a : Nat) : Nat := if a < 4 then 64 else (getAgent s a).credits

/-- Is the home's own action one for the reserved snoop engines (R233)? -/
def reservedKind : TxnKind → Bool
  | .backInv => true | .regionRecall => true | .eccRecall => true | .detach => true
  | _ => false

/-- Snoop engines of the line's slice in use by transactions of some kinds (R233). -/
def enginesUsed (s : State) (ln : Nat) (kinds : TxnKind → Bool) : Nat :=
  (s.coh.txns.filter (fun e => sliceOf (e.1 * 64) == sliceOf (ln * 64) && !e.2.snoops.isEmpty && kinds e.2.kind)).length

/-- Is there a snoop engine, of the 128 or of the 96 that requests may use (R233), and are there credits (R238), for these snoops? -/
def canSnoop (s : State) (ln : Nat) (k : TxnKind) (targets : List Nat) : Bool :=
  targets.isEmpty ||
  (decide (enginesUsed s ln (fun _ => true) < 128) && (reservedKind k || decide (enginesUsed s ln (fun x => !reservedKind x) < 96)) &&
   targets.all (fun a => decide (snoopsOut s a < snpCredits s a)))

/-- Wait at the slice, in order of arrival (R240). -/
def waitTxn (s : State) (w : WaitTxn) : State :=
  { s with coh := { s.coh with waits := s.coh.waits ++ [w] } }

/-- Remove agent `a` from an entry: from an SX list (empty makes I), from a lead, from X (R231). -/
def dropHolder (s : State) (ln a : Nat) : State :=
  match dirGet s ln with
  | none => s
  | some e =>
    match e.st with
    | 1 => if e.owner = a then dirDel s ln else s
    | 2 =>
      let sh := e.sharers.filter (· ≠ a)
      if sh.isEmpty then dirDel s ln
      else dirSet s ln { e with sharers := sh, leadV := e.leadV && e.lead != a }
    | 3 => dirSet s ln { e with leadV := e.leadV && e.lead != a }
    | _ => s

/-- A line in SC may be held again by agent `a`, or by whoever its groups name (R231). -/
def unsweep (s : State) (p : Nat × Nat → Bool) : State := { s with coh := { s.coh with swept := s.coh.swept.filter (fun x => !p x) } }

/-- Add a sharer, as the lead or not; a fifth makes the entry SC (R231). -/
def addSharer (s : State) (ln a : Nat) (asLead : Bool) (part : Nat) : State :=
  match dirGet s ln with
  | none => dirSet s ln { st := 2, owner := 0, sharers := [a], leadV := asLead, lead := if asLead then a else 0,
                          groups := 0, part := part, used := 0 }
  | some e =>
    let e := if asLead then { e with leadV := true, lead := a } else e
    match e.st with
    | 3 => dirSet (unsweep s (fun x => x == (a, ln))) ln { e with groups := setBit e.groups (a / 4) }
    | _ =>
      let sh := if e.sharers.contains a then e.sharers else e.sharers ++ [a]
      if 4 < sh.length then
        dirSet (unsweep s (fun x => x.2 == ln)) ln { e with st := 3, sharers := [], groups := sh.foldl (fun g x => setBit g (x / 4)) 0 }
      else dirSet s ln { e with st := 2, sharers := sh }

/-- The line is held by one owner. -/
def setOwner (s : State) (ln a part : Nat) : State :=
  dirSet s ln { st := 1, owner := a, sharers := [], leadV := false, lead := 0, groups := 0, part := part, used := 0 }

/-- Does the entry name any holder but `a`? -/
def othersHold (s : State) (ln a : Nat) : Bool :=
  match dirGet s ln with
  | none => false
  | some e => (holders s e).any (· ≠ a) || (e.st == 3 && e.groups != 0)

/-- The opcode of a REQ (Table 5.4). -/
def reqOpcode : TxnKind → Nat
  | .rdS => 1 | .rdOwn => 2 | .upgrade => 3
  | _ => 4

/-- A REQ from an agent that the directory lists as owner or lead (R244). -/
def ownError (s : State) (a op : Nat) : State := protocolError s a op 1 (if a < 4 then 0xFF else (getAgent s a).port)

/-- Has an agent that asked for a line left the admitted set since (R262)? -/
def gone (s : State) (a : Nat) : Bool := decide (4 ≤ a) && decide (a < 256) && !(getAgent s a).v

/-- LOST_POLICY of the region that holds a line. -/
def lostPol (s : State) (ln : Nat) : Bool :=
  match regionAt s (ln * 64) with
  | some r => (getRegion s r).lostPolicy
  | none => false

/-- The status that a LOST_POLICY gives an access to a lost-dirty line (R264), and its count (R265). -/
def lostStatus (s : State) (pol : Bool) : Nat × State :=
  if pol then (0, bump s 0x2401 0x0D) else (3, bump s 0x2401 0x0C)

/-- A home action of the node's own on a line (R257, R258, R263, R267); `cid`: the agent that a detach is for. -/
def homeTxn (s : State) (ln : Nat) (k : TxnKind) (cid : Nat) : WaitTxn :=
  { line := ln, kind := k, agent := 0xFFF, tag := 0, cid := cid, since := s.det.now, pol := lostPol s ln }

/-- End a transaction: held writebacks are applied as R251 gives (R255), then the line is free. -/
def endTxn (s : State) (ln : Nat) : State :=
  match txnGet s ln with
  | none => s
  | some t =>
    let s := txnDel s ln
    forS t.held s (fun s w =>
      match dirGet s ln with
      | none => sendWbAck (bump s 0x2401 8) w.agent ln
      | some e =>
        let listed := (e.st == 1 && e.owner == w.agent) || (e.leadV && e.lead == w.agent)
        if !listed then sendWbAck (bump s 0x2401 8) w.agent ln
        else
          let s := if w.dirty then lineWrite s w.agent ln w.data w.poison else s
          let s := if w.keep then s else dropHolder s ln w.agent
          sendWbAck s w.agent ln)

/-- Mark the held request of an uncached access as ready, with the status that the line gives it and the peeked value if there is one. -/
def readyHeld (s : State) (seq st : Nat) (d : Option Bytes) : State :=
  { s with acc := { s.acc with held := s.acc.held.map (fun h => if h.seq == seq then { h with why := .ready (some (st, d)) } else h) } }

/-- End the transaction if its grant, CMP_ACK and every answer are in (R241). -/
def tryEnd (s : State) (ln : Nat) : State :=
  match txnGet s ln with
  | none => s
  | some t =>
    if t.snoops.isEmpty && t.wbWait.isEmpty && t.granted && (t.grant == 0 || t.acked) then endTxn s ln else s

/-- A holder has forwarded a line in E or M, or in S, to an agent that has left meanwhile: it ends as if CMP_ACK had come, the owned line becomes LD, and a sharer
leaves the list (R262 step 2). -/
def goneGrant (s : State) (ln : Nat) : State :=
  match txnGet s ln with
  | none => s
  | some t =>
    if !gone s t.agent then s
    else
      let s := txnSet s ln { t with acked := true }
      match dirGet s ln with
      | some e => if e.st = 1 && e.owner = t.agent
          then latch (noteFault (dirSet s ln { e with st := 4 }) 0x13 (resId 10 t.agent) (cidPart t.cid) 0xFF 0 (toLe 4 1)) 3
          else dropHolder s ln t.agent
      | none => s

/-- The home sends the grant of a REQ itself: DATA_HOME, with the value of a peek or from memory, or CMP for an upgrade in place. An agent that has left gets none, and holds
nothing (R262). -/
def homeGrant (s : State) (ln grant : Nat) (cmp : Bool) (data : Option (Bytes × Bool)) : State :=
  match txnGet s ln with
  | none => s
  | some t =>
    if gone s t.agent then endTxn (dropHolder s ln t.agent) ln
    else
      let st := if t.status ≠ 0 then t.status else if cmp then 0 else (match data with | some (_, p) => 2 * b2n p | none => lineStatus s ln)
      let s := if cmp then sendCmp s t.agent ln t.tag t.cid grant st
        else match data with
          | some (d, _) => sendDataHome s t.agent ln t.tag t.cid grant st d
          | none => sendMemory s t.agent ln t.tag t.cid grant st
      tryEnd (txnSet s ln { t with granted := true, grant := grant, acked := false }) ln

/-- Is every agent in the scope of the recall in progress over the line (R258)? -/
def recallsAll (s : State) : Bool := match s.coh.recalls with | r :: _ => r.scope.isNone | [] => false

/-- The line has been recalled from an agent, which the groups of an entry in SC cannot show (R231). -/
def sweep (s : State) (ln a : Nat) : State :=
  match dirGet s ln with
  | some e => if e.st = 3 then { s with coh := { s.coh with swept := if s.coh.swept.contains (a, ln) then s.coh.swept else s.coh.swept ++ [(a, ln)] } } else s
  | none => s

/-- Every recall of the transaction is answered: the next step of its row in Table 5.6. -/
def afterRecalls (s : State) (ln : Nat) : State :=
  match txnGet s ln with
  | none => s
  | some t =>
    if !(t.snoops.isEmpty && t.wbWait.isEmpty) || t.granted then s
    else
      match t.kind with
      | .rdOwn | .upgrade =>
        match t.forward with
        | some l =>
          let s := sendSnoop s ln 2 l t.tag t.cid t.agent
          txnSet s ln { t with forward := none, snoops := [(l, 2, s.det.now)] }
        | none =>
          let inPlace := match dirGet s ln with
            | some e => t.kind == .upgrade && e.st == 2 && e.sharers.contains t.agent
            | none => false
          let s := setOwner s ln t.agent (cidPart t.cid)
          homeGrant s ln 4 inPlace none
      | .uncachedWrite | .kindRecall =>
        endTxn (readyHeld (dirDel s ln) t.tag t.status none) ln
      | .backInv | .eccRecall => endTxn (dirDel s ln) ln
      | .regionRecall =>
        (match dirGet s ln with
        | some e => endTxn (if e.st = 3 && recallsAll s then dirDel s ln else s) ln
        | none => endTxn s ln)
      | .detach => endTxn (sweep s ln t.cid) ln
      | _ => s

/-- Open a transaction whose first step is a set of recalls. -/
def beginRecalls (s : State) (w : WaitTxn) (targets : List Nat) (fwd : Option Nat) (status : Nat) : State :=
  let t : Txn := { kind := w.kind, agent := w.agent, tag := w.tag, cid := w.cid, started := s.det.now,
                   snoops := targets.map (fun a => (a, 3, s.det.now)), forward := fwd, wbWait := [], held := [],
                   granted := false, grant := 0, acked := false, status := status, lost := status == 3, pol := w.pol }
  let s := forS targets s (fun s a => sendSnoop s w.line 3 a w.tag w.cid 0)
  afterRecalls (txnSet s w.line t) w.line

/-- Open a transaction that snoops one holder. -/
def beginSnoop (s : State) (w : WaitTxn) (op a : Nat) : State :=
  let s := sendSnoop s w.line op a w.tag w.cid (if op = 1 || op = 2 then w.agent else 0)
  txnSet s w.line { kind := w.kind, agent := w.agent, tag := w.tag, cid := w.cid, started := s.det.now,
                    snoops := [(a, op, s.det.now)], forward := none, wbWait := [], held := [],
                    granted := false, grant := 0, acked := false, status := 0, lost := false, pol := w.pol }

/-- Open a transaction that needs no snoop, to be granted by the home. -/
def beginPlain (s : State) (w : WaitTxn) (status : Nat) : State :=
  txnSet s w.line { kind := w.kind, agent := w.agent, tag := w.tag, cid := w.cid, started := s.det.now,
                    snoops := [], forward := none, wbWait := [], held := [], granted := false, grant := 0,
                    acked := false, status := status, lost := status == 3, pol := w.pol }

/-- Is an agent within a recall's scope? The four clusters always are (R224, R258). -/
def inScope (s : State) (r : Recall) (a : Nat) : Bool :=
  match r.scope with
  | none => true
  | some p => decide (a < 4) || (getAgent s a).part == p

/-- Does the recall in progress hold back, or serve as a peek, the requests of agent `a` for a line (R258)? -/
def recallBlocks (s : State) (ln a : Nat) : Bool :=
  match s.coh.recalls with
  | [] => false
  | r :: _ =>
    let g := getRegion s r.region
    decide (a < 256) && decide (g.base ≤ ln * 64) && decide (ln * 64 < g.base + g.size) && inScope s r a

/-- Must a waiting transaction go on waiting for the end of a recall (R258)? -/
def recallHolds (s : State) (w : WaitTxn) : Bool := (w.kind == .rdOwn || w.kind == .upgrade) && recallBlocks s w.line w.agent

/-- Entries of the line's set in its slice (R228). -/
def setEntries (s : State) (ln : Nat) : List (Nat × DirEntry) :=
  s.coh.dir.filter (fun e => sliceOf (e.1 * 64) == sliceOf (ln * 64) && setOf (e.1 * 64) == setOf (ln * 64))

/-- The victim of a full set: least recently used among those not busy, LD only when no other (R257). -/
def victim (s : State) (ln : Nat) : Option (Nat × DirEntry) :=
  let free := (setEntries s ln).filter (fun e => (txnGet s e.1).isNone)
  let pick := fun (l : List (Nat × DirEntry)) =>
    l.foldl (fun (r : Option (Nat × DirEntry)) e =>
      match r with
      | none => some e
      | some v => if e.2.used < v.2.used then some e else some v) none
  match pick (free.filter (fun e => e.2.st != 4)) with
  | some v => some v
  | none => pick free

/-- Are as many back-invalidations under way in the line's set as its waiting requests need, the one for the line among them? -/
def roomComing (s : State) (ln : Nat) : Bool :=
  let same := fun (l : Nat) => sliceOf (l * 64) == sliceOf (ln * 64) && setOf (l * 64) == setOf (ln * 64)
  decide ((s.coh.waits.filter (fun w => same w.line && (w.kind == .rdS || w.kind == .rdOwn || w.kind == .upgrade) && (dirGet s w.line).isNone)).length <
    (s.coh.txns.filter (fun e => e.2.kind == .backInv && same e.1)).length)

/-- Make room in a full set (R257): back-invalidate the victim, or drop an LD victim (R265). Answers
whether there is room now. -/
def makeRoom (s : State) (ln : Nat) : Bool × State :=
  if (setEntries s ln).length < 16 then (true, s)
  else
    match victim s ln with
    | none => (false, s)
    | some (v, e) =>
      if e.st = 4 then (true, dirDel (bump s 0x2401 0x0A) v)
      else if roomComing s ln || !canSnoop s v .backInv (holders s e) then (false, s)
      else (false, beginRecalls (bump s 0x2401 6) (homeTxn s v .backInv 0) (holders s e) none 0)

/-- The REQ counters 0x2401:01 to 04. -/
def countReq (s : State) (k : TxnKind) : State :=
  match k with
  | .rdS => bump s 0x2401 1
  | .rdOwn => bump s 0x2401 2
  | .upgrade => bump s 0x2401 3
  | .peek => bump s 0x2401 4
  | .uncachedRead | .uncachedWrite => bump s 0x2401 5
  | _ => s

/-- A request finds the line in I, or what counts as I (Table 5.6, column I). `status` is LOST where an
LD entry was resolved (R265). -/
def serveI (s : State) (w : WaitTxn) (status : Nat) : State :=
  match w.kind with
  | .peek =>
    let st := if status ≠ 0 then status else lineStatus s w.line
    sendMemory s w.agent w.line w.tag w.cid 0 st
  | .rdS =>
    let r := makeRoom s w.line
    if r.1 then homeGrant (beginPlain (setOwner r.2 w.line w.agent (cidPart w.cid)) w status) w.line 3 false none
    else waitTxn r.2 w
  | .rdOwn | .upgrade =>
    let r := makeRoom s w.line
    if r.1 then homeGrant (beginPlain (setOwner r.2 w.line w.agent (cidPart w.cid)) w status) w.line 4 false none
    else waitTxn r.2 w
  | .uncachedRead | .uncachedWrite | .kindRecall => readyHeld s w.tag status none
  | _ => s

/-- The snoops with which a transaction begins on a line (Table 5.6, R253, R256 to R258, R263, R267): which, and to whom. -/
def firstSnoops (s : State) (w : WaitTxn) : Nat × List Nat :=
  match dirGet s w.line with
  | none => (0, [])
  | some e =>
    if w.kind == .eccRecall then (3, admittedAll s)
    else
      let hs := holders s e
      let owned := e.st == 1
      match e.st, w.kind with
      | 4, _ => (0, [])
      | _, .detach => (3, hs.filter (· == w.cid))
      | _, .regionRecall => (3, match s.coh.recalls with | r :: _ => hs.filter (inScope s r) | [] => hs)
      | _, .rdS => if owned then (1, hs.filter (· ≠ w.agent)) else if e.leadV && e.lead != w.agent then (1, [e.lead]) else (0, [])
      | _, .rdOwn | _, .upgrade => (if owned then 2 else 3, hs.filter (· ≠ w.agent))
      | _, .peek | _, .uncachedRead => (4, if owned then hs.filter (· ≠ w.agent) else [])
      | _, _ => (3, hs)

/-- Begin a transaction on a line that is free (Table 5.6; R244, R253, R256 to R258, R263, R265): it waits on where it lacks a snoop engine or credits (R233, R238). A read in the
scope of the recall in progress is served with a grant of I and no change of state (R258). -/
def beginTxn (s : State) (w0 : WaitTxn) : State :=
  if recallHolds s w0 then waitTxn s w0
  else
    let w := if recallBlocks s w0.line w0.agent then { w0 with kind := .peek } else w0
    let sn := firstSnoops s w
    if !canSnoop s w.line w.kind sn.2 then waitTxn s w0
    else
      match dirGet s w.line with
      | none => serveI s w 0
      | some e =>
        if w.kind == .eccRecall then beginRecalls s w sn.2 none 0
        else
          match e.st with
          | 4 =>
            (match w.kind with
            | .regionRecall | .detach => s
            | .backInv => dirDel (bump s 0x2401 0x0A) w.line
            | _ =>
              let r := lostStatus s w.pol
              serveI (dirDel r.2 w.line) w r.1)
          | 1 =>
            if e.owner = w.agent then
              let s := ownError s w.agent (reqOpcode w0.kind)
              serveI (if w.kind == .peek then s else dirDel s w.line) w 0
            else if sn.1 = 3 then beginRecalls s w sn.2 none 0
            else beginSnoop s w sn.1 e.owner
          | _ =>
            let lead := e.leadV && e.lead != w.agent
            let s := if e.leadV && e.lead == w.agent && w.kind != .upgrade then ownError s w.agent (reqOpcode w0.kind) else s
            let own := fun (s : State) => beginRecalls s w (sn.2.filter (fun a => !(lead && a == e.lead))) (if lead then some e.lead else none) 0
            (match w.kind with
            | .rdS =>
              if lead then beginSnoop s w 1 e.lead
              else homeGrant (beginPlain (addSharer s w.line w.agent true (cidPart w.cid)) w 0) w.line 2 false none
            | .rdOwn => own s
            | .upgrade => if e.st == 2 && e.sharers.contains w.agent then beginRecalls s w sn.2 none 0 else own s
            | .peek => sendMemory s w.agent w.line w.tag w.cid 0 (lineStatus s w.line)
            | .uncachedRead => readyHeld s w.tag 0 none
            | _ => beginRecalls s w sn.2 none 0)

/-- A transaction for a line: it begins when the line is free and nothing waits before it, and waits in
order of arrival otherwise (R240); one that waits for the end of a recall is no obstacle to it (R258). -/
def submitTxn (s : State) (w : WaitTxn) : State :=
  if (txnGet s w.line).isSome || s.coh.waits.any (fun x => x.line == w.line && !recallHolds s x) then waitTxn s w
  else beginTxn s w

/-- The holder of a forward, or of a recall, held nothing after all or wrote its line back: the home
serves the requester itself (R243, R254). -/
def serveAfterHolder (s : State) (ln op a : Nat) : State :=
  match txnGet s ln with
  | none => s
  | some t =>
    let s := dropHolder s ln a
    match op with
    | 1 =>
      if othersHold s ln t.agent then homeGrant (addSharer s ln t.agent true (cidPart t.cid)) ln 2 false none
      else homeGrant (setOwner s ln t.agent (cidPart t.cid)) ln 3 false none
    | 2 => homeGrant (setOwner s ln t.agent (cidPart t.cid)) ln 4 false none
    | 4 => if t.kind == .peek then homeGrant s ln 0 false none
           else endTxn (readyHeld s t.tag t.status none) ln
    | _ => afterRecalls s ln

/-- A writeback with KEEP that is held for agent `a` is applied before its answer from E or M (R246, R254). -/
def keptFirst (s : State) (ln a : Nat) (t : Txn) : Txn × State :=
  match t.held.find? (fun h => h.agent == a && h.keep) with
  | some h => ({ t with held := t.held.filter (fun h => !(h.agent == a && h.keep)) }, sendWbAck (whenS h.dirty s (fun s => lineWrite s a ln h.data h.poison)) a ln)
  | none => (t, s)

/-- A snoop is answered at the home (R243, R254): by agent `a`, from state `prev`, with WB_PENDING or not,
with the dirty data of SNP_DATA or without. -/
def snoopAnswer (s : State) (ln a prev : Nat) (wbPending : Bool) (data : Option (Bytes × Bool)) : State :=
  match txnGet s ln with
  | none => s
  | some t =>
    match t.snoops.find? (fun x => x.1 == a) with
    | none => s
    | some (_, op, _) =>
      let t' := { t with snoops := t.snoops.filter (fun x => x.1 != a) }
      if wbPending then
        match t.held.find? (fun h => h.agent == a) with
        | some h =>
          let s := if h.dirty then lineWrite s a ln h.data h.poison else s
          let s := sendWbAck s a ln
          serveAfterHolder (txnSet s ln { t' with held := t.held.filter (fun h => h.agent != a) }) ln op a
        | none => txnSet s ln { t' with wbWait := t.wbWait ++ [(a, op)] }
      else
        let (t', s) := keptFirst s ln a t'
        let wr := fun (s : State) => match data with | some (d, p) => lineWrite s a ln d p | none => s
        match op with
        | 1 =>
          if prev = 0 then serveAfterHolder (txnSet s ln t') ln 1 a
          else if prev = 1 then
            let s := protocolError s a 1 3 0xFF
            let s := txnSet s ln t'
            let s := match dirGet s ln with
              | some e => if e.st = 1 then
                  dirSet s ln { e with st := 2, sharers := [a], leadV := false, lead := 0 }
                else dirSet s ln { e with leadV := false }
              | none => s
            homeGrant (addSharer s ln t.agent true (cidPart t.cid)) ln 2 false none
          else
            let s := wr s
            let s := match dirGet s ln with
              | some e => if e.st = 1 then
                  dirSet s ln { e with st := 2, sharers := [a], leadV := true, lead := a }
                else s
              | none => s
            let s := addSharer s ln t.agent false (cidPart t.cid)
            tryEnd (goneGrant (txnSet s ln { t' with granted := true, grant := 1 }) ln) ln
        | 2 =>
          if prev = 0 then serveAfterHolder (txnSet s ln t') ln 2 a
          else if prev = 1 then serveAfterHolder (txnSet (protocolError s a 1 3 0xFF) ln t') ln 2 a
          else
            let s := setOwner s ln t.agent (cidPart t.cid)
            tryEnd (goneGrant (txnSet s ln { t' with granted := true, grant := 4 }) ln) ln
        | 3 =>
          let s := wr s
          afterRecalls (txnSet (dropHolder s ln a) ln t') ln
        | _ =>
          let s := txnSet s ln t'
          if t.kind == .peek then homeGrant s ln 0 false data
          else endTxn (readyHeld s t.tag (match data with | some (_, p) => 2 * b2n p | none => 0) (data.map (·.1))) ln

/-- Does a transaction await the CMP_ACK of agent `a`, for a grant that the home or a holder has sent it (R241)? -/
def awaitsAck (t : Txn) (a : Nat) : Bool := t.agent == a && (t.granted || t.snoops.any (fun x => x.2.1 == 1 || x.2.1 == 2))

/-- A WB_DIRTY or EVICT_CLEAN from an admitted agent reaches the home (R251, R254, R255). -/
def writeback (s : State) (ln a : Nat) (dirty keep : Bool) (d : Bytes) (poison : Bool) : State :=
  let listed := match dirGet s ln with
    | some e => (e.st == 1 && e.owner == a) || (e.leadV && e.lead == a)
    | none => false
  match txnGet s ln with
  | none =>
    if !listed then sendWbAck (bump s 0x2401 8) a ln
    else
      let s := if dirty then lineWrite s a ln d poison else s
      let s := if keep then s else dropHolder s ln a
      sendWbAck s a ln
  | some t =>
    match t.wbWait.find? (fun x => x.1 == a) with
    | some (_, op) =>
      -- the answer with WB_PENDING came first (R254)
      let s := if dirty then lineWrite s a ln d poison else s
      let s := sendWbAck s a ln
      serveAfterHolder (txnSet s ln { t with wbWait := t.wbWait.filter (fun x => x.1 != a) }) ln op a
    | none =>
    if t.snoops.any (fun x => x.1 == a) || listed || awaitsAck t a then
      txnSet s ln { t with held := t.held ++ [{ agent := a, dirty := dirty, keep := keep, data := d, poison := poison }] }
    else sendWbAck (bump s 0x2401 8) a ln

/-- CMP_ACK from the requester (R241). -/
def cmpAck (s : State) (ln a : Nat) : State :=
  match txnGet s ln with
  | none => s
  | some t => if t.agent = a then tryEnd (txnSet s ln { t with acked := true }) ln else s

/-- The first transaction that waits for a line and not for a recall's end begins, once the line is free (R240); one that must wait on keeps its place. -/
def startWaiting (s : State) (ln : Nat) : State :=
  if (txnGet s ln).isSome then s
  else
    match s.coh.waits.find? (fun w => w.line == ln && !recallHolds s w) with
    | none => s
    | some w =>
      let rest := s.coh.waits.erase w
      let x := beginTxn { s with coh := { s.coh with waits := rest } } w
      if x.coh.waits = rest ++ [w] then { x with coh := { x.coh with waits := s.coh.waits } } else x

/-- A snoop outstanding to an agent that leaves is taken as answered (R262 step 2): a grant or a peek comes from memory, with the status of R264 where the agent held the line in X
(`marked`); a region recall or a detach leaves that line to step 3, a back-invalidation drops it (R265). -/
def leaveTxn (s : State) (ln a : Nat) (marked : Bool) : State :=
  match txnGet s ln with
  | none => s
  | some t =>
    let op := match t.snoops.find? (fun x => x.1 == a), t.wbWait.find? (fun x => x.1 == a) with
      | some (_, o, _), _ => o
      | none, some (_, o) => o
      | none, none => 3
    let t := { t with snoops := t.snoops.filter (fun x => x.1 != a), wbWait := t.wbWait.filter (fun x => x.1 != a) }
    match t.kind with
    | .regionRecall | .detach => afterRecalls (txnSet s ln t) ln
    | .backInv => serveAfterHolder (txnSet (whenS marked s (fun s => bump s 0x2401 0x0A)) ln t) ln op a
    | .eccRecall => serveAfterHolder (txnSet s ln t) ln op a
    | _ =>
      let r := if marked then lostStatus s t.pol else (t.status, s)
      serveAfterHolder (txnSet r.2 ln { t with status := r.1 }) ln op a

/-- Recover an agent's lines (R262): its REQs that wait are discarded, snoops to it are taken as answered, transactions waiting for it end,
its lines in X become LD, it leaves every list; its state becomes FREE and V is cleared. -/
def recoverAgent (s : State) (a : Nat) : State :=
  let part := (getAgent s a).part
  let owned := fun (s : State) => (s.coh.dir.filter (fun e => e.2.st == 1 && e.2.owner == a)).map (·.1)
  let before := owned s
  let s := setAgent { s with coh := { s.coh with
    waits := s.coh.waits.filter (fun w => w.agent != a)
    txns := s.coh.txns.map (fun e => (e.1, if e.2.forward == some a then { e.2 with forward := none } else e.2)) } } a { getAgent s a with v := false, st := 4 }
  let lines := (s.coh.txns.filter (fun e => e.2.snoops.any (fun x => x.1 == a) || e.2.wbWait.any (fun x => x.1 == a))).map (·.1)
  let s := forS lines s (fun s ln => leaveTxn s ln a (before.contains ln))
  let acks := (s.coh.txns.filter (fun e => e.2.agent == a && e.2.granted && !e.2.acked)).map (·.1)
  let s := forS acks s (fun s ln => cmpAck s ln a)
  let lost := owned s
  let s := forS lost s (fun s ln =>
    match dirGet s ln with
    | some e => dirSet s ln { e with st := 4 }
    | none => s)
  let s := forS (s.coh.dir.map (·.1)) s (fun s ln =>
    match dirGet s ln with
    | some e => if e.st = 2 && (e.sharers.contains a) then dropHolder s ln a
                else if e.st = 3 && e.leadV && e.lead = a then dropHolder s ln a else s
    | none => s)
  let s := unsweep (setAgent s a Agent.none) (fun x => x.1 == a)
  let n := (before ++ lost).eraseDups.length
  let s := if n = 0 then s else noteFault s 0x13 (resId 10 a) part 0xFF 0 (toLe 4 n)
  latch s 3

end Sys2Proof.Machine
end

