-- ==== Sys2Proof/Machine/Versions.lean ====
section
/-! DEFINITION. Versioned regions and leases (ch. 7), first part: page images, handles, the commands of Table 7.2 as functions, reclamation and folding, leases. -/
namespace Sys2Proof.Machine

/-- The version state of a region, if it has one. -/
def getVer (s : State) (r : Nat) : Option VerRegion := sfind s.ver.regions r

/-- Write it. -/
def setVer (s : State) (r : Nat) (v : VerRegion) : State :=
  { s with ver := { s.ver with regions := sset s.ver.regions r v } }

/-- Default VER_VIEW: SIZE ÷ 2 rounded down to 64 KiB (R306). -/
def defaultView (size : Nat) : Nat := alignDown (size / 2) 65536

/-- A new versioned region: head 1, the all-zero version 1 (R305), ground 1. -/
def newVer (size : Nat) : VerRegion :=
  { view := defaultView size, head := 1, next := 2, ground := 1, images := [], works := [], reads := [],
    staleWork := [] }

/-- Bytes of the page directory: 8 B per page of the view, rounded up to a bolt (R306). -/
def verDirBytes (view : Nat) : Nat := divUp (view / 4096 * 8) 65536 * 65536

/-- Basting pages of the region (R306). -/
def bastePages (size view : Nat) : Nat := (size - view - verDirBytes view) / 4096

/-- Basting pages in use. -/
def basteUsed (v : VerRegion) : List Nat :=
  v.images.map (·.baste) ++ v.works.flatMap (fun w => w.copies.map (·.baste))

/-- The lowest free basting page. -/
def basteFree (size : Nat) (v : VerRegion) : Option Nat :=
  let used := basteUsed v
  firstFree (fun n => used.contains n) 0 (min (bastePages size v.view) (used.length + 1))

/-- The image of a page that version `ver` reads from the history, if any (R307). -/
def imageOf (v : VerRegion) (ver page : Nat) : Option Image :=
  v.images.foldl (fun (r : Option Image) i =>
    if i.page = page && i.label ≤ ver then
      match r with
      | none => some i
      | some j => if j.label < i.label then some i else some j
    else r) none

/-- What a page's bytes are read from: an image, or the ground in the view's own bolts. -/
def pageByte (s : State) (base : Nat) (img : Option Image) (off : Nat) : Byte :=
  match img with
  | some i => sget (fun _ => (0 : Byte)) i.data (off % 4096)
  | none => memGet s.mem (base + off)

/-- Which version a request to the view uses (Table 7.1). -/
inductive VerSel where
  | work (w : Work)
  | version (n : Nat)
  | head
  | stale
  deriving DecidableEq, Repr

/-- The selection for a CID and holder on a region (R311). -/
def verSelect (v : VerRegion) (cid ep : Nat) : VerSel :=
  if v.staleWork.contains (cid, ep) || v.reads.any (fun h => h.cid == cid && h.holder == ep && h.stale) then .stale
  else match v.works.find? (fun w => w.cid == cid && w.holder == ep) with
    | some w => .work w
    | none => match v.reads.find? (fun h => h.cid == cid && h.holder == ep) with
      | some h => .version h.version
      | none => .head

/-- The image that a selection reads for a page. -/
def selImage (v : VerRegion) (sel : VerSel) (page : Nat) : Option Image :=
  match sel with
  | .work w => match w.copies.find? (fun i => i.page == page) with
    | some i => some i
    | none => imageOf v w.base page
  | .version n => imageOf v n page
  | .head => imageOf v v.head page
  | .stale => none

/-- `n` bytes of the view from offset `off` as the selection reads them. -/
def verRead (s : State) (base : Nat) (v : VerRegion) (sel : VerSel) (off : Nat) : Nat → Bytes
  | 0 => []
  | n + 1 => pageByte s base (selImage v sel (off / 4096)) off :: verRead s base v sel (off + 1) n

/-- Is the view's line at `off` poisoned as the selection reads it? -/
def verPoison (s : State) (base : Nat) (v : VerRegion) (sel : VerSel) (off : Nat) : Bool :=
  match selImage v sel (off / 4096) with
  | some i => i.poison.contains (off % 4096 / 64)
  | none => isPoison s (base + off)

/-- A page's whole content as a sparse page: the image's, or the ground's. -/
def pageContent (s : State) (base : Nat) (img : Option Image) (page : Nat) : Sparse Byte × List Nat :=
  match img with
  | some i => (i.data, i.poison)
  | none =>
    let a := base + page * 4096
    (((s.mem.filter (fun c => decide (a ≤ c.1) && decide (c.1 < a + 4096))).map (fun c => (c.1 - a, c.2))),
     (s.poison.filter (fun l => decide (a / 64 ≤ l) && decide (l < a / 64 + 64))).map (· - a / 64))

/-- Write bytes into a sparse page. -/
def pageWrite (d : Sparse Byte) (off : Nat) : Bytes → Sparse Byte
  | [] => d
  | b :: t => pageWrite (sput (fun _ => (0 : Byte)) d off b) (off + 1) t

/-- Replace a working version. -/
def setWork (v : VerRegion) (w : Work) : VerRegion :=
  { v with works := v.works.map (fun x => if x.cid == w.cid && x.holder == w.holder then w else x) }

/-- Where a basting page lies (R306). -/
def basteAddr (base : Nat) (v : VerRegion) (k : Nat) : Nat := base + v.view + verDirBytes v.view + k * 4096

/-- The offset at which the media hold what a request for offset `a` reads: in a page image's basting page, or in its own place (R307). -/
def storedAt (s : State) (r cid ep a : Nat) : Nat :=
  match getVer s r with
  | none => a
  | some v =>
    let g := getRegion s r
    match selImage v (verSelect v cid ep) ((a - g.base) / 4096) with
    | some i => basteAddr g.base v i.baste + a % 4096
    | none => a

/-- What a write to a working version comes to: done; or it waits for a basting page (R309), for a slot (R192), for a bolt to be moved up (R175). -/
inductive VerWrote where
  | done (s : State)
  | baste
  | slot
  | bolt (b : Nat) (s : State)

/-- A write of a working version to one page, from quadrant `q` (R308): the page is copied first. A whole-line write clears the line's poison, and `poison` sets it. -/
def verWrite (s : State) (r : Nat) (w : Work) (off : Nat) (d : Bytes) (poison : Bool) (q : Nat) : VerWrote :=
  match getVer s r with
  | none => .done s
  | some v =>
    let g := getRegion s r
    let page := off / 4096
    let put := fun (i : Image) =>
      let ln := off % 4096 / 64
      let p := if poison then ninsert i.poison ln
        else if d.length = 64 then i.poison.filter (· ≠ ln) else i.poison
      { i with data := pageWrite i.data (off % 4096) d, poison := p }
    match w.copies.find? (fun i => i.page == page) with
    | some i =>
      let a := basteAddr g.base v i.baste + off % 4096
      if (getBolt s (boltOf a)).home = 3 then .bolt (boltOf a) s
      else .done (lineWritten (setVer s r (setWork v { w with copies := w.copies.map (fun i => if i.page == page then put i else i) })) (lineOf a))
    | none =>
      match basteFree g.size v with
      | none => .baste
      | some k =>
        let src := imageOf v w.base page
        let c := pageContent s g.base src page
        let from_ := boltOf (match src with | some j => basteAddr g.base v j.baste | none => g.base + page * 4096)
        let i : Image := { page := page, label := 0, baste := k, data := c.1, poison := c.2 }
        let a := basteAddr g.base v k
        if (getBolt s from_).home = 3 then .bolt from_ s
        else
        match (if (getBolt s (boltOf a)).home = 0 then allocBolt s (boltOf a) r q else some s) with
        | none => .slot
        | some s =>
          if (getBolt s (boltOf a)).home = 3 then .bolt (boltOf a) s
          else
            let s := forS (upTo 64) s (fun s k => lineWritten s (lineOf a + k))
            .done (setVer (bump s 0x2501 4) r (setWork v { w with copies := w.copies ++ [put i] }))

/-- Versions that are pinned: held by read handles or bases of working versions (R315); the head apart. -/
def pinned (v : VerRegion) : List Nat :=
  ((v.reads.filter (fun h => !h.stale)).map (·.version) ++ v.works.map (·.base)).eraseDups.filter (· ≠ v.head)

/-- The oldest retained version O (R322). -/
def oldest (v : VerRegion) : Nat := (pinned v).foldl min v.head

/-- Is an image read by some retained or working version (R321)? -/
def imageNeeded (v : VerRegion) (i : Image) : Bool :=
  (v.head :: pinned v).any (fun ver =>
    decide (i.label ≤ ver) &&
    !(v.images.any (fun j => j.page == i.page && decide (i.label < j.label) && decide (j.label ≤ ver))))

/-- Reclaim what no retained version reads (R321). -/
def reclaim (v : VerRegion) : VerRegion := { v with images := v.images.filter (imageNeeded v) }

/-- Reclaim after a change that may have unpinned versions; VERSIONS_RECLAIMED counts each version that
was pinned before and is retained no more. -/
def reclaimS (s : State) (r : Nat) (before : List Nat) : State :=
  match getVer s r with
  | none => s
  | some v =>
    let kept := v.head :: pinned v
    let gone := (before.eraseDups.filter (fun x => !kept.contains x)).length
    setVer (bumpBy s 0x2501 6 gone) r (reclaim v)

/-- The lease of a holder (R328), by number. -/
def leaseOf (s : State) (ep part : Nat) : Option (Nat × Lease) :=
  s.ver.leases.find? (fun e => e.2.ep == ep && e.2.part == part && e.2.st != 0)

/-- Write a lease. -/
def setLease (s : State) (n : Nat) (l : Lease) : State :=
  { s with ver := { s.ver with leases := sset s.ver.leases n l } }

/-- Leases that a partition holds. -/
def leasesHeld (s : State) (p : Nat) : Nat :=
  (s.ver.leases.filter (fun e => e.2.part == p && e.2.st != 0)).length

/-- All handles, stale ones included: (region, cid, holder). -/
def allHandles (s : State) : List (Nat × Nat × Nat) :=
  s.ver.regions.flatMap (fun e =>
    e.2.reads.map (fun h => (e.1, h.cid, h.holder)) ++ e.2.works.map (fun w => (e.1, w.cid, w.holder)) ++
    e.2.staleWork.map (fun w => (e.1, w.1, w.2)))

/-- Handles of a partition. -/
def handlesHeld (s : State) (p : Nat) : Nat := ((allHandles s).filter (fun h => cidPart h.2.1 == p)).length

/-- Handles of a holder. -/
def holderHandles (s : State) (ep p : Nat) : Nat :=
  ((allHandles s).filter (fun h => h.2.2 == ep && cidPart h.2.1 == p)).length

/-- Admitted agents of a holder. -/
def holderAgents (s : State) (ep p : Nat) : List Nat :=
  (s.coh.agents.filter (fun e => e.2.v && e.2.ep == ep && e.2.part == p)).map (·.1)

/-- Create a lease (R328, R329): the lowest free number. `none` where the quota or the pool is used up. -/
def createLease (s : State) (ep p : Nat) : Option (Nat × State) :=
  if pnum s 0x4501 p ≤ leasesHeld s p then none
  else
    let taken := s.ver.leases.map (·.1)
    match firstFree (fun n => taken.contains n) 0 (min 4096 (taken.length + 1)) with
    | none => none
    | some n =>
      let ms := pnum s 0x4500 p
      some (n, setLease s n { ep := ep, part := p, st := 1, durationMs := ms,
                              deadline := s.det.now + msT ms, expiredAt := 0 })

/-- End a lease whose holder holds no handle and no admitted agent (R328). -/
def endLease (s : State) (ep p : Nat) : State :=
  match leaseOf s ep p with
  | none => s
  | some (n, l) =>
    if l.st ≠ 3 && holderHandles s ep p = 0 && (holderAgents s ep p).isEmpty then
      { s with ver := { s.ver with leases := sdel s.ver.leases n } }
    else s

/-- What a version command answers (R314, Tables 7.2, 7.5 and 7.6). -/
structure VcAnswer where
  status : Nat
  rcode : Nat
  version : Nat
  pages : Nat
  overlap : Nat
  first : Nat
  aux : Nat
  deriving DecidableEq, Repr

/-- An answer with nothing but a code: no overlapping page, so FIRST is all ones; version 0 names none. -/
def vcCode (rcode version : Nat) : VcAnswer :=
  { status := 0, rcode := rcode, version := version, pages := 0, overlap := 0, first := 2 ^ 64 - 1, aux := 0 }

/-- Pages that a working version has copied and that some version above its base, up to `upTo_`, also
changed (R318): their number and the offset of the lowest. -/
def overlapOf (v : VerRegion) (w : Work) (upTo_ : Nat) : Nat × Nat :=
  let ps := (w.copies.map (·.page)).filter (fun p =>
    v.images.any (fun i => i.page == p && decide (w.base < i.label) && decide (i.label ≤ upTo_)))
  (ps.length, match ps with
    | [] => 2 ^ 64 - 1
    | p :: t => (t.foldl min p) * 4096)

/-- The lease state of a holder after making sure one exists: the lease number, or the RCODE of why not
(R328, R330, R331). -/
def needLease (s : State) (ep p : Nat) : Option Nat × State :=
  match leaseOf s ep p with
  | some (_, l) => if l.st = 3 then (some 9, s) else (none, s)
  | none => match createLease s ep p with
    | none => (some 8, s)
    | some (_, s) => (none, s)

/-- May one more handle be made (R310)? -/
def handleRoom (s : State) (p : Nat) : Bool :=
  decide ((allHandles s).length < 16384) && decide (handlesHeld s p < pnum s 0x4502 p)

/-- Does pinning `x` keep the count of pinned versions within 16 (R315)? -/
def pinRoom (v : VerRegion) : Bool := decide ((pinned v).length ≤ 16)

/-- A version that may be opened: the head, or pinned (R315). -/
def retained (v : VerRegion) (n : Nat) : Bool := n == v.head || (pinned v).contains n

/-- Is the holder's lease EXPIRED (new commands then return LEASE_EXPIRED, Table 7.3)? -/
def leaseExpired (s : State) (ep p : Nat) : Bool :=
  match leaseOf s ep p with
  | some (_, l) => l.st == 3
  | none => false

/-- OPEN_READ (R313, R315, R316). -/
def vcOpenRead (s : State) (r cid ep arg : Nat) : VcAnswer × State :=
  match getVer s r with
  | none => (vcCode 0x0B 0, s)
  | some v =>
    if leaseExpired s ep (cidPart cid) then (vcCode 9 0, s)
    else
      let n := if arg = 0 then v.head else arg
      let had := v.reads.any (fun h => h.cid == cid && h.holder == ep)
      if !retained v n then (vcCode 2 0, s)
      else
        let h : ReadHandle := { cid := cid, holder := ep, version := n, stale := false }
        let v' := { v with reads := if had then v.reads.map (fun x => if x.cid == cid && x.holder == ep then h else x)
                                    else v.reads ++ [h] }
        if !pinRoom v' then (vcCode 3 0, s)
        else if had then (vcCode 0 n, reclaimS (setVer s r v') r (v.head :: pinned v))
        else if v.reads.any (fun x => x.cid == cid) || !handleRoom s (cidPart cid) then (vcCode 7 0, s)
        else
          match needLease s ep (cidPart cid) with
          | (some c, s) => (vcCode c 0, s)
          | (none, s) => (vcCode 0 n, reclaimS (setVer s r v') r (v.head :: pinned v))

/-- CLOSE_READ. -/
def vcCloseRead (s : State) (r cid ep : Nat) : VcAnswer × State :=
  match getVer s r with
  | none => (vcCode 0x0B 0, s)
  | some v =>
    if leaseExpired s ep (cidPart cid) then (vcCode 9 0, s)
    else if !v.reads.any (fun h => h.cid == cid && h.holder == ep) then (vcCode 5 0, s)
    else
      let s := setVer s r { v with reads := v.reads.filter (fun h => !(h.cid == cid && h.holder == ep)) }
      (vcCode 0 0, endLease (reclaimS s r (v.head :: pinned v)) ep (cidPart cid))

/-- OPEN_WORK. -/
def vcOpenWork (s : State) (r cid ep arg : Nat) : VcAnswer × State :=
  match getVer s r with
  | none => (vcCode 0x0B 0, s)
  | some v =>
    if leaseExpired s ep (cidPart cid) then (vcCode 9 0, s)
    else
      let n := if arg = 0 then v.head else arg
      if v.works.any (fun w => w.cid == cid) then (vcCode 6 0, s)
      else if !retained v n then (vcCode 2 0, s)
      else
        let v' := { v with works := v.works ++ [{ cid := cid, holder := ep, base := n, copies := [] }] }
        if !pinRoom v' then (vcCode 3 0, s)
        else if num s 0x2500 5 ≤ v.works.length then (vcCode 4 0, s)
        else if !handleRoom s (cidPart cid) then (vcCode 7 0, s)
        else
          match needLease s ep (cidPart cid) with
          | (some c, s) => (vcCode c 0, s)
          | (none, s) => (vcCode 0 n, setVer s r v')

/-- PUBLISH (R317, R318): the head that it replaces may become a pinned version (R315). -/
def vcPublish (s : State) (r cid ep arg : Nat) : VcAnswer × State :=
  match getVer s r with
  | none => (vcCode 0x0B 0, s)
  | some v =>
    if leaseExpired s ep (cidPart cid) then (vcCode 9 0, s)
    else
      match v.works.find? (fun w => w.cid == cid && w.holder == ep) with
      | none => (vcCode 5 0, s)
      | some w =>
        if arg = 0 then (vcCode 0x0A 0, s)
        else if arg = v.head && w.base = v.head then
          let n := v.next
          let h : ReadHandle := { cid := cid, holder := ep, version := n, stale := false }
          let v' := { v with
            head := n, next := n + 1
            images := v.images ++ w.copies.map (fun i => { i with label := n })
            works := v.works.filter (fun x => !(x.cid == cid && x.holder == ep))
            reads := v.reads.filter (fun x => x.cid != cid) ++ [h] }
          if !pinRoom v' then (vcCode 3 0, s)
          else
            ({ vcCode 0 n with pages := w.copies.length }, reclaimS (setVer (bump s 0x2501 1) r v') r (v.head :: pinned v))
        else
          let o := overlapOf v w v.head
          ({ vcCode 1 v.head with status := 5, overlap := o.1, first := o.2 }, bump s 0x2501 2)

/-- REBASE (R318). -/
def vcRebase (s : State) (r cid ep arg : Nat) : VcAnswer × State :=
  match getVer s r with
  | none => (vcCode 0x0B 0, s)
  | some v =>
    if leaseExpired s ep (cidPart cid) then (vcCode 9 0, s)
    else
      match v.works.find? (fun w => w.cid == cid && w.holder == ep) with
      | none => (vcCode 5 0, s)
      | some w =>
        let n := if arg = 0 then v.head else arg
        if !retained v n then (vcCode 2 0, s)
        else if n ≤ w.base then (vcCode 0x0A 0, s)
        else
          let v' := setWork v { w with base := n }
          if !pinRoom v' then (vcCode 3 0, s)
          else
            let o := overlapOf v w n
            ({ vcCode 0 n with overlap := o.1, first := o.2 },
             reclaimS (setVer (bump s 0x2501 3) r v') r (v.head :: pinned v))

/-- DISCARD_WORK (R323). -/
def vcDiscard (s : State) (r cid ep : Nat) : VcAnswer × State :=
  match getVer s r with
  | none => (vcCode 0x0B 0, s)
  | some v =>
    if leaseExpired s ep (cidPart cid) then (vcCode 9 0, s)
    else if !v.works.any (fun w => w.cid == cid && w.holder == ep) then (vcCode 5 0, s)
    else
      let s := setVer s r { v with works := v.works.filter (fun w => !(w.cid == cid && w.holder == ep)) }
      (vcCode 0 0, endLease (reclaimS s r (v.head :: pinned v)) ep (cidPart cid))

/-- QUERY: the head, and the oldest retained version in AUX. -/
def vcQuery (s : State) (r : Nat) : VcAnswer × State :=
  match getVer s r with
  | none => (vcCode 0x0B 0, s)
  | some v => ({ vcCode 0 v.head with aux := oldest v }, s)

/-- Pages copied by the working version that a CID holds (W_PAGES, Table 7.6). -/
def workPages (s : State) (r cid ep : Nat) : Nat :=
  match (getVer s r).bind (fun v => v.works.find? (fun w => w.cid == cid && w.holder == ep)) with
  | some w => w.copies.length
  | none => 0

/-- A version command (Table 7.2), by its OP. -/
def vcRun (s : State) (r cid ep op arg : Nat) : VcAnswer × State :=
  let a := match op with
    | 1 => vcOpenRead s r cid ep arg
    | 2 => vcCloseRead s r cid ep
    | 3 => vcOpenWork s r cid ep arg
    | 4 => vcPublish s r cid ep arg
    | 5 => vcRebase s r cid ep arg
    | 6 => vcDiscard s r cid ep
    | _ => vcQuery s r
  (if op = 4 && a.1.rcode = 0 then a.1 else { a.1 with pages := workPages a.2 r cid ep }, a.2)

/-- Fold one page (R322): the newest image labelled not above O is written over the ground and freed,
older ones are freed; G becomes O once no page has such an image left. Folded pages follow one another at FOLD_MBPS at most. -/
def foldPage (s : State) (r page : Nat) : State :=
  match getVer s r with
  | none => s
  | some v =>
    let o := oldest v
    match imageOf v o page with
    | none => if v.images.any (fun j => decide (j.label ≤ o)) then s else setVer s r { v with ground := o }
    | some i =>
      if s.det.now < s.ver.foldNext then s
      else
      let g := getRegion s r
      let a := g.base + page * 4096
      -- a page of the ground whose bolt has no slot yet takes one; with none free, or in the Cellar, it is folded later (R175, R192)
      match (if (getBolt s (boltOf a)).home = 0 then allocBolt s (boltOf a) r (getBolt s (boltOf (basteAddr g.base v i.baste))).quad else some s) with
      | none => s
      | some s =>
      if (getBolt s (boltOf a)).home = 3 then askMoveUp s (boltOf a)
      else if (getBolt s (boltOf (basteAddr g.base v i.baste))).home = 3 then askMoveUp s (boltOf (basteAddr g.base v i.baste))
      else
      let cells := i.data.map (fun c => (a + c.1, c.2))
      let m := cells.foldl (fun m c => memPut m c.1 c.2) (memZero s.mem a 4096)
      let p := s.poison.filter (fun l => decide (l < a / 64) || decide (a / 64 + 64 ≤ l))
      let s := { s with mem := m, poison := i.poison.foldl (fun p l => ninsert p (a / 64 + l)) p }
      let s := bump { s with ver := { s.ver with foldNext := s.det.now + divUp (usT 4096) (num s 0x2500 3) } } 0x2501 7
      let s := forS (upTo 64) s (fun s k => lineWritten s (lineOf a + k))
      let images := v.images.filter (fun j => !(j.page == page && decide (j.label ≤ i.label)))
      let v' := { v with images := images }
      setVer s r (if images.any (fun j => decide (j.label ≤ o)) then v' else { v' with ground := o })

/-- Discard working versions and release pins of a holder on every region: steps 2 and 3 of R332. The
read handles stay, stale, and the working handles stay as stale marks. -/
def staleHandles (s : State) (ep p : Nat) : State :=
  forS (s.ver.regions.map (·.1)) s (fun s r =>
    match getVer s r with
    | none => s
    | some v =>
      let mine := fun (cid holder : Nat) => holder == ep && cidPart cid == p
      let v' := { v with
        reads := v.reads.map (fun h => if mine h.cid h.holder then { h with stale := true } else h)
        staleWork := v.staleWork ++ (v.works.filter (fun w => mine w.cid w.holder)).map (fun w => (w.cid, w.holder))
        works := v.works.filter (fun w => !mine w.cid w.holder) }
      reclaimS (setVer s r v') r (v.head :: pinned v))

/-- Free the stale handles of a holder (R333). -/
def freeStale (s : State) (ep p : Nat) : State :=
  forS (s.ver.regions.map (·.1)) s (fun s r =>
    match getVer s r with
    | none => s
    | some v =>
      setVer s r { v with
        reads := v.reads.filter (fun h => !(h.stale && h.holder == ep && cidPart h.cid == p))
        staleWork := v.staleWork.filter (fun w => !(w.2 == ep && cidPart w.1 == p)) })

/-- The expiry of a lease (R332). `agents`: whether step 4 is done (a partition's removal does steps 1
to 3 and 5, Table 14.6). -/
def expireLease (s : State) (n : Nat) (agents : Bool) : State :=
  match sfind s.ver.leases n with
  | none => s
  | some l =>
    let s := setLease s n { l with st := 3, expiredAt := s.det.now }
    let s := staleHandles s l.ep l.part
    let s := if agents then forS (holderAgents s l.ep l.part) s recoverAgent else s
    let s := bump s 0x2510 4
    let c := sget (fun _ => 0) s.ver.expiries l.part
    let s := { s with ver := { s.ver with expiries := sput (fun _ => 0) s.ver.expiries l.part (addW 32 c 1) } }
    let s := noteFault s 0x19 0 l.part 0xFF 0 (toLe 2 l.ep ++ toLe 1 l.part ++ toLe 2 n)
    latch s (partSource l.part 2)

/-- A lease becomes FREE (R333). -/
def freeLease (s : State) (n : Nat) : State :=
  match sfind s.ver.leases n with
  | none => s
  | some l => { freeStale s l.ep l.part with ver :=
      { (freeStale s l.ep l.part).ver with leases := sdel s.ver.leases n } }

/-- End the handles of a partition on one region at once (R334, R120), and the leases left with nothing. -/
def endPartHandles (s : State) (r p : Nat) : State :=
  match getVer s r with
  | none => s
  | some v =>
    let eps := ((v.reads.filter (fun h => cidPart h.cid == p)).map (·.holder) ++
      (v.works.filter (fun w => cidPart w.cid == p)).map (·.holder)).eraseDups
    let s := setVer s r { v with reads := v.reads.filter (fun h => cidPart h.cid != p)
                                 works := v.works.filter (fun w => cidPart w.cid != p)
                                 staleWork := v.staleWork.filter (fun w => cidPart w.1 != p) }
    let s := reclaimS s r (v.head :: pinned v)
    forS eps s (fun s ep => endLease s ep p)

/-- End every handle on a region whose release or takeover ends its versions (R122, R327). -/
def dropVersions (s : State) (r : Nat) : State :=
  match getVer s r with
  | none => s
  | some v =>
    let holders_ := (v.reads.map (fun h => (h.holder, cidPart h.cid)) ++
      v.works.map (fun w => (w.holder, cidPart w.cid))).eraseDups
    let s := { s with ver := { s.ver with regions := sdel s.ver.regions r, forms := sdel s.ver.forms r } }
    forS holders_ s (fun s h => endLease s h.1 h.2)

end Sys2Proof.Machine
end

