-- ==== Sys2Proof/Machine/Requests.lean ====
section
/-! DEFINITION. Requests that the node issues and requests that wait at it: effective masks (R149, R587), issue and reissue (R154, R280, R539), held requests, completions (R18, R152). -/
namespace Sys2Proof.Machine

/-- The message class of an operation: 5 ORD, 6 BLK (Table 6.1). -/
def opClass : MemOp → Nat
  | .blk .. => 6
  | _ => 5

/-- The opcode of an operation (Table 6.2, R530). -/
def opCode : MemOp → Nat
  | .load _ => 1
  | .store .. => 2
  | .atomic .. => 3
  | .reduce .. => 4
  | .blk .. => 1

/-- Is it an ORD operation? -/
def isOrd (op : MemOp) : Bool := opClass op == 5

/-- Bytes that an operation covers. -/
def opLen : MemOp → Nat
  | .load n => n
  | .store d _ => d.length
  | .atomic _ _ _ _ x => x.length
  | .reduce _ _ d => d.length
  | .blk _ _ _ _ d _ => d.length

/-- Does the operation need the write right (R113)? -/
def opWrites : MemOp → Bool
  | .load _ => false
  | _ => true

/-- Does the operation return data? -/
def opReads : MemOp → Bool
  | .load _ => true
  | .atomic .. => true
  | _ => false

/-- Ports of the effective mask of an endpoint for a class (R587): ACTIVE or RETRAIN and not quiesced. -/
def effPorts (s : State) (ep cls : Nat) : List Nat :=
  (bitsOf (routeMask s ep) 32).filter (fun p =>
    (portState s p == 7 || portState s p == 8) && !bit (getPort s p).quiesce cls)

/-- Ports by which a request may leave: for a grouped BLK write, those of the effective mask that negotiated KNOT (R579). -/
def sendPorts (s : State) (dst : Nat) (op : MemOp) : List Nat :=
  let ps := effPorts s dst (opClass op)
  match op with
  | .blk g .. => if g = 0 then ps else ps.filter (fun p => portFeature s p 2)
  | _ => ps

/-- The port that an own request takes (R149), of ports that are not none. -/
def pickPort (s : State) (dst : Nat) (op : MemOp) : Nat × State :=
  let ps := sendPorts s dst op
  if isOrd op then (ps.getD (Config.routeHash (endpointId s) dst % ps.length) 0, s)
  else
    let f := freshFree s
    (ps.getD (Config.sprayPick f.1 % ps.length) 0, f.2)

/-- Tags of a port that its requests in progress hold (R570). -/
def portTags (s : State) (p : Nat) : List Nat :=
  s.acc.issued.filterMap (fun i => if i.sent && i.port = p then i.wire else none)

/-- A tag of a port that is free, as RPORT × 4,096 + TAG (R570). -/
def freeTag (s : State) (p : Nat) : Option Nat :=
  let used := portTags s p
  ((upTo 4096).map (fun t => p % 32 * 4096 + t)).find? (fun t => !used.contains t)

/-- Can a request be sent now, as far as tags go (R570)? -/
def tagsFree (s : State) (i : Issued) : Bool :=
  (sendPorts s i.req.head.dst i.req.op).all (fun p => decide ((portTags s p).length < 4096))

/-- The data of a completion at its line positions, other bytes zero (Table 6.2). -/
def linePos (addr : Nat) (d : Bytes) : Bytes :=
  slice (zeros (addr % 64) ++ d) 0 64

/-- The data that a completion with `status` carries: all ones for DEAD, zero for a failure without data. -/
def failData (op : MemOp) (status : Nat) : Bytes :=
  if opReads op then (if status = 1 then ones (opLen op) else zeros (opLen op)) else []

/-- A core consumes poisoned bytes (R679): it takes an access fault, and POISON_CONSUMED is recorded. -/
def poisonTrap (s : State) (core cause va part : Nat) : State :=
  emit (noteFault s 0x1E (engRes 5 core) part 0xFF va []) (.coreTrap core cause va)

/-- Complete a request to its requester (R18): a port's, a Hearth core's, or the node's own. The
completion of a request that arrived by a port now DOWN is discarded (R587). -/
def completeReq (s : State) (h : Head) (status : Nat) (d : Bytes) : State :=
  match h.kind with
  | 0 => if portState s h.unit == 10 then s
         else emit s (.completion h status s.route.epoch (if d.isEmpty then [] else if portCompat s h.unit then d else linePos h.addr d))
  | 5 => if status = 2 && h.cause != 0 then poisonTrap s h.unit h.cause h.va (cidPart h.cid)
         else emit s (.core h.unit status d)
  | _ => s

/-- Record a DEAD completion of R539: counter, fault record, and the partition's cause latch (cores 0
and 1 count for partition 0, Table 15.2). -/
def deadTarget (s : State) (h : Head) (op : MemOp) : State :=
  let s := bump s 0x2908 3
  let p := if h.kind = 5 && h.unit < 2 then 0 else cidPart h.cid
  let s := noteFault s 0x1D 0 p 1 (h.dst * 2 ^ 48 + h.addr % 2 ^ 48)
    (toLe 2 h.dst ++ toLe 1 h.kind ++ toLe 1 h.unit ++ toLe 1 (opClass op) ++ toLe 4 h.cid)
  latch s (partSource p 1)

/-- Hand a completion on to what it is for; `settle` takes it up at the end of the command. -/
def pushDone (s : State) (t : IssFor) (status : Nat) (d : Bytes) : State :=
  { s with acc := { s.acc with done := s.acc.done ++ [(t, status, d)] } }

/-- Two heads name the same source (R272): a port's is its endpoint and CID. -/
def sameSource (a b : Head) : Bool :=
  a.kind == b.kind && a.cid == b.cid && (if a.kind = 0 then a.ep == b.ep else a.unit == b.unit)

/-- The port that R149 selects for the ORD requests to an endpoint, if there is one. -/
def ordPort (s : State) (dst : Nat) : Option Nat :=
  let ps := effPorts s dst 5
  ps[Config.routeHash (endpointId s) dst % ps.length]?

/-- Does an earlier request of the node hold back later ORD requests like `h` to its destination: it is held itself or was turned back by RETRY (R154), it is of the same source and of
an earlier epoch (R280), or it went by another port than is selected now, by a commit (R153), a QUIESCE (R581) or a detach (Table 13.17)? One lost with its port's link (R587) holds back only
what a commit has moved. -/
def holdsLater (s : State) (h : Head) (i : Issued) : Bool :=
  isOrd i.req.op && i.req.head.dst == h.dst &&
  (!i.sent || i.retryEpoch.isSome || (i.req.head.epoch != s.route.epoch && sameSource i.req.head h) ||
    ((i.wire.isSome || i.req.head.epoch != s.route.epoch) && ordPort s h.dst != some i.port))

/-- Must a new ORD request wait (R153, R154, R280)? -/
def mustHold (s : State) (h : Head) : Bool := s.acc.issued.any (holdsLater s h)

/-- Has the request no port to leave by: it waits for none, and completes DEAD at once (R149, R587)? -/
def noWay (s : State) (r : Req) : Bool := (effPorts s r.head.dst (opClass r.op)).isEmpty

/-- When the completion timeout of a request issued now ends (R539): a knot has 64,000 µs more. -/
def deadlineOf (s : State) (op : MemOp) : Nat :=
  s.det.now + usT (num s 0x2908 1) + (match op with | .blk _ true _ _ _ _ => usT 64000 | _ => 0)

/-- Send a recorded request: it leaves by the port of the route under the current epoch; an empty mask
completes it DEAD at once (R149), a link that has not negotiated its class or feature UNSUP (R579). -/
def sendIssued (s : State) (i : Issued) : State :=
  let drop := { s with acc := { s.acc with issued := s.acc.issued.filter (fun x => x.tag != i.tag) } }
  if (effPorts s i.req.head.dst (opClass i.req.op)).isEmpty then
    pushDone (deadTarget drop i.req.head i.req.op) i.target 1 (failData i.req.op 1)
  else if (sendPorts s i.req.head.dst i.req.op).isEmpty then pushDone drop i.target 6 (failData i.req.op 6)
  else
    let p := pickPort s i.req.head.dst i.req.op
    if (match i.req.op with | .reduce .. => !portFeature s p.1 3 | _ => false) then pushDone drop i.target 6 (failData i.req.op 6)
    else
      match freeTag s p.1 with
      | none => s
      | some w =>
        let r := { i.req with head := { i.req.head with epoch := s.route.epoch, tag := w } }
        let j := { i with req := r, sent := true, retryEpoch := none, port := p.1, wire := some w }
        emit { p.2 with acc := { p.2.acc with
          issued := p.2.acc.issued.map (fun x => if x.tag == i.tag then j else x) } } (.issue i.tag p.1 r)

/-- Issue a request to another endpoint (R105). -/
def issueReq (s : State) (r : Req) (target : IssFor) (mirror : Option Nat) : State :=
  let r := { r with head := { r.head with epoch := s.route.epoch } }
  let hold := isOrd r.op && mustHold s r.head && !noWay s r
  let tag := s.acc.nextTag
  let i : Issued := { tag := tag, wire := none, req := r, at_ := s.det.now, deadline := deadlineOf s r.op, sent := false, retryEpoch := none, target := target,
                      mirror := mirror, port := 0 }
  let s := { s with acc := { s.acc with nextTag := tag + 1, issued := s.acc.issued ++ [i] } }
  if hold || !tagsFree s i then s else sendIssued s i

/-- Send, in order, the requests that are held back no more (R154, R280); `n` bounds the passes. -/
def sendReady : Nat → State → State
  | 0, s => s
  | n + 1, s =>
    let go := s.acc.issued.find? (fun i => !i.sent && i.retryEpoch.isNone && tagsFree s i &&
      !(isOrd i.req.op && !noWay s i.req && (s.acc.issued.takeWhile (fun j => j.tag != i.tag)).any (holdsLater s i.req.head)))
    match go with
    | none => s
    | some i => sendReady n (sendIssued s i)

/-- Requests turned back by RETRY whose epoch has now been reached are sent again (R154). -/
def wakeRetries (s : State) : State :=
  let s := { s with acc := { s.acc with issued := s.acc.issued.map (fun i =>
    match i.retryEpoch with
    | some e => if epochReached s.route.epoch e then { i with retryEpoch := none, sent := false } else i
    | none => i) } }
  sendReady s.acc.issued.length s

/-- The node's own request that a completion's RPORT and TAG name (R570). -/
def findIssued (s : State) (tag : Nat) : Option Issued := s.acc.issued.find? (fun i => i.wire == some tag && i.sent)

/-- A completion that is not RETRY ends an own request. -/
def finishIssued (s : State) (i : Issued) (status : Nat) (d : Bytes) : State :=
  let s := { s with acc := { s.acc with issued := s.acc.issued.filter (fun x => x.tag != i.tag) } }
  sendReady (s.acc.issued.length + 1) (pushDone s i.target status d)

/-- Give a port's receive credit of a class back to its partner (R578). -/
def giveCredit (s : State) (p cls : Nat) : State :=
  let x := getPort s p
  setPort s p { x with owedCr := x.owedCr.set cls (x.owedCr.getD cls 0 + 1) }

/-- A request that begins to wait now, under the next number. -/
def newHeld (s : State) (why : Why) (r : Req) (checked : Bool) (target : IssFor) (owed : Option Nat) : Held :=
  { seq := s.acc.nextSeq, since := s.det.now, deadline := deadlineOf s r.op, why := why, req := r, target := target, checked := checked, xlatVpn := none,
    discardAt := s.det.now + usT (num s 0x2908 2), desc := Region.none, win := none, owed := owed }

/-- Put a request among those that wait. -/
def holdNew (s : State) (h : Held) : State :=
  { s with acc := { s.acc with nextSeq := s.acc.nextSeq + 1, held := s.acc.held ++ [h] } }

/-- Put a request of the node itself, or one that arrives with nothing owed for it, among those that wait. -/
def holdReqFor (s : State) (why : Why) (r : Req) (target : IssFor) : State := holdNew s (newHeld s why r false target none)

/-- A request that leaves the Vestibule gives its port credit back; one that waits for a tracker or for a fault record to free keeps it (R137, R155). -/
def settleCredit (s : State) (h : Held) (why : Why) : Option Nat × State :=
  match h.owed, why with
  | none, _ => (none, s)
  | some c, .tracker => (some c, s)
  | some c, .faultWait .. => (some c, s)
  | some c, _ => (none, giveCredit s h.req.head.unit c)

/-- Put back a request that waited before, under its number and time. -/
def rehold (s : State) (h : Held) (why : Why) (checked : Bool) : State :=
  let x := settleCredit s h why
  let s := x.2
  { s with acc := { s.acc with held := (s.acc.held.filter (fun x => decide (x.seq < h.seq))) ++
    [{ h with why := why, checked := checked, owed := x.1 }] ++ (s.acc.held.filter (fun x => decide (h.seq < x.seq))) } }

/-- Take a request off those that wait. -/
def unhold (s : State) (h : Held) : State :=
  let s := (settleCredit s h .discarded).2
  { s with acc := { s.acc with held := s.acc.held.filter (fun x => x.seq != h.seq) } }

/-- A request of the node itself: kind and unit of R767, CID and GFA. -/
def ownHead (s : State) (kind unit cid gfa : Nat) : Head :=
  { kind := kind, unit := unit, ep := endpointId s, epoch := s.route.epoch, tag := 0, cid := cid, hasCid := true,
    dst := gfa / 2 ^ 48, addr := gfa % 2 ^ 48, xlat := false, fwd := false, va := 0, cause := 0, ecc := .clean }

/-- Submit a request of the node itself to any endpoint: a local one is performed at the end of the command that raised it (R105), another one is issued. `vpn`: the page that its
address was translated from. -/
def submitVia (s : State) (vpn : Option Nat) (kind unit cid gfa : Nat) (op : MemOp) (target : IssFor) : State :=
  let r : Req := { head := ownHead s kind unit cid gfa, op := op }
  if r.head.dst = endpointId s then holdNew s { newHeld s (.ready none) r false target none with xlatVpn := vpn } else issueReq s r target none

/-- Submit a request with an address that was not translated. -/
def submitOwn (s : State) (kind unit cid gfa : Nat) (op : MemOp) (target : IssFor) : State := submitVia s none kind unit cid gfa op target

/-- The bank that tracks a line (R28, R687). -/
def bankOf (s : State) (a : Nat) : Nat :=
  let k := sliceOf a
  if bit s.acc.banksOk k then k else k.xor 1

/-- Does a held request hold a tracker? -/
def holdsTracker (h : Held) : Bool :=
  match h.why with
  | .tracker => false
  | _ => true

/-- Trackers of a bank in use by a port's requests: uncached ones, and coherent ones that have not begun at the home (R155). -/
def portTrackers (s : State) (bank p : Nat) : Nat :=
  (s.acc.held.filter (fun h => holdsTracker h && h.req.head.kind == 0 && h.req.head.unit == p &&
    bankOf s h.req.head.addr == bank)).length +
  (s.coh.waits.filter (fun w => decide (4 ≤ w.agent) && decide (w.agent < 256) && (getAgent s w.agent).port == p && bankOf s (w.line * 64) == bank)).length

/-- Trackers of a bank that requests of the die use, the clusters' coherent ones among them (R155). -/
def dieTrackers (s : State) (bank : Nat) : Nat :=
  (s.acc.held.filter (fun h => holdsTracker h && h.req.head.kind != 0 && bankOf s h.req.head.addr == bank)).length +
  (s.coh.waits.filter (fun w => decide (w.agent < 4) && bankOf s (w.line * 64) == bank)).length

/-- Is there a tracker for a request of a port (`none`: of the die) to an offset (R155): 32 of each bank for each port, 3,072 shared? -/
def trackerFree (s : State) (p : Option Nat) (a : Nat) : Bool :=
  let b := bankOf s a
  let shared := ((upTo 32).map (fun p => portTrackers s b p - 32)).sum + dieTrackers s b
  (match p with | some p => decide (portTrackers s b p < 32) | none => false) || decide (shared < 3072)

/-- The port of a request that came by one. -/
def portOf (h : Head) : Option Nat := if h.kind = 0 then some h.unit else none

end Sys2Proof.Machine
end

