-- ==== Sys2Proof/Machine/MemAccess.lean ====
section
/-! DEFINITION. The memory side of a request: rights (R112, R113, R123), what a kind allows (Table 3.3), Landing tags (R606), reading and writing the bytes of a region, mirror writes (R695), metering (R703). -/
namespace Sys2Proof.Machine

/-- Does partition `p` hold the right on the region (R112)? -/
def hasRight (g : Region) (p : Nat) (write : Bool) : Bool :=
  g.owner == p || bit g.shareWr p || (!write && bit g.shareRd p)

/-- The check at the memory (R123): the valid region that holds the whole access, when the CID's partition
exists, is not fenced and has the right. -/
def checkMem (s : State) (cid a n : Nat) (write : Bool) : Option Nat :=
  match regionAt s a with
  | none => none
  | some r =>
    let g := getRegion s r
    if partExists s (cidPart cid) && hasRight g (cidPart cid) write && decide (a + n ≤ g.base + g.size)
    then some r else none

/-- The region of an offset, one that is being released included (R122: requests checked before go on). -/
def regionOf (s : State) (a : Nat) : Option Nat :=
  (s.regions.find? (fun e => (e.2.valid || e.2.releasing) && decide (e.2.base ≤ a) &&
    decide (a < e.2.base + e.2.size))).map (·.1)

/-- A table (number) is bound while TAB_RUN is not OFF (R345). -/
def tableBound (s : State) (t : Nat) : Bool := arrNum s 0x2616 t != 0

/-- The table bound to a region. -/
def tableOf (s : State) (r : Nat) : Option Nat :=
  (upTo 256).find? (fun t => tableBound s t && bfld (arrBlob s 0x2610 t) 0 2 == r)

/-- Local rows of a table (R348). -/
def tableRows (d : Bytes) : Nat :=
  let rows := bfld d 8 8
  if bfld d 2 1 = 0 then rows else (rows + bfld d 4 1 - 1 - bfld d 5 1) / bfld d 4 1

/-- Bytes of the table image: the region, or the view of a versioned table (R348). -/
def imageSize (s : State) (r : Nat) : Nat :=
  match getVer s r with
  | some v => v.view
  | none => (getRegion s r).size

/-- Offset of the header in the image (Table 8.2): after the directory and the store map. -/
def headerOff (s : State) (d : Bytes) : Nat :=
  divUp (tableRows d * 8) 65536 * 65536 + divUp (imageSize s (bfld d 0 2) / 65536) 65536 * 65536

/-- May a far atomic reach this offset of a TAB region (R393)? -/
def tabAtomicOk (s : State) (r a : Nat) : Bool :=
  match tableOf s r with
  | none => true
  | some t =>
    let h := (getRegion s r).base + headerOff s (arrBlob s 0x2610 t)
    decide (h + 0x8000 ≤ a) && decide (a < h + 0x10000)

/-- Does the region's kind allow the operation (Table 3.3; R531 for reductions)? -/
def kindAllows (k : Nat) (op : MemOp) : Bool :=
  match op with
  | .atomic .. => k == 3 || k == 4
  | .reduce .. => k == 1 || k == 3
  | _ => k != 4 && k != 5

/-- A SECONDARY region with MIRROR set serves nothing but mirror writes (R692, R696). -/
def isCopy (s : State) (r : Nat) : Bool := (getRegion s r).mirror && arrNum s 0x3640 r == 1

/-- Remove a line from every Bobbin row cache (R344, R393). -/
def dropRowLines (s : State) (p : Nat → Bool) : State :=
  { s with eng := { s.eng with rowLines := s.eng.rowLines.filter (fun e => !p e.2.1) } }

/-- A Landing line written under another tag reads zero (R606). -/
def landStale (s : State) (g : Region) (a : Nat) : Bool :=
  inLanding a && sget (fun _ => 0) s.sec.landTags (lineOf a) != partTag s g.owner

/-- Retag a Landing line with its owner's tag before it is written; a stale one becomes zero first. -/
def landTake (s : State) (g : Region) (a : Nat) : State :=
  if landStale s g a then
    let s := { s with mem := memZero s.mem (lineOf a * 64) 64 }
    clearPoison { s with sec := { s.sec with
      landTags := sput (fun _ => 0) s.sec.landTags (lineOf a) (partTag s g.owner) } } a
  else s

/-- `n` bytes of a region that has no versions, and whether their line is poisoned. -/
def rawRead (s : State) (g : Region) (a n : Nat) : Bytes × Bool :=
  if landStale s g a then (zeros n, false) else (memRead s.mem a n, isPoison s a)

/-- MIRROR_STATE of a region (Table 17.5). -/
def mirrorState (s : State) (r : Nat) : Nat := arrNum s 0x3660 r

/-- The watermark of a region's rebuild, in bolts (Table 17.8). -/
def watermark (s : State) (r : Nat) : Nat := bfld (arrBlob s 0x3680 r) 24 4

/-- Every PRIMARY region with the partner becomes DEGRADED (R697), its waiting mirror writes complete. -/
def degradePartner (s : State) (ep cause : Nat) : State :=
  let rs := (s.regions.filter (fun e => e.2.mirror && e.2.mirrorEp == ep && arrNum s 0x3640 e.1 == 0 &&
    (mirrorState s e.1 == 1 || mirrorState s e.1 == 2))).map (·.1)
  forS rs s (fun s r =>
    let s := if mirrorState s r = 2 then
        setArrBlob s 0x3680 r (bset (bset (slice (arrBlob s 0x3680 r) 0 48) 2 1 3) 16 8 s.det.count) else s
    let s := setArrNum s 0x3660 r 3
    let s := noteFault s 0x30 (resId 11 r) (getRegion s r).owner 0xFF 0 (toLe 2 ep ++ toLe 1 cause)
    let mine := s.acc.issued.filter (fun i => i.mirror == some r)
    let s := { s with acc := { s.acc with issued := s.acc.issued.filter (fun i => i.mirror != some r) } }
    forS mine s (fun s i => pushDone s i.target 0 []))

/-- Does a change at the offset go to the mirror partner now (R695, R698)? -/
def mirrors (s : State) (r a : Nat) : Bool :=
  let g := getRegion s r
  g.mirror && arrNum s 0x3640 r == 0 &&
  (mirrorState s r == 1 || (mirrorState s r == 2 && decide ((a - g.base) / 65536 < watermark s r)))

/-- Does a write wait for the span of its bolt (R698)? -/
def spanBusy (s : State) (r a : Nat) : Bool :=
  (getRegion s r).mirror && mirrorState s r == 2 &&
  s.acc.issued.any (fun i => i.target == .rebuild r ((a - (getRegion s r).base) / 65536))

/-- Send the mirror write of a line (R695): its whole 64 B, poison included, to the partner; at once
DEGRADED on an empty route (R697). `target`: what waits for it. -/
def mirrorLine (s : State) (r a : Nat) (target : IssFor) : State :=
  let g := getRegion s r
  let ln := lineOf a * 64
  if (effPorts s g.mirrorEp 5).isEmpty then pushDone (degradePartner s g.mirrorEp 2) target 0 []
  else
    let h := ownHead s 6 0 (mkCid g.owner 0) (g.mirrorEp * 2 ^ 48 + (g.mirrorBase + (ln - g.base)) % 2 ^ 48)
    issueReq (bump s 0x3601 1) { head := h, op := .store (memRead s.mem ln 64) (isPoison s ln) } target (some r)

/-- A running stream window takes the values that committed writes give its advance word, in order (R210). -/
def advanceWrites (s : State) (a n : Nat) : State :=
  forS (s.tier.streams.filter (fun e => e.2.run == 3)) s (fun s e =>
    let w := bfld (blob s 0x2320 (e.1 + 1)) 8 8
    if overlaps a n w 8 then { s with tier := { s.tier with streams := s.tier.streams.map (fun x =>
      if x.1 = e.1 then (x.1, { x.2 with writes := x.2.writes ++ [leNat (memRead s.mem w 8)] }) else x) } }
    else s)

/-- Write bytes of one line of a region without versions: the Landing tag, the bytes, the poison mark
(R678: a whole line clears it), and the mirror write; nothing after the key of its owner has been destroyed (R617). Answers whether a mirror write was sent. -/
def rawWrite (s : State) (r a : Nat) (d : Bytes) (poison : Bool) (target : IssFor) : Bool × State :=
  let g := getRegion s r
  if g.enc && (getPart s g.owner).key = 2 then
    (false, setPart s g.owner { getPart s g.owner with lateWrites := (getPart s g.owner).lateWrites + 1 })
  else
  let s := landTake s g a
  let s := { s with mem := memWrite s.mem a d }
  let s := if poison then markPoison s a else if d.length = 64 then lineRewritten (clearPoison s a) a else s
  let s := advanceWrites (if inLanding a then s else lineWritten s (lineOf a)) a d.length
  if mirrors s r a then (true, mirrorLine s r a target) else (false, s)

/-- The first applicable of two statuses in the order of R20: RETRY, DEAD, UNSUP, ABORTED, CONFLICT,
LOST, POISON, OK. -/
def statusRank : Nat → Nat
  | 4 => 0 | 1 => 1 | 6 => 2 | 7 => 3 | 5 => 4 | 3 => 5 | 2 => 6
  | _ => 7

/-- R20. -/
def firstStatus (a b : Nat) : Nat := if statusRank b < statusRank a then b else a

/-- Read of a versioned region (Table 7.1): status and data. A stale handle's access is counted. -/
def verLoad (s : State) (r : Nat) (v : VerRegion) (cid ep a n : Nat) : Nat × Bytes × State :=
  let g := getRegion s r
  match verSelect v cid ep with
  | .stale => (7, zeros n, bump s 0x2501 8)
  | sel => (if verPoison s g.base v sel (a - g.base) then 2 else 0, verRead s g.base v sel (a - g.base) n, s)

/-- The bytes that a read gives, with its status; what was encrypted under a key since destroyed (R613, R616) is a free value. -/
def readBytes (s : State) (r cid ep a n : Nat) : Nat × Bytes × State :=
  match getVer s r with
  | some v => verLoad s r v cid ep a n
  | none =>
    let x := rawRead s (getRegion s r) a n
    if (getRegion s r).enc && (getPart s (getRegion s r).owner).key = 2 && !inLanding a then
      (if x.2 then 2 else 0, (List.range n).map (fun k => Config.freeByte (s.free + k)), { s with free := s.free + n })
    else (if x.2 then 2 else 0, x.1, s)

/-- What a write comes to: it was done, with a status and whether a mirror write was sent; or it waits. -/
inductive Wrote where
  | done (status : Nat) (mirrored : Bool) (s : State)
  | wait (w : Why) (s : State)

/-- A write of one line's bytes in its place: its bolt has a slot first (R167, R192), outside the Cellar (R175, R204), and is not at the end of a move (R171 step 4). The write that gives a bolt
its slot is its first access (R170). -/
def placedWrite (s : State) (r kind unit cid a : Nat) (d : Bytes) (poison : Bool) (target : IssFor) : Wrote :=
  if inLanding a then
    let x := rawWrite s r a d poison target
    .done 0 x.1 x.2
  else
    match ensureBolt s r a kind unit with
    | none => .wait .slot s
    | some t =>
      let t := if (getBolt s (boltOf a)).home = 0 then touch t kind unit cid a true else t
      if (getBolt t (boltOf a)).home = 3 then .wait (.bolt (boltOf a)) (askMoveUp t (boltOf a))
      else if moveHolds t (boltOf a) then .wait (.cutover (boltOf a)) t
      else
        let x := rawWrite t r a d poison target
        .done 0 x.1 x.2

/-- A write of one line's bytes (R308, R309, R192, R698). -/
def writeBytes (s : State) (r kind unit cid ep a : Nat) (d : Bytes) (poison : Bool) (target : IssFor) : Wrote :=
  match getVer s r with
  | some v =>
    (match verSelect v cid ep with
    | .stale => .done 7 false (bump s 0x2501 8)
    | .work w =>
      (match verWrite s r w (a - (getRegion s r).base) d poison (quadOf kind unit) with
      | .done s => .done 0 false s
      | .baste => .wait (.baste r) s
      | .slot => .wait .slot s
      | .bolt b s => .wait (.bolt b) (askMoveUp s b))
    | _ => .done 6 false s)
  | none =>
    if spanBusy s r a then .wait (.span r ((a - (getRegion s r).base) / 65536)) s
    else placedWrite s r kind unit cid a d poison target

/-- Is the offset in the basting area of a versioned region (R306)? -/
def inBasting (s : State) (r a n : Nat) : Bool :=
  match getVer s r with
  | some v => decide ((getRegion s r).base + v.view < a + n)
  | none => false

/-- Start to wait for a basting page: counted, and VER_BASTE_FULL (R309). -/
def basteWait (s : State) (r : Nat) : State :=
  noteFault (bump s 0x2501 5) 0x18 (resId 11 r) (getRegion s r).owner 0xFF 0 []

/-- A read-modify-write of a far atomic or a reduction (R390, R392, R531): the old bytes, or POISON. -/
def atomicBytes (s : State) (r kind unit cid ep a : Nat) (op : AOp) (t cmp_ : Nat) (x : Bytes) (target : IssFor) :
    Bytes × Wrote :=
  let old := readBytes s r cid ep a x.length
  if old.1 ≠ 0 then (old.2.1, .done old.1 false old.2.2)
  else (old.2.1, writeBytes old.2.2 r kind unit cid ep a (elemsOp op t cmp_ x.length old.2.1 x) false target)

/-- Count a far atomic or reduction performed (R429, Table 17.9). -/
def countAtomic (s : State) (op : MemOp) (cid : Nat) : State :=
  let s := pbumpBy s 0x4D06 (cidPart cid) 1
  match op with
  | .atomic _ t _ _ _ =>
    let s := bump s 0x2605 0x0B
    if atypeFloat t then bump s 0x2605 0x0C else s
  | _ => s

end Sys2Proof.Machine
end

