-- ==== Sys2Proof/Machine/Media.lean ====
section
/-! DEFINITION. What the media of the tiers give (ch. 4): corrected and uncorrectable errors of slots (R213, R214, R680), poisoned units of Cellar bolts (R206), retirement of slots (R215), and moves that clear a
slot. -/
namespace Sys2Proof.Machine

/-- Move a bolt out of its slot: to another unit of its tier, to the tier below, or to any (R215, R217), where its partition has room (R184). -/
def moveOut (s : State) (b : Nat) (c : MoveCause) : State :=
  let x := getBolt s b
  let u := unitOfSlot s x.home x.slot
  if x.home = 0 || x.moving then s
  else
    let cand := [x.home, x.home + 1, 1, 2, 3].filter (fun t => decide (1 ≤ t) && decide (t ≤ 3) && (t == x.home || roomIn s x.part t))
    let r := cand.foldl (fun (r : Option (Nat × Nat) × State) t =>
      match r.1 with
      | some _ => r
      | none =>
        let p := pickCool r.2 t x.quad 2 (fun v => !(t == x.home && v == u && c != .retire) && laneOk s b t v)
        (p.1.map (fun k => (t, k)), p.2)) (none, s)
    match r.1 with
    | some (t, slot) => startMove r.2 b t slot c
    | none => r.2

/-- The channel, or the stack, that holds a line of a bolt (R178): of a Larder slot, that of the line's 4 KiB granule. -/
def lineResource (s : State) (b k : Nat) : Nat :=
  let x := getBolt s b
  let u := unitOfSlot s x.home x.slot
  match x.home with
  | 2 => resId 3 (4 * u + unitOfLine x.tile k % 4)
  | 3 => resId 4 u
  | _ => resId 2 u

/-- Corrected errors of a slot in the last 24 h, `n` found now among them (R215). -/
def addSlotErrors (s : State) (t slot n : Nat) : Nat × State :=
  let l := s.tier.slotErrors.filter (fun e => !due s e.2.2.1 (secT 86400)) ++ (if n = 0 then [] else [(t, slot, s.det.now, n)])
  (((l.filter (fun e => e.1 == t && e.2.1 == slot)).map (fun e => e.2.2.2)).sum, { s with tier := { s.tier with slotErrors := l } })

/-- Retire a bolt's slot (R215): the spare shrinks and the bolt moves; with no spare, TIER_SPARE. -/
def retireSlot (s : State) (b : Nat) : State :=
  let x := getBolt s b
  let t := x.home
  let spare := if t = 1 then s.tier.spareP else if t = 2 then s.tier.spareL else s.tier.spareC
  if s.tier.retired.contains (t, x.slot) then s
  else if spare = 0 then noteFault s 0x07 0 0xFF 0xFF 0 (toLe 1 t)
  else
    let s := { s with tier := { s.tier with
      retired := s.tier.retired ++ [(t, x.slot)]
      spareP := if t = 1 then spare - 1 else s.tier.spareP
      spareL := if t = 2 then spare - 1 else s.tier.spareL
      spareC := if t = 3 then spare - 1 else s.tier.spareC } }
    moveOut (bump s 0x230A (8 + t)) b .retire

/-- Corrected errors found in a bolt's slot: the slot is retired once it has had RETIRE_CE of them in 24 h (R215). -/
def slotCorrected (s : State) (b n : Nat) : State :=
  let x := getBolt s b
  let c := addSlotErrors s x.home x.slot n
  if n ≠ 0 && num s 0x230A 2 ≤ c.1 then retireSlot c.2 b else c.2

/-- The line at an offset is poisoned; in a basting page, in the image that it holds (R307). -/
def markBad (s : State) (a : Nat) : State :=
  let s := markPoison s a
  match regionOf s a with
  | none => s
  | some r =>
    match getVer s r with
    | none => s
    | some v =>
      let lo := basteAddr (getRegion s r).base v 0
      let put := fun (i : Image) => if lo ≤ a && i.baste = (a - lo) / 4096 then { i with poison := ninsert i.poison (a % 4096 / 64) } else i
      setVer s r { v with images := v.images.map put, works := v.works.map (fun w => { w with copies := w.copies.map put }) }

/-- Lines of a Parlour or Larder bolt in which reads found errors (R213 to R215): each is counted and recorded against its channel; a slot with an uncorrectable line is retired. The places within
the channel are free values. -/
def lineErrors (s : State) (b : Nat) (corrected bad : List Nat) : State :=
  let x := getBolt s b
  let t := x.home
  if !(t = 1 || t = 2) then s
  else
    let s := forS corrected s (fun s k =>
      let f := freshFree s
      noteFault (bump f.2 0x230A (2 + t)) (2 * t - 1) (lineResource s b k) 0xFF 0xFF 0 (toLe 2 (Config.freeNat f.1)))
    let s := forS bad s (fun s k =>
      let f := freshFree s
      let s := markBad (bump f.2 0x230A (5 + t)) (b * 65536 + k * 64)
      detectFault s (2 * t) (lineResource s b k) 1 x.part 0xFF (b * 65536 + k * 64) (toLe 1 (Config.freeNat f.1) ++ toLe 4 x.slot))
    if bad.isEmpty then slotCorrected s b corrected.length else retireSlot (addSlotErrors s t x.slot corrected.length).2 b

/-- 4 KiB units of a Cellar bolt that failed every retry (R206): each is counted and recorded, and its lines are poisoned until each is rewritten in full. -/
def cellarUnits (s : State) (b : Nat) (units : List Nat) : State :=
  forS units s (fun s u =>
    let x := getBolt s b
    let ls := unitLines x.tile u
    let f := freshFree s
    let s := detectFault (bump f.2 0x230A 8) 0x06 (resId 4 (boltChannel s b)) 1 x.part 0xFF (b * 65536 + ls.headD 0 * 64)
      (toLe 1 (Config.freeNat f.1) ++ toLe 1 u ++ toLe 4 x.slot)
    let s := forS ls s (fun s k => markBad s (b * 65536 + k * 64))
    setBolt s b { getBolt s b with cellarBad := ls.foldl ninsert (getBolt s b).cellarBad })

/-- A Cellar codeword was read after `retries` retries, in block `block` (R213): a corrected error. The die is a free value. -/
def cellarRetry (s : State) (b retries block : Nat) : State :=
  let f := freshFree s
  noteFault (bump (bump f.2 0x230A 0x0C) 0x230A 5) 0x05 (resId 4 (boltChannel s b)) 0xFF 0xFF 0 (toLe 1 (Config.freeNat f.1) ++ toLe 1 retries ++ toLe 4 block)

/-- The key of a Cellar block of a channel. -/
def blockKey (ch block : Nat) : Nat := ch * 2 ^ 32 + block % 2 ^ 32

/-- A block was read at a threshold offset (R727): the block's offset follows unless FLASH_VT_FREEZE holds it; one that reaches ±7 is refreshed (R214), and starts again. -/
def flashOffset (s : State) (ch block : Nat) (k : Int) : State :=
  if num s 0x2005 3 = 1 || 7 < k.natAbs then s
  else if k.natAbs = 7 then
    { s with pwr := { s.pwr with flashVt := sput (fun _ => (0 : Int)) s.pwr.flashVt (blockKey ch block) 0 }
             tier := { s.tier with refreshes := sput (fun _ => 0) s.tier.refreshes (blockKey ch block) (sget (fun _ => 0) s.tier.refreshes (blockKey ch block) + 1) } }
  else { s with pwr := { s.pwr with flashVt := sput (fun _ => (0 : Int)) s.pwr.flashVt (blockKey ch block) k } }

/-- Blocks of a Cellar bolt that were read after retries, with the offsets at which they were (R213, R215, R727). -/
def flashRetries (s : State) (b : Nat) (l : List (Nat × Int)) : State :=
  let s := forS l s (fun s e => flashOffset (cellarRetry s b e.2.natAbs e.1) (boltChannel s b) e.1 e.2)
  slotCorrected s b l.length

/-- A read of a line from the media meets an error (R213, R215, R680): corrected, or uncorrectable, so that the line is poisoned, or in the Cellar its unit; a mirrored region's line whose partner
holds a good copy is repaired, and the fault is recorded and handled all the same. -/
def readError (s : State) (a : Nat) (e : ReadEcc) : State :=
  let b := boltOf a
  let k := lineOf a % 1024
  let home := (getBolt s b).home
  if inLanding a || home = 0 then s
  else
    match e with
    | .clean => s
    | .corrected =>
      if home = 3 then
        let f := freshFree s
        slotCorrected (cellarRetry f.2 b (Config.freeNat f.1 % 8) (Config.freeNat f.1 / 8)) b 1
      else lineErrors s b [k] []
    | .bad ok =>
      if home = 3 then cellarUnits s b [unitOfLine (getBolt s b).tile k]
      else
        let was := isPoison s a
        let s := lineErrors s b [] [k]
        match regionAt s a with
        | some r => if ok && !was && mirrors s r a then bump (clearPoison s a) 0x3601 2 else s
        | none => s

end Sys2Proof.Machine
end

