-- ==== Sys2Proof/Machine/Queues.lean ====
section
/-! DEFINITION. The engine queues (R375 to R378, Tables 8.5 to 8.7): registers, submission, completion entries. -/
namespace Sys2Proof.Machine

/-- The code of a block: 0 Shuttle, 1 Bobbin, 2 Tape, 3 Treadle; its requester kind is one more (R767). -/
def blkCode : Blk → Nat
  | .shuttle => 0 | .bobbin => 1 | .tape => 2 | .treadle => 3

/-- The index of the block's run-state object (sub-index 1) and command object (sub-index 2). -/
def blkIndex : Blk → Nat
  | .shuttle => 0x2900 | .bobbin => 0x2600 | .tape => 0x2700 | .treadle => 0x2800

/-- A block's run state: 0 OFF, 1 STOPPED, 2 STOPPING, 3 RUNNING (R65). -/
def blkRun (s : State) (b : Blk) : Nat :=
  let d := match b with | .treadle => (20, 8) | .bobbin => (28, 16) | .shuttle => (44, 8) | .tape => (52, 32)
  if (upTo d.2).all (fun k => decide (num s 0x2010 (d.1 + k + 1) ≤ 1)) then 0 else num s (blkIndex b) 1

/-- The key of a queue. -/
def queueKey (q : QueueId) : Nat := blkCode q.blk * 1024 + q.part % 64 * 16 + q.q % 16

/-- The queue that a key names. -/
def queueOf (k : Nat) : QueueId :=
  { blk := [Blk.shuttle, .bobbin, .tape, .treadle].getD (k / 1024) .shuttle, part := k / 16 % 64, q := k % 16 }

/-- A queue. -/
def getQueue (s : State) (q : QueueId) : Queue := sget (fun _ => Queue.reset) s.eng.queues (queueKey q)

/-- Set it. -/
def setQueue (s : State) (q : QueueId) (x : Queue) : State :=
  { s with eng := { s.eng with queues := sput (fun _ => Queue.reset) s.eng.queues (queueKey q) x } }

/-- The queues of a block. -/
def blkQueues (s : State) (b : Blk) : List (Nat × Queue) :=
  s.eng.queues.filter (fun e => e.1 / 1024 == blkCode b)

/-- Descriptors that a block has accepted and not completed. -/
def blkAccepted (s : State) (b : Blk) : Nat := ((blkQueues s b).map (fun e => e.2.accepted.length)).sum

/-- Distance between two slot counters, modulo 65,536. -/
def slotDiff (a b : Nat) : Nat := (a + 65536 - b) % 65536

/-- A queue register's value (Table 8.6). -/
def queueReg (x : Queue) (off : Nat) : Nat :=
  match off with
  | 0x00 => x.qbase
  | 0x08 => x.log2n + 256 * b2n x.en + 512 * b2n x.halted + 1024 * b2n x.overrun
  | 0x10 => x.tail
  | 0x18 => x.head
  | 0x20 => x.cqbase
  | 0x28 => x.cqLog2n + 256 * b2n x.cqEn + 512 * b2n (!x.waiting.isEmpty) + 1024 * b2n x.irqEn
  | 0x30 => x.cqHead
  | 0x38 => x.cqTail + 65536 * b2n x.phase
  | _ => 0

/-- May EN be set with this LOG2N (Table 8.6)? -/
def log2Ok (n : Nat) : Bool := decide (6 ≤ n) && decide (n ≤ 15)

/-- A TAIL write from endpoint `ep` (R376): ignored with OVERRUN when the ring cannot hold it. -/
def tailWrite (x : Queue) (ep t : Nat) : Queue :=
  let n := slotDiff t x.head
  if 2 ^ x.log2n < n then { x with overrun := true }
  else
    { x with tail := t
             submitters := (upTo n).map (fun k =>
               let pos := (x.head + k) % 65536
               match x.submitters.find? (fun e => e.1 == pos) with
               | some e => e
               | none => (pos, ep)) }

/-- A queue register is written (Table 8.6). -/
def queueRegWrite (x : Queue) (ep off v : Nat) : Queue :=
  match off with
  | 0x00 => if x.en then x else { x with qbase := alignDown v 64 }
  | 0x08 =>
    { x with log2n := fld v 0 4, en := bit v 8 && log2Ok (fld v 0 4),
             halted := x.halted && !bit v 9, overrun := x.overrun && !bit v 10 }
  | 0x10 => tailWrite x ep (v % 65536)
  | 0x20 => { x with cqbase := alignDown v 32 }
  | 0x28 => { x with cqLog2n := fld v 0 4, cqEn := bit v 8 && log2Ok (fld v 0 4), irqEn := bit v 10 }
  | 0x30 => { x with cqHead := v % 65536 }
  | _ => x

/-- A completion entry without its PHASE (Table 8.7). -/
def entryBytes (q : QueueId) (d : Desc) : Bytes :=
  toLe 8 (bfld d.bytes 0x3C 4 + d.status % 16 * 2 ^ 32 + d.rcode % 32 * 2 ^ 40) ++
    toLe 8 d.result ++ toLe 8 d.missing ++ toLe 8 (d.pos % 65536 + q.q % 8 * 65536)

/-- Write one completion entry into the ring (R376, R378), or hold it while the ring is full. -/
def writeEntry (s : State) (q : QueueId) (e : Bytes) : State :=
  let x := getQueue s q
  if !x.cqEn then s
  else if 2 ^ x.cqLog2n ≤ slotDiff x.cqTail x.cqHead then
    setQueue s q { x with waiting := x.waiting ++ [e] }
  else
    let slot := x.cqTail % 2 ^ x.cqLog2n
    let rise := x.irqEn && x.cqTail = x.cqHead &&
      !(blkQueues s q.blk).any (fun e => e.1 / 16 % 64 == q.part && e.2.irqEn && e.2.cqTail != e.2.cqHead)
    let s := if rise then msixRise s q.part (blkCode q.blk + 4) else s
    let b := bset e 0 8 (bfld e 0 8 + 2 ^ 63 * b2n x.phase)
    let s := setQueue s q { x with cqTail := (x.cqTail + 1) % 65536,
                                   phase := if slot + 1 = 2 ^ x.cqLog2n then !x.phase else x.phase }
    submitOwn s (blkCode q.blk + 1) 0 (mkCid q.part 0) (x.cqbase + slot * 32) (.store b false) .none

/-- The accepted descriptor at a position. -/
def findDesc (s : State) (d : DescRef) : Option Desc := (getQueue s d.q).accepted.find? (fun x => x.pos == d.pos)

/-- Replace it. -/
def setDesc (s : State) (q : QueueId) (x : Desc) : State :=
  let k := getQueue s q
  setQueue s q { k with accepted := k.accepted.map (fun y => if y.pos == x.pos then x else y) }

/-- Issue the adds to arrival counters that are due (R522): a far atomic ADD of type U64 each. -/
def issueAdds (s : State) (q : QueueId) (pos : Nat) (ok : ArrDue → Bool) : State :=
  match findDesc s { q := q, pos := pos } with
  | none => s
  | some d =>
    let due := d.arr.filter (fun a => a.due != 0 && ok a)
    let arr := d.arr.map (fun a => if a.due != 0 && ok a then { a with due := 0, since := s.det.now } else a)
    let s := setDesc s q { d with arr := arr, waitRemote := d.waitRemote + due.length }
    forS due s (fun s a =>
      submitVia (if q.blk == .shuttle then bump s 0x2901 5 else s) a.vpn (blkCode q.blk + 1) a.unit a.cid a.addr
        (.atomic .add 3 0 0 (toLe 8 a.due)) (.descAdd q pos a.dest))

/-- The report of a share to its entry member (R353). -/
def sendReport (s : State) (e : EntryRef) (d : Desc) : State :=
  emit s (.report e.ep e.q e.pos { member := e.member, status := d.status, rcode := d.rcode, result := d.result,
                                   partials := d.partials.map (·.2), found := d.found.flatMap (·.2) })

/-- Destinations of a Shuttle descriptor's writes are numbered by member, piece and kind (0 a line, 1 a knot, 2 a part line). -/
def shDest (m piece kind : Nat) : Nat := m % 64 + 64 * piece + kind * 2 ^ 40
def shKind (dest : Nat) : Nat := dest / 2 ^ 40
def shPiece (dest : Nat) : Nat := dest % 2 ^ 40 / 64

/-- The destination that a write counts for: the member, of a Shuttle descriptor's. -/
def destOf (b : Blk) (dest : Nat) : Nat := if b == .shuttle then dest % 64 else dest

/-- One more write that a descriptor waits for, at a destination. -/
def addOut (x : Desc) (dest : Nat) : Desc :=
  { x with waitRemote := x.waitRemote + 1
           outs := if x.outs.any (fun e => e.1 == dest) then x.outs.map (fun e => if e.1 == dest then (e.1, e.2 + 1) else e)
             else x.outs ++ [(dest, 1)] }

/-- Pieces that a Shuttle descriptor has: of each member's range, 4 MiB each (R509). A tree reduction is never divided. -/
def shPieces (x : Desc) : Nat :=
  let op := bfld x.bytes 0 1
  let n := if op = 0x52 && bit (bfld x.bytes 2 2) 2 then 1 else divUp (bfld x.bytes 0x18 8) (4 * 2 ^ 20)
  if op = 0x51 then n * x.group.length else n

/-- May a waiting last line be sent (R520, R521)? Its piece's part line has been performed; the last piece's knot waits for the knots of the other
pieces to its destination, and a fallback store for every other line. -/
def knotReady (x : Desc) (k : KnotDue) : Bool :=
  let mine := x.outs.filter (fun e => e.1 % 64 == k.member)
  let n := if bfld x.bytes 0 1 = 0x51 then x.group.length else 1
  let allRun := (upTo (shPieces x / n)).all (fun i => x.doneP.contains (i * n + k.member))
  let others := x.knots.any (fun j => j.member == k.member && j.piece != k.piece)
  if !k.knot then allRun && mine.isEmpty
  else if mine.any (fun e => shKind e.1 == 2 && shPiece e.1 == k.piece) then false
  else !k.last || (allRun && !others && !mine.any (fun e => (shKind e.1 == 1 || shKind e.1 == 2) && shPiece e.1 != k.piece))

/-- Send a Shuttle descriptor's waiting last lines that may go. -/
def sendKnots (s : State) (q : QueueId) (pos : Nat) : State :=
  match findDesc s { q := q, pos := pos } with
  | none => s
  | some x =>
    let go := x.knots.filter (knotReady x)
    let key := fun (k : KnotDue) => shDest k.member k.piece (if k.knot then 1 else 0)
    let x := go.foldl (fun x k => addOut x (key k)) { x with knots := x.knots.filter (fun k => !go.contains k) }
    forS go (setDesc s q x) (fun s k =>
      submitVia s k.vpn 1 k.unit k.cid k.addr (if k.knot then .blk k.group true false k.count k.data k.poison else .store k.data k.poison)
        (.desc q pos (key k) k.data.length))

/-- A descriptor that has run, with nothing outstanding, completes: the last adds to its arrival counters are issued and awaited, its
entry is written, or its report sent, and it is accepted no more. An entry asserts the block's source when IRQ_EN is set. -/
def tryComplete (s : State) (q : QueueId) (pos : Nat) : State :=
  let k := getQueue s q
  match k.accepted.find? (fun x => x.pos == pos) with
  | none => s
  | some d =>
    if d.ran && d.waitRemote = 0 && d.waitMirror = 0 && d.members.isEmpty && d.knots.isEmpty then
      if d.arr.any (fun a => a.due != 0) then issueAdds s q pos (fun _ => true)
      else
        let s := setQueue s q { k with accepted := k.accepted.filter (fun x => x.pos != pos) }
        match d.entry with
        | some e => sendReport s e d
        | none => writeEntry s q (entryBytes q d)
    else s

/-- Take an RCODE of a member: the lowest-numbered member whose RCODE is not DONE gives it (R383, R425). -/
def mergeCode (d : Desc) (m rc : Nat) : Desc :=
  if rc ≠ 0 && (d.rcode = 0 || m < d.rcFrom) then { d with rcode := rc, rcFrom := m } else d

/-- A descriptor has run: its status so far, RCODE, RESULT and MISSING. -/
def endDesc (s : State) (d : DescRef) (status rcode result missing : Nat) : State :=
  match findDesc s d with
  | none => s
  | some x =>
    tryComplete (setDesc s d.q { x with ran := true, ranAt := s.det.now, status := firstStatus x.status status,
                                        rcode := rcode, result := result, missing := missing }) d.q d.pos

/-- A mirror write that a descriptor waits for has completed. -/
def descMirrored (s : State) (q : QueueId) (pos : Nat) : State :=
  match findDesc s { q := q, pos := pos } with
  | none => s
  | some x => tryComplete (setDesc s q { x with waitMirror := x.waitMirror - 1 }) q pos

/-- A multicast member is missing (R529). -/
def missMember (x : Desc) (m : Nat) : Desc := { x with missing := setBit x.missing m, rcode := 0x14 }

/-- A write that a descriptor waits for has completed: its bytes count for the destination's arrival counter and for a Shuttle descriptor's RESULT (R514,
R522, R524); a multicast member whose write completes DEAD, or whose knot fails, is missing (R529). -/
def descDone (s : State) (q : QueueId) (pos dest n status : Nat) : State :=
  match findDesc s { q := q, pos := pos } with
  | none => s
  | some x =>
    let sh := q.blk == .shuttle
    let dst := destOf q.blk dest
    let ok := status = 0 || status = 2
    let knot := sh && shKind dest == 1
    let x := { x with
      waitRemote := x.waitRemote - 1
      outs := (x.outs.map (fun e => if e.1 == dest then (e.1, e.2 - 1) else e)).filter (fun e => e.2 != 0)
      status := firstStatus x.status status
      result := if sh && ok then x.result + n else x.result
      spans := if knot then x.spans.filter (fun e => e.1 != dest) else x.spans
      arr := if ok then x.arr.map (fun a => if a.dest == dst then { a with due := a.due + n } else a) else x.arr }
    let x := if sh && bfld x.bytes 0 1 = 0x51 && (status = 1 || (knot && !ok)) then missMember x dst else x
    let s := setDesc s q x
    let s := if sh && ok then bumpBy (pbumpBy s 0x4902 q.part n) 0x2901 4 n else s
    tryComplete (if sh then sendKnots s q pos else s) q pos

/-- An add to an arrival counter has completed (R523): one that fails gives ARRIVAL_FAILED. -/
def descAdded (s : State) (q : QueueId) (pos dest status : Nat) : State :=
  match findDesc s { q := q, pos := pos } with
  | none => s
  | some x =>
    let mc := q.blk == .shuttle && bfld x.bytes 0 1 == 0x51
    let x := { x with waitRemote := x.waitRemote - 1, status := firstStatus x.status status }
    let x := if status = 0 then x
      else if mc then missMember x (destOf q.blk dest)
      else if q.blk == .shuttle then { x with rcode := 0x13 } else x
    tryComplete (setDesc s q x) q pos

/-- Is a descriptor one that later descriptors of its queue wait for while it is accepted: a FENCE (R299),
or a Shuttle WAIT (R537)? -/
def blocksLater (b : Blk) (d : Desc) : Bool :=
  bfld d.bytes 0 1 == 0xF0 || (b == .shuttle && bfld d.bytes 0 1 == 0x53)

/-- May a descriptor start: it has not run, no translation fault holds it, its block is RUNNING or stopping with it
accepted, and no earlier descriptor of its queue holds it back? -/
def mayStart (s : State) (d : DescRef) : Option Desc :=
  let k := getQueue s d.q
  match k.accepted.find? (fun x => x.pos == d.pos) with
  | none => none
  | some x =>
    let earlier := k.accepted.takeWhile (fun y => y.pos != d.pos)
    if x.ran || x.trap.isSome || earlier.any (blocksLater d.q.blk) then none else some x

/-- Is it a partition's turn, among rivals that wait as well: has none of them been dealt less, in proportion to its weight (R341, R498; log entry 127)? -/
def turnOf (dealt : Sparse Nat) (weight : Nat → Nat) (p : Nat) (rivals : List Nat) : Bool :=
  let n := fun q => sget (fun _ => 0) dealt q
  rivals.all (fun r => decide (n p * weight r ≤ n r * weight p))

/-- The shares after a partition has been dealt one; with no rival they begin anew. -/
def takeTurn (dealt : Sparse Nat) (p : Nat) (rivals : List Nat) : Sparse Nat :=
  if rivals.isEmpty then [] else sput (fun _ => 0) dealt p (sget (fun _ => 0) dealt p + 1)

/-- The opcode of a descriptor. -/
def descOp (x : Desc) : Nat := bfld x.bytes 0 1

end Sys2Proof.Machine
end

