-- ==== Sys2Proof/Machine/Barriers.lean ====
section
/-! DEFINITION. Barriers (R542 to R546): arrival, release, abort, lateness. Pads of power domains (R715 to R717). -/
namespace Sys2Proof.Machine

/-- A barrier's state beside its objects. -/
def getBar (s : State) (b : Nat) : Barrier := sget (fun _ => Barrier.reset) s.eng.barriers b

/-- Set it. -/
def setBar (s : State) (b : Nat) (x : Barrier) : State :=
  { s with eng := { s.eng with barriers := sput (fun _ => Barrier.reset) s.eng.barriers b x } }

/-- BAR_DESC fields (Table 12.3). -/
def barOwner (s : State) (b : Nat) : Nat := bfld (arrBlob s 0x2930 b) 0 1
def barN (s : State) (b : Nat) : Nat := bfld (arrBlob s 0x2930 b) 2 2
def barGroup (s : State) (b : Nat) : Nat := bfld (arrBlob s 0x2930 b) 4 2
def barThresh (s : State) (b : Nat) : Nat := bfld (arrBlob s 0x2930 b) 6 2
def barAddr (s : State) (b : Nat) : Nat := bfld (arrBlob s 0x2930 b) 8 8
def barTimeout (s : State) (b : Nat) : Nat := bfld (arrBlob s 0x2930 b) 16 4

/-- Is the barrier RUNNING? -/
def barRunning (s : State) (b : Nat) : Bool := arrNum s 0x2936 b == 3

/-- The endpoint of a rank (BAR_MEMBERS). -/
def barMember (s : State) (b r : Nat) : Nat := bfld (arrBlob s 0x2932 b) (2 * r) 2

/-- The members of a multicast group that a partition may use; none when it has no members or does not
name the partition (R525, R526). -/
def groupMembers (s : State) (g p : Nat) : List Nat :=
  let b := arrBlob s 0x2920 g
  if bit (bfld b 0 8) p then (upTo (bfld b 8 1)).map (fun k => bfld b (16 + 2 * k) 2) else []

/-- Store the release word (R544 step 2, R545). -/
def barRelease (s : State) (b word : Nat) : State :=
  let p := barOwner s b
  let g := barGroup s b
  let eps := endpointId s :: (if g = 0xFFFF then [] else groupMembers s g p)
  forS eps s (fun s e =>
    submitOwn s 6 0 (mkCid p 0) (e * 2 ^ 48 + barAddr s b % 2 ^ 48) (.store (toLe 8 word) false) .none)

/-- Ranks that LATE marks suspect (R546): W at least 64 and LATE[r] × 1,024 above THRESH × W. -/
def barSuspects (thresh : Nat) (lasts : List Nat) : List Nat :=
  let w := lasts.length
  if w < 64 then []
  else lasts.eraseDups.filter (fun r => decide (thresh * w < (lasts.filter (· == r)).length * 1024))

/-- Close the open episode and open the next one. -/
def barNext (s : State) (b : Nat) (x : Barrier) : State :=
  setBar s b { x with episode := addW 64 x.episode 1, arrived := [], openedAt := s.det.now, timedOut := false }

/-- The N-th distinct rank has arrived (R544, R546). -/
def barComplete (s : State) (b rank : Nat) (x : Barrier) : State :=
  let lasts := (rank :: x.lasts).take 1024
  let sus := barSuspects (barThresh s b) lasts
  let s := if sus.any (fun r => !x.suspects.contains r) then latch s (partSource (barOwner s b) 3) else s
  let s := barRelease s b x.episode
  barNext s b { x with lasts := lasts, suspects := sus, completed := addW 64 x.completed 1 }

/-- A store to SH_BAR_ARRIVE (R543). Answers whether it is a violation. -/
def barArrive (s : State) (b v ep : Nat) : Bool × State :=
  let rank := fld v 0 10
  let x := getBar s b
  if barN s b ≤ rank || barMember s b rank != ep || !barRunning s b then (true, s)
  else if fld v 16 32 ≠ x.episode % 2 ^ 32 then (false, setBar s b { x with stray := (x.stray + 1) % 65536 })
  else if x.arrived.contains rank then (false, setBar s b { x with duplicates := (x.duplicates + 1) % 65536 })
  else
    let x := { x with arrived := x.arrived ++ [rank] }
    if x.arrived.length = barN s b then (false, barComplete s b rank x) else (false, setBar s b x)

/-- Abort the open episode (R545). -/
def barAbort (s : State) (b : Nat) : State :=
  let x := getBar s b
  barNext (barRelease s b (addW 64 x.episode (2 ^ 63))) b x

/-- SH_BAR_STATUS (Table 12.4). -/
def barStatusReg (s : State) (b : Nat) : Nat :=
  let x := getBar s b
  x.episode % 2 ^ 32 + x.arrived.length * 2 ^ 32 + 2 ^ 43 * b2n (barRunning s b) + 2 ^ 44 * b2n (!x.suspects.isEmpty)

/-- DOM_STATE of a power domain (Table 18.3): 0 OFF, 1 HELD, 2 RET, 3 CG, 4 ON. -/
def domState (s : State) (d : Nat) : Nat := num s 0x2010 (d + 1)

/-- A domain counts as OFF in OFF and HELD (R710). -/
def domOff (s : State) (d : Nat) : Bool := decide (domState s d ≤ 1)

/-- May work be given to a domain's unit: not OFF or HELD (CG and RET return to ON, R712), and not about to be switched OFF (Table 18.4). -/
def domUsable (s : State) (d : Nat) : Bool := !domOff s d && num s 0x2011 (d + 1) != 2

/-- The domains of an engine block. -/
def blkDomains : Blk → List Nat
  | .treadle => (upTo 8).map (20 + ·)
  | .bobbin => (upTo 16).map (28 + ·)
  | .shuttle => (upTo 8).map (44 + ·)
  | .tape => (upTo 32).map (52 + ·)

/-- A block all of whose domains are OFF is OFF, and STOPPED when one returns (R342, R431, R510). -/
def blkSettle (s : State) : State :=
  forS [Blk.bobbin, .tape, .treadle, .shuttle] s (fun s b => if (blkDomains b).all (domOff s) && num s (blkIndex b) 1 != 1 then setNum s (blkIndex b) 1 1 else s)

/-- Set a domain's state; one of an array or a Bobbin engine changes TD_ARRAYS_ON or BN_ENGINES_ON (R660); a port's state follows it into and out of OFF (Table 13.1), and a port whose domain has been OFF has no history (R558). -/
def setDom (s : State) (d st : Nat) : State :=
  let s := if 20 ≤ d && d ≤ 43 && (domOff s d != decide (st ≤ 1)) then runFlag s 2 else s
  let s := setNum s 0x2010 (d + 1) st
  let s := if 20 ≤ d && d ≤ 83 && st ≤ 1 then blkSettle s else s
  if 112 ≤ d && d ≤ 143 then
    let p := d - 112
    if st ≤ 1 then
      let s := if portState s p = 10 then latch s (64 + p) else s
      setPort (setNum s 0x2107 (p + 1) 0) p { getPort s p with history := false }
    else if portState s p = 0 then setNum s 0x2107 (p + 1) 1 else s
  else s

/-- Has a domain lands (R716)? -/
def domLands (d : Nat) : Bool := decide (52 ≤ d) && decide (d ≤ 143)

/-- Release the pads of a domain (R716): no effect unless it is HELD; ignored for a Parlour controller whose
stack supply switch is not ON. -/
def releasePad (s : State) (d : Nat) : State :=
  if domState s d = 1 && domLands d && !(100 ≤ d && d ≤ 105 && domState s (d + 6) != 4) then setDom s d 4 else s

/-- Release every HELD domain with lands, the supply switches before the controllers that need them. -/
def releaseAllPads (s : State) : State :=
  forS ((upTo 6).map (106 + ·) ++ (upTo 196)) s releasePad

end Sys2Proof.Machine
end

