-- ==== Sys2Proof/Machine/ControlWindow.lean ====
section
/-! DEFINITION. The control windows (R156 to R159, Tables 3.7 to 3.10): reading and writing their registers, invalidations (R135), resolving fault records (R140), version commands (R312 to R318), lease registers (Table 7.7). -/
namespace Sys2Proof.Machine

/-- A violation by a request (R609): `kind` of Table 14.2. The unit is the port for kinds 2, 3 and 7 and
the requester kind otherwise. -/
def violReqS (s : State) (h : Head) (op : MemOp) (kind region : Nat) : State :=
  let unit := if kind = 2 || kind = 3 then (if h.kind = 0 then h.unit else 0xFF) else h.kind
  violation s (some h.cid)
    (violReq kind unit (opCode op) (opClass op) h.cid (if h.kind = 0 then h.ep else endpointId s) h.addr region)

/-- The common registers of a partition. -/
def getCw (s : State) (p : Nat) : CwCommon := sget (fun _ => CwCommon.reset) s.acc.cw p

/-- Set them. -/
def setCw (s : State) (p : Nat) (c : CwCommon) : State :=
  { s with acc := { s.acc with cw := sput (fun _ => CwCommon.reset) s.acc.cw p c } }

/-- A fault record, by partition and number. -/
def findRec (s : State) (p n : Nat) : Option FaultRec := s.acc.faults.find? (fun f => f.part == p && f.n == n)

/-- Remove a record. -/
def dropRec (s : State) (p n : Nat) : State :=
  { s with acc := { s.acc with faults := s.acc.faults.filter (fun f => !(f.part == p && f.n == n)) } }

/-- Word `w` of a fault record (Table 3.10). -/
def recWord (f : FaultRec) (w : Nat) : Nat :=
  match w with
  | 0 => f.cid % 2 ^ 20 + 2 ^ 20 + f.cause % 256 * 2 ^ 24 + f.attached % 65536 * 2 ^ 32 + f.kind % 256 * 2 ^ 48 +
      f.unit % 256 * 2 ^ 56
  | 1 => b2n f.read + 2 * b2n f.write + 4 * b2n f.atomic + 8 * b2n f.user + f.vpn % 2 ^ 52 * 4096
  | 2 => f.level
  | 3 => f.pte
  | 4 => f.opened
  | 5 => f.total % 2 ^ 32 + f.timedOut % 2 ^ 32 * 2 ^ 32
  | _ => 0

/-- Does a fault of partition `p` wait for a record (R137)? -/
def faultWaiting (s : State) (p : Nat) : Bool :=
  s.acc.held.any (fun h => cidPart h.req.head.cid == p && (match h.why with | .faultWait .. => true | _ => false)) ||
  s.eng.queues.any (fun e => e.2.accepted.any (fun d => d.fault.isNone && (match d.trap with | some t => cidPart t.cid == p | none => false)))

/-- A common register as read (Tables 3.8 and 3.9, 18.6). -/
def cwCommonRead (s : State) (p off : Nat) : Nat :=
  let c := getCw s p
  match off with
  | 0x000 => p + 256 + endpointId s * 65536
  | 0x008 => s.route.epoch
  | 0x010 => s.det.count
  | 0x018 => c.xlatBase
  | 0x020 => c.xlatCount
  | 0x028 => c.invVa
  | 0x038 => b2n (s.acc.invals.any (fun i => i.part == p)) + 2 * b2n c.overflow + c.done % 2 ^ 32 * 2 ^ 32
  | 0x040 => c.notifyAddr
  | 0x048 => c.notifyData
  | 0x058 => (s.acc.faults.filter (fun f => f.part == p)).length + 65536 * b2n (faultWaiting s p)
  | _ =>
    if 0x060 ≤ off && off ≤ 0x078 then
      let k := (off - 0x060) / 8
      ((s.acc.faults.filter (fun f => f.part == p && f.n / 64 == k)).map (fun f => 2 ^ (f.n % 64))).sum
    else if p = 0 && 0x088 ≤ off && off ≤ 0x0A0 then
      let k := (off - 0x088) / 8
      ((upTo 64).map (fun n => if 64 * k + n < 196 && domState s (64 * k + n) = 1 then 2 ^ n else 0)).sum
    else 0

/-- A command slot's key. -/
def getSlot (s : State) (p k : Nat) : VcSlot := sget (fun _ => VcSlot.reset) s.ver.slots (p * 256 + k)

/-- Set it. -/
def setSlot (s : State) (p k : Nat) (x : VcSlot) : State :=
  { s with ver := { s.ver with slots := sput (fun _ => VcSlot.reset) s.ver.slots (p * 256 + k) x } }

/-- CW_LEASE_SELF for a source (Table 7.7, R337). -/
def leaseSelf (s : State) (ep p : Nat) : Nat :=
  match leaseOf s ep p with
  | none => 0
  | some (n, l) =>
    n + l.st * 4096 + l.durationMs / 10 % 8192 * 65536 + (l.deadline - s.det.now) / 100000 % 2 ^ 32 * 2 ^ 32

/-- The block whose queues lie at a window offset (Table 3.7). -/
def cwBlock (off : Nat) : Option Blk :=
  match off / 0x100000 with
  | 1 => some .shuttle | 2 => some .bobbin | 3 => some .tape | 4 => some .treadle
  | _ => none

/-- A register of partition `p`'s window as the source at endpoint `ep` reads it; reserved offsets read 0. -/
def cwRead (s : State) (p ep off : Nat) : Nat :=
  if off < 0x1000 then cwCommonRead s p off
  else if off < 0x5000 then
    match findRec s p ((off - 0x1000) / 0x40) with
    | some f => recWord f (off % 0x40 / 8)
    | none => 0
  else
    match cwBlock off with
    | some b =>
      let o := off % 0x100000
      if o < 0x200 then queueReg (getQueue s { blk := b, part := p, q := o / 0x40 }) (o % 0x40)
      else if b == .shuttle && 0x81000 ≤ o && o < 0x81800 then
        let k := (o - 0x81000) / 8
        if barOwner s k = p then barStatusReg s k else 0
      else 0
    | none =>
      if 0x500000 ≤ off && off < 0x504000 then
        let x := getSlot s p ((off - 0x500000) / 0x40)
        match off % 0x40 with
        | 0x08 => x.arg
        | 0x10 => x.result
        | 0x18 => x.version
        | 0x20 => x.pages
        | 0x28 => x.first
        | 0x30 => x.aux
        | _ => 0
      else if off = 0x510008 then leaseSelf s ep p
      else if off = 0x510010 then sget (fun _ => 0) s.ver.expiries p % 2 ^ 32
      else 0

/-- Does a cached translation fall to an invalidation (R135)? -/
def invHits (i : Inval) (cid vpn : Nat) : Bool :=
  cidPart cid == i.part &&
  (match i.asid with | some a => cidAsid cid == a | none => true) &&
  (match i.vpn with | some v => vpn == v | none => true)

/-- The descriptors with an address translated by an entry that the invalidation drops, for a line or an arrival add still to come (R135). -/
def invDescs (s : State) (i : Inval) : List DescRef :=
  s.eng.queues.flatMap (fun e => (e.2.accepted.filter (fun x =>
    x.knots.any (fun k => match k.vpn with | some v => invHits i k.cid v | none => false) ||
    x.arr.any (fun a => match a.vpn with | some v => invHits i a.cid v | none => false))).map (fun x => { q := queueOf e.1, pos := x.pos }))

/-- Carry out the first invalidation in the order written: drop its entries, and note the requests
translated with a dropped entry that have not completed. -/
def startInval (s : State) : State :=
  match s.acc.invals with
  | [] => s
  | i :: rest =>
    if i.started then s
    else
      let knots := s.ord.knots.flatMap (fun k => (k.knot0.toList ++ k.knot1.toList).map (·.held))
      let waits := ((s.acc.held ++ knots).filter (fun h =>
        match h.xlatVpn with | some v => invHits i h.req.head.cid v | none => false)).map (·.seq)
      { s with acc := { s.acc with
        xlat := s.acc.xlat.filter (fun e => !invHits i e.cid e.vpn)
        invals := { i with started := true, waits := waits, descs := invDescs s i } :: rest } }

/-- A write of CW_INV (R135): up to 16 of the window's wait beside the one in progress. -/
def invWrite (s : State) (p v : Nat) : State :=
  let c := getCw s p
  if 16 ≤ (s.acc.invals.filter (fun i => i.part == p && !i.started)).length then setCw s p { c with overflow := true }
  else
    let i : Inval := { part := p, started := false, waits := [], descs := [],
                       asid := if bit v 16 then none else some (fld v 0 14),
                       vpn := if bit v 17 then some (c.invVa / 4096) else none }
    startInval { s with acc := { s.acc with invals := s.acc.invals ++ [i] } }

/-- A descriptor that a translation fault or a wait has held goes on. -/
def releasedDesc (s : State) (d : Desc) : Desc :=
  { d with fault := none, trap := none, stalledAt := none, pausedT := d.pausedT + (if d.trap.isSome then s.det.now - d.ranAt else 0) }

/-- The access of a descriptor that was held ends with a status: the instruction of a running launch takes it (R491), any other descriptor completes. -/
def endHeld (s : State) (q : QueueId) (d : Desc) (status : Nat) : State :=
  let x := releasedDesc s d
  if q.blk == .treadle && d.phase == 2 then setDesc s q { x with heldEnd := some status }
  else tryComplete (setDesc s q { x with ran := true, ranAt := s.det.now, status := firstStatus d.status status }) q d.pos

/-- Resolve a fault record (R140): with RESUME its attached requests, and descriptors, are translated again; with TERMINATE they complete ABORTED. -/
def resolveRec (s : State) (p n action : Nat) : State :=
  match findRec s p n with
  | none => s
  | some _ =>
    if action = 1 || action = 2 then
      let s := dropRec s p n
      let w : Why := if action = 1 then .ready none else .ends 7
      let s := { s with acc := { s.acc with held := s.acc.held.map (fun h =>
        if h.why == .faultRec p n then { h with why := w } else h) } }
      forS s.eng.queues s (fun s e =>
        forS e.2.accepted s (fun s d =>
          if d.fault == some (p, n) then
            if action = 1 then
              let s := setDesc s (queueOf e.1) { d with fault := none }
              { s with acc := { s.acc with again := s.acc.again ++ [(d.trapSeq, { q := queueOf e.1, pos := d.pos })] } }
            else endHeld s (queueOf e.1) d 7
          else s))
    else s

/-- RESULT word of a version command (Table 7.6). -/
def vcResult (s : State) (r ep p : Nat) (a : VcAnswer) : Nat :=
  let lease := match leaseOf s ep p with | some (n, _) => n | none => 0
  match getVer s r with
  | some v => a.rcode + lease * 65536 + (pinned v).length * 2 ^ 32 + v.works.length * 2 ^ 40
  | none => a.rcode

/-- A store to CW_VC_CMD (R312 to R318). Answers the status of the store. -/
def vcCommand (s : State) (h : Head) (p slot v : Nat) : Nat × State :=
  let op := fld v 0 4
  let r := fld v 8 12
  let cid := mkCid p (fld v 20 14)
  let ep := if h.kind = 0 then h.ep else endpointId s
  let x := getSlot s p slot
  let put := fun (s : State) (a : VcAnswer) (full : Bool) =>
    setSlot s p slot { arg := x.arg, result := if full then vcResult s r ep p a else a.rcode, version := a.version,
                       pages := a.pages % 2 ^ 32 + a.overlap % 2 ^ 32 * 2 ^ 32, first := a.first, aux := a.aux }
  if op = 0 || 7 < op then (6, put s (vcCode 0x0C 0) false)
  else
    let write := decide (3 ≤ op) && decide (op ≤ 6)
    let g := getRegion s r
    if !(g.valid && partExists s p && hasRight g p write) then
      (0, put (violReqS s { h with cid := cid } (.store [] false) 1 r) { vcCode 0 0 with first := 0 } false)
    else if g.kind ≠ 2 then (6, put s (vcCode 0x0B 0) false)
    else
      let a := vcRun s r cid ep op x.arg
      (a.1.status, put a.2 a.1 true)

/-- A store to CW_LEASE_RENEW (R329 to R331, R333, R337); one after deadline and grace finds the lease expired. Answers the status. -/
def leaseRenewWrite (s : State) (h : Head) (p v : Nat) : Nat × State :=
  let ep := if h.kind = 0 then h.ep else endpointId s
  let d := fld v 0 13
  if d ≠ 0 && (d < 10 || 6000 < d) then (6, s)
  else if bit v 13 then
    match leaseOf s ep p with
    | some (n, l) => (0, if l.st = 3 then freeLease s n else s)
    | none => (0, s)
  else
    match leaseOf s ep p with
    | none => (0, s)
    | some (n, l) =>
      if l.st = 3 || ep = endpointId s || l.deadline + msT (num s 0x2510 1) < s.det.now then (0, s)
      else
        let ms := if d = 0 then l.durationMs else d * 10
        let s := if l.deadline < s.det.now then bump s 0x2510 5 else s
        (0, setLease s n { l with st := 1, durationMs := ms, deadline := s.det.now + msT ms })

/-- A common register is written (Table 3.9, R717). -/
def cwCommonWrite (s : State) (p off v : Nat) : State :=
  let c := getCw s p
  match off with
  | 0x018 => setCw s p { c with xlatBase := v % 2 ^ 48 - v % 4096 + v % 2 }
  | 0x020 => setCw s p { c with xlatCount := v % 2 ^ 15 }
  | 0x028 => setCw s p { c with invVa := alignDown (v % 2 ^ 64) 4096 }
  | 0x030 => invWrite s p v
  | 0x038 => setCw s p { c with overflow := c.overflow && !bit v 1 }
  | 0x040 => setCw s p { c with notifyAddr := alignDown (v % 2 ^ 64) 8 }
  | 0x048 => setCw s p { c with notifyData := v % 2 ^ 64 }
  | 0x050 => resolveRec s p (fld v 0 8) (fld v 8 2)
  | 0x080 => if p = 0 then (if bit v 8 then releaseAllPads s else releasePad s (fld v 0 8)) else s
  | _ => s

/-- A register of partition `p`'s window is written by a request. Answers the status. -/
def cwWrite (s : State) (h : Head) (p off v : Nat) : Nat × State :=
  let ep := if h.kind = 0 then h.ep else endpointId s
  if off < 0x1000 then (0, cwCommonWrite s p off v)
  else
    match cwBlock off with
    | some b =>
      let o := off % 0x100000
      if o < 0x200 then
        let q : QueueId := { blk := b, part := p, q := o / 0x40 }
        (0, setQueue s q (queueRegWrite (getQueue s q) ep (o % 0x40) v))
      else if b == .shuttle && 0x80000 ≤ o && o < 0x80800 then
        let k := (o - 0x80000) / 8
        if barOwner s k = p then
          let x := barArrive s k v ep
          (0, if x.1 then violReqS x.2 h (.store (toLe 8 v) false) 8 0xFFFF else x.2)
        else (0, s)
      else (0, s)
    | none =>
      if 0x500000 ≤ off && off < 0x504000 then
        let k := (off - 0x500000) / 0x40
        if off % 0x40 = 0 then vcCommand s h p k v
        else if off % 0x40 = 8 then (0, setSlot s p k { getSlot s p k with arg := v % 2 ^ 64 })
        else (0, s)
      else if off = 0x510000 then leaseRenewWrite s h p v
      else (0, s)

end Sys2Proof.Machine
end

