-- ==== Sys2Proof/Machine/Translate.lean ====
section
/-! DEFINITION. Translation (R129 to R134): context entries, the Sv48 and Sv57 walk, cached translations; translation faults and their records (R136 to R141). -/
namespace Sys2Proof.Machine

/-- Where a local offset lies (Table 3.1). -/
inductive Place where
  | memory | pool | window | reserved
  | control (p off : Nat)

/-- R106 to R109. -/
def placeOf (s : State) (a : Nat) : Place :=
  if inUnified s a || inLanding a then .memory
  else if accBase ≤ a && a < accEnd then .pool
  else if 0xC00000000000 ≤ a && a < 0xE00000000000 then .window
  else if 0xF80000000000 ≤ a && a < 0xF80100000000 then
    let p := (a - 0xF80000000000) / 0x4000000
    if p < s.sec.hem.maxPartitions then .control p ((a - 0xF80000000000) % 0x4000000) else .reserved
  else .reserved

/-- The valid window entry that covers an offset (R143). -/
def windowAt (s : State) (a : Nat) : Option Window :=
  (s.windows.find? (fun e => e.2.valid && decide (e.2.wbase ≤ a) && decide (a < e.2.wbase + e.2.wsize))).map (·.2)

/-- May partition `p` use a window (R145)? -/
def windowUser (s : State) (w : Window) (p : Nat) : Bool := (w.owner == p || bit w.share p) && partExists s p

/-- The value of a line as a read at the home finds it now: an L2 cluster that owns it holds the newest
value (R253); an agent outside the node does not answer within a step (log entry 15). -/
def lineNow (s : State) (ln : Nat) : Bytes × Bool :=
  let mem := (lineData s ln, isPoison s (ln * 64))
  match dirGet s ln with
  | some e =>
    if (e.st = 1 && e.owner < 4) || (e.leadV && e.lead < 4) then
      let c := if e.st = 1 then e.owner else e.lead
      match sfind s.coh.l2 (c * 2 ^ 48 + ln) with
      | some l => if l.coh && (l.st = 4 || l.st = 2) then (l.data, l.mark) else mem
      | none => mem
    else mem
  | none => mem

/-- `n` bytes of one line of a region as a read of the node itself finds them now: status and bytes. -/
def readNow (s : State) (r cid ep a n : Nat) : Nat × Bytes × State :=
  if (getRegion s r).kind = 0 && getVer s r = none then
    let x := lineNow s (lineOf a)
    (if x.2 then 2 else 0, slice x.1 (a % 64) n, s)
  else readBytes s r cid ep a n

/-- `n` bytes of one line as a read of the node itself gets them at the home: a lost-dirty line is resolved by the region's LOST_POLICY (R264, R265). -/
def homeRead (s : State) (r cid ep a n : Nat) : Nat × Bytes × State :=
  match dirGet s (lineOf a) with
  | some e =>
    if e.st = 4 then
      let x := lostStatus s (getRegion s r).lostPolicy
      let y := readBytes (dirDel x.2 (lineOf a)) r cid ep a n
      (firstStatus x.1 y.1, y.2)
    else readNow s r cid ep a n
  | none => readNow s r cid ep a n

/-- The bolt of a checked access is homed on a Cellar channel that is OFF (R162, R192). -/
def boltDead (s : State) (r cid ep a : Nat) : Bool :=
  let b := boltOf (storedAt s r cid ep a)
  !inLanding a && (getBolt s b).home == 3 && cellarOff s (boltChannel s b)

/-- The bolt of a checked access that is homed in the Cellar, and is to be moved up first (R204). -/
def boltBelow (s : State) (r cid ep a : Nat) : Option Nat :=
  let b := boltOf (storedAt s r cid ep a)
  if !inLanding a && (getBolt s b).home == 3 then some b else none

/-- What a read of a walk gives: status and value, with the record of the violation that it was (R130); or it waits for a bolt to be moved up. -/
inductive WalkRead where
  | val (status v : Nat) (viol : Option Bytes) (s : State)
  | wait (b : Nat) (s : State)

/-- Read 8 B for a walk, with the partition's own rights (R130), for a requester. A read that would be a violation returns zero and is recorded. One through an inbound window goes to its
target, and the value that comes back is a free value; without a way there it is all ones (R149). -/
def walkRead (s : State) (p kind unit a : Nat) : WalkRead :=
  let cid := mkCid p 0
  let me := endpointId s
  let viol := fun (k region : Nat) =>
    let b := violReq k (if k = 3 then 0xFF else kind) 1 5 cid me a region
    WalkRead.val 0 0 (some b) (violation s (some cid) b)
  match placeOf s a with
  | .reserved => .val 0 0 none s
  | .pool => viol 1 0xFFFF
  | .control q off =>
    if q ≠ p || !partExists s p then viol 4 0xFFFF
    else if off % 8 ≠ 0 then .val 6 0 none s
    else .val 0 (cwRead s p me off) none s
  | .window =>
    match windowAt s a with
    | none => viol 3 0xFFFF
    | some w =>
      if !windowUser s w p then viol 3 0xFFFF
      else
        let t := w.target + (a - w.wbase)
        let hd := { ownHead s kind unit (if w.compat then cid else w.targetCid) t with fwd := true }
        let ps := if w.compat then [w.port] else effPorts s (t / 2 ^ 48) 5
        if ps.isEmpty then .val 1 (2 ^ 64 - 1) none (deadTarget s hd (.load 8))
        else
          let f := freshFree s
          let s := { f.2 with acc := { f.2.acc with nextTag := f.2.acc.nextTag + 1 } }
          .val 0 (Config.freeNat f.1 % 2 ^ 64) none (emit s (.issue s.acc.nextTag (ps.headD 0) { head := hd, op := .load 8 }))
  | .memory =>
    match checkMem s cid a 8 false with
    | none => viol 1 ((regionAt s a).getD 0xFFFF)
    | some r =>
      if inBasting s r a 8 then viol 1 r
      else if boltDead s r cid me a then .val 1 (2 ^ 64 - 1) none s
      else if !kindAllows (getRegion s r).kind (.load 8) || isCopy s r then .val 6 0 none s
      else
        match boltBelow s r cid me a with
        | some b => .wait b s
        | none =>
          let x := homeRead (touch s kind unit cid (storedAt s r cid me a) false) r cid me a 8
          .val x.1 (leNat x.2.1) none x.2.2

/-- What a translation comes to: a local offset, with what the walk found and the context entry it began from; a fault with the level at which the walk stopped, the
last PTE, the context's USER, whether the tables were walked, and the record of a violation of the walk; or a wait for a bolt to be moved up (R204). -/
inductive Xlat where
  | ok (pa : Nat) (user r w d : Bool) (s : State)
  | fault (cause level pte : Nat) (user walked : Bool) (viol : Option Bytes) (s : State)
  | wait (b : Nat) (s : State)

/-- Does an access find what it needs in a leaf's R and W (R131: an atomic needs both)? -/
def permOk (read write r w : Bool) : Bool := (!read || r) && (!write || w)

/-- The walk from a table at `ppn`, level `lv` and below (R131). -/
def walk (p kind unit va : Nat) (user read write : Bool) : Nat → Nat → State → Xlat
  | lv, ppn, s =>
    let a := ppn * 4096 + fld va (12 + 9 * lv) 9 * 8
    match walkRead s p kind unit a with
    | .wait b s => .wait b s
    | .val st pte viol s =>
      let fault := fun (cause : Nat) => Xlat.fault cause lv pte user true viol s
      let r := bit pte 1
      let w := bit pte 2
      let leaf := r || w || bit pte 3
      let next := fld pte 10 44
      if st = 2 then fault 8
      else if !bit pte 0 then fault 3
      else if fld pte 54 10 ≠ 0 || (w && !r) || (!leaf && (lv = 0 || bit pte 4 || bit pte 6 || bit pte 7)) then fault 6
      else if leaf then
        if bit pte 4 != user || !permOk read write r w then fault 4
        else if next % 2 ^ (9 * lv) ≠ 0 then fault 6
        else if !bit pte 6 || (write && !bit pte 7) then fault 5
        else
          let pa := next * 4096 + va % 2 ^ (12 + 9 * lv)
          if pa < 2 ^ 48 && (pa < 0x900000000000 || inLanding pa || (0xC00000000000 ≤ pa && pa < 0xE00000000000)) then
            .ok pa user r w (bit pte 7) s
          else fault 7
      else
        match lv with
        | 0 => fault 6
        | k + 1 => walk p kind unit va user read write k next s

/-- Translate from a context entry (R130, R131): its mode, the canonical form, the walk. -/
def ctxWalk (s : State) (kind unit cid va e : Nat) (viol : Option Bytes) (read write : Bool) : Xlat :=
  let user := bit e 4
  let mode := fld e 0 4
  if mode ≠ 8 && mode ≠ 9 then .fault 1 0 0 user false viol s
  else
    let bits := if mode = 8 then 48 else 57
    let top := fld va (bits - 1) (65 - bits)
    if top ≠ 0 && top ≠ 2 ^ (65 - bits) - 1 then .fault 2 0 0 user false viol s
    else walk (cidPart cid) kind unit va user read write (if mode = 8 then 3 else 4) (fld e 20 44) (bump s 0x2206 4)

/-- A context entry: its value, with the record of a violation; or what the translation comes to for want of it. -/
inductive CtxRead where
  | entry (e : Nat) (viol : Option Bytes) (s : State)
  | stop (x : Xlat)

/-- The context entry of a CID (R130, R134): one cached with a translation at the requester's Vestibule or engine, else the table's in memory. -/
def ctxRead (s : State) (kind unit cid : Nat) : CtxRead :=
  match s.acc.xlat.find? (fun e => e.kind == kind && e.unit == unit && e.cid == cid) with
  | some e => .entry e.ctx none s
  | none =>
    let p := cidPart cid
    let c := getCw s p
    let asid := cidAsid cid
    if !bit c.xlatBase 0 || min c.xlatCount 16384 ≤ asid then .stop (.fault 1 0 0 false false none s)
    else
      match walkRead s p kind unit (c.xlatBase - c.xlatBase % 4096 + asid * 16) with
      | .wait b s => .stop (.wait b s)
      | .val st e viol s => if st = 2 then .stop (.fault 8 0 0 (bit e 4) false viol s) else .entry e viol s

/-- Cached translations of a Vestibule or engine: 2,048 or 512 (R134). -/
def xlatRoom (kind : Nat) : Nat := if kind = 0 then 2048 else 512

/-- Keep a translation, dropping the oldest of a full cache. -/
def xlatKeep (s : State) (e : XlatEntry) : State :=
  let mine := s.acc.xlat.filter (fun x => x.kind == e.kind && x.unit == e.unit)
  let l := match mine with
    | x :: _ => if xlatRoom e.kind ≤ mine.length then s.acc.xlat.filter (· ≠ x) else s.acc.xlat
    | [] => s.acc.xlat
  { s with acc := { s.acc with xlat := l ++ [e] } }

/-- Translate an address (R129 to R134): a cached translation that permits the access serves it; otherwise
the tables are walked. -/
def translate (s : State) (kind unit cid va : Nat) (read write : Bool) : Xlat :=
  let vpn := va / 4096
  match s.acc.xlat.find? (fun e => e.kind == kind && e.unit == unit && e.cid == cid && e.vpn == vpn &&
      permOk read write e.read e.write && (!write || e.dirty)) with
  | some e => .ok (e.pageBase + va % 4096) e.user e.read e.write e.dirty s
  | none =>
    match ctxRead s kind unit cid with
    | .stop x => x
    | .entry e viol s =>
      match ctxWalk s kind unit cid va e viol read write with
      | .ok pa u r w d s =>
        .ok pa u r w d (xlatKeep s { kind := kind, unit := unit, cid := cid, vpn := vpn, pageBase := alignDown pa 4096,
                                     user := u, read := r, write := w, dirty := d, ctx := e })
      | x => x

/-- The record of a CID and page. -/
def recFor (s : State) (cid vpn : Nat) : Option FaultRec :=
  s.acc.faults.find? (fun f => f.cid == cid && f.vpn == vpn)

/-- Store the notification and assert the source (R139). -/
def notifyFault (s : State) (p : Nat) : State :=
  let c := getCw s p
  let s := latch s (partSource p 0)
  if c.notifyAddr = 0 then s
  else submitOwn s 6 0 (mkCid p 0) c.notifyAddr (.store (toLe 8 c.notifyData) false) .none

/-- Attach a fault to its record, opening one when there is none (R136 to R139). Answers the record's
number; `none` when it must wait for one (R137). -/
def attachFault (s : State) (t : Trap) : Option Nat × State :=
  let p := cidPart t.cid
  let rd := !t.write || t.atomic
  match recFor s t.cid t.vpn with
  | some f =>
    (some f.n, { s with acc := { s.acc with faults := s.acc.faults.map (fun x =>
      if x.part == f.part && x.n == f.n then
        { x with attached := x.attached + 1, total := x.total + 1, read := x.read || rd,
                 write := x.write || t.write, atomic := x.atomic || t.atomic }
      else x) } })
  | none =>
    let mine := s.acc.faults.filter (fun f => f.part == p)
    if 1024 ≤ s.acc.faults.length || num s 0x2206 1 ≤ mine.length then (none, s)
    else
      let n := (firstFree (fun k => mine.any (fun f => f.n == k)) 0 256).getD 0
      let f : FaultRec :=
        { part := p, n := n, cid := t.cid, cause := t.cause, attached := 1, kind := t.kind, unit := t.unit,
          read := rd, write := t.write, atomic := t.atomic, user := t.user, vpn := t.vpn, level := t.level, pte := t.pte,
          opened := s.det.count, total := 1, timedOut := 0 }
      (some n, notifyFault { s with acc := { s.acc with faults := s.acc.faults ++ [f] } } p)

/-- An attached request leaves its record (R141): one that has lost its last request closes. -/
def leaveRec (s : State) (p n : Nat) : State :=
  match findRec s p n with
  | none => s
  | some f =>
    if f.attached ≤ 1 then dropRec s p n
    else { s with acc := { s.acc with faults := s.acc.faults.map (fun x =>
      if x.part == p && x.n == n then { x with attached := x.attached - 1, timedOut := x.timedOut + 1 } else x) } }

end Sys2Proof.Machine
end

