-- ==== Sys2Proof/Machine/Access.lean ====
section
/-! DEFINITION. A request at the node, from the Vestibule to its completion (R26, R118, R123, R126, R143 to R148, R152, R253, R256, R279 to R290, R765), and the end of every command that lets requests proceed. -/
namespace Sys2Proof.Machine

/-- Is a core in the PART_HEARTH of partition `p` (R608)? -/
def coreOfPart (s : State) (p c : Nat) : Bool := decide (p < 64) && bit (pnum s 0x4A01 p) c

/-- The CID of a core: its partition's, with address-space ID 0 (R110); cores 0 and 1 use partition 0's. -/
def coreCid (s : State) (core : Nat) : Nat := mkCid (((upTo 64).find? (fun p => coreOfPart s p core)).getD 0) 0

/-- The endpoint that stands for a requester: a port request's source, this node otherwise. -/
def srcEp (s : State) (h : Head) : Nat := if h.kind = 0 then h.ep else endpointId s

/-- Data of zeros for an operation that returns data. -/
def zeroData (op : MemOp) : Bytes := if opReads op then zeros (opLen op) else []

/-- Did the path negotiate a TRF 2.0 feature (Table 13.6: 2 KNOT, 3 REDUCE)? The die's own requests do. -/
def pathHas (s : State) (h : Head) (f : Nat) : Bool :=
  h.kind != 0 || (bfld (blob s 0x2109 (h.unit + 1)) 0 1 == 2 && bit (bfld (blob s 0x2109 (h.unit + 1)) 4 4) f)

/-- Record ORD_KNOT (0x1C): kind 1 timeout, 2 no entry, 3 second knot of a span. -/
def knotFault (s : State) (ep group kind : Nat) : State :=
  noteFault s 0x1C 0 0xFF 0xFF 0 (toLe 2 ep ++ toLe 2 group ++ toLe 1 kind)

/-- The knot-table entry of a group (R285, R288). -/
def findKnot (s : State) (ep cid group : Nat) : Option KnotEntry :=
  s.ord.knots.find? (fun k => k.ep == ep && k.cid == cid && k.group == group)

/-- Replace an entry. -/
def setKnot (s : State) (k : KnotEntry) : State :=
  { s with ord := { s.ord with knots := s.ord.knots.map (fun x =>
    if x.ep == k.ep && x.cid == k.cid && x.group == k.group then k else x) } }

/-- Does a request of the group wait at the node? -/
def groupHeld (s : State) (ep cid group : Nat) : Bool :=
  s.acc.held.any (fun h => srcEp s h.req.head == ep && h.req.head.cid == cid &&
    (match h.req.op with | .blk g .. => g == group | _ => false))

/-- Free an entry whose spans are empty (R288). -/
def freeKnot (s : State) (ep cid group : Nat) : State :=
  if groupHeld s ep cid group then s
  else { s with ord := { s.ord with knots := s.ord.knots.filter (fun k =>
    !(k.ep == ep && k.cid == cid && k.group == group && k.count0 == 0 && k.count1 == 0 &&
      k.knot0.isNone && k.knot1.isNone)) } }

/-- The entry of a group, allocated for its first grouped write (R288). `none`: quota or table full. -/
def knotEntry (s : State) (ep cid group : Nat) : Option (KnotEntry × State) :=
  match findKnot s ep cid group with
  | some k => some (k, s)
  | none =>
    if 4096 ≤ s.ord.knots.length || num s 0x2208 2 ≤ (s.ord.knots.filter (fun k => k.ep == ep)).length then none
    else
      let k : KnotEntry := { ep := ep, cid := cid, group := group, count0 := 0, count1 := 0, knot0 := none, knot1 := none }
      some (k, { s with ord := { s.ord with knots := s.ord.knots ++ [k] } })

/-- Count a non-knot write that has completed OK, POISON or UNSUP toward its span (R765). -/
def countSpan (s : State) (h : Head) (op : MemOp) (status : Nat) : State :=
  match op with
  | .blk g knot span _ _ _ =>
    if g = 0 || knot || !(status = 0 || status = 2 || status = 6) then s
    else
      match findKnot s (srcEp s h) h.cid g with
      | none => s
      | some k => setKnot s (if span then { k with count1 := k.count1 + 1 } else { k with count0 := k.count0 + 1 })
  | _ => s

/-- A request leaves the node with its completion. -/
def finishReq (s : State) (h : Held) (status : Nat) (d : Bytes) : State :=
  let s := countSpan (completeReq (unhold s h) h.req.head status d) h.req.head h.req.op status
  if h.target == .none then s else pushDone s h.target status d

/-- The watermark of a copy rises when the knot of its next bolt is performed (R698). -/
def copyKnot (s : State) (r a : Nat) : State :=
  let g := getRegion s r
  let b := (a - g.base) / 65536
  if mirrorState s r = 5 && b = watermark s r then
    let s := setArrBlob s 0x3680 r (bset (arrBlob s 0x3680 r) 24 4 (b + 1))
    if (b + 1) * 65536 = g.size then setArrNum s 0x3660 r 6 else s
  else s

/-- A write's outcome ends the request, or lets it wait. -/
def wrote (h : Held) (st0 : Nat) (d : Bytes) : Wrote → State
  | .done st mirrored s =>
    let st := firstStatus st0 st
    if mirrored then rehold s h (.away st d) true else finishReq s h st d
  | .wait w s =>
    let s := match w with
      | .baste r => basteWait s r
      | .slot => noSlot s
      | .bolt _ => bump s 0x2309 5
      | _ => s
    rehold s h w true

/-- The request is performed at its home (R282 to R284, R390, R531). `st0`: LOST from an LD entry (R265);
`peek`: the value that an owner's cache returned (R253). -/
def act (s : State) (h : Held) (r st0 : Nat) (peek : Option Bytes) : State :=
  let hd := h.req.head
  let copy := isCopy s r
  let cid := if copy then mkCid (getRegion s r).owner 0 else hd.cid
  let ep := srcEp s hd
  let a := hd.addr
  let at_ := storedAt s r cid ep a
  let s := if peek.isSome then reachFrom s (quadOf hd.kind hd.unit) at_ else touch s hd.kind hd.unit cid at_ (opWrites h.req.op)
  let s := if peek.isNone && (match h.req.op with | .store .. => false | .blk .. => false | _ => true) then readError s at_ hd.ecc else s
  let put := fun (s : State) (d : Bytes) (p : Bool) =>
    if copy then placedWrite s r hd.kind hd.unit cid a d p (.held h.seq)
    else writeBytes s r hd.kind hd.unit cid ep a d p (.held h.seq)
  match h.req.op with
  | .load n =>
    match peek with
    | some l => finishReq s h st0 (slice l (a % 64) n)
    | none =>
      let x := readBytes s r cid ep a n
      finishReq x.2.2 h (firstStatus st0 x.1) x.2.1
  | .store d p => wrote h st0 [] (put s d p)
  | .atomic op t _ c x =>
    let s := dropRowLines s (fun l => l == lineOf a)
    let y := atomicBytes s r hd.kind hd.unit cid ep a op t c x (.held h.seq)
    match y.2 with
    | .done 0 m s =>
      let s := countAtomic s h.req.op cid
      wrote h st0 y.1 (.done 0 m (if atomicV op t then markV s 0x20 (cidPart cid) else s))
    | w => wrote h st0 y.1 w
  | .reduce rop rt d =>
    let y := atomicBytes s r hd.kind hd.unit cid ep a (ropAOp rop) (rtypeAtype rt) 0 d (.held h.seq)
    match y.2 with
    | .done 0 m s => wrote h st0 [] (.done 0 m (countAtomic s h.req.op cid))
    | w => wrote h st0 [] w
  | .blk _ knot _ _ d p =>
    let s := if knot then (if copy then copyKnot (bump s 0x2208 6) r a else bump s 0x2208 6) else s
    wrote h st0 [] (put s d p)

/-- A line of a region that is COH no more is still cached (R121, R256): counted, and recorded. -/
def kindCached (s : State) (r ln kind unit cid : Nat) : State :=
  noteFault (bump s 0x2401 9) 0x11 (resId 11 r) (getRegion s r).owner 0xFF (ln * 64) (toLe 1 kind ++ toLe 1 unit ++ toLe 4 cid)

/-- The line's directory entry and its transactions come first (R253, R256, R265), under the descriptor in force at the check (R118). -/
def dirStage (s : State) (h : Held) (r : Nat) : State :=
  let hd := h.req.head
  let ln := lineOf hd.addr
  let busy := (txnGet s ln).isSome || s.coh.waits.any (fun w => w.line == ln)
  let go := fun (s : State) (k : TxnKind) =>
    submitTxn (rehold s h (.line ln) true)
      { line := ln, kind := k, agent := 0xFFF, tag := h.seq, cid := hd.cid, since := s.det.now, pol := h.desc.lostPolicy }
  let coh := h.desc.kind == 0
  let s := if coh then bump s 0x2401 5 else s
  match dirGet s ln with
  | some e =>
    if e.st = 4 && !busy then
      let x := lostStatus s h.desc.lostPolicy
      act (dirDel x.2 ln) h r x.1 none
    else if coh then
      (if opWrites h.req.op then go s .uncachedWrite
       else if e.st = 1 || busy then go s .uncachedRead
       else act s h r 0 none)
    else go (kindCached s r ln hd.kind hd.unit hd.cid) .kindRecall
  | none =>
    if busy && coh then go s (if opWrites h.req.op then .uncachedWrite else .uncachedRead)
    else act s h r 0 none

/-- What a checked request may wait for before it is performed: its bolt's move-up (R204) or the end of its move (R171 step 4), the span of
its bolt (R698), a slot (R192). -/
def prepare (s : State) (h : Held) (r : Nat) : State :=
  let hd := h.req.head
  let w := opWrites h.req.op
  match boltBelow s r hd.cid (srcEp s hd) hd.addr with
  | some b =>
    if boltDead s r hd.cid (srcEp s hd) hd.addr then finishReq s h 1 (failData h.req.op 1)
    else rehold (askMoveUp (bump s 0x2309 5) b) h (.bolt b) true
  | none =>
    if w && spanBusy s r hd.addr then rehold s h (.span r ((hd.addr - (getRegion s r).base) / 65536)) true
    else if w && moveHolds s (boltOf hd.addr) then rehold s h (.cutover (boltOf hd.addr)) true
    else if w && (getVer s r).isNone && (ensureBolt s r hd.addr hd.kind hd.unit).isNone then
      rehold (noSlot s) h .slot true
    else dirStage s h r

/-- Grouped BLK writes and knots at the knot table (R285 to R288). -/
def knotGate (s : State) (h : Held) (r : Nat) : State :=
  match h.req.op with
  | .blk g knot span count _ _ =>
    if g = 0 then prepare s h r
    else
      let hd := h.req.head
      let ep := srcEp s hd
      match knotEntry s ep hd.cid g with
      | none => finishReq (knotFault (bump s 0x2208 8) ep g 2) h 7 []
      | some (k, s) =>
        if !knot then prepare s h r
        else if (if span then k.knot1 else k.knot0).isSome then finishReq (knotFault s ep g 3) h 7 []
        else if count ≤ (if span then k.count1 else k.count0) then
          let k := if span then { k with count1 := k.count1 - count } else { k with count0 := k.count0 - count }
          freeKnot (prepare (setKnot s k) h r) ep hd.cid g
        else
          let x : HeldKnot := { held := { h with checked := true, owed := none }, deadline := s.det.now + usT (num s 0x2208 3), count := count }
          setKnot (unhold s h) (if span then { k with knot1 := some x } else { k with knot0 := some x })
  | _ => prepare s h r

/-- Does an operation break the form that its message requires, on this path (R283, R287, R389, R530,
R531, R533)? -/
def badForm (s : State) (h : Head) (op : MemOp) : Bool :=
  opLen op == 0 || decide (64 < h.addr % 64 + opLen op) ||
  (match op with
   | .atomic aop t rsvd _ x => atomicBad aop t rsvd (h.addr % 64) x
   | .reduce rop rt d => reduceBad rop rt (h.addr % 64) d || !pathHas s h 3
   | .blk g knot _ _ _ _ => (knot && g == 0) || (g != 0 && !pathHas s h 2)
   | _ => false)

/-- Is a kind of region outside what a host behind a compatibility port can use: ORD, VER and STR, and COH uncached (R39, R36; log entry 77)? -/
def hostKindBad (s : State) (h : Head) (k : Nat) : Bool := h.kind == 0 && portCompat s h.unit && (k == 3 || k == 4 || k == 5)

/-- A copy takes mirror and rebuild writes from its primary alone, without a rights check (R696). -/
def copyWriteTo (s : State) (h : Head) (op : MemOp) : Option Nat :=
  match regionAt s h.addr with
  | none => none
  | some r =>
    let w := match op with
      | .store d _ => d.length == 64
      | .blk .. => true
      | _ => false
    if isCopy s r && decide (5 ≤ mirrorState s r) && h.kind == 0 && h.ep == (getRegion s r).mirrorEp && w then some r else none

/-- A request for the control window (R109, R155, R156). -/
def serveControl (s : State) (h : Held) (p off : Nat) : State :=
  let hd := h.req.head
  if cidPart hd.cid != p || !partExists s p then
    finishReq (violReqS s hd h.req.op 4 0xFFFF) h 0 (zeroData h.req.op)
  else if off % 8 != 0 then finishReq s h 6 (zeroData h.req.op)
  else
    match h.req.op with
    | .load 8 => finishReq s h 0 (toLe 8 (cwRead s p (srcEp s hd) off))
    | .store d false =>
      if d.length = 8 then
        let x := cwWrite s hd p off (leNat d)
        finishReq x.2 h x.1 []
      else finishReq s h 6 []
    | _ => finishReq s h 6 (zeroData h.req.op)

/-- The check at the memory (R118, R123) and what follows it: the descriptor in force now stays with the request; the first status of the order of R20 that applies ends it. -/
def serve (s : State) (h : Held) : State :=
  let hd := h.req.head
  let op := h.req.op
  match placeOf s hd.addr with
  | .reserved => finishReq s h 0 (zeroData op)
  | .window => finishReq s h 6 (zeroData op)
  | .pool => finishReq (violReqS s hd op 1 0xFFFF) h 0 (zeroData op)
  | .control p off => serveControl s h p off
  | .memory =>
    match copyWriteTo s hd op with
    | some r =>
      if boltDead s r hd.cid (srcEp s hd) hd.addr then finishReq s h 1 (failData op 1)
      else if badForm s hd op then finishReq s h 6 [] else knotGate s { h with desc := getRegion s r } r
    | none =>
      match checkMem s hd.cid hd.addr (opLen op) (opWrites op) with
      | none => finishReq (violReqS s hd op 1 ((regionAt s hd.addr).getD 0xFFFF)) h 0 (zeroData op)
      | some r =>
        let h := { h with desc := getRegion s r }
        if inBasting s r hd.addr (opLen op) then finishReq (violReqS s hd op 1 r) h 0 (zeroData op)
        else if boltDead s r hd.cid (srcEp s hd) hd.addr then finishReq s h 1 (failData op 1)
        else if badForm s hd op || !kindAllows h.desc.kind op || isCopy s r || hostKindBad s hd h.desc.kind then
          finishReq s h 6 (zeroData op)
        else
          match op with
          | .atomic aop t _ _ _ =>
            if !tabAtomicOk s r hd.addr then finishReq s h 6 (zeroData op)
            else if atomicV aop t && detMode s = 2 then finishReq (runBump s 0x50) h 6 (zeroData op)
            else prepare s h r
          | _ => knotGate s h r

/-- Forward a request to a compatibility target (R147): a PCIe request of the window's port. -/
def issueCompat (s : State) (r : Req) (port : Nat) (target : IssFor) : State :=
  let tag := s.acc.nextTag
  let w := (freeTag s port).getD (port % 32 * 4096)
  let r := { r with head := { r.head with tag := w } }
  let i : Issued := { tag := tag, wire := some w, req := r, at_ := s.det.now, deadline := deadlineOf s r.op, sent := true, retryEpoch := none, target := target,
                      mirror := none, port := port }
  emit { s with acc := { s.acc with nextTag := tag + 1, issued := s.acc.issued ++ [i] } } (.issue tag port r)

/-- An admitted request is forwarded, re-based (R146, R147). -/
def forward (s : State) (h : Held) (w : Window) : State :=
  let hd := h.req.head
  let t := w.target + (hd.addr - w.wbase)
  let s := rehold s h .forwarded true
  if w.compat then
    issueCompat s { h.req with head := { hd with dst := 65536 + w.port, addr := t, xlat := false, fwd := true } } w.port
      (.held h.seq)
  else
    issueReq s { h.req with head := { hd with dst := t / 2 ^ 48, addr := t % 2 ^ 48, cid := w.targetCid, hasCid := true,
                                              xlat := false, fwd := true } } (.held h.seq) none

/-- Admission to a window (R145, R146): the status at which the request ends here, a violation, or `none`
where it is forwarded. -/
inductive WindowSays where
  | violation | unsup | forward (w : Window)

/-- R145, for the window entry that a request matched at its arrival; `xlat`: its address is the result of a translation. -/
def windowSays (s : State) (hd : Head) (op : MemOp) (xlat : Bool) (w : Option Window) : WindowSays :=
  match w with
  | none => .violation
  | some w =>
    if hd.fwd || !windowUser s w (cidPart hd.cid) || (w.ro && opWrites op) then .violation
    else
      let off := match op with
        | .blk .. => !w.blkOk
        | .atomic .. => !w.atomicOk || w.compat
        | .reduce .. => w.compat
        | _ => false
      if off || xlat then .unsup else .forward w

/-- Does an earlier request of the same source wait unperformed before an ORD request (R279)? -/
def mustOrder (s : State) (h : Held) : Bool :=
  isOrd h.req.op && s.acc.held.any (fun x => decide (x.seq < h.seq) && isOrd x.req.op &&
    sameSource x.req.head h.req.head &&
    (match x.why with | .forwarded => false | .away .. => false | .discarded => false | _ => true))

/-- Does a fence of the core hold back its uncached access (R298)? -/
def mustFence (s : State) (h : Held) : Bool :=
  h.req.head.kind == 5 && s.ord.coreFences.any (fun f => f.1 == h.req.head.unit && decide (f.2.1 ≤ h.seq) &&
    (s.acc.held.any (fun x => x.req.head.kind == 5 && x.req.head.unit == f.1 && decide (x.seq < f.2.1)) ||
     s.acc.issued.any (fun x => x.req.head.kind == 5 && x.req.head.unit == f.1 && decide (x.tag < f.2.2)) ||
     s.coh.l2pend.any (fun x => x.core == f.1 && decide (x.seq < f.2.1))))

/-- A translation fault holds the request (R136, R137). -/
def holdFault (s : State) (h : Held) (t : Trap) : State :=
  match attachFault s t with
  | (some n, s) => rehold s h (.faultRec (cidPart t.cid) n) false
  | (none, s) => rehold (bump s 0x2206 3) h (.faultWait t.vpn t.cause t.level t.pte t.user) false

/-- The window entry that a request matches at its arrival stays with it (R144). -/
def matchWin (s : State) (h : Held) : Held :=
  match h.win, placeOf s h.req.head.addr with
  | none, .window => { h with win := some (windowAt s h.req.head.addr) }
  | _, _ => h

/-- What the window that a request has matched says to it; `none`: its address is not in the window range. -/
def windowOf (s : State) (h : Held) : Option WindowSays :=
  h.win.map (windowSays s h.req.head h.req.op h.xlatVpn.isSome)

/-- A request whose address is a local offset goes on: its window, a tracker, its order, and then its service. -/
def takeOn (s : State) (h0 : Held) : State :=
  let h := matchWin s h0
  let op := h.req.op
  match windowOf s h with
  | some .violation => finishReq (violReqS s h.req.head op 3 0xFFFF) h 0 (zeroData op)
  | some .unsup => finishReq s h 6 (zeroData op)
  | w =>
    let rest := { s with acc := { s.acc with held := s.acc.held.filter (fun x => x.seq != h.seq) } }
    if h.why != .order && !trackerFree rest (portOf h.req.head) h.req.head.addr then rehold s h .tracker false
    else if mustOrder s h || mustFence s h then rehold s h .order false
    else
      match w with
      | some (.forward w) => forward s h w
      | _ => serve s h

/-- The steps before the check at the memory: translation, window look-up, tracker, order (R26, R279). -/
def takeIn (s : State) (h : Held) : State :=
  let hd := h.req.head
  let op := h.req.op
  if hd.xlat then
    match translate s hd.kind hd.unit hd.cid hd.addr (opReads op) (opWrites op) with
    | .ok pa _ _ _ _ s =>
      takeOn s { h with req := { h.req with head := { hd with addr := pa, xlat := false } }, xlatVpn := some (hd.addr / 4096) }
    | .fault cause level pte user walked viol s =>
      holdFault s h { cid := hd.cid, kind := hd.kind, unit := hd.unit, vpn := hd.addr / 4096, cause := cause,
                      level := level, pte := pte, user := user, write := opWrites op,
                      atomic := (match op with | .atomic .. => true | _ => false), walked := walked, viol := viol }
    | .wait b s => rehold (askMoveUp (bump s 0x2309 5) b) h (.bolt b) false
  else takeOn s h

/-- A waiting request proceeds as far as it can. -/
def advance (s : State) (h : Held) : State :=
  match h.why with
  | .ends st => finishReq s h st (failData h.req.op st)
  | .ready x =>
    if h.checked then
      match regionOf s h.req.head.addr with
      | some r => act s h r (x.elim 0 (·.1)) (x.bind (·.2))
      | none => finishReq s h 0 (zeroData h.req.op)
    else takeIn s h
  | _ =>
    if h.checked then
      match regionOf s h.req.head.addr with
      | some r => prepare s h r
      | none => finishReq s h 0 (zeroData h.req.op)
    else takeIn s h

/-- May a waiting request proceed now? -/
def runnable (s : State) (h : Held) : Bool :=
  match h.why with
  | .ready _ => true
  | .ends _ => true
  | .order => !mustOrder s h && !mustFence s h
  | .bolt b => (getBolt s b).home != 3
  | .cutover b => !moveHolds s b
  | .span r b => !s.acc.issued.any (fun i => i.target == .rebuild r b)
  | _ => false

/-- The knot of a rebuild's span has completed (R698, R699): OK, the watermark rises, and after the last bolt the region is SYNCED; with any other
status the partner is lost (log entry 45). -/
def rebuildDone (s : State) (r b status : Nat) : State :=
  if mirrorState s r ≠ 2 then s
  else if status ≠ 0 then degradePartner s (getRegion s r).mirrorEp 1
  else
    let e := bset (slice (arrBlob s 0x3680 r) 0 48) 24 4 (b + 1)
    if (b + 1) * 65536 = (getRegion s r).size then setArrNum (setArrBlob s 0x3680 r (bset (bset e 2 1 1) 16 8 s.det.count)) 0x3660 r 1
    else setArrBlob s 0x3680 r e

/-- The sync counter in sixteenths of a tick (R663). -/
def syncStamp (s : State) : Nat := s.det.count * 16 + s.det.frac

/-- Flits replayed and received in error so far, over every port: a change between t1 and t2 discards the sample (R665). -/
def replayMark (s : State) : Nat :=
  ((upTo 32).map (fun p => bfld (blob s 0x210C (p + 1)) 0x18 8 + bfld (blob s 0x210C (p + 1)) 0x20 8)).sum

/-- The load of a sync sample has completed (R665): the sample is kept unless its completion is not OK, a flit was replayed, or it took more than 5 µs. -/
def syncSample (s : State) (t1 mark status : Nat) (d : Bytes) : State :=
  let t2 := syncStamp s
  if status ≠ 0 || mark ≠ replayMark s || 8000 < t2 - t1 || t2 < t1 || 64 ≤ s.det.samples.length then s
  else { s with det := { s.det with samples := s.det.samples ++ [{ rtt := t2 - t1, twice := 2 * (16 * (leNat d : Int) + 8) - (t1 + t2 : Nat) }] } }

/-- Hand one completion on to what it is for. -/
def settleOne (s : State) (t : IssFor) (status : Nat) (d : Bytes) : State :=
  match t with
  | .none => s
  | .sync t1 m => syncSample s t1 m status d
  | .held seq =>
    match s.acc.held.find? (fun h => h.seq == seq) with
    | none => s
    | some h =>
      match h.why with
      | .away st x => finishReq s h st x
      | _ => finishReq s h status d
  | .desc q pos dest n => descDone s q pos dest n status
  | .descAdd q pos dest => descAdded s q pos dest status
  | .descMirror q pos => descMirrored s q pos
  | .rebuild r b => rebuildDone s r b status

/-- An access of a descriptor has met a translation fault: nothing of the descriptor has happened but the walk, with its violation, and it waits in the record,
or for a record to free (R130, R135 to R137, R377). `s0` is the state before it. -/
def holdDesc (s0 : State) (t : Trap) (d : DescRef) : State :=
  match findDesc s0 d with
  | none => s0
  | some x =>
    let s := match t.viol with | some b => violation s0 (some (mkCid (cidPart t.cid) 0)) b | none => s0
    let s := if t.walked then bump s 0x2206 4 else s
    let x := { x with trap := some t, trapSeq := s.acc.nextSeq, ranAt := s.det.now }
    let s := { s with acc := { s.acc with nextSeq := s.acc.nextSeq + 1 } }
    match attachFault s t with
    | (some n, s) => setDesc s d.q { x with fault := some (cidPart t.cid, n) }
    | (none, s) => setDesc (bump s 0x2206 3) d.q x

/-- A descriptor whose record has been resumed is translated again (R140): the translation is there for its access, or it faults anew. -/
def againDesc (s : State) (d : DescRef) : State :=
  match findDesc s d with
  | none => s
  | some x =>
    match x.trap with
    | none => s
    | some t =>
      match translate s t.kind t.unit t.cid (t.vpn * 4096) (!t.write || t.atomic) t.write with
      | .fault cause level pte user _ _ s =>
        holdDesc s { t with cause := cause, level := level, pte := pte, user := user, walked := false, viol := none } d
      | .ok _ _ _ _ _ s => setDesc s d.q (releasedDesc s x)
      | .wait b s => setDesc (askMoveUp s b) d.q (releasedDesc s x)

/-- The next of the waiting requests and of the descriptors to be translated again, in order of arrival. -/
def nextWaiting (s : State) : Option (Held ⊕ DescRef) :=
  match s.acc.held.find? (runnable s), s.acc.again with
  | some h, (q, d) :: _ => some (if h.seq < q then .inl h else .inr d)
  | some h, [] => some (.inl h)
  | none, (_, d) :: _ => some (.inr d)
  | none, [] => none

/-- Completions, mirrored lines and waiting requests, one after another, until none can proceed. -/
def finLoop : Nat → State → State
  | 0, s => s
  | n + 1, s =>
    match s.acc.done with
    | (t, st, d) :: rest => finLoop n (settleOne { s with acc := { s.acc with done := rest } } t st d)
    | [] =>
      match s.acc.mirrorDue with
      | ln :: rest =>
        let s := { s with acc := { s.acc with mirrorDue := rest } }
        match regionAt s (ln * 64) with
        | some r => finLoop n (if mirrors s r (ln * 64) then mirrorLine s r (ln * 64) .none else s)
        | none => finLoop n s
      | [] =>
        match nextWaiting s with
        | some (.inl h) => finLoop n (advance s h)
        | some (.inr d) => finLoop n (againDesc { s with acc := { s.acc with again := s.acc.again.drop 1 } } d)
        | none => s

/-- The end of every command that may let requests proceed; a limp escalation resets the node (R690). -/
def fin (s : State) : State :=
  limpReset (slotsBack (finLoop (64 + 8 * (s.acc.held.length + s.acc.done.length + s.acc.mirrorDue.length + s.acc.again.length)) s))

/-- The epoch check (R152): accepted, accepted in grace, or turned back. -/
def epochOk (s : State) (e : Nat) : Bool × Bool :=
  if e = s.route.epoch then (true, false)
  else
    match s.route.prev with
    | some (p, t) => if e = p && s.det.now < t + usT (num s 0x2201 2) then (true, true) else (false, false)
    | none => (false, false)

/-- What the Vestibule of a port says to a request (R26): it turns it back with a status and data (R127, R152; a violation reads as done, R126), or passes it on under its CID. -/
inductive Vestibule where
  | back (status : Nat) (data : Bytes) (s : State)
  | pass (h : Head) (s : State)

/-- Can a port take requests: a TRF port trained, or a compatibility port in L0 (R45, R592)? -/
def portTakes (s : State) (p : Nat) : Bool :=
  decide (p < 32) && (if portCompat s p then portState s p == 12 else num s 0x2101 (p + 1) == 1 && (portState s p == 7 || portState s p == 9))

/-- The epoch check (R127, R152), the CID check of the port (R126), and the features of the path (R579). -/
def vestibule (s : State) (h : Head) (op : MemOp) : Vestibule :=
  let e := if portState s h.unit = 12 then (true, false) else epochOk s h.epoch
  if !e.1 then .back 4 (zeroData op) (bump s 0x2201 4)
  else
    let s := if e.2 then bump s 0x2201 5 else s
    let dc := num s 0x2205 (h.unit + 1)
    let cid := if h.hasCid then h.cid else dc % 2 ^ 20
    let h' := { h with cid := cid }
    let s := meterPort s 0x4D0A (cidPart cid) (if portCompat s h.unit then 16 + (if opReads op then 0 else opLen op) else 8 * wireUnits (reqWire { head := h', op := op } 0 true))
    if (!h.hasCid && !bit dc 31) || !bit (num s 0x2204 (h.unit + 1)) (cidPart cid) then .back 0 (zeroData op) (violReqS s h' op 2 0xFFFF)
    else if h.xlat && !pathHas s h 4 then .back 6 (zeroData op) s
    else .pass h' s

/-- A port's credit goes back at once, where one is held for a request (R578). -/
def backCredit (s : State) (p : Nat) (owed : Option Nat) : State :=
  match owed with
  | some c => giveCredit s p c
  | none => s

/-- Is the request an alignment load, which the Vestibule answers itself with the count at its acceptance (R665)? -/
def alignLoad (s : State) (h : Head) (op : MemOp) : Bool :=
  h.dst == endpointId s && h.addr == 0xF80000000010 && h.cid == 0 && !h.xlat && op == .load 8

/-- A request arrives (R26), holding a port credit of a class or none: at a port it passes the Vestibule; then it
waits its turn. A port that is not up takes none. -/
def arriveBy (s : State) (owed : Option Nat) (h : Head) (op : MemOp) : State :=
  if h.kind ≠ 0 then
    if h.dst = endpointId s then holdReqFor s (.ready none) { head := h, op := op } .none
    else issueReq s { head := h, op := op } .none none
  else if !portTakes s h.unit then backCredit s h.unit owed
  else
    let s := if (getPort s h.unit).inReqs.any (fun e => e.1 == h.tag) then s
      else setPort s h.unit { getPort s h.unit with inReqs := (getPort s h.unit).inReqs ++ [(h.tag, opClass op)] }
    match vestibule s h op with
    | .back st d s => completeReq (backCredit s h.unit owed) h st d
    | .pass h' s =>
      if alignLoad s h' op then completeReq (backCredit s h.unit owed) h' 0 (toLe 8 s.det.count)
      else holdNew s (newHeld s (.ready none) { head := h', op := op } false .none owed)

/-- A request arrives. -/
def arrive (s : State) (h : Head) (op : MemOp) : State := arriveBy s none h op

/-- A Hearth core's request names a local offset, under the CID of its partition with ASID 0 (R110). -/
def coreOwn (s : State) (core : Nat) (h : Head) : Head :=
  { h with kind := 5, unit := core, ep := endpointId s, epoch := s.route.epoch, cid := coreCid s core, hasCid := true, dst := endpointId s, xlat := false, fwd := false }

/-- A request arrives, and everything that can proceed does. -/
def takeReq (s : State) (h : Head) (op : MemOp) : Res :=
  .next (fin (arrive s (if h.kind = 5 then coreOwn s h.unit h else h) op))

end Sys2Proof.Machine
end

