-- ==== Sys2Proof/Machine/Keys.lean ====
section
/-! DEFINITION. The public-key and key-derivation functions that the spec names (R78, R81, R82, R84, R101): HMAC-SHA-384, HKDF-SHA-384, ECDH and ECDSA on P-384,
as FIPS 186, FIPS 198 and RFC 5869 define them: PRESUMED, log entry 2. -/
namespace Sys2Proof.Machine

/-- HMAC-SHA-384: blocks of 128 bytes. -/
def hmac384 (key msg : Bytes) : Bytes :=
  let k := slice (if 128 < key.length then sha384 key else key) 0 128
  let pad := fun (c : Byte) => k.map (fun b => b ^^^ c)
  sha384 (pad 0x5C ++ sha384 (pad 0x36 ++ msg))

/-- HKDF-SHA-384 for an output of 48 bytes: extract with the salt, then the first block of expand. -/
def hkdf384 (salt ikm info : Bytes) : Bytes := hmac384 (hmac384 salt ikm) (info ++ [1])

/-- The field prime, the coefficient b and the order of P-384. -/
def ecP : Nat := 2 ^ 384 - 2 ^ 128 - 2 ^ 96 + 2 ^ 32 - 1
def ecB : Nat := 0xb3312fa7e23ee7e4988e056be3f82d19181d9c6efe8141120314088f5013875ac656398d8a2ed19d2a85c8edd3ec2aef
def ecN : Nat := 0xffffffffffffffffffffffffffffffffffffffffffffffffc7634d81f4372ddf581a0db248b0a77aecec196accc52973

/-- A point of P-384; `none` is the point at infinity. -/
abbrev EcPoint : Type := Option (Nat × Nat)

/-- The base point. -/
def ecG : EcPoint :=
  some (0xaa87ca22be8b05378eb1c71ef320ad746e1d3b628ba79b9859f741e082542a385502f25dbf55296c3a545e3872760ab7,
        0x3617de4a96262c6f5d9e98bf9292dc29f8f41dbd289a147ce9da3113b5f0b8c00a60b1ce1d7e819d7a431d7c90ea0e5f)

/-- `b ^ e` modulo `m`, for an exponent of at most `n` bits. -/
def powMod (m : Nat) : Nat → Nat → Nat → Nat
  | 0, _, _ => 1 % m
  | n + 1, b, e =>
    let r := powMod m n (b * b % m) (e / 2)
    if e % 2 = 1 then b * r % m else r

/-- The inverse modulo a prime of at most 384 bits. -/
def invMod (m x : Nat) : Nat := powMod m 384 (x % m) (m - 2)

/-- The sum of two points. -/
def ecAdd : EcPoint → EcPoint → EcPoint
  | none, q => q
  | p, none => p
  | some (x1, y1), some (x2, y2) =>
    let m := fun (a b : Nat) => a * b % ecP
    let sub := fun (a b : Nat) => (a + ecP - b) % ecP
    if x1 = x2 && (y1 + y2) % ecP = 0 then none
    else
      let l := if x1 = x2 then m (sub (m 3 (m x1 x1)) 3) (invMod ecP (2 * y1)) else m (sub y2 y1) (invMod ecP (sub x2 x1))
      let x := sub (m l l) ((x1 + x2) % ecP)
      some (x, sub (m l (sub x1 x)) y1)

/-- `k` times a point, `k` of at most `n` bits. -/
def ecMul : Nat → Nat → EcPoint → EcPoint
  | 0, _, _ => none
  | n + 1, k, p =>
    let r := ecMul n (k / 2) (ecAdd p p)
    if k % 2 = 1 then ecAdd p r else r

/-- A public key in its uncompressed SEC 1 form (R81): 0x04, then X and Y, big-endian; `none` if it is no point of the curve (R101). -/
def ecDecode (b : Bytes) : Option (Nat × Nat) :=
  let x := beNat (slice b 1 48)
  let y := beNat (slice b 49 48)
  if b.length == 97 && bfld b 0 1 == 4 && decide (x < ecP) && decide (y < ecP) && y * y % ecP == (x * x * x + (ecP - 3) * x + ecB) % ecP then some (x, y)
  else none

/-- `n` big-endian bytes of `v`. -/
def toBe (n v : Nat) : Bytes := (toLe n v).reverse

/-- The uncompressed form of a point; the point at infinity has none and gives zeros. -/
def ecEncode : EcPoint → Bytes
  | some (x, y) => [4] ++ toBe 48 x ++ toBe 48 y
  | none => zeros 97

/-- Does an ECDSA signature (r, then s, 48 bytes each, big-endian, R81) of a message verify under a public key, with SHA-384? -/
def ecdsaOk (key msg sig : Bytes) : Bool :=
  let r := beNat (slice sig 0 48)
  let z := beNat (slice sig 48 48)
  match ecDecode key with
  | none => false
  | some q =>
    if sig.length ≠ 96 || r = 0 || z = 0 || ecN ≤ r || ecN ≤ z then false
    else
      let w := invMod ecN z
      match ecAdd (ecMul 384 (beNat (sha384 msg) * w % ecN) ecG) (ecMul 384 (r * w % ecN) (some q)) with
      | none => false
      | some p => p.1 % ecN == r

/-- The shared secret of ECDH: the x-coordinate of `k` times a public key, 48 bytes (R82). -/
def ecdh (k : Nat) (q : Nat × Nat) : Bytes :=
  match ecMul 384 k (some q) with
  | some p => toBe 48 p.1
  | none => zeros 48

end Sys2Proof.Machine
end

