-- ==== Sys2Proof/Machine/PbFrames.lean ====
section
/-! DEFINITION. Pattern Book frames as bytes (Tables 2.5 to 2.9, R78, R95): headers, tags, the bodies of the frames that the device sends, and the operands of a REQUEST. -/
namespace Sys2Proof.Machine

/-- Body limits (Tables 2.5 and 2.6), tag lengths (R78), and the bytes of a VALUE event's DATA that fit into one frame (R75). -/
def bodyMax : Transport → Nat
  | .eth => 1360
  | .i3c => 488
def tagLen : Transport → Nat
  | .eth => 24
  | .i3c => 16
def eventMax (tr : Transport) : Nat := bodyMax tr - 14

/-- The header of a frame (Tables 2.5 and 2.6): `sid` is the handle on I3C, whose header has no VERSION. -/
def frameHead (tr : Transport) (version ftype sid seq len : Nat) : Bytes :=
  match tr with
  | .eth => toLe 1 version ++ toLe 1 ftype ++ toLe 2 len ++ toLe 4 sid ++ toLe 8 seq
  | .i3c => toLe 1 ftype ++ toLe 1 sid ++ toLe 2 len ++ toLe 4 seq

/-- The tag of a frame (R78): the leading bytes of HMAC-SHA-384 over the header and the body. -/
def frameTag (tr : Transport) (key head body : Bytes) : Bytes := (hmac384 key (head ++ body)).take (tagLen tr)

/-- Does a client frame's tag verify under a key (R80)? -/
def tagVerifies (f : Frame) (key : Bytes) : Bool := f.auth == frameTag f.tr key (frameHead f.tr f.version f.ftype f.sid f.seq f.body.length) f.body

/-- FTYPE of a frame that the device sends (Table 2.7), and whether it is tagged. -/
def PbpFrame.ftype : PbpFrame → Nat
  | .helloReply _ => 2
  | .accept _ _ => 4
  | .response _ => 6
  | .event _ => 7
  | .close _ => 9
  | .busy => 10
def PbpFrame.tagged : PbpFrame → Bool
  | .helloReply _ => false
  | .busy => false
  | _ => true

/-- The body of a frame (Table 2.8, R87, R89, R95). -/
def PbpFrame.body : PbpFrame → Bytes
  | .helloReply b => b
  | .accept role idle => toLe 4 role ++ toLe 4 idle
  | .response r => toLe 2 r.opcode ++ toLe 2 r.tag ++ toLe 4 r.abort ++ r.body
  | .event e => toLe 2 e.subId ++ toLe 1 e.kind ++ toLe 1 0 ++ toLe 4 e.seq ++ toLe 2 e.index ++ toLe 1 e.sub ++ toLe 1 e.type ++ toLe 2 e.data.length ++ e.data
  | .close r => toLe 1 r
  | .busy => []

/-- OPCODE and TAG of a REQUEST (R89). -/
def pbOpcode (f : Frame) : Nat := bfld f.body 0 2
def pbTag (f : Frame) : Nat := bfld f.body 2 2

/-- INDEX and SUB of the operations that name an object. -/
def opIndex (f : Frame) : Nat := bfld f.body 4 2
def opSub (f : Frame) : Nat := bfld f.body 6 1

/-- READ operands (Table 2.9). -/
structure ReadOps where
  index : Nat
  sub : Nat
  flags : Nat
  offset : Nat
  maxLen : Nat
  deriving DecidableEq, Repr

/-- They are read from the body. -/
def readOps (f : Frame) : ReadOps :=
  { index := opIndex f, sub := opSub f, flags := bfld f.body 7 1, offset := bfld f.body 8 4, maxLen := bfld f.body 12 2 }

/-- WRITE operands (Table 2.9). -/
structure WriteOps where
  index : Nat
  sub : Nat
  flags : Nat
  offset : Nat
  totalLen : Nat
  dataLen : Nat
  data : Bytes
  deriving DecidableEq, Repr

/-- They are read from the body. -/
def writeOps (f : Frame) : WriteOps :=
  { index := opIndex f, sub := opSub f, flags := bfld f.body 7 1, offset := bfld f.body 8 4, totalLen := bfld f.body 12 4, dataLen := bfld f.body 16 2,
    data := f.body.drop 18 }

/-- SUBSCRIBE operands (Table 2.9). -/
structure SubscribeOps where
  index : Nat
  sub : Nat
  mode : Nat
  periodMs : Nat
  minIntervalMs : Nat
  deriving DecidableEq, Repr

/-- They are read from the body. -/
def subscribeOps (f : Frame) : SubscribeOps :=
  { index := opIndex f, sub := opSub f, mode := bfld f.body 7 1, periodMs := bfld f.body 8 4, minIntervalMs := bfld f.body 12 2 }

/-- An entry of a WRITE_GROUP (Table 2.9). -/
structure GroupEntry where
  sub : Nat
  data : Bytes
  deriving DecidableEq, Repr

/-- `n` entries of a WRITE_GROUP's body; `none` where they do not fill it exactly (R92). -/
def groupEntries : Nat → Bytes → Option (List GroupEntry)
  | 0, b => if b.isEmpty then some [] else none
  | n + 1, b =>
    let len := bfld b 2 2
    if b.length < 4 + len then none
    else (groupEntries n (b.drop (4 + len))).map (fun t => { sub := bfld b 0 1, data := slice b 4 len } :: t)

/-- The link-local address that a MAC address forms (R74): fe80::/64 with the modified EUI-64 of RFC 4291: PRESUMED, log entry 63. -/
def linkLocal (mac : Nat) : Nat :=
  0xfe80 * 2 ^ 112 + ((fld mac 24 24).xor (2 ^ 17) * 2 ^ 40 + 0xFFFE * 2 ^ 24 + fld mac 0 24)

end Sys2Proof.Machine
end

