-- ==== Sys2Proof/Machine/PbCore.lean ====
section
/-! DEFINITION. The Pattern Book agent, shared part: session slots, frames sent, responses (R89, R93), events (R95 to R97), the end of a session (R87), and the length and range checks of a written value (R52, R60, R762, R763). -/
namespace Sys2Proof.Machine

/-- A session slot. -/
def getSess (s : State) (slot : Nat) : Session := sget (fun _ => Session.free) s.pb.sessions slot

/-- Set it. -/
def setSess (s : State) (slot : Nat) (x : Session) : State :=
  { s with pb := { s.pb with sessions := sput (fun _ => Session.free) s.pb.sessions slot x } }

/-- Slots 16 and 17 are the I3C sessions. -/
def isI3c (slot : Nat) : Bool := decide (16 ≤ slot)

/-- The transport of a slot, and what its frames carry as SESSION_ID or HANDLE (Tables 2.5 and 2.6). -/
def slotTr (slot : Nat) : Transport := if isI3c slot then .i3c else .eth
def wireSid (s : State) (slot : Nat) : Nat := if isI3c slot then slot - 15 else (getSess s slot).sid

/-- A frame to a session's client: at once on Ethernet, to the address of its HELLO (R75); with an in-band interrupt and a later private read
on I3C (R77), where frames other than events announce themselves as responses do (log entry 65). Tagged frames take the next SEQ, from 1 (R80), and the tag under
the key of this direction (R78). -/
def sendFrame (s : State) (slot : Nat) (f : PbpFrame) : State :=
  let x := getSess s slot
  let seq := if f.tagged then x.deviceSeq + 1 else 0
  let tag := if f.tagged then frameTag (slotTr slot) x.d2c (frameHead (slotTr slot) 1 f.ftype (wireSid s slot) seq f.body.length) f.body else []
  let x := if f.tagged then { x with deviceSeq := seq, framesOut := x.framesOut + 1 } else x
  if isI3c slot then
    emit (setSess s slot { x with ready := x.ready ++ [{ seq := seq, frame := f, auth := tag }] }) (.i3cInterrupt slot (if f.ftype = 7 then 2 else 1))
  else emit (setSess s slot x) (.pbp slot x.addr seq f tag)

/-- Answer a request: the response is kept for its TAG (R93) and sent, if the session still lives. A response with an abort code carries no result fields, but those of WRITE and
WRITE_GROUP, zero save FAIL_SUB (DESIGN CHOICE, log entry 71). -/
def respond (s : State) (slot tag opcode abort : Nat) (body : Bytes) : State :=
  let x := getSess s slot
  if !x.inUse || x.halfOpen then s
  else
    let r : Response := { opcode := opcode, tag := tag, abort := abort, body := body }
    let s := setSess s slot { x with outstanding := x.outstanding - 1, kept := (r :: x.kept.filter (fun k => k.tag != tag)).take 16 }
    sendFrame (if abort = 0x0C then bump s 0x1111 4 else s) slot (.response r)

/-- A RESPONSE to a WRITE of a sub-index: RESULT and three reserved bytes. A WRITE_GROUP is answered once the last of its entries has been, with the abort code and the
sub-index of the entry refused last, if one was (log entry 66). -/
def respondSub (s : State) (slot tag sub abort result : Nat) : State :=
  let x := getSess s slot
  let rest := x.groups.filter (fun g => g.tag != tag)
  match x.groups.find? (fun g => g.tag == tag) with
  | none => respond s slot tag 2 abort (toLe 4 result)
  | some g =>
    let g := if abort = 0 then g else { g with abort := abort, failSub := sub }
    if g.left ≤ 1 then respond (setSess s slot { x with groups := rest }) slot tag 0x0A g.abort (toLe 1 result ++ toLe 1 g.failSub ++ toLe 2 0)
    else setSess s slot { x with groups := rest ++ [{ g with left := g.left - 1 }] }

/-- A RESPONSE to a WRITE that has been carried out at once. -/
def respondWrite (s : State) (slot tag abort result : Nat) : State := respondSub s slot tag 0 abort result

/-- What a write comes to: an abort code and RESULT now, or a response once work that it started has ended. -/
inductive WriteOut where
  | done (abort result : Nat) (s : State)
  | wait (s : State)

/-- Answer a write, then let requests proceed. -/
def endWrite (w : Writer) : WriteOut → Res
  | .done a r s => .next (fin (respondWrite s w.slot w.tag a r))
  | .wait s => .next (fin s)

/-- A refusal leaves the state as it was. -/
def refuse (s : State) (abort : Nat) : WriteOut := .done abort 0 s

/-- APPLIED. -/
def applied (s : State) : WriteOut := .done 0 0 s

/-- The write of a sub-index that a response must wait for. -/
def waiting (s : State) (w : Writer) (sub : Nat) : WaitingWrite :=
  { slot := w.slot, sid := (getSess s w.slot).sid, tag := w.tag, opcode := 2, sub := sub }

/-- Answer a write that has waited, if its session still lives. -/
def answerWaiting (s : State) (w : WaitingWrite) (abort : Nat) : State :=
  if (getSess s w.slot).inUse && (getSess s w.slot).sid == w.sid then
    (if w.opcode = 2 then respondSub s w.slot w.tag w.sub abort 0 else respond s w.slot w.tag w.opcode abort (toLe 4 0))
  else s

/-- Abort codes of Table 2.10. -/
def abTYPE : Nat := 3
def abRANGE : Nat := 4
def abINCONS : Nat := 5
def abSTATE : Nat := 6
def abOFF : Nat := 7

/-- Send an event, or keep it while four are unacknowledged (R97). -/
def sendEvent (s : State) (slot : Nat) (e : Event) : State :=
  let x := getSess s slot
  if !x.inUse || x.halfOpen then s
  else if 4 ≤ x.unacked.length then setSess s slot { x with waiting := x.waiting ++ [e] }
  else
    let e := { e with seq := x.nextEvent }
    let u : Unacked := { ev := e, attempts := 0, sentAt := s.det.now }
    sendFrame (setSess s slot { x with nextEvent := x.nextEvent + 1, unacked := x.unacked ++ [u] }) slot (.event e)

/-- After an acknowledgement or a drop, waiting events are sent (R97). -/
def flushEvents (s : State) (slot : Nat) : State :=
  let x := getSess s slot
  let n := 4 - x.unacked.length
  let s := setSess s slot { x with waiting := x.waiting.drop n }
  forS (x.waiting.take n) s (fun s e => sendEvent s slot e)

/-- CHANGE_APPLIED, CHANGE_SUPERSEDED or CHANGE_REFUSED (R95): kinds 2, 3 and 5. -/
def changeEvent (s : State) (slot sid kind index sub tag : Nat) (extra : Bytes) : State :=
  if (getSess s slot).sid = sid then
    sendEvent s slot { subId := 0, kind := kind, seq := 0, index := index, sub := sub, type := 0, data := toLe 2 tag ++ extra }
  else s

/-- A session ends (R87): CLOSE with a reason (none for 0, and none to a half-open session); its
subscriptions, its staged segments and its keys end with it (Table 14.4). On I3C the frames that it leaves wait for private reads (R77). -/
def endSession (s : State) (slot reason : Nat) : State :=
  let x := getSess s slot
  if !x.inUse then s
  else
    let told := reason != 0 && !x.halfOpen
    let s := if told then sendFrame s slot (.close reason) else s
    let s := if told && isI3c slot then { s with pb := { s.pb with i3cTail := s.pb.i3cTail ++ (getSess s slot).ready.map (fun f => (slot, f)) } } else s
    let s := bumpBy { s with pb := { s.pb with subs := s.pb.subs.filter (fun y => y.slot != slot) } } 0x2A21 3 2
    setSess s slot Session.free

/-- Is a byte string well-formed UTF-8 (R52)? `n` bounds the scan. -/
def utf8Ok : Nat → Bytes → Bool
  | 0, b => b.isEmpty
  | n + 1, b =>
    match b with
    | [] => true
    | x :: t =>
      let v := x.toNat
      let c := fun (k : Nat) => (t.getD k 0).toNat / 64 == 2
      let c1 := (t.getD 0 0).toNat
      if v < 0x80 then utf8Ok n t
      else if 0xC2 ≤ v && v ≤ 0xDF then c 0 && utf8Ok n (t.drop 1)
      else if 0xE0 ≤ v && v ≤ 0xEF then
        c 0 && c 1 && !(v = 0xE0 && c1 < 0xA0) && !(v = 0xED && 0xA0 ≤ c1) && utf8Ok n (t.drop 2)
      else if 0xF0 ≤ v && v ≤ 0xF4 then
        c 0 && c 1 && c 2 && !(v = 0xF0 && c1 < 0x90) && !(v = 0xF4 && 0x90 ≤ c1) && utf8Ok n (t.drop 3)
      else false

/-- The length check (R52, R762): ROLE_KEYS and LINK_PEERS also take length 0. -/
def lengthOk (r : ORow) (b : Bytes) : Bool :=
  match r.ty with
  | .str n => decide (b.length ≤ n)
  | .blobVar n => decide (b.length ≤ n)
  | .blobFix n => b.length == n || (b.isEmpty && (r.i0 == 0x1110 || r.i0 == 0x2A11))
  | t => b.length == t.size

/-- A stream window's descriptor with its reserved fields zero (R16, Table 4.6). -/
def streamTrim (b : Bytes) : Bytes := bset (bset b 3 1 (bfld b 3 1 % 4)) 24 8 0

/-- Are the numbers of a stream window's descriptor in range (Table 4.6)? One that is unbound names no window yet (log entry 85). -/
def streamOk (b : Bytes) : Bool :=
  bfld b 0 2 == 0xFFFF ||
    (decide (1 ≤ bfld b 2 1) && decide (bfld b 2 1 ≤ 64) && decide (1 ≤ bfld b 4 2) && decide (bfld b 4 2 ≤ 1024) && decide (1 ≤ bfld b 6 2) && decide (bfld b 6 2 ≤ 1024))

/-- The value that a write's bytes give; reserved bits of a BITS object are dropped (R763). -/
def decodeVal (r : ORow) (b : Bytes) : Val :=
  if r.ty.isBytes then .bytes (if r.rng == .stream then streamTrim b else b)
  else match r.ty, r.rng with
    | .bits _, .mask m => .num ((leNat b).land m)
    | .bits _, .partMask => .num (setBit (leNat b) 0)
    | _, _ => .num (leNat b)

/-- The TDP of the grade, in watts (R758): the limit of PL1_W. -/
def tdpW (s : State) : Nat := if s.sec.hem.grade = 2 then 395 else 420

/-- The range check (step 5 of R60). -/
def rangeOk (s : State) (r : ORow) (v : Val) : Bool :=
  match v with
  | .bytes b =>
    (match r.ty with
    | .str _ => utf8Ok b.length b
    | _ => r.rng != .stream || streamOk b)
  | .num n =>
    let z : Int := if r.ty.signed then toSigned (8 * r.ty.size) n else n
    (match r.ty with
    | .bool => decide (n ≤ 1)
    | .f32 => fld n 23 8 != 255
    | _ => true) &&
    (match r.rng with
    | .any => true
    | .stream => true
    | .span lo hi => decide (lo ≤ z) && decide (z ≤ hi)
    | .codes l => l.contains n
    | .clear => n == 0
    | .mask _ => true
    | .within m => n.land m == n
    | .multiple k => n % k == 0
    | .ipv4 => n != 0 && !(decide (0xE0 ≤ n / 2 ^ 24) && decide (n / 2 ^ 24 ≤ 0xEF))
    | .i3cAddr => decide (8 ≤ n) && decide (n ≤ 0x77) && !([0x3E, 0x5E, 0x6E, 0x76].contains n)
    | .tdp => decide (100 ≤ n) && decide (n ≤ tdpW s)
    | .partMask => decide (n / 2 ^ s.sec.hem.maxPartitions = 0))

/-- Steps 4 and 5 of R60 for a value of an object: the value, or the abort code. -/
def checkValue (s : State) (r : ORow) (b : Bytes) : Nat × Val :=
  if !lengthOk r b then (abTYPE, .num 0)
  else
    let v := decodeVal r b
    if rangeOk s r v then (0, v) else (abRANGE, v)

end Sys2Proof.Machine
end

