-- ==== Sys2Proof/Machine/Regions.lean ====
section
/-! DEFINITION. Region descriptors (R111 to R122), their mirror binds (R116, R693, R694), region recalls (R258), and inbound window entries (R143, R144). -/
namespace Sys2Proof.Machine

/-- A descriptor from its 64 bytes (Table 3.2); reserved fields are ignored. -/
def parseRegion (b : Bytes) : Region :=
  let f := bfld b 0x10 1
  { valid := bit f 0, releasing := false, base := bfld b 0 8, size := bfld b 8 8, enc := bit f 1, tile := bit f 2,
    lostPolicy := bit f 3, mirror := bit f 4, kind := bfld b 0x11 1, owner := bfld b 0x12 1, tierPolicy := bfld b 0x13 1,
    mirrorEp := bfld b 0x14 2, shareRd := bfld b 0x18 8, shareWr := bfld b 0x20 8, mirrorBase := bfld b 0x28 8 }

/-- The 64 bytes of a descriptor. -/
def regionBytes (g : Region) : Bytes :=
  toLe 8 g.base ++ toLe 8 g.size ++
    toLe 1 (b2n g.valid + 2 * b2n g.enc + 4 * b2n g.tile + 8 * b2n g.lostPolicy + 16 * b2n g.mirror) ++
    toLe 1 g.kind ++ toLe 1 g.owner ++ toLe 1 g.tierPolicy ++ toLe 2 g.mirrorEp ++ zeros 2 ++ toLe 8 g.shareRd ++
    toLe 8 g.shareWr ++ toLe 8 g.mirrorBase ++ zeros 16

/-- Does a range lie wholly in unified memory, or wholly in mappable Landing (R115, R116)? -/
def rangePlaced (s : State) (base size : Nat) : Bool :=
  decide (base + size ≤ s.tier.unifiedSize) || (decide (landBase ≤ base) && decide (base + size ≤ accBase))

/-- Does a range overlap a region that is valid or being released, other than `r`? -/
def regionOverlap (s : State) (r base size : Nat) : Bool :=
  s.regions.any (fun e => e.1 != r && (e.2.valid || e.2.releasing) && overlaps base size e.2.base e.2.size)

/-- Bolts of the valid regions in unified memory that `p` owns and that `ok` admits (R181). -/
def committed (s : State) (p : Nat) (ok : Region → Bool) : Nat :=
  ((s.regions.filter (fun e => e.2.valid && e.2.owner == p && decide (e.2.base < landBase) && ok e.2)).map
    (fun e => e.2.size / 65536)).sum

/-- Can the owner's tier quota take region `g` as number `r` (R182)? -/
def quotaTakes (s : State) (r : Nat) (g : Region) : Bool :=
  if landBase ≤ g.base then true
  else
    let s := setRegion s r g
    let c := fun (ok : Region → Bool) => committed s g.owner ok
    let q := quota s g.owner
    decide (c (fun _ => true) ≤ q 1 + q 2 + q 3) &&
    decide (c (fun x => polFloor x.tierPolicy == 1) ≤ q 1) &&
    decide (c (fun x => decide (polFloor x.tierPolicy ≤ 2)) ≤ q 1 + q 2)

/-- Is a mirror partner unfit as this node can see it (R38, R116)? -/
def partnerBad (s : State) (ep : Nat) : Bool :=
  (effPorts s ep 5).isEmpty ||
  (bitsOf (routeMask s ep) 32).any (fun p => portOuterLink s p ||
    (bfld (blob s 0x2109 (p + 1)) 8 2 == ep && bfld (blob s 0x2109 (p + 1)) 0x10 4 == num s 0x3600 1))

/-- The partitions of a sharing set, below the fused count. -/
def shareOk (s : State) (m : Nat) : Bool :=
  (upTo 64).all (fun p => !bit m p || partExists s p)

/-- Does a descriptor break the form of Table 3.2, or R115? -/
def regionForm (s : State) (g : Region) : Bool :=
  decide (g.base % 65536 = 0) && decide (g.base < 2 ^ 48) && decide (g.size ≠ 0) && decide (g.size % 65536 = 0) &&
  decide (g.kind ≤ 6) && !policyBad g.tierPolicy && rangePlaced s g.base g.size &&
  decide (g.shareWr.land g.shareRd = g.shareWr) &&
  (decide (g.base < landBase) || ((g.kind == 1 || g.kind == 3) && !g.enc && !g.tile && !g.mirror))

/-- May the region be created (R116)? None while the tiers are not brought up (R164). -/
def regionCreatable (s : State) (r : Nat) (g : Region) : Bool :=
  s.tier.up && regionForm s g && !regionOverlap s r g.base g.size && decide (g.owner < s.sec.hem.maxPartitions) &&
  partExists s g.owner && shareOk s g.shareRd && quotaTakes s r g &&
  !(g.mirror && partnerBad s g.mirrorEp)

/-- The table, index or window bound to a region (R122). -/
def regionBound (s : State) (r : Nat) : Bool :=
  (tableOf s r).isSome ||
  (upTo 16).any (fun x => arrNum s 0x2713 x != 0 &&
    (bfld (arrBlob s 0x2710 x) 0 2 == r || bfld (arrBlob s 0x2710 x) 0x10 2 == r)) ||
  (upTo 64).any (fun w => bfld (blob s 0x2320 (w + 1)) 0 2 == r)

/-- Is a stream window bound to a region (R121)? -/
def streamBound (s : State) (r : Nat) : Bool := (upTo 64).any (fun w => bfld (blob s 0x2320 (w + 1)) 0 2 == r)

/-- Apply the creation of a region (R117): every byte reads zero; a VER region begins at version 1. -/
def createRegion (s : State) (r : Nat) (g : Region) : State :=
  let s := if landBase ≤ g.base then
      { s with mem := memZero s.mem g.base g.size
               poison := s.poison.filter (fun l => !(decide (g.base ≤ l * 64) && decide (l * 64 < g.base + g.size))) }
    else s
  let s := setRegion s r g
  let s := if g.kind = 2 then setVer s r (newVer g.size) else s
  if g.mirror then setArrNum s 0x3660 r (if arrNum s 0x3640 r = 1 then 4 else 1) else s

/-- A NOTICE to an endpoint, by the port of its route (R149, R580). -/
def noticeTo (s : State) (ep code unit data : Nat) : State :=
  let ps := effPorts s ep 7
  if ps.isEmpty then s
  else sendNotice s (ps.getD (Config.routeHash (endpointId s) ep % ps.length) 0) code unit data

/-- Send MIRROR_BIND for the first bind that waits to each endpoint without one outstanding (R693). -/
def sendBinds (s : State) : State :=
  forS s.flt.binds s (fun s b =>
    if b.sent || s.flt.binds.any (fun x => x.sent && x.new.mirrorEp == b.new.mirrorEp) then s
    else
      let g := b.new
      let s := { s with flt := { s.flt with binds := s.flt.binds.map (fun x =>
        if x.region == b.region then { x with sent := true, sentAt := s.det.now } else x) } }
      noticeTo s g.mirrorEp 0x0100 (b.region % 4096 + g.kind % 8 * 4096 + 32768 * b2n g.enc)
        (num s 0x3600 1 % 2 ^ 32 + g.base / 65536 % 2 ^ 32 * 2 ^ 32))

/-- Begin a bind for a region write that sets MIRROR or names a new partner. -/
def startBind (s : State) (r : Nat) (g : Region) (create : Bool) (w : Option WaitingWrite) : State :=
  sendBinds { s with flt := { s.flt with binds := s.flt.binds ++
    [{ region := r, new := g, create := create, write := w, sent := false, sentAt := 0 }] } }

/-- Tell a partner that its copy is bound no more (R693). -/
def sendUnbind (s : State) (r : Nat) (g : Region) : State :=
  noticeTo s g.mirrorEp 0x0103 r (g.base / 65536 % 2 ^ 32 * 2 ^ 32)

/-- The lines of a recall: those of its region with a holder in scope in the directory, and those that a transaction in progress is giving to an agent in scope (R120, R258). -/
def recallLines (s : State) (c : Recall) : List Nat :=
  let g := getRegion s c.region
  let has := fun (ln : Nat) => decide (g.base ≤ ln * 64) && decide (ln * 64 < g.base + g.size)
  ((s.coh.dir.filter (fun e => has e.1 && e.2.st != 4 && (holders s e.2).any (inScope s c))).map (·.1) ++
   (s.coh.txns.filter (fun e => has e.1 && decide (e.2.agent < 256) && inScope s c e.2.agent)).map (·.1)).eraseDups

/-- Begin the recall at the head of the list (R258). -/
def beginRecall (s : State) : State :=
  match s.coh.recalls with
  | [] => s
  | c :: _ =>
    forS (recallLines s c) s (fun s ln =>
      submitTxn s (homeTxn s ln .regionRecall 0))

/-- Ask for a recall; one runs at a time (R258). -/
def askRecall (s : State) (c : Recall) : State :=
  let first := s.coh.recalls.isEmpty
  let s := { s with coh := { s.coh with recalls := s.coh.recalls ++ [c] } }
  if first then beginRecall s else s

/-- Has the recall in progress ended: is each line that it found recalled (R258)? No agent in scope gains a copy meanwhile. -/
def recallEnded (s : State) : Bool :=
  match s.coh.recalls with
  | [] => false
  | c :: _ =>
    let g := getRegion s c.region
    !s.coh.txns.any (fun e => e.2.kind == .regionRecall && decide (g.base ≤ e.1 * 64) && decide (e.1 * 64 < g.base + g.size)) &&
    !s.coh.waits.any (fun w => w.kind == .regionRecall)

/-- Table 3.4: may KIND change so? -/
def kindChangeOk (a b : Nat) : Bool :=
  a == b || (a == 0 && (b == 1 || b == 3)) || (a == 1 && (b == 0 || b == 3 || b == 6)) || (a == 3 && b == 1) ||
    (a == 6 && b == 1)

/-- May a valid region be changed so (R119, Table 3.4)? -/
def regionChangeable (s : State) (r : Nat) (o g : Region) : Bool :=
  g.base == o.base && g.enc == o.enc && g.tile == o.tile && g.owner == o.owner && decide (o.size ≤ g.size) &&
  kindChangeOk o.kind g.kind && !(o.kind == 6 && g.kind != 6 && streamBound s r) && regionForm s g &&
  shareOk s (g.shareRd.land (2 ^ 64 - 1 - o.shareRd)) &&
  (g.size == o.size || (!regionOverlap s r g.base g.size && quotaTakes s r g)) &&
  !(g.mirror && (!o.mirror || g.mirrorEp != o.mirrorEp || g.mirrorBase != o.mirrorBase) && partnerBad s g.mirrorEp)

/-- The change of a live region takes effect (R118 to R121): the partitions that lose the read right lose their handles. -/
def setChanged (s : State) (r : Nat) (g : Region) : State :=
  let o := getRegion s r
  let lostRd := (upTo 64).filter (fun p => p != g.owner && bit o.shareRd p && !bit g.shareRd p)
  forS lostRd (setRegion s r g) (fun s p => endPartHandles s r p)

/-- Apply a change of a live region (R119 to R121): the lines of partitions that lose a right are recalled first; until then, and until its response, the descriptor stays as it was (R118). -/
def changeRegion (s : State) (r : Nat) (g : Region) (w : Option WaitingWrite) : State :=
  let o := getRegion s r
  let lost := (upTo 64).filter (fun p => p != g.owner && ((bit o.shareRd p && !bit g.shareRd p) || (bit o.shareWr p && !bit g.shareWr p)))
  let call := fun (p : Nat) => ({ region := r, scope := some p, write := none, new := none } : Recall)
  match (lost.filter (fun p => !(recallLines s (call p)).isEmpty)).reverse with
  | [] =>
    let s := setChanged s r g
    (match w with
    | some x => answerWaiting s x 0
    | none => s)
  | p :: rest => askRecall (forS rest.reverse s (fun s q => askRecall s (call q))) { call p with write := w, new := some g }

/-- Release a region (R122): fenced at once; its cached lines are recalled, its LD entries dropped, the moves of its bolts abandoned (R174). -/
def releaseRegion (s : State) (r : Nat) : State :=
  let g := getRegion s r
  let s := if g.mirror && arrNum s 0x3640 r = 0 then sendUnbind s r g else s
  let s := if g.mirror then setArrNum s 0x3660 r 0 else s
  let mine := s.coh.dir.filter (fun e => decide (g.base ≤ e.1 * 64) && decide (e.1 * 64 < g.base + g.size))
  let s := forS mine s (fun s e =>
    if e.2.st = 4 then dirDel (bump s 0x2401 0x0A) e.1
    else submitTxn s (homeTxn s e.1 .backInv 0))
  let s := dropVersions s r
  let s := forS (s.tier.moves.filter (fun m => decide (g.base / 65536 ≤ m.bolt) && decide (m.bolt < (g.base + g.size) / 65536))) s (fun s m => abandonMove s m.bolt)
  setRegion s r { g with valid := false, releasing := true }

/-- May the release end: no checked request and no cached line of the region is left (R122)? -/
def releaseDone (s : State) (r : Nat) : Bool :=
  let g := getRegion s r
  let has := fun (a : Nat) => decide (g.base ≤ a) && decide (a < g.base + g.size)
  g.releasing && !s.coh.dir.any (fun e => has (e.1 * 64)) && !s.coh.txns.any (fun e => has (e.1 * 64)) &&
  !s.ord.knots.any (fun k => (k.knot0.toList ++ k.knot1.toList).any (fun x => has x.held.req.head.addr)) &&
  !s.acc.held.any (fun h => h.checked && has h.req.head.addr && (match h.why with | .forwarded => false | _ => true))

/-- A write to a region descriptor (R116, R119, R122, R693). One to a region whose bind or change still waits is refused with INCONSISTENT (log entry 82). -/
def writeRegion (s : State) (w : Writer) (r : Nat) (b : Bytes) : WriteOut :=
  let o := getRegion s r
  let g := parseRegion b
  if b.length ≠ 64 then refuse s abTYPE
  else if o.releasing then refuse s abINCONS
  else if s.flt.binds.any (fun x => x.region == r) || s.coh.recalls.any (fun c => c.region == r && c.new.isSome) then refuse s abINCONS
  else if !o.valid then
    if !g.valid then applied (setRegion s r g)
    else if !regionCreatable s r g then refuse s abINCONS
    else if g.mirror && arrNum s 0x3640 r = 0 then .wait (startBind s r g true (some (waiting s w (r % 128 + 1))))
    else applied (createRegion s r g)
  else if !g.valid then
    if regionBound s r then refuse s abINCONS else applied (releaseRegion s r)
  else if !regionChangeable s r o g then refuse s abINCONS
  else
    let prim := arrNum s 0x3640 r = 0
    if g.mirror && prim && (!o.mirror || g.mirrorEp ≠ o.mirrorEp || g.mirrorBase ≠ o.mirrorBase) then
      .wait (startBind s r g false (some (waiting s w (r % 128 + 1))))
    else
      let s := if o.mirror && !g.mirror then setArrNum (if prim then sendUnbind s r o else s) 0x3660 r 0
        else if g.mirror && !o.mirror then setArrNum s 0x3660 r 4 else s
      .wait (changeRegion s r g (some (waiting s w (r % 128 + 1))))

/-- The release of a region ends (R122): its bolts return to the pool, and the descriptor reads zero. -/
def endRelease (s : State) (r : Nat) : State :=
  let g := getRegion s r
  let s := if landBase ≤ g.base then { s with mem := memZero s.mem g.base g.size }
    else releaseBolts s (g.base / 65536) (g.size / 65536)
  let s := { s with poison := s.poison.filter (fun l => !(decide (g.base ≤ l * 64) && decide (l * 64 < g.base + g.size)))
                    ver := { s.ver with forms := sdel s.ver.forms r } }
  setRegion s r Region.none

/-- A window entry from its 40 bytes (Table 3.6). -/
def parseWindow (b : Bytes) : Window :=
  let f := bfld b 0x18 1
  { valid := bit f 0, compat := bit f 1, ro := bit f 2, blkOk := bit f 3, atomicOk := bit f 4, wbase := bfld b 0 8,
    wsize := bfld b 8 8, target := bfld b 0x10 8, owner := bfld b 0x19 1, port := bfld b 0x1A 1,
    targetCid := bfld b 0x1C 4 % 2 ^ 20, share := bfld b 0x20 8 }

/-- The 40 bytes of an entry. -/
def windowBytes (w : Window) : Bytes :=
  toLe 8 w.wbase ++ toLe 8 w.wsize ++ toLe 8 w.target ++
    toLe 1 (b2n w.valid + 2 * b2n w.compat + 4 * b2n w.ro + 8 * b2n w.blkOk + 16 * b2n w.atomicOk) ++ toLe 1 w.owner ++
    toLe 1 w.port ++ zeros 1 ++ toLe 4 w.targetCid ++ toLe 8 w.share

/-- Is a port trained as a compatibility endpoint (COMPAT 11 or COMPAT_L0 12)? -/
def compatTrained (s : State) (p : Nat) : Bool := decide (p < 32) && (portState s p == 11 || portState s p == 12)

/-- May an entry be made valid (R144)? -/
def windowOk (s : State) (k : Nat) (w : Window) : Bool :=
  decide (0xC00000000000 ≤ w.wbase) && decide (w.wbase % 65536 = 0) && decide (w.wsize ≠ 0) &&
  decide (w.wsize % 65536 = 0) && decide (w.wbase + w.wsize ≤ 0xE00000000000) && decide (w.owner < 64) &&
  !s.windows.any (fun e => e.1 != k && e.2.valid && overlaps w.wbase w.wsize e.2.wbase e.2.wsize) &&
  (if w.compat then compatTrained s w.port else w.port == 0xFF)

/-- A write to a window entry (R144). -/
def writeWindow (s : State) (k : Nat) (b : Bytes) : WriteOut :=
  let w := parseWindow b
  if b.length ≠ 40 then refuse s abTYPE
  else if w.valid && !windowOk s k w then refuse s abINCONS
  else applied { s with windows := sput (fun _ => Window.none) s.windows k w }

end Sys2Proof.Machine
end

