-- ==== Sys2Proof/Machine/AddressMap.lean ====
section
/-! DEFINITION. The commands of the address map (ch. 3): regions, windows, the routing map and its epochs, control-window invalidations and fault records, trackers, timeouts. -/
namespace Sys2Proof.Machine

/-- REGION_CREATE (R116). -/
def execRegionCreate (w : Writer) (region : Nat) (value : Bytes) (s : State) : Res :=
  endWrite w (writeRegion s w region value)

/-- REGION_CHANGE (R119). -/
def execRegionChange (w : Writer) (region : Nat) (value : Bytes) (s : State) : Res :=
  endWrite w (writeRegion s w region value)

/-- REGION_RELEASE (R122). -/
def execRegionRelease (w : Writer) (region : Nat) (value : Bytes) (s : State) : Res :=
  endWrite w (writeRegion s w region value)

/-- REGION_RELEASE_END (R122): nothing happens before the release is done. -/
def execRegionReleaseEnd (region : Nat) (s : State) : Res :=
  .next (if releaseDone s region then fin (endRelease s region) else s)

/-- WINDOW_WRITE (R144). -/
def execWindowWrite (w : Writer) (window : Nat) (value : Bytes) (s : State) : Res :=
  endWrite w (writeWindow s window value)

/-- Stage entries (R150). -/
def stageRoutes (s : State) (b : Bytes) : State :=
  let first := bfld b 0 2
  let m := (upTo (bfld b 2 2)).foldl (fun m k => sput (fun _ => 0) m (first + k) (bfld b (4 + 4 * k) 4)) s.route.staging
  { s with route := { s.route with staging := m } }

/-- A write of ROUTE_STAGE (R150): its abort code and effect. -/
def stageWrite (s : State) (b : Bytes) : Nat × State :=
  let n := bfld b 2 2
  if b.length < 4 || b.length ≠ 4 + 4 * n then (abTYPE, s)
  else if n = 0 || 65536 < bfld b 0 2 + n then (abRANGE, s)
  else (0, stageRoutes s b)

/-- ROUTE_STAGE as a write: one received during the copy is executed after it (R151). -/
def writeStage (s : State) (w : Writer) (b : Bytes) : WriteOut :=
  if 1024 < b.length then refuse s abTYPE
  else if s.route.copying then
    .wait { s with route := { s.route with heldStage := s.route.heldStage ++ [(w.slot, w.tag, b)] } }
  else
    let x := stageWrite s b
    .done x.1 0 x.2

/-- ROUTE_STAGE (R150). -/
def execRouteStage (w : Writer) (value : Bytes) (s : State) : Res := endWrite w (writeStage s w value)

/-- The copy of the active bank into the staging bank ends (R151), and the writes held back are executed. -/
def copyEnd (s : State) : State :=
  if !s.route.copying then s
  else
    let held := s.route.heldStage
    let s := { s with route := { s.route with staging := s.route.active, copying := false, heldStage := [] } }
    forS held s (fun s h =>
      let x := stageWrite s h.2.2
      respondWrite x.2 h.1 h.2.1 x.1 0)

/-- Make the staging bank active under an epoch (R151, R553): the epoch it replaces gets its grace, and
requests turned back by RETRY are sent again (R154). -/
def commitMap (s : State) (epoch : Nat) : State :=
  let s := copyEnd s
  let old := s.route
  let s := { s with route := { old with active := old.staging, epoch := epoch, prev := some (old.epoch, s.det.now), copying := true } }
  wakeRetries s

/-- A write of MAP_COMMIT (R151). -/
def writeCommit (s : State) (b : Bytes) : WriteOut :=
  if b.length ≠ 2 then refuse s abTYPE
  else if leNat b ≠ (s.route.epoch + 1) % 65536 then refuse s abINCONS
  else applied (commitMap s (leNat b))

/-- MAP_COMMIT (R151). -/
def execMapCommit (w : Writer) (value : Bytes) (s : State) : Res := endWrite w (writeCommit s value)

/-- MAP_STAGE_COPY_END (R151). -/
def execMapStageCopyEnd (s : State) : Res := .next (fin (copyEnd s))

/-- MAP_GRACE_END (R152): once the grace has passed, the replaced epoch is accepted no more. -/
def execMapGraceEnd (s : State) : Res :=
  .next (match s.route.prev with
    | some (_, t) => if due s t (usT (num s 0x2201 2)) then { s with route := { s.route with prev := none } } else s
    | none => s)

/-- A store to a register of the control window that the request's address lies in. -/
def cwStore (s : State) (h : Head) (off v : Nat) : State :=
  arrive s { h with addr := alignDown h.addr 0x4000000 + off } (.store (toLe 8 v) false)

/-- CW_INV_ASID (R135). -/
def execCwInvAsid (h : Head) (asid : Nat) (s : State) : Res := .next (fin (cwStore s h 0x030 (asid % 16384)))

/-- CW_INV_ALL_ASID (R135). -/
def execCwInvAllAsid (h : Head) (s : State) : Res := .next (fin (cwStore s h 0x030 65536))

/-- CW_INV_BY_VA (R135). -/
def execCwInvByVa (h : Head) (asid : Nat) (allAsid : Bool) (s : State) : Res :=
  .next (fin (cwStore s h 0x030 (asid % 16384 + 65536 * b2n allAsid + 131072)))

/-- Is a request of the node, by its number, not completed: it waits, or a knot of it is held (R135)? -/
def inHand (s : State) (q : Nat) : Bool :=
  s.acc.held.any (fun h => h.seq == q) ||
  s.ord.knots.any (fun k => (k.knot0.toList ++ k.knot1.toList).any (fun x => x.held.seq == q))

/-- INV_COMPLETE (R135): the invalidation in progress ends once every request translated with a dropped
entry has completed, and the next begins. -/
def execInvComplete (s : State) : Res :=
  .next (match s.acc.invals with
    | [] => s
    | i :: rest =>
      if i.started && !i.waits.any (inHand s) && i.descs.all (fun d => (findDesc s d).isNone) then
        let c := getCw s i.part
        startInval (setCw { s with acc := { s.acc with invals := rest } } i.part { c with done := (c.done + 1) % 2 ^ 32 })
      else startInval s)

/-- CW_FR_RESUME (R140). -/
def execCwFrResume (h : Head) (record : Nat) (s : State) : Res := .next (fin (cwStore s h 0x050 (record % 256 + 256)))

/-- CW_FR_TERMINATE (R140). -/
def execCwFrTerminate (h : Head) (record : Nat) (s : State) : Res := .next (fin (cwStore s h 0x050 (record % 256 + 512)))

/-- The fault of a request that waits for a record. -/
def heldTrap (h : Held) : Option Trap :=
  match h.why with
  | .faultWait vpn cause level pte user =>
    some { cid := h.req.head.cid, kind := h.req.head.kind, unit := h.req.head.unit, vpn := vpn, cause := cause, level := level,
           pte := pte, user := user, write := opWrites h.req.op,
           atomic := (match h.req.op with | .atomic .. => true | _ => false), walked := false, viol := none }
  | _ => none

/-- Whose fault waits for a record: a request's or a descriptor's. -/
inductive FaultOf where
  | held (h : Held)
  | desc (d : DescRef) (x : Desc)

/-- Faults that wait for a record (R137), with their places in the order of arrival. -/
def faultsWaiting (s : State) : List (Nat × Trap × FaultOf) :=
  s.acc.held.filterMap (fun h => (heldTrap h).map (fun t => (h.seq, t, FaultOf.held h))) ++
  s.eng.queues.flatMap (fun e => e.2.accepted.filterMap (fun x =>
    if x.fault.isNone then x.trap.map (fun t => (x.trapSeq, t, FaultOf.desc { q := queueOf e.1, pos := x.pos } x)) else none))

/-- The first in the order of arrival. -/
def firstFault : List (Nat × Trap × FaultOf) → Option (Nat × Trap × FaultOf)
  | [] => none
  | e :: rest =>
    match firstFault rest with
    | some v => some (if e.1 ≤ v.1 then e else v)
    | none => some e

/-- FR_RECORD_FREED (R137): the first waiting fault that can now have a record takes it. -/
def execFrRecordFreed (s : State) : Res :=
  .next (match firstFault ((faultsWaiting s).filter (fun e => (attachFault s e.2.1).1.isSome)) with
    | none => s
    | some (_, t, w) =>
      match attachFault s t with
      | (none, _) => s
      | (some n, s) =>
        match w with
        | .held h => fin (rehold s h (.faultRec (cidPart t.cid) n) false)
        | .desc d x => fin (setDesc s d.q { x with fault := some (cidPart t.cid, n) }))

/-- A request that waits leaves its wait: its fault record (R141) and the queue of its line. -/
def leaveWait (s : State) (h : Held) : State :=
  let s := match h.why with
    | .faultRec p n => leaveRec s p n
    | _ => s
  { s with coh := { s.coh with waits := s.coh.waits.filter (fun w => !(w.agent == 0xFFF && w.tag == h.seq &&
    (w.kind == .uncachedRead || w.kind == .uncachedWrite || w.kind == .kindRecall))) } }

/-- A mirror write that has not completed OK leaves its partner's regions DEGRADED (R697), and what waited
for it completes. -/
def mirrorFail (s : State) (i : Issued) (r : Nat) : State :=
  let s := degradePartner s (getRegion s r).mirrorEp 1
  if s.acc.issued.any (fun x => x.tag == i.tag) then finishIssued s i 0 [] else s

/-- A descriptor's access has waited, in a fault record or for one, for a move-up, an earlier request or a tracker, for as long as the completion timeout: it is
completed DEAD (R141, R204, R539). -/
def timeoutDesc (s : State) (d : DescRef) (x : Desc) : State :=
  let since := match x.trap, x.stalledAt with
    | some _, _ => some x.ranAt
    | none, t => t
  match since with
  | none => s
  | some t0 =>
    if s.det.now < t0 + x.ctT then s
    else
      let s := match x.fault with | some (p, n) => leaveRec s p n | none => s
      let hd := match x.trap with
        | some t => ownHead s t.kind t.unit t.cid (endpointId s * 2 ^ 48 + t.vpn * 4096)
        | none => ownHead s (blkCode d.q.blk + 1) (x.engine.getD 0) (mkCid d.q.part 0) (endpointId s * 2 ^ 48)
      endHeld (deadTarget s hd (.load 8)) d.q x 1

/-- A request that waits is completed DEAD by its timeout: one of the node's own (R539), or one that a fault record holds (R141). -/
def timeoutHeld (s : State) (h : Held) : State :=
  let attached := match h.why with | .faultRec .. => true | _ => false
  if s.det.now < h.deadline then s
  else if h.req.head.kind = 0 then
    if attached then finishReq (leaveWait s h) h 1 (failData h.req.op 1) else s
  else finishReq (deadTarget (leaveWait s h) h.req.head h.req.op) h 1 (failData h.req.op 1)

/-- A request of the node is completed DEAD by its timeout (R539, R141). -/
def timeoutRef (s : State) (r : ReqRef) : State :=
  match r with
  | .issued tag =>
    (match s.acc.issued.find? (fun i => i.tag == tag) with
    | none => s
    | some i =>
      if s.det.now < i.deadline then s
      else
        match i.mirror with
        | some k => mirrorFail s i k
        | none => finishIssued (deadTarget s i.req.head i.req.op) i 1 (failData i.req.op 1))
  | .held seq =>
    (match s.acc.held.find? (fun h => h.seq == seq) with
    | none => s
    | some h => timeoutHeld s h)
  | .core c =>
    (match s.coh.l2pend.find? (fun x => x.core == c && !x.dead) with
    | none => s
    | some x =>
      if s.det.now < x.deadline then s
      else
        let hd := { ownHead s 5 c x.cid (endpointId s * 2 ^ 48 + x.addr) with va := x.va }
        let l := if x.sent then s.coh.l2pend.map (fun y => if y.seq == x.seq then { y with dead := true } else y)
          else s.coh.l2pend.filter (fun y => y.seq != x.seq)
        let s := { s with coh := { s.coh with l2pend := l } }
        emit (deadTarget s hd (.load 8)) (.core c 1 (ones 8)))
  | .desc d =>
    match findDesc s d with
    | none => s
    | some x => timeoutDesc s d x

/-- REQUEST_TIMEOUT (R539): no effect before the timeout has passed. -/
def execRequestTimeout (r : ReqRef) (s : State) : Res := .next (fin (timeoutRef s r))

/-- HOLD_DISCARD (R540, R192): an unperformed ORD or BLK request that has waited longer than HOLD_US is
discarded; one of the node's own then completes DEAD by its timeout. -/
def execHoldDiscard (seq : Nat) (s : State) : Res :=
  .next (match s.acc.held.find? (fun h => h.seq == seq) with
    | none => s
    | some h =>
      let done := match h.why with
        | .forwarded => true
        | .away .. => true
        | _ => false
      if done || s.det.now ≤ h.discardAt then s
      else if h.req.head.kind = 0 then fin (unhold (leaveWait s h) h)
      else fin (rehold (leaveWait s h) h .discarded h.checked))

/-- A RETRY for one of the node's own requests (R154). -/
def takeRetry (s : State) (i : Issued) (epoch : Nat) : State :=
  let s := { s with acc := { s.acc with issued := s.acc.issued.map (fun x =>
    if x.tag == i.tag then { x with retryEpoch := some epoch } else x) } }
  wakeRetries s

/-- RETRY_RECEIVED (R154). -/
def execRetryReceived (c : Completion) (s : State) : Res :=
  .next (match findIssued s c.tag with
    | none => s
    | some i => fin (takeRetry s i c.epoch))

end Sys2Proof.Machine
end

