-- ==== Sys2Proof/Machine/MemoryRows.lean ====
section
/-! DEFINITION. The ORD and BLK requests that arrive at the node (R279 to R291, R390, R530), and the completions of its own requests. -/
namespace Sys2Proof.Machine

/-- ORD_STORE (R282). -/
def execOrdStore (h : Head) (data : Bytes) (s : State) : Res := takeReq s h (.store data false)

/-- ATOMIC_ADD (R390). -/
def execAtomicAdd (h : Head) (atype rsvd : Nat) (operands : Bytes) (s : State) : Res :=
  takeReq s h (.atomic .add atype rsvd 0 operands)

/-- ATOMIC_MIN (R390). -/
def execAtomicMin (h : Head) (atype rsvd : Nat) (operands : Bytes) (s : State) : Res :=
  takeReq s h (.atomic .min atype rsvd 0 operands)

/-- ATOMIC_MAX (R390). -/
def execAtomicMax (h : Head) (atype rsvd : Nat) (operands : Bytes) (s : State) : Res :=
  takeReq s h (.atomic .max atype rsvd 0 operands)

/-- ATOMIC_SWAP (R390). -/
def execAtomicSwap (h : Head) (atype rsvd : Nat) (operands : Bytes) (s : State) : Res :=
  takeReq s h (.atomic .swap atype rsvd 0 operands)

/-- ATOMIC_CAS (R390). -/
def execAtomicCas (h : Head) (atype rsvd compare : Nat) (operands : Bytes) (s : State) : Res :=
  takeReq s h (.atomic .cas atype rsvd compare operands)

/-- ATOMIC_AND (R390). -/
def execAtomicAnd (h : Head) (atype rsvd : Nat) (operands : Bytes) (s : State) : Res :=
  takeReq s h (.atomic .and atype rsvd 0 operands)

/-- ATOMIC_OR (R390). -/
def execAtomicOr (h : Head) (atype rsvd : Nat) (operands : Bytes) (s : State) : Res :=
  takeReq s h (.atomic .or atype rsvd 0 operands)

/-- ATOMIC_XOR (R390). -/
def execAtomicXor (h : Head) (atype rsvd : Nat) (operands : Bytes) (s : State) : Res :=
  takeReq s h (.atomic .xor atype rsvd 0 operands)

/-- REDUCE_SUM (R530). -/
def execReduceSum (h : Head) (rtype : Nat) (data : Bytes) (s : State) : Res := takeReq s h (.reduce 0 rtype data)

/-- REDUCE_MIN (R530). -/
def execReduceMin (h : Head) (rtype : Nat) (data : Bytes) (s : State) : Res := takeReq s h (.reduce 1 rtype data)

/-- REDUCE_MAX (R530). -/
def execReduceMax (h : Head) (rtype : Nat) (data : Bytes) (s : State) : Res := takeReq s h (.reduce 2 rtype data)

/-- ORD_LOAD (R279). -/
def execOrdLoad (h : Head) (len : Nat) (s : State) : Res := takeReq s h (.load len)

/-- The line's address of a BLK request, and its 64 bytes (Table 6.1). -/
def blkReq (h : Head) (group : Nat) (knot span : Bool) (count : Nat) (data : Bytes) (poison : Bool) : Head × MemOp :=
  ({ h with addr := alignDown h.addr 64 }, .blk (group % 65536) knot span count (slice data 0 64) poison)

/-- BLK_WRITE (R284). -/
def execBlkWrite (h : Head) (group : Nat) (span : Bool) (data : Bytes) (poison : Bool) (s : State) : Res :=
  let x := blkReq h group false span 0 data poison
  takeReq s x.1 x.2

/-- BLK_KNOT (R285). -/
def execBlkKnot (h : Head) (group : Nat) (span : Bool) (count : Nat) (data : Bytes) (s : State) : Res :=
  let x := blkReq h group true span (count % 65536) data false
  takeReq s x.1 x.2

/-- The held knot of a group's span, with its span's count. -/
def heldKnot (k : KnotEntry) (span : Bool) : Option HeldKnot × Nat :=
  if span then (k.knot1, k.count1) else (k.knot0, k.count0)

/-- The entry without the held knot of a span, whose count becomes `c`. -/
def dropKnot (k : KnotEntry) (span : Bool) (c : Nat) : KnotEntry :=
  if span then { k with knot1 := none, count1 := c } else { k with knot0 := none, count0 := c }

/-- KNOT_PERFORM (R285, R765): a held knot whose span is counted is performed, under the checks that it has passed (R118, R122). -/
def execKnotPerform (ep cid group : Nat) (span : Bool) (s : State) : Res :=
  .next (match findKnot s ep cid group with
    | none => s
    | some k =>
      match heldKnot k span with
      | (some x, c) =>
        if c < x.count then s
        else
          let s := setKnot s (dropKnot k span (c - x.count))
          freeKnot (fin (rehold s x.held (.cutover (boltOf x.held.req.head.addr)) true)) ep cid group
      | _ => s)

/-- KNOT_HOLD_TIMEOUT (R289): after its hold time a knot completes ABORTED and its span's count is cleared; one whose span is all counted is performed instead. -/
def execKnotHoldTimeout (ep cid group : Nat) (span : Bool) (s : State) : Res :=
  .next (match findKnot s ep cid group with
    | none => s
    | some k =>
      match heldKnot k span with
      | (some x, c) =>
        if s.det.now < x.deadline || x.count ≤ c then s
        else
          let s := finishReq (setKnot s (dropKnot k span 0)) x.held 7 []
          fin (freeKnot (knotFault (bump s 0x2208 7) ep group 1) ep cid group)
      | _ => s)

/-- Is a completion of this kind the one that the operation is completed by (Table 6.2): 0 ORD_CMP, 1 BLK_CMP,
2 ORD_DATA? -/
def cmpKind (op : MemOp) : Nat :=
  match op with
  | .blk .. => 1
  | _ => if opReads op then 2 else 0

/-- A completion of one of the node's own requests; a mirror write that fails leaves its region DEGRADED
(R695, R697). One with a status that no device returns (R18) is discarded (log entry 97). -/
def takeCmp (s : State) (c : Completion) (kind : Nat) : State :=
  match findIssued s c.tag with
  | none => s
  | some i =>
    let s := meterPort s 0x4D0A (cidPart i.req.head.cid) (8 * (3 + if kind = 2 then 8 else 0))
    if cmpKind i.req.op != kind || decide (8 ≤ c.status) then s
    else if c.status = 4 then takeRetry s i c.epoch
    else
      match i.mirror with
      | some k => if c.status = 0 then finishIssued s i 0 [] else mirrorFail s i k
      | none =>
        let d := if opReads i.req.op then
            (if c.status = 1 then ones (opLen i.req.op) else slice c.data (i.req.head.addr % 64) (opLen i.req.op))
          else []
        finishIssued s i c.status d

/-- ORD_CMP (R282). -/
def execOrdCmp (c : Completion) (s : State) : Res := .next (fin (takeCmp s c 0))

/-- BLK_CMP (R284). -/
def execBlkCmp (c : Completion) (s : State) : Res := .next (fin (takeCmp s c 1))

/-- ORD_DATA (R283). -/
def execOrdData (c : Completion) (s : State) : Res := .next (fin (takeCmp s c 2))

end Sys2Proof.Machine
end

