-- ==== Sys2Proof/Machine/TierRows.lean ====
section
/-! DEFINITION. Placement (ch. 4): the sweeper, evictor and placement loop, moves, retirement, thermal states, hints and evacuation, stream windows. -/
namespace Sys2Proof.Machine

/-- A tier's free slots against `k` times its free target (R190): below it? -/
def belowTarget (s : State) (t k : Nat) : Bool :=
  decide (tierFree s t * 1024 < k * num s 0x2301 (9 + t) * tierSlots s t)

/-- May a bolt be taken from tier `t` for the benefit of partition `p`, or of the tier's free target (R186, R190)? -/
def eligible (s : State) (t : Nat) (p : Option Nat) (x : Bolt) : Bool :=
  x.home == t && x.pins == 0 && !x.moving && decide (t < boltFloor s x) && resident s x &&
  (p == some x.part || decide (reserve s x.part t < homed s x.part t))

/-- The partition that waits for a slot (R192, R195): of a bolt to be moved up, or of the first write that found none. -/
def needer (s : State) : Option Nat :=
  match s.tier.upQueue with
  | b :: _ => some (getBolt s b).part
  | [] =>
    match s.acc.held.find? (fun h => h.why == .slot) with
    | none => none
    | some h => (regionOf s h.req.head.addr).map (fun r => (getRegion s r).owner)

/-- The heat of a bolt as a promotion sees it: PROMOTE_L2P at the sweep after a hint (R199). -/
def promoteHeat (s : State) (x : Bolt) : Nat := if x.hinted = 2 then max x.heat (num s 0x2301 3) else x.heat

/-- May a bolt be promoted (R193)? -/
def promotable (s : State) (x : Bolt) : Bool :=
  x.home == 2 && !x.moving && decide (num s 0x2301 3 ≤ promoteHeat s x) && polCeiling (getRegion s x.region).tierPolicy == 1 && roomIn s x.part 1

/-- Remove a decision. -/
def unqueue (s : State) (b what : Nat) : State :=
  { s with tier := { s.tier with queued := s.tier.queued.filter (fun q => q != (b, what)) } }

/-- The victim that is demoted first for a promotion. -/
def victimOf (s : State) (b : Nat) : Option Nat := (s.tier.queued.find? (fun q => q.1 == b && decide (16 ≤ q.2))).map (fun q => q.2 - 16)

/-- Begin a promotion to a unit that is neither WARM nor HOT (R202). -/
def promoteTo (s : State) (b : Nat) : Bool × State :=
  let r := pickCool s 1 (getBolt s b).quad 1 (fun _ => true)
  match r.1 with
  | some slot => (true, startMove r.2 b 1 slot .promote)
  | none => (false, r.2)

/-- A promotion of a Larder bolt to the Parlour, if it may go ahead now (R193, R202): a free slot above the free target, or the slot of a colder bolt that is demoted
first. Answers whether it did, or is stale. -/
def promoteNow (s : State) (b : Nat) : Bool × State :=
  let x := getBolt s b
  match victimOf s b with
  | some v =>
    if (getBolt s v).home = 1 && (getBolt s v).moving then (false, s)
    else
      let t := unqueue s b (16 + v)
      if !promotable t x then (true, t)
      else if (getBolt s v).home = 1 then (false, t)
      else
        let r := promoteTo t b
        if r.1 then r else (false, s)
  | none =>
    if !promotable s x then (true, s)
    else if num s 0x2301 10 * tierSlots s 1 < tierFree s 1 * 1024 then promoteTo s b
    else
      match oldestOf s (fun y => eligible s 1 (some x.part) y && decide (num s 0x2301 5 ≤ y.age) && decide (y.heat < promoteHeat s x)) with
      | none => (false, s)
      | some v =>
        let s := demoteOne s v.1 .demote
        (false, if (getBolt s v.1).moving then queueDecision s b (16 + v.1) else s)

/-- A demotion by policy of one bolt, if R194 asks for it. -/
def demotePolicyNow (s : State) (b : Nat) : State :=
  let x := getBolt s b
  let asks := (x.home == 1 && decide (num s 0x2301 5 ≤ x.age) && belowTarget s 1 1) ||
    (x.home == 2 && ((decide (num s 0x2301 6 ≤ x.age) && belowTarget s 2 1) || (x.age == 255 && belowTarget s 2 2)))
  if asks && x.pins == 0 && !x.moving && decide (x.home < boltFloor s x) && (!x.promoted || resident s x) then demoteOne s b .demote else s

/-- One bolt of a hint (R199): moved within its CEILING, its FLOOR and its partition's quota; not down in the learning phase (R200). -/
def hintBolt (s : State) (tier b : Nat) : State :=
  let x := getBolt s b
  let pol := (getRegion s x.region).tierPolicy
  let s := if tier < x.home then setBolt s b { x with hinted := 1 } else s
  if x.home = tier || x.moving || x.pins ≠ 0 || tier < polCeiling pol || polFloor pol < tier || !roomIn s x.part tier ||
     (s.tier.learning && decide (x.home < tier)) then s
  else
    let r := pickCool s tier x.quad 1 (laneOk s b tier)
    match r.1 with
    | some slot => startMove r.2 b tier slot .hint
    | none => r.2

/-- Carry out a hint (R199): every allocated bolt of the range. -/
def doHint (s : State) (h : Hint) : State :=
  bump (forS ((s.tier.map.map (·.1)).filter (fun b => decide (h.first ≤ b) && decide (b < h.first + h.count))) s (fun s b => hintBolt s h.tier b)) 0x2309 9

/-- Carry out the held hints, in order (R197, R198). -/
def doHints (s : State) : State :=
  let hs := s.tier.hints
  forS hs { s with tier := { s.tier with hints := [] } } doHint

/-- At a step boundary the queued decisions are carried out in the order of R195: promotions, with hints, before demotions. A stale one fails its conditions and is dropped; a promotion that finds no room
yet stays queued (R198). Nothing happens while the loop is frozen (R197). -/
def releaseDecisions (s : State) : State :=
  if placeFrozen s then s
  else
    let q := s.tier.queued
    let s := forS (q.filter (fun d => d.2 == 1)) s (fun s d =>
      let r := promoteNow s d.1
      if r.1 then unqueue r.2 d.1 1 else r.2)
    let s := doHints s
    forS (q.filter (fun d => d.2 == 2 || d.2 == 3)) s (fun s d =>
      let s := unqueue s d.1 d.2
      if d.2 = 2 then demotePolicyNow s d.1 else demoteQuotaNow s (d.1 / 4) (d.1 % 4))

/-- The sweep period of a tier in ticks (R189). -/
def agePeriod (s : State) (t : Nat) : Nat := msT (num s 0x2302 t)

/-- AGE_SWEEP (R189): one bolt is visited, once per period of its tier; a hot Larder bolt is queued for promotion (R193); a bolt in a
quadrant being evacuated is moved out (R217). -/
def execAgeSweep (bolt : Nat) (s : State) : Res :=
  let x := getBolt s bolt
  if x.home = 0 || (match x.sweptAt with | some t => !due s t (agePeriod s x.home) | none => false) then .next s
  else
    let n := x.pendingN
    let best := [0, 1, 2, 3].foldl (fun k j => if x.tally.getD k 0 < x.tally.getD j 0 then j else k) 0
    let y := { x with heat := min 255 (x.heat - x.heat / 2 ^ num s 0x2301 2 + n)
                      age := if 0 < n then 0 else min 255 (x.age + 1)
                      quad := best, hinted := if x.hinted = 1 then 2 else 0, sweptAt := some s.det.now
                      pendingN := 0, tally := [] }
    let s := setBolt s bolt y
    let s := if promotable s y && !s.tier.learning then queueDecision s bolt 0 else unqueue s bolt 0
    .next (if evacuated s y.home (unitOfSlot s y.home y.slot) then moveOut s bolt .retire else s)

/-- EVICT (R190, R191, R195): one victim of a tier below its free target, or of one without a slot for what waits, moves down one tier. When the tier below has no
free slot, eviction stops, and is counted. -/
def execEvict (tier : Nat) (s : State) : Res :=
  let p := if tierFree s tier = 0 then needer s else none
  .next (if (tier = 1 || tier = 2) && (belowTarget s tier 1 || p.isSome) && !s.tier.learning then
      match oldestOf s (eligible s tier p) with
      | none => s
      | some v => if tierFree s (tier + 1) = 0 then bump s 0x2309 7 else demoteOne s v.1 (if p.isSome then .need else .evict)
    else s)

/-- PROMOTE (R193, R197, R198): a queued Larder bolt. -/
def execPromote (bolt : Nat) (s : State) : Res :=
  .next (if !s.tier.queued.contains (bolt, 0) || placeFrozen s || s.tier.learning then s
    else if detMode s = 2 then queueDecision (unqueue s bolt 0) bolt 1
    else
      let r := promoteNow s bolt
      if r.1 then unqueue r.2 bolt 0 else r.2)

/-- DEMOTE_POLICY (R194). -/
def execDemotePolicy (bolt : Nat) (s : State) : Res :=
  .next (if placeFrozen s || s.tier.learning then s
    else if detMode s = 2 then queueDecision s bolt 2
    else demotePolicyNow s bolt)

/-- DEMOTE_QUOTA (R185). -/
def execDemoteQuota (part tier : Nat) (s : State) : Res :=
  .next (if placeFrozen s || s.tier.learning then s
    else if detMode s = 2 then queueDecision s (part * 4 + tier % 4) 3
    else demoteQuotaNow s part tier)

/-- DEMAND_MOVE_UP (R204, R205): the move-up of a bolt that is asked for and is the next of its channel is opened. -/
def execDemandMoveUp (bolt : Nat) (s : State) : Res :=
  .next (if s.tier.upQueue.contains bolt then openMoveUp s bolt else s)

/-- Does a move wait for no budget (R195, R215)? -/
def unbudgeted : MoveCause → Bool
  | .demand => true
  | .retire => true
  | _ => false

/-- The classes of R195, in the order of precedence. -/
def moveRank : MoveCause → Nat
  | .demand => 0
  | .retire => 0
  | .need => 1
  | .stream => 2
  | .evict => 3
  | .promote => 4
  | .hint => 4
  | .demote => 5

/-- Does a move count against MOVE_BUDGET_LC, its one end being the Cellar, or against MOVE_BUDGET_PL (R195)? -/
def budgetLC (s : State) (m : Move) : Bool := m.tier == 3 || (getBolt s m.bolt).home == 3

/-- What is left over of a budget, in 1/200 B. -/
def allowance (s : State) (lc : Bool) : Int := if lc then s.tier.allowLC else s.tier.allowPL

/-- Set it. -/
def setAllowance (s : State) (lc : Bool) (n : Int) : State :=
  { s with tier := if lc then { s.tier with allowLC := n } else { s.tier with allowPL := n } }

/-- Copy what a budget allows of the lines of one move (R171 steps 2 to 4): 64 B a line. -/
def copyMove (s : State) (m : Move) : State :=
  let lc := budgetLC s m
  let n := (allowance s lc / 12800).toNat
  let r := m.copy 8 n
  let s := setAllowance s lc (allowance s lc - 12800 * ((n - r.1 : Nat) : Int))
  { s with tier := { s.tier with moves := s.tier.moves.map (fun k => if k.bolt = m.bolt then r.2 else k) } }

/-- What one tick of 10 ns adds to a budget: half while any stack is HOT (R202). A budget saves up no more than a line and a tick's worth. -/
def refill (s : State) (lc : Bool) : State :=
  let hot := s.pwr.hot105 || (upTo 6).any (fun u => (sget (fun _ => ({ state := 0, changedAt := none } : TierHeat)) s.tier.stackHeat u).state == 2)
  let inc : Int := (num s 0x2301 (if lc then 9 else 8) * (if hot then 1 else 2) : Nat)
  setAllowance s lc (min (allowance s lc + inc) (12800 + inc))

/-- One tick of the moves (R171, R195): the lines that the budgets allow are copied, in the order of precedence. -/
def copyTick (s : State) : State :=
  if s.tier.moves.isEmpty then s
  else
    let s := refill (refill s true) false
    forS [1, 2, 3, 4, 5] s (fun s k => forS (s.tier.moves.filter (fun m => moveRank m.cause == k)) s copyMove)

/-- MOVE_CUTOVER (R171 step 5, R174, R206): `badUnits` are the 4 KiB units of a Cellar source that failed every
retry, `retries` the blocks read with retries. A move of a fenced partition's or a released region's bolt is abandoned; one whose lines the budgets have not let be copied goes on. -/
def execMoveCutover (bolt badUnits : Nat) (retries : List (Nat × Int)) (s : State) : Res :=
  .next (match s.tier.moves.find? (fun m => m.bolt == bolt) with
    | none => s
    | some m =>
      let x := getBolt s bolt
      if !partExists s x.part || !(getRegion s x.region).valid then abandonMove s bolt
      else if !unbudgeted m.cause && !m.copied then s
      else
        let lc := budgetLC s m
        let s := if m.cause == .demand then setAllowance s lc (allowance s lc - 12800 * 1024) else s
        let s := if x.home = 3 then cellarUnits (flashRetries s bolt retries) bolt (bitsOf badUnits 16) else s
        fin (cutover s bolt))

/-- MOVE_SOURCE_FREE (R171 step 6, R174): the requests checked before the cutover have completed; a Parlour or Larder slot then waits for its zero-fill. -/
def execMoveSourceFree (tier slot : Nat) (s : State) : Res :=
  .next (match s.tier.freed.find? (fun f => f.tier == tier && f.slot == slot && !f.ready) with
    | none => s
    | some f =>
      if f.waits.any (inHand s) then s
      else freeSlot { s with tier := { s.tier with freed := s.tier.freed.filter (fun g => g != f) } } tier slot f.part)

/-- LEARN_END (R200). -/
def execLearnEnd (s : State) : Res :=
  .next (if s.tier.learning && num s 0x2303 4 ≤ s.tier.learnAccesses && due s s.tier.learnStart (msT (num s 0x2303 5))
    then { s with tier := { s.tier with learning := false } } else s)

/-- Give the bolt of a written-back line a slot, and the line its place there (log entry 79). -/
def lateSlot (s : State) (e : Nat × Nat) : Option State :=
  if (getBolt s (e.1 / 1024)).home ≠ 0 then none
  else
    match regionOf s (e.1 * 64) with
    | none => none
    | some r =>
      (allocBolt s (e.1 / 1024) r e.2).map (fun s =>
        if (getBolt s (e.1 / 1024)).home = 3 then askMoveUp s (e.1 / 1024)
        else { s with tier := { s.tier with late := s.tier.late.filter (fun x => x.1 / 1024 != e.1 / 1024) } })

/-- ALLOC_SLOT_FREED (R192): the first write that waits for a slot and can now have one is performed. -/
def execAllocSlotFreed (s : State) : Res :=
  .next (match s.acc.held.find? (fun h => h.why == .slot &&
      (match regionOf s h.req.head.addr with
       | some r => (ensureBolt s r h.req.head.addr h.req.head.kind h.req.head.unit).isSome
       | none => true)) with
    | some h => fin (advance s h)
    | none =>
      match s.tier.late.findSome? (lateSlot s) with
      | some s => fin s
      | none => s)

/-- A write of PLACE_HINT (R199). -/
def writeHint (s : State) (b : Bytes) : WriteOut :=
  let off := bfld b 0 8
  let len := bfld b 8 8
  let t := bfld b 16 1
  if b.length ≠ 24 then refuse s abTYPE
  else if off % 65536 ≠ 0 || len % 65536 ≠ 0 || s.tier.unifiedSize < off + len || !(t = 1 || t = 2) then refuse s abRANGE
  else
    let s := { s with tier := { s.tier with hints := s.tier.hints ++ [{ first := off / 65536, count := len / 65536, tier := t }] } }
    applied (if placeFrozen s || detMode s = 2 then s else doHints s)

/-- PLACE_HINT (R199). -/
def execPlaceHint (w : Writer) (value : Bytes) (s : State) : Res := endWrite w (writeHint s value)

/-- The value of a BOOL write, or its abort code. -/
def boolWrite (s : State) (b : Bytes) (f : Bool → WriteOut) : WriteOut :=
  if b.length ≠ 1 then refuse s abTYPE
  else if 1 < leNat b then refuse s abRANGE
  else f (leNat b == 1)

/-- A write of PLACE_RESET (R200). -/
def writePlaceReset (s : State) (b : Bytes) : WriteOut :=
  boolWrite s b (fun v =>
    if !v then applied s
    else
      let s := forS (s.tier.map.map (·.1)) s (fun s k => setBolt s k { getBolt s k with heat := 0, age := 0 })
      applied { s with tier := { s.tier with learning := true, learnAccesses := 0, learnStart := s.det.now } })

/-- PLACE_RESET (R200). -/
def execPlaceReset (w : Writer) (value : Bytes) (s : State) : Res := endWrite w (writePlaceReset s value)

/-- A write of PLACE_FREEZE (R197). -/
def writePlaceFreeze (s : State) (b : Bytes) : WriteOut :=
  boolWrite s b (fun v =>
    let s := setNum s 0x2301 1 (b2n v)
    applied (if placeFrozen s || detMode s = 2 then s else doHints s))

/-- PLACE_FREEZE (R197). -/
def execPlaceFreeze (w : Writer) (value : Bytes) (s : State) : Res := endWrite w (writePlaceFreeze s value)

/-- Bolts homed in a unit. -/
def unitBolts (s : State) (t u : Nat) : List Nat :=
  (s.tier.map.filter (fun e => e.2.home == t && unitOfSlot s t e.2.slot == u)).map (·.1)

/-- A write of EVACUATE (R217): refused when the remaining slots cannot hold the allocated bolts. -/
def writeEvacuate (s : State) (b : Bytes) : WriteOut :=
  if b.length ≠ 1 then refuse s abTYPE
  else
    let s' := setNum s 0x2301 0x0D (leNat b % 16)
    let closed := fun (t : Nat) => (upTo (tierUnits t)).filter (fun u => evacuated s' t u && !evacuated s t u)
    let out := [1, 2, 3].foldl (fun l t => l ++ (closed t).foldl (fun l u => l ++ unitBolts s t u) []) []
    if tierFree s' 1 + tierFree s' 2 + tierFree s' 3 < out.length then refuse s abINCONS
    else applied (forS out s' (fun s b => moveOut s b .retire))

/-- EVACUATE (R217). -/
def execEvacuate (w : Writer) (value : Bytes) (s : State) : Res := endWrite w (writeEvacuate s value)

/-- A write of BOLT_QUERY (R219), held for the session. -/
def writeBoltQuery (s : State) (w : Writer) (b : Bytes) : WriteOut :=
  if b.length ≠ 8 then refuse s abTYPE
  else applied (setSess s w.slot { getSess s w.slot with boltQuery := leNat b })

/-- BOLT_QUERY (R219). -/
def execBoltQuery (w : Writer) (value : Bytes) (s : State) : Res := endWrite w (writeBoltQuery s w value)

/-- The bolt map entry of Table 4.2. -/
def boltEntry (s : State) (b : Nat) : Bytes :=
  let x := getBolt s b
  let cp := (x.cellarBad.map (unitOfLine x.tile)).foldl setBit 0
  toLe 8 (x.home + 4 * b2n x.moving + 8 * b2n (x.pins != 0) + 16 * b2n x.tile + 256 * x.age + 65536 * x.heat +
      2 ^ 24 * x.part + 2 ^ 30 * x.quad + 2 ^ 32 * x.slot) ++
    toLe 8 (cp + 65536 * x.region + 2 ^ 32 * x.lastMove)

/-- PATROL_SCRUB (R213 to R215): an allocated Parlour or Larder slot is read once in PATROL_HOURS. -/
def execPatrolScrub (bolt : Nat) (found : ScrubFind) (s : State) : Res :=
  let x := getBolt s bolt
  let key := x.home * 2 ^ 32 + x.slot
  let last := sget (fun _ => 0) s.tier.scrubs key
  let lines := fun (l : List Nat) => l.filter (fun k => decide (k < 1024))
  .next (if !(x.home = 1 || x.home = 2) || (last ≠ 0 && !due s (last - 1) (secT (3600 * num s 0x230A 1))) then s
    else lineErrors { s with tier := { s.tier with scrubs := sput (fun _ => 0) s.tier.scrubs key (s.det.now + 1) } } bolt (lines found.corrected) (lines found.badLines))

/-- The state after a reading (R201): thresholds up, HYST_C below them down. -/
def nextHeat (s : State) (cur : Nat) (c : Int) : Nat :=
  let w := toSigned 8 (num s 0x2306 1)
  let h := toSigned 8 (num s 0x2306 2)
  let y : Int := num s 0x2306 3
  let up := if h ≤ c then 2 else if w ≤ c then 1 else 0
  let stay := if cur = 2 && h - y ≤ c then 2 else if 1 ≤ cur && w - y ≤ c then 1 else 0
  max up stay

/-- TIER_THERMAL (R201): a state changes at most once per 100 ms, and source 7 latches the change. -/
def execTierThermal (larder : Bool) (unit : Nat) (tempC : Int) (s : State) : Res :=
  let d := fun (_ : Nat) => ({ state := 0, changedAt := none } : TierHeat)
  let n := if larder then 16 else 6
  let old := sget d (if larder then s.tier.larderHeat else s.tier.stackHeat) unit
  let new := nextHeat s old.state tempC
  if n ≤ unit || new = old.state || (match old.changedAt with | some t => !due s t (msT 100) | none => false) then .next s
  else
    let v : TierHeat := { state := new, changedAt := some s.det.now }
    .next (latch (if larder then { s with tier := { s.tier with larderHeat := sput d s.tier.larderHeat unit v } }
      else { s with tier := { s.tier with stackHeat := sput d s.tier.stackHeat unit v } }) 7)

/-- SLOT_SCRUBBED (R174, R624): a freed slot's zero-fill or erase ends, and the slot returns to the pool. -/
def scrubSlot (s : State) (tier slot : Nat) : State :=
  { s with tier := { s.tier with freed := s.tier.freed.filter (fun f => !(f.tier == tier && f.slot == slot && f.ready)) } }

/-- A stream window's run. -/
def getStream (s : State) (w : Nat) : StreamRun := sget (fun _ => StreamRun.reset) s.tier.streams w

/-- Set it. -/
def setStream (s : State) (w : Nat) (x : StreamRun) : State :=
  { s with tier := { s.tier with streams := sput (fun _ => StreamRun.reset) s.tier.streams w x } }

/-- STR_DESC fields (Table 4.6). -/
def strDesc (s : State) (w : Nat) : Bytes := blob s 0x2320 (w + 1)
def strRegion (s : State) (w : Nat) : Nat := bfld (strDesc s w) 0 2
def strW (s : State) (w : Nat) : Nat := bfld (strDesc s w) 2 1
def strCycle (s : State) (w : Nat) : Bool := bit (bfld (strDesc s w) 3 1) 0
def strReadyEn (s : State) (w : Nat) : Bool := bit (bfld (strDesc s w) 3 1) 1
def strL (s : State) (w : Nat) : Nat := bfld (strDesc s w) 4 2
def strLen (s : State) (w : Nat) : Nat := bfld (strDesc s w) 6 2

/-- First bolt of layer `k`, relative to the region. -/
def strLayer (s : State) (w k : Nat) : Nat := bfld (blob s 0x2321 (w + 1)) (4 * k) 4

/-- The bolts of a layer. -/
def layerBolts (s : State) (w k : Nat) : List Nat :=
  let base := (getRegion s (strRegion s w)).base / 65536
  (s.tier.map.map (·.1)).filter (fun b => decide (base + strLayer s w k ≤ b) && decide (b < base + strLayer s w (k + 1)))

/-- The layer at a schedule position. -/
def layerAt (s : State) (w q : Nat) : Nat := bfld (blob s 0x2322 (w + 1)) (2 * (q % strLen s w)) 2

/-- The positions of the window at position `c` (R209). -/
def windowPos (s : State) (w c : Nat) : List Nat :=
  ((upTo (strW s w)).map (c + ·)).filter (fun q => strCycle s w || decide (q < strLen s w))

/-- Is every allocated bolt of a layer in the Parlour? -/
def layerResident (s : State) (w k : Nat) : Bool :=
  (layerBolts s w k).all (fun b => (getBolt s b).home == 1 && !(getBolt s b).moving)

/-- Pin a bolt for a window, once. -/
def pinBolt (s : State) (w b : Nat) : State :=
  let x := getStream s w
  if x.pinned.contains b then s
  else setStream (setBolt s b { getBolt s b with pins := (getBolt s b).pins + 1 }) w { x with pinned := x.pinned ++ [b] }

/-- Release the pins of bolts that the window keeps no more; they become the first victims (R210). -/
def unpinBolts (s : State) (w : Nat) (keep : Nat → Bool) : State :=
  let x := getStream s w
  let s := forS (x.pinned.filter (fun b => !keep b)) s (fun s b =>
    setBolt s b { getBolt s b with pins := (getBolt s b).pins - 1, age := 255 })
  setStream s w { x with pinned := x.pinned.filter keep }

/-- Bring the bolts of the layer being fetched into the Parlour (R209). -/
def fetchBolts (s : State) (w k : Nat) : State :=
  forS (layerBolts s w k) s (fun s b =>
    let s := pinBolt s w b
    let x := getBolt s b
    if x.home = 1 || x.moving || !roomIn s x.part 1 then s
    else
      let r := pickCool s 1 x.quad 2 (fun _ => true)
      match r.1 with
      | some slot => startMove r.2 b 1 slot .stream
      | none => r.2)

/-- Start the fetch of the next layer of the window, if none is in progress (R209). -/
def startFetch (s : State) (w : Nat) : State :=
  let x := getStream s w
  if x.run ≠ 3 || x.fetching.isSome then s
  else
    match ((windowPos s w x.pos).map (layerAt s w)).find? (fun k => !x.fetched.contains k) with
    | none => s
    | some k => fetchBolts (setStream s w { x with fetching := some k }) w k

/-- Store the ready word when it rises (R211). -/
def storeReady (s : State) (w : Nat) : State :=
  let x := getStream s w
  let ok := (windowPos s w x.pos).takeWhile (fun q => x.fetched.contains (layerAt s w q) && layerResident s w (layerAt s w q))
  let v := x.pos + ok.length
  if ok.isEmpty || v ≤ x.ready then s
  else
    let s := setStream s w { x with ready := v }
    if strReadyEn s w then
      submitOwn s 6 0 (mkCid (getRegion s (strRegion s w)).owner 0) (endpointId s * 2 ^ 48 + bfld (strDesc s w) 16 8 % 2 ^ 48)
        (.store (toLe 8 v) false) .none
    else s

/-- Does an 8 B word lie in a valid ORD region of an owner (R208)? -/
def ordWord (s : State) (a p : Nat) : Bool :=
  match regionAt s a with
  | some r => (getRegion s r).kind == 1 && (getRegion s r).owner == p && a % 8 == 0
  | none => false

/-- May a window start (R208)? -/
def strStartable (s : State) (w : Nat) : Bool :=
  let r := strRegion s w
  let g := getRegion s r
  let l := strL s w
  let layers := upTo l
  let largest := (layers.map (fun k => strLayer s w (k + 1) - strLayer s w k)).foldl max 0
  let other := (s.tier.map.filter (fun e => e.2.part == g.owner && e.2.pins != 0 && !(getStream s w).pinned.contains e.1)).length
  decide (r < 4096) && g.valid && g.kind == 6 && decide (g.base < landBase) &&
  (blob s 0x2321 (w + 1)).length == 4 * (l + 1) && layers.all (fun k => decide (strLayer s w k < strLayer s w (k + 1))) &&
  decide (strLayer s w l * 65536 ≤ g.size) && (blob s 0x2322 (w + 1)).length == 2 * strLen s w &&
  (upTo (strLen s w)).all (fun q => decide (bfld (blob s 0x2322 (w + 1)) (2 * q) 2 < l)) &&
  decide (1 ≤ strW s w) && decide (strW s w ≤ 64) && decide (1 ≤ l) && decide (l ≤ 1024) && decide (1 ≤ strLen s w) &&
  decide (strLen s w ≤ 1024) && ordWord s (bfld (strDesc s w) 8 8) g.owner &&
  (!strReadyEn s w || ordWord s (bfld (strDesc s w) 16 8) g.owner) &&
  decide (strW s w * largest + other ≤ quota s g.owner 1)

/-- A write of START to STR_CMD (R208). -/
def strStart (s : State) (w : Nat) : WriteOut :=
  if 64 ≤ w || !strStartable s w then refuse s abINCONS
  else
    let s := unpinBolts s w (fun _ => false)
    applied (startFetch (setStream s w { run := 3, pos := 0, ready := 0, fetched := [], fetching := none, pinned := [], writes := [] }) w)

/-- A write of STOP to STR_CMD (R208). -/
def strStop (s : State) (w : Nat) : WriteOut :=
  let x := getStream s w
  applied (if x.run = 3 then setStream s w { x with run := 2, fetching := none } else s)

/-- STR_START (R208). -/
def execStrStart (w : Writer) (window : Nat) (s : State) : Res := endWrite w (strStart s window)

/-- STR_STOP (R208). -/
def execStrStop (w : Writer) (window : Nat) (s : State) : Res := endWrite w (strStop s window)

/-- STR_STOP_END (R208): a STOPPING window releases its pins and is STOPPED. -/
def execStrStopEnd (window : Nat) (s : State) : Res :=
  .next (if (getStream s window).run = 2 then
      let s := unpinBolts s window (fun _ => false)
      setStream s window { getStream s window with run := 1 }
    else s)

/-- A value committed to the advance word moves the position of a running window (R210): layers that leave the window are released. -/
def advanceTo (s : State) (w v0 : Nat) : State :=
  let x := getStream s w
  if x.run ≠ 3 || v0 ≤ x.pos then s
  else
    let v := if strCycle s w then v0 else min v0 (strLen s w)
    let whole := decide (x.pos + strW s w < v0)
    let keepL := if whole then [] else (windowPos s w v).map (layerAt s w)
    let s := unpinBolts s w (fun b => keepL.any (fun k => (layerBolts s w k).contains b))
    let x := getStream s w
    let f := match x.fetching with
      | some k => if keepL.contains k then some k else none
      | none => none
    let s := setStream s w { x with pos := v, fetched := x.fetched.filter keepL.contains, fetching := f }
    storeReady (startFetch s w) w

/-- STR_ADVANCE (R210): the values committed to the advance word since are taken in order. -/
def execStrAdvance (window : Nat) (s : State) : Res :=
  let x := getStream s window
  .next (if x.writes.isEmpty then s
    else fin (forS x.writes (setStream s window { x with writes := [] }) (fun s v => advanceTo s window v)))

/-- STR_LAYER_FETCHED (R209, R211): the fetch in progress ends once its bolts are in the Parlour; bolts that
found no slot are tried again. -/
def execStrLayerFetched (window : Nat) (s : State) : Res :=
  let x := getStream s window
  .next (match x.fetching with
    | none => s
    | some k =>
      if layerResident s window k then
        let s := setStream s window { x with fetching := none, fetched := x.fetched ++ [k] }
        fin (startFetch (storeReady s window) window)
      else fetchBolts s window k)

end Sys2Proof.Machine
end

