-- ==== Sys2Proof/Machine/CohRows.lean ====
section
/-! DEFINITION. The home's side of coherence (ch. 5): requests and answers of agents, waiting transactions, region recalls, admitting, detaching and expelling agents, and the directory's errors and queries. -/
namespace Sys2Proof.Machine

/-- Does a message come from the agent it names, by a way that R222 accepts? -/
def fromAgent (s : State) (m : CohMsg) : Bool :=
  if m.agent < 4 then m.port == 0xFF && clusterAdmitted s m.agent
  else (getAgent s m.agent).v && (getAgent s m.agent).ep == m.ep && innerTrf s m.port

/-- Did a REQ come by a port (the others are the clusters')? -/
def byPort (m : CohMsg) : Bool := decide (m.port < 32)

/-- Answer a REQ: at the port it came by to the endpoint it came from, whatever agent it names (log entry 98), or to its cluster. -/
def answerReq (s : State) (m : CohMsg) (cls op : Nat) (x : CohMsg) : State :=
  if byPort m then
    queueTx { s with out := .toAgent cls op m.agent x :: s.out } m.port cls (some (cidPart m.cid))
      (cohWire cls op (endpointId s) s.route.epoch { x with agent := 0xFF } m.ep)
  else toAgent s cls op m.agent x

/-- A REQ ends without a grant (R766): CMP with GRANT I and a status. -/
def endReq (s : State) (m : CohMsg) (status : Nat) : State :=
  answerReq s m 3 2 { cohBlank (lineOf m.line) m.tag m.cid with status := status }

/-- A REQ reads as zeros: DATA_HOME, GRANT I, OK (R17, R222). -/
def zeroReq (s : State) (m : CohMsg) : State := answerReq s m 4 1 { cohBlank (lineOf m.line) m.tag m.cid with data := zeros 64 }

/-- A REQ that is a violation (R222): the unit is the port for kinds 2, 3 and 7 (Table 14.2). -/
def reqViolation (s : State) (m : CohMsg) (k : TxnKind) (kind region : Nat) : State :=
  let unit := if kind = 2 || kind = 3 || kind = 7 then (if byPort m then m.port else 0xFF) else if byPort m then 0 else 5
  zeroReq (violation s (some m.cid) (violReq kind unit (reqOpcode k) 1 m.cid (if byPort m then m.ep else endpointId s) m.line region)) m

/-- Is a line's bolt homed in the Cellar (R204)? -/
def inCellar (s : State) (ln : Nat) : Bool := (getBolt s (ln / 1024)).home == 3

/-- What the Vestibule of its port says to a REQ (R26): it ends it, or passes it on. -/
inductive ReqGate where
  | back (s : State)
  | pass (s : State)

/-- The epoch check (R152), the CID check of the port (R126), and whether an inner link negotiated COH (R579); a REQ by an outer link is one that R222 does not accept (log entry 96). -/
def reqGate (s : State) (m : CohMsg) (k : TxnKind) : ReqGate :=
  if !byPort m then .pass s
  else
    let e := epochOk s m.epoch
    if !e.1 then .back (endReq (bump s 0x2201 4) m 4)
    else
      let s := if e.2 then bump s 0x2201 5 else s
      if !bit (num s 0x2204 (m.port + 1)) (cidPart m.cid) then .back (reqViolation s m k 2 0xFFFF)
      else if innerTrf s m.port && !portFeature s m.port 1 then .back (endReq s m 6)
      else .pass s

/-- Does the home read a REQ's line from memory (Table 5.6)? -/
def readsMemory (s : State) (m : CohMsg) (k : TxnKind) : Bool :=
  match dirGet s (lineOf m.line) with
  | none => true
  | some e =>
    match e.st with
    | 4 => true
    | 1 => false
    | _ => k == .peek || (!(e.leadV && e.lead != m.agent) && !(k == .upgrade && e.st == 2 && e.sharers.contains m.agent))

/-- The transaction of a REQ, under the LOST_POLICY of the descriptor it was checked under (R118). -/
def reqTxn (s : State) (m : CohMsg) (k : TxnKind) (pol : Bool) : WaitTxn :=
  { line := lineOf m.line, kind := k, agent := m.agent, tag := m.tag, cid := m.cid, since := s.det.now, pol := pol }

/-- A REQ at the home (R222, R223, R225, R242, R256): the first status of R20's order that applies ends it; one whose bolt is homed in the Cellar waits for the
move-up (R204). -/
def cohServe (s : State) (m : CohMsg) (k : TxnKind) : State :=
  let ln := lineOf m.line
  match placeOf s m.line with
  | .reserved => zeroReq s m
  | .window => endReq s m 6
  | .pool => reqViolation s m k 1 0xFFFF
  | .control p _ => if cidPart m.cid = p && partExists s p then endReq s m 6 else reqViolation s m k 4 0xFFFF
  | .memory =>
    match checkMem s m.cid (ln * 64) 64 (k == .rdOwn || k == .upgrade) with
    | none => reqViolation s m k 1 ((regionAt s (ln * 64)).getD 0xFFFF)
    | some r =>
      if inBasting s r (ln * 64) 64 then reqViolation s m k 1 r
      else if boltDead s r m.cid m.ep (ln * 64) then endReq s m 1
      else if (byPort m && (getAgent s m.agent).cacheless && k != .peek) || (getRegion s r).kind ≠ 0 || isCopy s r then endReq s m 6
      else
        let w := reqTxn s m k (getRegion s r).lostPolicy
        let s := reachFrom (countReq s k) (agentQuad s m.agent) (ln * 64)
        match boltBelow s r m.cid m.ep (ln * 64) with
        | some b => waitTxn (askMoveUp (bump s 0x2309 5) b) w
        | none => submitTxn (if readsMemory s m k then readError s (ln * 64) m.ecc else s) w

/-- The port of a REQ, for its trackers. -/
def reqPort (m : CohMsg) : Option Nat := if byPort m then some m.port else none

/-- Give back the credit of a REQ that moves on (R155, R578). -/
def reqCredit (s : State) (m : CohMsg) (owed : Bool) : State := if owed then giveCredit s m.port 1 else s

/-- A REQ whose address lies in the window range: admitted to its window it completes UNSUP; else it is a violation (R145). -/
def reqWindow (s : State) (m : CohMsg) (k : TxnKind) : State :=
  match windowAt s m.line with
  | none => reqViolation s m k 3 0xFFFF
  | some w => if windowUser s w (cidPart m.cid) then endReq s m 6 else reqViolation s m k 3 0xFFFF

/-- A REQ that has passed its Vestibule (R222): its agent, its window, then a tracker, for which it waits in its Vestibule (R155). -/
def reqOn (s : State) (owed : Bool) (m : CohMsg) (k : TxnKind) : State :=
  if !fromAgent s m || (byPort m && (getAgent s m.agent).part ≠ cidPart m.cid) then reqViolation (reqCredit s m owed) m k 7 0xFFFF
  else
    match placeOf s m.line with
    | .window => reqWindow (reqCredit s m owed) m k
    | _ =>
      if trackerFree s (reqPort m) m.line then cohServe (reqCredit s m owed) m k
      else { s with
        acc := { s.acc with nextSeq := s.acc.nextSeq + 1 }
        coh := { s.coh with trackWait := s.coh.trackWait ++ [{ seq := s.acc.nextSeq, msg := m, kind := k, owed := owed }] } }

/-- A REQ arrives, holding its port's credit or none (R26, R155). -/
def cohReqBy (s : State) (owed : Bool) (m : CohMsg) (k : TxnKind) : State :=
  match reqGate s m k with
  | .back s => reqCredit s m owed
  | .pass s => reqOn s owed m k

/-- A REQ arrives. -/
def cohReq (s : State) (m : CohMsg) (k : TxnKind) : State := cohReqBy s false m k

/-- The first request and the first REQ that wait for a tracker of a bank: which came first. -/
def nextTracker (s : State) (bank : Nat) : Option (Held ⊕ TrackReq) :=
  match s.acc.held.find? (fun h => h.why == .tracker && bankOf s h.req.head.addr == bank), s.coh.trackWait.find? (fun t => bankOf s t.msg.line == bank) with
  | some h, some t => some (if h.seq < t.seq then .inl h else .inr t)
  | some h, none => some (.inl h)
  | none, some t => some (.inr t)
  | none, none => none

/-- TRACKER_ALLOCATE (R155): the first request that waits for a tracker of the bank takes one, if there is one for it, and moves on. -/
def execTrackerAllocate (bank : Nat) (s : State) : Res :=
  .next (match nextTracker s bank with
    | none => s
    | some (.inl h) => if trackerFree s (portOf h.req.head) h.req.head.addr then fin (rehold s h (.ready none) false) else s
    | some (.inr t) =>
      if trackerFree s (reqPort t.msg) t.msg.line then
        fin (reqOn { s with coh := { s.coh with trackWait := s.coh.trackWait.filter (fun x => x.seq != t.seq) } } t.owed t.msg t.kind)
      else s)

/-- RD_S (R242). -/
def execRdS (m : CohMsg) (s : State) : Res := .next (fin (cohReq s m .rdS))

/-- RD_OWN (R242). -/
def execRdOwn (m : CohMsg) (s : State) : Res := .next (fin (cohReq s m .rdOwn))

/-- UPGRADE (R242). -/
def execUpgrade (m : CohMsg) (s : State) : Res := .next (fin (cohReq s m .upgrade))

/-- RD_PEEK (R242). -/
def execRdPeek (m : CohMsg) (s : State) : Res := .next (fin (cohReq s m .peek))

/-- SLICE_TXN_START (R240): the line is free, and the first transaction that waits for it begins. -/
def execSliceTxnStart (line : Nat) (s : State) : Res :=
  .next (if inCellar s (lineOf line) then s else fin (startWaiting s (lineOf line)))

/-- An answer of an agent that is UNRESPONSIVE returns it to ACTIVE (R260). -/
def answers (s : State) (a : Nat) : State :=
  if a < 4 then { s with coh := { s.coh with unresponsive := s.coh.unresponsive.filter (· ≠ a) } }
  else if (getAgent s a).st = 2 then setAgent s a { getAgent s a with st := if s.coh.detachWrites.any (fun d => d.1 == a) then 3 else 1 }
  else s

/-- What is done with an answer or a writeback before the directory looks at it (R223, R262): one from an agent that has left is discarded and counted, with WB_ACK for a writeback
(R255); one that does not come from the agent it names is a protocol error. -/
def fromHolder (s : State) (m : CohMsg) (op cls : Nat) (wb : Bool) (go : State → State) : State :=
  if !admitted s m.agent then
    let s := bump s 0x2401 8
    if wb then answerReq s m 3 5 (cohBlank (lineOf m.line) 0 0) else s
  else if !fromAgent s m then protocolError s m.agent op cls m.port
  else go s

/-- SNP_ACK or SNP_DATA at the home (R223, R243, R262). -/
def snoopReply (s : State) (m : CohMsg) (data : Option (Bytes × Bool)) (op cls : Nat) : State :=
  fromHolder s m op cls false (fun s =>
    match txnGet s (lineOf m.line) with
    | none => protocolError s m.agent op cls m.port
    | some t =>
      if t.snoops.any (fun x => x.1 == m.agent) then snoopAnswer (answers s m.agent) (lineOf m.line) m.agent m.state m.flag data
      else protocolError s m.agent op cls m.port)

/-- SNP_ACK (R243). -/
def execSnpAck (m : CohMsg) (s : State) : Res := .next (fin (snoopReply s m none 1 3))

/-- SNP_DATA (R243): status POISON makes the line poisoned (R266). -/
def execSnpData (m : CohMsg) (s : State) : Res :=
  .next (fin (snoopReply s { m with flag := false } (some (slice m.data 0 64, m.status == 2)) 3 4))

/-- CMP_ACK at the home, which may come before the answer of the holder that has forwarded the line (R241). -/
def takeCmpAck (s : State) (m : CohMsg) : State :=
  fromHolder s m 3 3 false (fun s =>
    match txnGet s (lineOf m.line) with
    | none => protocolError s m.agent 3 3 m.port
    | some t => if awaitsAck t m.agent then cmpAck s (lineOf m.line) m.agent else protocolError s m.agent 3 3 m.port)

/-- CMP_ACK (R241). -/
def execCmpAck (m : CohMsg) (s : State) : Res := .next (fin (takeCmpAck s m))

/-- A writeback at the home; one of an agent that has left is acknowledged and discarded (R255, R262). -/
def takeWriteback (s : State) (m : CohMsg) (dirty : Bool) : State :=
  fromHolder s m 4 (if dirty then 4 else 3) true (fun s =>
    writeback s (lineOf m.line) m.agent dirty (dirty && m.flag) (slice m.data 0 64) (m.status == 2))

/-- WB_DIRTY (R251). -/
def execWbDirty (m : CohMsg) (s : State) : Res := .next (fin (takeWriteback s m true))

/-- EVICT_CLEAN (R251). -/
def execEvictClean (m : CohMsg) (s : State) : Res := .next (fin (takeWriteback s m false))

/-- A write of REGION_RECALL (R258, R270). -/
def writeRecall (s : State) (w : Writer) (b : Bytes) : WriteOut :=
  let r := leNat b
  if b.length ≠ 2 then refuse s abTYPE
  else if !((getRegion s r).valid && (getRegion s r).base < landBase) then refuse s abINCONS
  else .wait (askRecall s { region := r, scope := none, write := some (waiting s w 1), new := none })

/-- REGION_RECALL (R258). -/
def execRegionRecall (w : Writer) (value : Bytes) (s : State) : Res := endWrite w (writeRecall s w value)

/-- REGION_RECALL_END (R258): the recall in progress has ended, its write is answered, and the next begins. -/
def execRegionRecallEnd (s : State) : Res :=
  .next (match s.coh.recalls with
    | [] => s
    | c :: rest =>
      if recallEnded s then
        let s := bump { s with coh := { s.coh with recalls := rest } } 0x2402 2
        let s := match c.new with
          | some g => setChanged s c.region g
          | none => s
        let s := match c.write with
          | some w => answerWaiting s w 0
          | none => s
        fin (beginRecall s)
      else s)

/-- SNP_TIMEOUT (R260): the agent is UNRESPONSIVE, which an agent that is so already stays; the transaction goes on waiting. -/
def execSnpTimeout (line agent : Nat) (s : State) : Res :=
  .next (match txnGet s (lineOf line) with
    | none => s
    | some t =>
      match t.snoops.find? (fun x => x.1 == agent) with
      | none => s
      | some (_, _, at_) =>
        if !due s at_ (usT (num s 0x2400 3)) || (if agent < 4 then s.coh.unresponsive.contains agent else (getAgent s agent).st == 2) then s
        else
          let s := bump s 0x2401 0x0E
          let s := if agent < 4 then { s with coh := { s.coh with unresponsive := ninsert s.coh.unresponsive agent } }
            else setAgent s agent { getAgent s agent with st := 2 }
          latch (noteFault s 0x12 (resId 10 agent) (if agent < 4 then 0xFF else (getAgent s agent).part) 0xFF (lineOf line * 64) []) 3)

/-- Answer the writes that wait for the end of an agent's detach. -/
def answerDetach (s : State) (a : Nat) : State :=
  let mine := s.coh.detachWrites.filter (fun d => d.1 == a)
  let s := { s with coh := { s.coh with detachWrites := s.coh.detachWrites.filter (fun d => d.1 != a) } }
  forS mine s (fun s d => answerWaiting s d.2 0)

/-- Recover an agent (R262), with the end of its lease and of a detach that waited for it. -/
def expelAgent (s : State) (a : Nat) : State :=
  if !(getAgent s a).v then s
  else
    let x := getAgent s a
    answerDetach (endLease (recoverAgent s a) x.ep x.part) a

/-- A write of AGENT_EXPEL (R262, R270). -/
def writeExpel (s : State) (b : Bytes) : WriteOut :=
  if b.length ≠ 1 then refuse s abTYPE
  else if leNat b < 4 then refuse s abRANGE
  else applied (expelAgent s (leNat b))

/-- AGENT_EXPEL (R262). -/
def execAgentExpel (w : Writer) (value : Bytes) (s : State) : Res := endWrite w (writeExpel s value)

/-- The 16 bytes of an agent descriptor (Table 5.12), as read (R271). -/
def agentBytes (s : State) (a : Nat) : Bytes :=
  if a < 4 then
    toLe 8 (endpointId s % 65536 + 0xFF * 65536 + 2 ^ 24 * b2n (clusterAdmitted s a) + 64 * 2 ^ 40) ++ zeros 8
  else
    let x := getAgent s a
    toLe 8 (x.ep + x.port * 65536 + 2 ^ 24 * b2n x.v + 2 ^ 25 * b2n x.cacheless + 2 ^ 32 * x.part + 2 ^ 40 * x.credits) ++ zeros 8

/-- The lines of which an agent is a holder that the directory can name, but those in SC that have been recalled from it since. -/
def agentLines (s : State) (a : Nat) : List Nat :=
  (s.coh.dir.filter (fun e => (holders s e.2).contains a && (e.2.st != 3 || (e.2.leadV && e.2.lead == a) || !s.coh.swept.contains (a, e.1)))).map (·.1)

/-- Does a transaction in progress, or a request that waits, still concern an agent (R263, R710)? -/
def agentBusy (s : State) (a : Nat) : Bool :=
  s.coh.waits.any (fun w => w.agent == a || (w.kind == .detach && w.cid == a)) ||
  s.coh.txns.any (fun e => e.2.agent == a || e.2.snoops.any (fun x => x.1 == a) || e.2.wbWait.any (fun x => x.1 == a))

/-- Recall every line that an agent holds (R263), but those that a recall for it is at already. -/
def detachLines (s : State) (a : Nat) : State :=
  forS (agentLines s a) s (fun s ln =>
    if (match txnGet s ln with | some t => t.kind == .detach && t.cid == a | none => false) || s.coh.waits.any (fun w => w.line == ln && w.kind == .detach && w.cid == a) then s
    else submitTxn s (homeTxn s ln .detach a))

/-- Begin a graceful detach (R263): every line the agent holds is recalled. -/
def beginDetach (s : State) (a : Nat) : State := detachLines (setAgent (unsweep s (fun x => x.1 == a)) a { getAgent s a with st := 3 }) a

/-- A write to an agent descriptor (R263, R271). -/
def writeAgent (s : State) (w : Writer) (a : Nat) (b : Bytes) : WriteOut :=
  let lo := bfld b 0 8
  let o := getAgent s a
  let n : Agent := { ep := fld lo 0 16, port := fld lo 16 8, v := bit lo 24, cacheless := bit lo 25, part := fld lo 32 6,
                     credits := fld lo 40 7, st := o.st }
  let park := fun (s : State) =>
    { s with coh := { s.coh with detachWrites := s.coh.detachWrites ++ [(a, waiting s w (a % 128 + 1))] } }
  if b.length ≠ 16 then refuse s abTYPE
  else if a < 4 || o.st = 4 then refuse s abINCONS
  else if !o.v then
    if !n.v then applied s
    else if !innerTrf s n.port || !partExists s n.part || n.credits = 0 || 64 < n.credits ||
        s.coh.agents.any (fun e => e.1 != a && e.2.v && e.2.ep == n.ep && e.2.part == n.part) ||
        leaseExpired s n.ep n.part then refuse s abINCONS
    else
      let t := setAgent s a { n with st := 1 }
      if (leaseOf t n.ep n.part).isSome then applied t
      else
        match createLease t n.ep n.part with
        | some (_, t) => applied t
        | none => refuse s abINCONS
  else if !(n.ep = o.ep && n.port = o.port && n.cacheless = o.cacheless && n.part = o.part && n.credits = o.credits) then refuse s abINCONS
  else if n.v then applied s
  else if o.st = 3 || o.st = 2 then .wait (park s)
  else .wait (park (beginDetach s a))

/-- AGENT_ADMIT (R271). -/
def execAgentAdmit (w : Writer) (agent : Nat) (value : Bytes) (s : State) : Res := endWrite w (writeAgent s w agent value)

/-- AGENT_DETACH (R263). -/
def execAgentDetach (w : Writer) (agent : Nat) (value : Bytes) (s : State) : Res := endWrite w (writeAgent s w agent value)

/-- AGENT_DETACH_END (R263): the last line has been recalled, and the agent leaves with its lease; a line that a request checked before has brought it since is recalled
too. -/
def execAgentDetachEnd (agent : Nat) (s : State) : Res :=
  let x := getAgent s agent
  .next (if x.st ≠ 3 then s
    else if (agentLines s agent).isEmpty && !agentBusy s agent then
      let s := endLease (unsweep (setAgent s agent Agent.none) (fun y => y.1 == agent)) x.ep x.part
      fin (answerDetach s agent)
    else fin (detachLines s agent))

/-- DIR_ECC_ERROR (R267): the line is recalled from every admitted agent. -/
def execDirEccError (line : Nat) (s : State) : Res :=
  let ln := lineOf line
  .next (match dirGet s ln with
    | none => s
    | some _ =>
      let s := detectFault s 0x14 (resId 5 (sliceOf (ln * 64))) 1 0xFF 0xFF (ln * 64) []
      fin (submitTxn s (homeTxn s ln .eccRecall 0)))

/-- A write of DIR_QUERY, held for the session (R270). -/
def writeDirQuery (s : State) (w : Writer) (b : Bytes) : WriteOut :=
  if b.length ≠ 8 then refuse s abTYPE
  else applied (setSess s w.slot { getSess s w.slot with dirQuery := leNat b })

/-- DIR_QUERY (R270). -/
def execDirQuery (w : Writer) (value : Bytes) (s : State) : Res := endWrite w (writeDirQuery s w value)

/-- DIR_INFO of a local offset (Table 5.11). -/
def dirInfo (s : State) (a : Nat) : Bytes :=
  let ln := lineOf a
  let busy := 8 * b2n (txnGet s ln).isSome
  match dirGet s ln with
  | none => toLe 8 busy ++ zeros 8
  | some e =>
    let agent := if e.st = 1 || e.st = 4 then e.owner else if e.leadV then e.lead else 0
    let sh := if e.st = 2 then e.sharers else []
    toLe 8 (e.st + busy + 16 * b2n e.leadV + 256 * agent + 65536 * sh.length + 2 ^ 24 * e.part +
        2 ^ 32 * leNat (toLe 1 (sh.getD 0 0) ++ toLe 1 (sh.getD 1 0) ++ toLe 1 (sh.getD 2 0) ++ toLe 1 (sh.getD 3 0))) ++
      toLe 8 (if e.st = 3 then e.groups else 0)

end Sys2Proof.Machine
end

