-- ==== Sys2Proof/Machine/Bell.lean ====
section
/-! DEFINITION. The Bell Board (ch. 15): levels of the sources, routing with the fallback, choice of the winner, delivery, completion, and the registers of Tables 15.4 to 15.7. -/
namespace Sys2Proof.Machine

/-- The core of a target, and its level (R629). -/
def targetCore (t : Nat) : Nat := t / 2
def targetLevel (t : Nat) : Nat := t % 2

/-- Is the target's core ON, asleep (CG or RET), or OFF (R644, R710)? -/
def targetOn (s : State) (t : Nat) : Bool := domState s (targetCore t) == 4
def targetAsleep (s : State) (t : Nat) : Bool := domState s (targetCore t) == 2 || domState s (targetCore t) == 3

/-- Is a core enabled in the Hem? -/
def coreEnabled (s : State) (c : Nat) : Bool := decide (c < 16) && !bit s.sec.hem.hearthDisabled c

/-- The partition of a source, and its kind (Table 15.1). -/
def sourcePart (src : Nat) : Option (Nat × Nat) :=
  if 128 ≤ src && src < 896 then some ((src - 128) / 12, (src - 128) % 12) else none

/-- Does a source have a cause latch (Tables 15.1 and 15.2)? -/
def hasLatch (src : Nat) : Bool :=
  match sourcePart src with
  | some (_, k) => decide (k < 4) || decide (8 ≤ k)
  | none => src == 3 || src == 4 || src == 7 || src == 8 || src == 9 || (decide (16 ≤ src) && decide (src < 96))

/-- Is any STICKY set (R673)? -/
def stickyAny (s : State) : Bool :=
  s.obj.any (fun e => decide (okey 0x3100 0 < e.1) && decide (e.1 < okey 0x3200 0) && e.1 % 256 == 1 && e.2 == .num 1)

/-- Does the Pattern Book agent hold a frame to execute: one that waits among the commands? -/
def pbpWaiting (s : State) : Bool :=
  s.pending.any (fun c => match c with
    | .pbpHello .. => true | .pbpProve .. => true | .pbpRead .. => true | .pbpWrite .. => true | .pbpDescribe .. => true
    | .pbpEnumNext .. => true | .pbpStore .. => true | .pbpRestoreDefaults .. => true | .pbpSubscribe .. => true | .pbpUnsubscribe .. => true
    | .pbpPing .. => true | .pbpWriteGroup .. => true | .pbpEventAck .. => true | .pbpClose .. => true
    | _ => false)

/-- The level of a source (R630, Tables 15.1 and 15.2). -/
def asserted (s : State) (src : Nat) : Bool :=
  match sourcePart src with
  | some (p, k) =>
    if 4 ≤ k && k ≤ 7 then
      s.eng.queues.any (fun e => e.1 / 1024 == k - 4 && e.1 / 16 % 64 == p && e.2.irqEn && e.2.cqTail != e.2.cqHead)
    else s.bell.latches.contains src
  | none =>
    match src with
    | 1 => s.bell.oocValid
    | 2 => stickyAny s
    | 5 => num s 0x2A21 1 != 0
    | 6 => pbpWaiting s
    | _ => hasLatch src && s.bell.latches.contains src

/-- Enable and mask; source 1 is always enabled and never masked (R640). -/
def srcEnabled (s : State) (src : Nat) : Bool := src == 1 || s.bell.enabled.contains src
def srcMasked (s : State) (src : Nat) : Bool := src != 1 && s.bell.masked.contains src

/-- BB_ROUTE's writable fields of a source (Table 15.5): TARGET [4:0], V [5], FALLBACK [10:6], FB_V [11]. -/
def routeOf (s : State) (src : Nat) : Nat := sget (fun k => if k = 1 then 32 else 0) s.bell.routes src

/-- Set them. -/
def setRoute (s : State) (src v : Nat) : State :=
  { s with bell := { s.bell with routes := sput (fun k => if k = 1 then 32 else 0) s.bell.routes src v } }

/-- The source in service at a target; 0 none. -/
def inService (s : State) (t : Nat) : Nat := sget (fun _ => 0) s.bell.service t

/-- Set it. -/
def setService (s : State) (t src : Nat) : State :=
  { s with bell := { s.bell with service := sput (fun _ => 0) s.bell.service t src } }

/-- Is a source in service at any target? -/
def servedAnywhere (s : State) (src : Nat) : Bool := s.bell.service.any (fun e => e.2 == src)

/-- Does the fallback apply to sources routed to a target (R645): its core is OFF, or still asleep with the wake timer expired? -/
def fallsBack (s : State) (t : Nat) : Bool :=
  !targetOn s t && (!targetAsleep s t || s.bell.expired.contains t)

/-- Where a source is delivered: its target, or its fallback in its place, and whether redirected. -/
def routedTo (s : State) (src : Nat) : Option (Nat × Bool) :=
  let r := routeOf s src
  if !bit r 5 then none
  else if bit r 11 && fallsBack s (fld r 0 5) then some (fld r 6 5, true)
  else some (fld r 0 5, false)

/-- Is a source eligible at a target (R631)? -/
def bellEligible (s : State) (t src : Nat) : Bool :=
  asserted s src && srcEnabled s src && !srcMasked s src && !servedAnywhere s src &&
  (match routedTo s src with | some x => x.1 == t | none => false)

/-- The winner of a target: the lowest-numbered eligible source, 0 for none (R631). -/
def winner (s : State) (t : Nat) : Nat :=
  ((1 :: s.bell.enabled.filter (fun k => k != 1)).find? (bellEligible s t)).getD 0

/-- R644: a winner at an asleep target requests the core's domain and starts the target's wake timer; a target that is ON, or OFF, has none. -/
def bellScan (s : State) : State :=
  forS (upTo 32) s (fun s t =>
    if !targetAsleep s t then
      if sget (fun _ => 0) s.bell.wakes t = 0 && !s.bell.expired.contains t then s
      else { s with bell := { s.bell with wakes := sput (fun _ => 0) s.bell.wakes t 0, expired := s.bell.expired.filter (fun x => x != t) } }
    else if sget (fun _ => 0) s.bell.wakes t = 0 && winner s t != 0 then
      bump { s with bell := { s.bell with wakes := sput (fun _ => 0) s.bell.wakes t (s.det.now + 1) } } 0x2B00 4
    else s)

/-- Drop a core's level-1 source from service without a completion (R643). -/
def dropService (s : State) (c : Nat) : State :=
  let t := 2 * c + 1
  if inService s t = 0 then s else bump (setService s t 0) 0x2B00 5

/-- PART_HEARTH removes a core from a partition (R643): routes that name it lose V or FB_V, and what it serves is dropped. -/
def bellRemoveCore (s : State) (p c : Nat) : State :=
  let s := forS (upTo 12) s (fun s k =>
    let src := partSource p k
    let r := routeOf s src
    let r := if bit r 5 && targetCore (fld r 0 5) == c then clrBit r 5 else r
    let r := if bit r 11 && targetCore (fld r 6 5) == c then clrBit r 11 else r
    setRoute s src r)
  dropService s c

/-- A partition's sources take their reset state at its creation (R643). -/
def bellCreate (s : State) (p : Nat) : State :=
  let mine := fun (src : Nat) => decide (partSource p 0 ≤ src) && decide (src < partSource p 12)
  let b := s.bell
  { s with bell := { b with latches := b.latches.filter (fun x => !mine x), enabled := b.enabled.filter (fun x => !mine x)
                            masked := b.masked.filter (fun x => !mine x), routes := b.routes.filter (fun e => !mine e.1)
                            routeErr := b.routeErr.filter (fun x => x != p) } }

/-- At the fence of a removal the partition's sources are disabled, and its cores' sources dropped (R643). -/
def bellFence (s : State) (p : Nat) : State :=
  let mine := fun (src : Nat) => decide (partSource p 0 ≤ src) && decide (src < partSource p 12)
  let s := { s with bell := { s.bell with enabled := s.bell.enabled.filter (fun x => !mine x) } }
  forS ((upTo 16).filter (coreOfPart s p)) s dropService

/-- May a route of a source name a target (Table 15.3)? -/
def targetOk (s : State) (viaPage : Bool) (src t : Nat) : Bool :=
  let c := targetCore t
  coreEnabled s c &&
  (match sourcePart src with
  | some (p, _) => (!viaPage && decide (c < 2)) || (targetLevel t == 1 && coreOfPart s p c)
  | none => decide (c < 2))

/-- A write of a source's route (R641, R642): refused whole where it names a target that the table does not allow. -/
def bellRoute (s : State) (viaPage : Bool) (src v : Nat) : State :=
  let v := fld v 0 12
  let bad := (bit v 5 && !targetOk s viaPage src (fld v 0 5)) || (bit v 11 && !targetOk s viaPage src (fld v 6 5))
  if src = 0 || 896 ≤ src then s
  else if !bad then setRoute s src v
  else if viaPage then { s with bell := { s.bell with routeErr := ninsert s.bell.routeErr ((src - 128) / 12) } }
  else s

/-- The sources that the set bits of a word name, from source `base` on. -/
def bitSources (base v n : Nat) : List Nat := (bitsOf v n).map (base + ·)

/-- Set and clear enables, masks and latches; source 0 is none, and source 1 keeps its own (R640). -/
def bellEnable (s : State) (l : List Nat) (on : Bool) : State :=
  let l := l.filter (fun x => 1 < x)
  { s with bell := { s.bell with enabled := if on then l.foldl ninsert s.bell.enabled else s.bell.enabled.filter (fun x => !l.contains x) } }

def bellMask (s : State) (l : List Nat) (on : Bool) : State :=
  let l := l.filter (fun x => 1 < x)
  { s with bell := { s.bell with masked := if on then l.foldl ninsert s.bell.masked else s.bell.masked.filter (fun x => !l.contains x) } }

def bellClear (s : State) (l : List Nat) : State :=
  { s with bell := { s.bell with latches := s.bell.latches.filter (fun x => !l.contains x) } }

/-- A word of 64 sources for which a test holds. -/
def sourceWord (w : Nat) (f : Nat → Bool) : Nat := ((upTo 64).map (fun b => if f (64 * w + b) then 2 ^ b else 0)).sum

/-- BB_COMPLETE (R638, R639): completes the source in service, or is an out-of-order completion. -/
def bellComplete (s : State) (t v : Nat) : State :=
  let src := fld v 0 10
  let cur := inService s t
  if src = cur then setService s t 0
  else
    let s := bump s 0x2B00 2
    if s.bell.oocValid then s
    else { s with bell := { s.bell with
            oocValid := true, oocRecord := t % 32 + src * 2 ^ 8 + cur * 2 ^ 20 + s.det.count % 2 ^ 32 * 2 ^ 32 } }

/-- May a core reach an offset of the Bell Board range (Table 15.4)? -/
def bellReach (s : State) (core : Nat) (mmode : Bool) (off : Nat) : Bool :=
  if off < 0x100000 then decide (core < 2)
  else if off < 0x200000 then decide (core < 2) || coreOfPart s ((off - 0x100000) / 0x1000) core
  else decide (core < 2) || (targetCore ((off - 0x200000) / 0x1000) == core && (targetLevel ((off - 0x200000) / 0x1000) == 1 || mmode))

/-- PEND and SERV of a source. -/
def srcPending (s : State) (src : Nat) : Bool := asserted s src && srcEnabled s src

/-- A load of a Bell Board register: a set register reads its current value (Table 0.2); offsets not listed read 0. -/
def bellRead (s : State) (off : Nat) : Nat :=
  if off < 0x10000 then
    match off with
    | 0x000 => 1024 + 32 * 2 ^ 16 + 2 ^ 24
    | 0x008 => b2n s.bell.oocValid
    | 0x010 => s.bell.oocRecord
    | 0x020 => sourceWord 0 (fun x => hasLatch x && s.bell.latches.contains x)
    | 0x028 => sourceWord 1 (fun x => decide (x < 128) && hasLatch x && s.bell.latches.contains x)
    | 0x030 => sourceWord 0 (fun x => decide (16 ≤ x) && s.bell.latches.contains x)
    | _ => 0
  else if off < 0x12000 then
    let src := (off - 0x10000) / 8
    routeOf s src + (match sourcePart src with | some (p, _) => p * 2 ^ 16 | none => 0) + (if 1 ≤ src && src < 128 then 2 ^ 22 else 0)
  else if 0x20000 ≤ off && off < 0x20300 then
    let w := (off - 0x20000) % 0x80 / 8
    match (off - 0x20000) / 0x80 with
    | 0 => sourceWord w (srcEnabled s)
    | 1 => sourceWord w (srcEnabled s)
    | 2 => sourceWord w (srcMasked s)
    | 3 => sourceWord w (srcMasked s)
    | 4 => sourceWord w (srcPending s)
    | _ => sourceWord w (fun x => x != 0 && servedAnywhere s x)
  else if 0x100000 ≤ off && off < 0x140000 then
    let p := (off - 0x100000) / 0x1000
    let r := off % 0x1000
    let word := fun (f : Nat → Bool) => ((upTo 12).map (fun k => if f (partSource p k) then 2 ^ k else 0)).sum
    if r < 0x60 then routeOf s (partSource p (r / 8)) + p * 2 ^ 16
    else match r with
      | 0x60 => word (srcEnabled s)
      | 0x68 => word (srcEnabled s)
      | 0x70 => word (srcMasked s)
      | 0x78 => word (srcMasked s)
      | 0x80 => word (srcPending s) + 65536 * word (servedAnywhere s)
      | 0x88 => word (fun x => hasLatch x && s.bell.latches.contains x)
      | 0x90 => word (fun x => decide (partSource p 9 ≤ x) && s.bell.latches.contains x)
      | 0x98 => b2n (s.bell.routeErr.contains p)
      | _ => 0
  else if 0x200000 ≤ off && off < 0x220000 then
    let t := (off - 0x200000) / 0x1000
    match off % 0x1000 with
    | 0x00 => sget (fun _ => 0) s.bell.vbase t * 65536
    | 0x08 => inService s t + 65536 * b2n (targetAsleep s t) + 131072 * b2n (!targetOn s t && s.bell.expired.contains t)
    | 0x18 => winner s t
    | _ => 0
  else 0

/-- A store to a Bell Board register; offsets not listed ignore it. -/
def bellWrite (s : State) (off v : Nat) : State :=
  if off < 0x10000 then
    match off with
    | 0x008 => if bit v 0 then { s with bell := { s.bell with oocValid := false } } else s
    | 0x020 => bellClear s ((bitSources 0 v 64).filter hasLatch)
    | 0x028 => bellClear s ((bitSources 64 v 64).filter (fun x => decide (x < 128) && hasLatch x))
    | 0x030 => forS ((bitSources 0 v 64).filter (fun x => decide (16 ≤ x))) s latch
    | _ => s
  else if off < 0x12000 then bellRoute s false ((off - 0x10000) / 8) v
  else if 0x20000 ≤ off && off < 0x20200 then
    let l := bitSources (64 * ((off - 0x20000) % 0x80 / 8)) v 64
    match (off - 0x20000) / 0x80 with
    | 0 => bellEnable s l true
    | 1 => bellEnable s l false
    | 2 => bellMask s l true
    | _ => bellMask s l false
  else if 0x100000 ≤ off && off < 0x140000 then
    let p := (off - 0x100000) / 0x1000
    let r := off % 0x1000
    let l := bitSources (partSource p 0) v 12
    if r < 0x60 then bellRoute s true (partSource p (r / 8)) v
    else match r with
      | 0x60 => bellEnable s l true
      | 0x68 => bellEnable s l false
      | 0x70 => bellMask s l true
      | 0x78 => bellMask s l false
      | 0x88 => bellClear s (l.filter hasLatch)
      | 0x90 => forS (l.filter (fun x => decide (partSource p 9 ≤ x))) s latch
      | 0x98 => if bit v 0 then { s with bell := { s.bell with routeErr := s.bell.routeErr.filter (fun x => x != p) } } else s
      | _ => s
  else if 0x200000 ≤ off && off < 0x220000 then
    let t := (off - 0x200000) / 0x1000
    match off % 0x1000 with
    | 0x00 => { s with bell := { s.bell with vbase := sput (fun _ => 0) s.bell.vbase t (v % 2 ^ 64 / 65536) } }
    | 0x10 => bellComplete s t v
    | _ => s
  else s

/-- The first byte of the Bell Board range (R647). -/
def bellBase : Nat := 0x00F0000000000000

/-- Does a physical address lie in the range? -/
def inBell (a : Nat) : Bool := decide (bellBase ≤ a) && decide (a < bellBase + 0x400000)

/-- An access outside the rights of Table 15.4 is a violation of kind 4. -/
def bellViolation (s : State) (cid opcode off : Nat) : State :=
  violation s (some cid) (violReq 4 5 opcode 5 cid (endpointId s) (bellBase + off) 0xFFFF)

/-- A store of a core to a register, after the check of its rights; BB_P_SOFT_SET and BB_CAUSE_SET among them. -/
def bellStore (s : State) (core : Nat) (mmode : Bool) (cid off v : Nat) : State :=
  if bellReach s core mmode off then bellWrite s off v else bellViolation s cid 2 off

/-- A core's access to the range (R647): 8 B at 8 B-aligned offsets, else UNSUP; answers the status, the data, and the state. -/
def bellAccess (s : State) (core : Nat) (mmode : Bool) (cid a len : Nat) (data : Option Bytes) : Nat × Bytes × State :=
  let off := a - bellBase
  if len ≠ 8 || a % 8 ≠ 0 then (6, (if data.isSome then [] else zeros len), s)
  else match data with
    | some d => (0, [], bellStore s core mmode cid off (leNat d))
    | none => if bellReach s core mmode off then (0, toLe 8 (bellRead s off), s) else (0, zeros 8, bellViolation s cid 1 off)

/-- BB_DELIVER (R634 to R637): the target's core takes its winner as a trap, and the source goes into service. Guards: the core is ON, something wins, nothing is in service. -/
def execBbDeliver (target : Nat) (s : State) : Res :=
  let src := winner s target
  if 32 ≤ target || src = 0 || inService s target != 0 || !targetOn s target || !coreEnabled s (targetCore target) then .next (bellScan s)
  else
    let red := match routedTo s src with | some x => x.2 | none => false
    let s := bump (setService s target src) 0x2B00 1
    let s := if red then bump s 0x2B00 3 else s
    let s := match sourcePart src with | some (p, _) => pbumpBy s 0x4B00 p 1 | none => s
    .next (bellScan (emit s (.coreIrq (targetCore target) (targetLevel target)
      ((sget (fun _ => 0) s.bell.vbase target * 65536 + src * 64) % 2 ^ 64) src)))

/-- BB_COMPLETE (R638 to R640): a store of BB_COMPLETE in the target's page. -/
def execBbComplete (core : Nat) (mmode : Bool) (target value : Nat) (s : State) : Res :=
  if 32 ≤ target then .next s
  else .next (bellScan (bellStore s core mmode (coreCid s core) (0x200000 + target * 0x1000 + 0x10) value))

/-- BB_ROUTE (R641, R642): a store of a source's route, through BB_ROUTE or the partition's page. -/
def execBbRoute (core : Nat) (viaPage : Bool) (source value : Nat) (s : State) : Res :=
  if 1024 ≤ source || (viaPage && (sourcePart source).isNone) then .next s
  else
    let off := if viaPage then 0x100000 + (source - 128) / 12 * 0x1000 + (source - 128) % 12 * 8 else 0x10000 + source * 8
    .next (bellScan (bellStore s core false (coreCid s core) off value))

/-- BB_CAUSE_SET (R632): sets the latches of sources 16 to 63. -/
def execBbCauseSet (core value : Nat) (s : State) : Res :=
  .next (bellScan (bellStore s core false (coreCid s core) 0x30 value))

/-- BB_P_SOFT_SET (R632): sets the latches of a partition's kinds 9 to 11. -/
def execBbPSoftSet (core part value : Nat) (s : State) : Res :=
  if 64 ≤ part then .next s
  else .next (bellScan (bellStore s core false (coreCid s core) (0x100000 + part * 0x1000 + 0x90) value))

/-- BB_WAKE_TIMEOUT (R645): the wake timer of an asleep target has run for 50 µs. -/
def execBbWakeTimeout (target : Nat) (s : State) : Res :=
  let w := sget (fun _ => 0) s.bell.wakes target
  if 32 ≤ target || w = 0 || !targetAsleep s target || s.bell.expired.contains target || !due s (w - 1) (usT 50) then .next (bellScan s)
  else .next (bellScan { s with bell := { s.bell with expired := ninsert s.bell.expired target } })

/-- BB_TARGET, an element (Table 15.8). -/
def targetView (s : State) (t : Nat) : Nat :=
  inService s t + winner s t * 2 ^ 10 + 2 ^ 20 * b2n (targetAsleep s t) + 2 ^ 21 * b2n (!targetOn s t && s.bell.expired.contains t)

/-- BB_PEND_ALL: the 16 words of BB_PEND. -/
def pendAllView (s : State) : Bytes := (upTo 16).flatMap (fun w => toLe 8 (sourceWord w (srcPending s)))

end Sys2Proof.Machine
end

