-- ==== Sys2Proof/Machine/RowFormat.lean ====
section
/-! DEFINITION. Bobbin row records (R357 to R360, R414): directory entries, formats, encoding with rounding to nearest or stochastic, decoding. Values are FP32 bits. -/
namespace Sys2Proof.Machine

/-- A row directory entry (Table 8.3). -/
structure RowEnt where
  fmt : Nat
  hot : Bool
  moving : Bool
  win : Bool
  acc : Nat
  bucket : Nat
  band : Nat
  bolt : Nat
  slot : Nat
  deriving DecidableEq, Repr

/-- An entry's fields. -/
def entOf (v : Nat) : RowEnt :=
  { fmt := fld v 0 3, hot := bit v 3, moving := bit v 4, win := bit v 5, acc := fld v 6 2, bucket := fld v 8 3,
    band := fld v 11 2, bolt := fld v 13 32, slot := fld v 45 12 }

/-- An entry's 64 bits. -/
def entBits (e : RowEnt) : Nat :=
  e.fmt % 8 + 8 * b2n e.hot + 16 * b2n e.moving + 32 * b2n e.win + 64 * (e.acc % 4) + 256 * (e.bucket % 8) +
    2048 * (e.band % 4) + 8192 * (e.bolt % 2 ^ 32) + 2 ^ 45 * (e.slot % 4096)

/-- Bytes of a record of `d` elements, rounded up to 16 (Table 8.4). -/
def recSize (fmt d : Nat) : Nat :=
  let n := match fmt with
    | 1 => 4 * d
    | 2 => 2 * d
    | 3 => d + 4
    | _ => (d + 1) / 2 + 4
  divUp n 16 * 16

/-- The elements of a list of bytes, `z` bytes each; `n` of them. -/
def elemList (z : Nat) : Nat → Bytes → List Nat
  | 0, _ => []
  | n + 1, b => leNat (b.take z) :: elemList z n (b.drop z)

/-- FP32 bits of a value in a smaller format. -/
def widen (f : FFmt) (x : Nat) : Nat := fencFree fmtF32 false 5 x f.fb (fdec f x)

/-- FP32 bits rounded into a format. -/
def narrow (f : FFmt) (sat : Bool) (x : Nat) : Nat := fencFree f sat 6 x f.fb (fdec fmtF32 x)

/-- The finite values of a row. -/
def finites (xs : List Nat) : List Nat := xs.filter (fun x => isFin (fdec fmtF32 x))

/-- The scale of an FP8 row (R359). -/
def fp8Scale (xs : List Nat) : Nat :=
  let m := (finites xs).foldl (fun m x => max m (x % 2 ^ 31)) 0
  if m = 0 then 0x3F800000
  else
    let s := f32div m 0x43E00000
    if s = 0 then 1 else s

/-- The smallest and the largest finite value of a row. -/
def rowRange (xs : List Nat) : Option (Nat × Nat) :=
  (finites xs).foldl (fun r x =>
    match r with
    | none => some (x, x)
    | some (a, b) => some (if fltTotal (fdec fmtF32 x) (fdec fmtF32 a) then x else a,
                           if fltTotal (fdec fmtF32 b) (fdec fmtF32 x) then x else b)) none

/-- Scale and zero point of an INT4 row, as FP16 bits (R359). -/
def int4Scale (xs : List Nat) : Nat × Nat :=
  match rowRange xs with
  | none => (0, 0)
  | some (a, b) => (narrow fmtF16 true (f32div (f32sub b a) 0x41700000), narrow fmtF16 true a)

/-- A list of 4-bit codes as bytes. -/
def packNibbles : List Nat → Bytes
  | [] => []
  | [a] => [BitVec.ofNat 8 (a % 16)]
  | a :: b :: t => BitVec.ofNat 8 (a % 16 + 16 * (b % 16)) :: packNibbles t

/-- The magnitude of a finite value in units of 2^−160, exact for every FP32 value. -/
def mag160 : FNum → Nat
  | .fin _ m e => if 0 ≤ e + 160 then m * 2 ^ (e + 160).toNat else m / 2 ^ (-(e + 160)).toNat
  | _ => 0

/-- Stochastic choice between adjacent magnitudes (R414): does the upper one come out? -/
def srUp (lo hi v dither : Nat) : Bool :=
  decide (2 ^ 24 ≤ (v - lo) * 2 ^ 24 / (hi - lo) + dither)

/-- The dither's mixing function (R414). -/
def mix64 (z : Nat) : Nat :=
  let z := (z + 0x9E3779B97F4A7C15) % 2 ^ 64
  let z := z.xor (z / 2 ^ 30) * 0xBF58476D1CE4E5B9 % 2 ^ 64
  let z := z.xor (z / 2 ^ 27) * 0x94D049BB133111EB % 2 ^ 64
  z.xor (z / 2 ^ 31)

/-- The dither of an element (R414). -/
def dither (seed step row e : Nat) : Nat :=
  let h := mix64 ((seed % 2 ^ 32 * 2 ^ 32).xor (step % 2 ^ 64))
  let h := mix64 (h.xor row)
  mix64 (h.xor e) / 2 ^ 40

/-- FP32 to BF16, stochastically; infinities and NaN as without a dither. -/
def srBf16 (x d : Nat) : Nat :=
  if !isFin (fdec fmtF32 x) then narrow fmtBf16 false x
  else
    let lo := x % 2 ^ 31 / 65536
    x / 2 ^ 31 * 2 ^ 15 + (if srUp 0 65536 (x % 65536) d then lo + 1 else lo)

/-- The largest E4M3 magnitude code not above a magnitude (codes 0 to 126). -/
def e4m3Floor (v : Nat) : Nat :=
  ((List.range 127).filter (fun c => decide (mag160 (fdec fmtE4m3 c) ≤ v))).length - 1

/-- FP32 to E4M3, stochastically, saturating. -/
def srFp8 (x d : Nat) : Nat :=
  match fdec fmtF32 x with
  | .nan => 0x7F
  | .inf n => fsign fmtE4m3 n + 126
  | .fin n m e =>
    let v := mag160 (.fin n m e)
    let c := e4m3Floor v
    fsign fmtE4m3 n + (if c = 126 then 126
      else if srUp (mag160 (fdec fmtE4m3 c)) (mag160 (fdec fmtE4m3 (c + 1))) v d then c + 1 else c)

/-- Clamp to a 4-bit code. -/
def clamp15 (i : Int) : Nat := if i < 0 then 0 else if 15 < i then 15 else i.toNat

/-- (x − z) ÷ s on the INT4 grid, to nearest or with a dither. -/
def int4Code (x z s : Nat) (d : Option Nat) : Nat :=
  match fdec fmtF32 x with
  | .nan => 0
  | _ =>
    if s = 0 then 0
    else
      match fdec fmtF32 (f32div (f32sub x (widen fmtF16 z)) (widen fmtF16 s)) with
      | .inf n => if n then 0 else 15
      | .nan => 0
      | .fin n m e =>
        match d with
        | none => clamp15 (froundInt (.fin n m e))
        | some k =>
          let v := mag160 (.fin n m e)
          let q : Nat := v / 2 ^ 160
          let q : Nat := if srUp 0 (2 ^ 160) (v % 2 ^ 160) k then q + 1 else q
          clamp15 (if n then -(q : Int) else (q : Int))

/-- A row's record in a format (R359); `dith` gives element j's dither where rounding is stochastic (R414). -/
def encodeRow (fmt : Nat) (xs : List Nat) (dith : Option (Nat → Nat)) : Bytes :=
  let ix := xs.zip (List.range xs.length)
  let b := match fmt with
    | 1 => xs.flatMap (toLe 4)
    | 2 => ix.flatMap (fun x => toLe 2 (match dith with | some f => srBf16 x.1 (f x.2) | none => narrow fmtBf16 false x.1))
    | 3 =>
      let s := fp8Scale xs
      ix.flatMap (fun x => toLe 1 (match dith with
        | some f => srFp8 (f32div x.1 s) (f x.2)
        | none => if isNan (fdec fmtF32 x.1) then 0x7F else narrow fmtE4m3 true (f32div x.1 s))) ++ toLe 4 s
    | _ =>
      let p := int4Scale xs
      packNibbles (ix.map (fun x => int4Code x.1 p.2 p.1 (dith.map (fun f => f x.2)))) ++ toLe 2 p.1 ++ toLe 2 p.2
  slice b 0 (recSize fmt xs.length)

/-- The FP32 values of a record of `d` elements (R360). -/
def decodeRow (fmt d : Nat) (b : Bytes) : List Nat :=
  match fmt with
  | 1 => elemList 4 d b
  | 2 => (elemList 2 d b).map (widen fmtBf16)
  | 3 =>
    let s := bfld b d 4
    (elemList 1 d b).map (fun q => fencFree fmtF32 false 7 q s (fmul (fdec fmtE4m3 q) (fdec fmtF32 s)))
  | _ =>
    let o := (d + 1) / 2
    let s := bfld b o 2
    let z := bfld b (o + 2) 2
    (List.range d).map (fun j =>
      let q := fld (bfld b (j / 2) 1) (4 * (j % 2)) 4
      fencFree fmtF32 false 8 (z * 65536 + s) q (fadd (fdec fmtF16 z) (fmul (ofInt q) (fdec fmtF16 s))))

end Sys2Proof.Machine
end

