-- ==== Sys2Proof/Machine/Hearth.lean ====
section
/-! DEFINITION. The Hearth cores and their L2 clusters as coherence agents 0 to 3 (R221, R246 to R252, R276, R278, R298, R394, R679): snoops, grants, cache-block operations, AMO, LR, SC, loads and stores, FENCE. -/
namespace Sys2Proof.Machine

/-- A line that the cluster does not hold. -/
def L2Line.none : L2Line := { st := 0, coh := true, wbPending := false, cid := 0, data := [], mark := false, tag := 0 }

/-- The key of a cluster's line. -/
def l2Key (c ln : Nat) : Nat := c * 2 ^ 48 + ln

/-- A line in an L2 cluster. -/
def l2Get (s : State) (c ln : Nat) : L2Line := sget (fun _ => L2Line.none) s.coh.l2 (l2Key c ln)

/-- Set it. -/
def l2Set (s : State) (c ln : Nat) (x : L2Line) : State :=
  { s with coh := { s.coh with l2 := sput (fun _ => L2Line.none) s.coh.l2 (l2Key c ln) x } }

/-- The cluster loses a line: it goes to I, and every reservation on it ends. -/
def l2Drop (s : State) (c ln : Nat) : State :=
  { s with coh := { s.coh with
    l2 := sput (fun _ => L2Line.none) s.coh.l2 (l2Key c ln) L2Line.none
    reserve := s.coh.reserve.filter (fun x => !(x.1 / 4 == c && x.2 == ln)) } }

/-- A message of a cluster about a line. -/
def clusterMsg (s : State) (c ln tag cid : Nat) : CohMsg :=
  { cohBlank ln tag cid with agent := c, ep := endpointId s }

/-- Send it (Table 5.4): class, opcode. -/
def fromCluster (s : State) (cls op c : Nat) (m : CohMsg) : State := emit s (.fromCluster cls op c m)

/-- A cluster in CG or RET returns to ON before it answers (R259). -/
def wakeCluster (s : State) (c : Nat) : State :=
  let st := domState s (16 + c)
  if st = 2 || st = 3 then setDom s (16 + c) 4 else s

/-- A core that is stopped or disabled issues nothing (R608, R7). -/
def coreStopped (s : State) (core : Nat) : Bool := s.sec.idleCores.contains core || !coreEnabled s core

/-- SNP_ACK with PREV. -/
def sendSnpAck (s : State) (c : Nat) (m : CohMsg) (prev : Nat) (wb : Bool) : State :=
  fromCluster s 3 1 c { clusterMsg s c (lineOf m.line) m.tag m.cid with state := prev, flag := wb, htid := m.htid }

/-- SNP_DATA with PREV M; a marked line carries POISON (R266). -/
def sendSnpData (s : State) (c : Nat) (m : CohMsg) (l : L2Line) : State :=
  fromCluster s 4 3 c { clusterMsg s c (lineOf m.line) m.tag m.cid with
    state := 4, data := l.data, status := if l.mark then 2 else 0, htid := m.htid }

/-- DATA_FWD with a grant to the requester. -/
def sendDataFwd (s : State) (c : Nat) (m : CohMsg) (l : L2Line) (grant : Nat) : State :=
  fromCluster s 4 2 c { clusterMsg s c (lineOf m.line) m.tag m.cid with
    state := grant, data := l.data, status := if l.mark then 2 else 0, fwdAgent := m.fwdAgent, htid := m.htid }

/-- The answer of a cluster to a snoop (Table 5.7): 1 FWD_S, 2 FWD_OWN, 3 RECALL, 4 PEEK. -/
def snoopCluster (s : State) (c : Nat) (m : CohMsg) (op : Nat) : State :=
  let s := wakeCluster s c
  let ln := lineOf m.line
  let l := l2Get s c ln
  if l.wbPending then sendSnpAck s c m 0 true
  else if !l.coh || l.st = 0 then sendSnpAck s c m 0 false
  else
    match op with
    | 1 =>
      if l.st = 1 then sendSnpAck s c m 1 false
      else
        let s := sendDataFwd s c m l 1
        let s := if l.st = 4 then sendSnpData s c m l else sendSnpAck s c m l.st false
        { l2Set s c ln { l with st := 2 } with coh := { (l2Set s c ln { l with st := 2 }).coh with
          reserve := s.coh.reserve.filter (fun x => !(x.1 / 4 == c && x.2 == ln)) } }
    | 2 =>
      let s := if l.st = 1 then s else sendDataFwd s c m l 4
      l2Drop (sendSnpAck s c m l.st false) c ln
    | 3 => l2Drop (if l.st = 4 then sendSnpData s c m l else sendSnpAck s c m l.st false) c ln
    | _ => if l.st = 4 then sendSnpData s c m l else sendSnpAck s c m l.st false

/-- SNP_FWD_S at a cluster (R246). -/
def execSnpFwdS (cluster : Nat) (m : CohMsg) (s : State) : Res := .next (snoopCluster s cluster m 1)

/-- SNP_FWD_OWN at a cluster (R246). -/
def execSnpFwdOwn (cluster : Nat) (m : CohMsg) (s : State) : Res := .next (snoopCluster s cluster m 2)

/-- SNP_RECALL at a cluster (R246). -/
def execSnpRecall (cluster : Nat) (m : CohMsg) (s : State) : Res := .next (snoopCluster s cluster m 3)

/-- SNP_PEEK at a cluster (R246). -/
def execSnpPeek (cluster : Nat) (m : CohMsg) (s : State) : Res := .next (snoopCluster s cluster m 4)

/-- Does an operation need E or M (R249, R250)? -/
def opExclusive : CoreOp → Bool
  | .acc (.store _) => true
  | .amo .. => true
  | .lr _ => true
  | .cbo 4 => true
  | _ => false

/-- The element type of an AMO (R394). -/
def amoType (unsigned wide : Bool) : Nat := if wide then (if unsigned then 3 else 2) else (if unsigned then 1 else 0)

/-- Element size of the .W and .D forms. -/
def amoSize (wide : Bool) : Nat := if wide then 8 else 4

/-- What a core's access gives. -/
def coreData (s : State) (core status : Nat) (d : Bytes) : State := emit s (.core core status d)

/-- A write by one core ends the other cores' reservations on the line. -/
def breakOthers (s : State) (core ln : Nat) : State :=
  { s with coh := { s.coh with reserve := s.coh.reserve.filter (fun x => x.1 == core || x.2 != ln) } }

/-- Perform a core's operation on bytes that its cluster holds as the state of the operation asks (R249, R250, R679):
the line afterwards, and what the core gets. `status` is the grant's (LOST passes through, R264). -/
def corePerform (s : State) (core addr va cid status : Nat) (op : CoreOp) (l : L2Line) : L2Line × State :=
  let ln := lineOf addr
  let o := addr % 64
  match op with
  | .acc (.load n) =>
    if l.mark then (l, poisonTrap s core 5 va (cidPart cid)) else (l, coreData s core status (slice l.data o n))
  | .acc (.fetch n) =>
    if l.mark then (l, poisonTrap s core 1 va (cidPart cid)) else (l, coreData s core status (slice l.data o n))
  | .acc (.store d) =>
    ({ l with st := 4, data := patch l.data o d, mark := l.mark && d.length != 64 },
     coreData (breakOthers s core ln) core status [])
  | .amo a u w x =>
    if l.mark then (l, poisonTrap s core 7 va (cidPart cid))
    else
      let z := amoSize w
      let old := slice l.data o z
      ({ l with st := 4, data := patch l.data o (toLe z (elemOp a (amoType u w) 0 (leNat old) x)) },
       coreData (breakOthers s core ln) core status old)
  | .lr w =>
    if l.mark then (l, poisonTrap s core 5 va (cidPart cid))
    else
      (l, coreData { s with coh := { s.coh with reserve := s.coh.reserve.filter (fun x => x.1 != core) ++ [(core, ln)] } }
        core status (slice l.data o (amoSize w)))
  | .sc w x =>
    let s1 := { s with coh := { s.coh with reserve := s.coh.reserve.filter (fun y => y.1 != core) } }
    if s.coh.reserve.contains (core, ln) && 3 ≤ l.st then
      ({ l with st := 4, data := patch l.data o (toLe (amoSize w) x) },
       coreData (breakOthers s1 core ln) core status [0])
    else (l, coreData s1 core status [1])
  | .cbo 4 => ({ l with st := 4, data := zeros 64, mark := false }, coreData (breakOthers s core ln) core status [])
  | .cbo _ => (l, coreData s core status [])

/-- The operations of a cluster that wait for a line, the first first. -/
def pendsOf (s : State) (c ln : Nat) : List L2Pend := s.coh.l2pend.filter (fun p => p.cluster == c && p.line == ln)

/-- Remove a waiting operation. -/
def dropPend (s : State) (p : L2Pend) : State :=
  { s with coh := { s.coh with l2pend := s.coh.l2pend.filter (fun x => x.seq != p.seq) } }

/-- Mark that a message has been sent for it, or that it has been answered. -/
def sentPend (s : State) (p : L2Pend) (b : Bool) : State :=
  { s with coh := { s.coh with l2pend := s.coh.l2pend.map (fun x => if x.seq == p.seq then { x with sent := b } else x) } }

/-- A cache-block operation on a coherent line (R250): done at once, or waiting for WB_ACK. -/
def cboServe (s : State) (p : L2Pend) (l : L2Line) (k : Nat) : State :=
  let ln := p.line
  let m := { clusterMsg s p.cluster ln p.core p.cid with data := l.data, status := if l.mark then 2 else 0 }
  if l.st = 1 then dropPend (coreData (l2Drop s p.cluster ln) p.core 0 []) p
  else if l.st = 0 then dropPend (coreData s p.core 0 []) p
  else if k = 2 then
    if l.st = 4 then
      sentPend (fromCluster (l2Set s p.cluster ln { l with st := 3 }) 4 4 p.cluster { m with flag := true }) p true
    else dropPend (coreData s p.core 0 []) p
  else
    let t := l2Drop s p.cluster ln
    let t := l2Set t p.cluster ln { L2Line.none with wbPending := true }
    sentPend (if l.st = 4 then fromCluster t 4 4 p.cluster m
      else fromCluster t 3 4 p.cluster { m with data := [], status := 0, state := l.st }) p true

/-- The waiting operations of a line proceed in order, until one needs a grant (R252: one REQ at a time, none
while the line is WB pending or held in E or M). `n` bounds the passes. -/
def l2Run : Nat → State → Nat → Nat → State
  | 0, s, _, _ => s
  | n + 1, s, c, ln =>
    let l := l2Get s c ln
    match pendsOf s c ln with
    | [] => s
    | p :: rest =>
      if p.sent || l.wbPending || rest.any (fun x => x.sent) then s
      else
        match p.op with
        | .cbo 1 => l2Run n (cboServe s p l 1) c ln
        | .cbo 2 => l2Run n (cboServe s p l 2) c ln
        | .cbo 3 => l2Run n (cboServe s p l 3) c ln
        | op =>
          let sc := match op with | .sc .. => true | _ => false
          if sc || (l.coh && (3 ≤ l.st || (l.st ≠ 0 && !opExclusive op))) then
            let r := corePerform s p.core p.addr p.va p.cid 0 op l
            l2Run n (dropPend (if r.1 == l then r.2 else l2Set r.2 c ln r.1) p) c ln
          else
            let code := if !opExclusive op then 1 else if l.st = 0 then 2 else 3
            sentPend (fromCluster s 1 code c (clusterMsg s c ln p.core p.cid)) p true

/-- Run a line's waiting operations. -/
def l2Go (s : State) (c ln : Nat) : State := l2Run ((pendsOf s c ln).length + 1) s c ln

/-- A grant reaches a cluster (R241, R247, R248): a grant other than I is installed and acknowledged; a grant of I
serves the one access that asked; a failure gives it all ones where it is DEAD, else zeros (R18). -/
def takeGrant (s : State) (c : Nat) (m : CohMsg) (data : Option Bytes) : State :=
  let s := wakeCluster s c
  let ln := lineOf m.line
  let asked := (pendsOf s c ln).find? (fun p => p.sent && (match p.op with | .cbo k => k == 4 | _ => true))
  let o := l2Get s c ln
  let l : L2Line := { st := m.state, coh := true, wbPending := false, cid := m.cid, data := slice (data.getD o.data) 0 64,
                      mark := if data.isSome then m.status == 2 else o.mark, tag := partTag s (cidPart m.cid) }
  if m.state ≠ 0 then
    let s := fromCluster (l2Set s c ln l) 3 3 c { clusterMsg s c ln m.tag m.cid with htid := m.htid }
    match asked with
    | none => s
    | some p =>
      if p.dead then l2Go (dropPend s p) c ln
      else if m.state ≤ 2 && opExclusive p.op then l2Go (sentPend s p false) c ln
      else
        let r := corePerform s p.core p.addr p.va p.cid (if m.status = 3 then 3 else 0) p.op l
        l2Go (dropPend (if r.1 == l then r.2 else l2Set r.2 c ln r.1) p) c ln
  else
    match asked with
    | none => s
    | some p =>
      let s := dropPend s p
      if p.dead then l2Go s c ln
      else if data.isSome && !opExclusive p.op then
        l2Go (corePerform s p.core p.addr p.va p.cid (if m.status = 3 then 3 else 0) p.op l).2 c ln
      else
        let fill := if m.status = 1 then ones else zeros
        let z := match p.op with
          | .amo _ _ w _ => fill (amoSize w)
          | .lr w => fill (amoSize w)
          | .acc (.load n) => fill n
          | .acc (.fetch n) => fill n
          | _ => []
        l2Go (coreData s p.core m.status z) c ln

/-- DATA_HOME at a cluster (R241). -/
def execDataHome (cluster : Nat) (m : CohMsg) (s : State) : Res := .next (fin (takeGrant s cluster m (some m.data)))

/-- DATA_FWD at a cluster (R241). -/
def execDataFwd (cluster : Nat) (m : CohMsg) (s : State) : Res := .next (fin (takeGrant s cluster m (some m.data)))

/-- CMP at a cluster (R242, R766): its grant of M, or a failure that leaves the line as it was. -/
def execCmp (cluster : Nat) (m : CohMsg) (s : State) : Res := .next (fin (takeGrant s cluster m none))

/-- WB_ACK at a cluster (R250): the cache-block operation completes; a line that was WB pending is I. -/
def execWbAck (cluster : Nat) (m : CohMsg) (s : State) : Res :=
  let s := wakeCluster s cluster
  let ln := lineOf m.line
  .next (match (pendsOf s cluster ln).find? (fun p => p.sent && (match p.op with | .cbo k => k != 4 | _ => false)) with
    | none => if (l2Get s cluster ln).wbPending then l2Set s cluster ln L2Line.none else s
    | some p =>
      let s := if p.op == .cbo 2 then s
        else if (l2Get s cluster ln).wbPending then l2Set s cluster ln L2Line.none else s
      fin (l2Go (dropPend (if p.dead then s else coreData s p.core 0 []) p) cluster ln))

/-- Where a core's access goes (R276): to the cluster as coherent, to the cluster as a line of a versioned region, or to
the home uncached. -/
inductive CoreWay where
  | coherent | versioned (r : Nat) | uncached
  deriving DecidableEq, Repr

/-- R276; an access without the right, or to a line that a copy holds, is left to the home. -/
def coreWay (s : State) (h : Head) (n : Nat) (write : Bool) : CoreWay :=
  match placeOf s h.addr with
  | .memory =>
    (match checkMem s h.cid h.addr n write with
    | none => .uncached
    | some r =>
      if isCopy s r || 64 < h.addr % 64 + n then .uncached
      else if (getRegion s r).kind = 0 then .coherent
      else if (getRegion s r).kind = 2 && !inBasting s r h.addr n then .versioned r else .uncached)
  | _ => .uncached

/-- A coherent operation of a core joins those of its cluster. -/
def coreCoherent (s : State) (core : Nat) (h : Head) (op : CoreOp) : State :=
  let c := core / 4
  let ln := lineOf h.addr
  let p : L2Pend := { seq := s.acc.nextSeq, deadline := s.det.now + usT (num s 0x2908 1), dead := false, cluster := c, line := ln,
                      core := core, addr := h.addr, va := h.va, cid := h.cid, op := op, sent := false }
  l2Go { s with acc := { s.acc with nextSeq := s.acc.nextSeq + 1 }
                coh := { s.coh with l2pend := s.coh.l2pend ++ [p] } } c ln

/-- The head of a core's own request (R110). -/
def coreHead (s : State) (core : Nat) (h : Head) (cause : Nat) : Head := { coreOwn s core h with cause := cause }

/-- What a cluster has of a line of a versioned region for an access (R276, R606): the line, as cached for the CID or as the home gives it now; a line of an earlier incarnation of the
partition; or nothing, and it must be asked of the home. -/
inductive VerHit where
  | line (l : L2Line) (s : State)
  | stale
  | home

/-- A line of a versioned region in a cluster. -/
def verLine (s : State) (core : Nat) (h : Head) (r : Nat) : VerHit :=
  let l := l2Get s (core / 4) (lineOf h.addr)
  let me := endpointId s
  let tag := partTag s (cidPart h.cid)
  if l.st ≠ 0 && !l.coh && l.cid = h.cid then (if l.tag = tag then .line l s else .stale)
  else if l.st ≠ 0 || (boltBelow s r h.cid me h.addr).isSome then .home
  else
    match getVer s r with
    | none => .home
    | some v =>
      match verSelect v h.cid me with
      | .stale => .home
      | _ =>
        let a := storedAt s r h.cid me h.addr
        let t := readError (touch s 5 core h.cid a false) a h.ecc
        let x := verLoad t r ((getVer t r).getD v) h.cid me (lineOf h.addr * 64) 64
        .line { st := 3, coh := false, wbPending := false, cid := h.cid, data := x.2.1, mark := x.1 == 2, tag := tag } x.2.2

/-- May the core write the versioned region (R308)? -/
def verWritable (s : State) (r cid : Nat) : Bool :=
  match getVer s r with
  | none => false
  | some v => (match verSelect v cid (endpointId s) with | .work _ => true | _ => false)

/-- An on-die line of an earlier incarnation of the core's partition is met (R606): a violation of kind 5, and zeros. -/
def tagViolation (s : State) (core : Nat) (h : Head) (op : MemOp) : State :=
  coreData (violReqS s (coreHead s core h 0) op 5 0xFFFF) core 0 (zeroData op)

/-- A load, store, fetch or cbo.zero of a line of a versioned region is served in the cluster, without coherence. -/
def coreVersioned (s : State) (core : Nat) (h : Head) (r : Nat) (op : CoreOp) (cause : Nat) (mop : MemOp) : State :=
  let hd := coreHead s core h cause
  if opExclusive op && !verWritable s r h.cid then fin (arrive s hd mop)
  else
    match verLine s core h r with
    | .home => fin (arrive s hd mop)
    | .stale => tagViolation s core h mop
    | .line l s =>
      let x := corePerform s core h.addr h.va h.cid 0 op l
      l2Set x.2 (core / 4) (lineOf h.addr) x.1

/-- HEARTH_LOAD_STORE (R276, R679). -/
def execHearthLoadStore (core : Nat) (h : Head) (a : CoreAccess) (s : State) : Res :=
  let x : MemOp × Nat := match a with
    | .load n => (.load n, 5)
    | .fetch n => (.load n, 1)
    | .store d => (.store d false, 7)
  if coreStopped s core then .next s else
  let s := wakeCluster s (core / 4)
  let mmode := h.fwd
  let h := coreOwn s core h
  if inBell h.addr then
    let b := bellAccess s core mmode h.cid h.addr (opLen x.1) (match a with | .store d => some d | _ => none)
    .next (bellScan (emit b.2.2 (.core core b.1 b.2.1)))
  else
  .next (match coreWay s h (opLen x.1) (opWrites x.1) with
    | .coherent => coreCoherent s core h (.acc a)
    | .versioned r => coreVersioned s core h r (.acc a) x.2 x.1
    | .uncached => fin (arrive s (coreHead s core h x.2) x.1))

/-- HEARTH_AMO (R249, R394): in the cache on a COH line, as a far atomic elsewhere. -/
def execHearthAmo (core : Nat) (h : Head) (op : AOp) (unsigned wide : Bool) (operand : Nat) (s : State) : Res :=
  if coreStopped s core then .next s else
  let s := wakeCluster s (core / 4)
  let h := coreOwn s core h
  .next (match coreWay s h (amoSize wide) true with
    | .coherent => coreCoherent s core h (.amo op unsigned wide operand)
    | _ => fin (arrive s (coreHead s core h 7)
        (.atomic op (amoType unsigned wide) 0 0 (toLe (amoSize wide) operand))))

/-- HEARTH_LR (R249, R394): outside COH regions an ordinary load. -/
def execHearthLr (core : Nat) (h : Head) (wide : Bool) (s : State) : Res :=
  if coreStopped s core then .next s else
  let s := wakeCluster s (core / 4)
  let h := coreOwn s core h
  .next (match coreWay s h (amoSize wide) false with
    | .coherent => coreCoherent s core h (.lr wide)
    | .versioned r => coreVersioned s core h r (.acc (.load (amoSize wide))) 5 (.load (amoSize wide))
    | .uncached => fin (arrive s (coreHead s core h 5) (.load (amoSize wide))))

/-- HEARTH_SC (R394): outside COH regions it always fails and writes nothing. -/
def execHearthSc (core : Nat) (h : Head) (wide : Bool) (operand : Nat) (s : State) : Res :=
  if coreStopped s core then .next s else
  let s := wakeCluster s (core / 4)
  let h := coreOwn s core h
  .next (match coreWay s h (amoSize wide) true with
    | .coherent => coreCoherent s core h (.sc wide operand)
    | _ => coreData { s with coh := { s.coh with reserve := s.coh.reserve.filter (fun x => x.1 != core) } } core 0 [1])

/-- A flush, clean or invalidation (R250, R278): coherent lines as the protocol says; a line of a versioned region is
written back from the core's own cluster; other lines are not cached. -/
def coreCbo (s : State) (core : Nat) (h : Head) (k : Nat) : State :=
  if coreStopped s core then s else
  let s := wakeCluster s (core / 4)
  let h := coreOwn s core h
  let c := core / 4
  let ln := lineOf h.addr
  let l := l2Get s c ln
  if l.st ≠ 0 && !l.coh && l.tag ≠ partTag s (cidPart l.cid) then tagViolation (l2Drop s c ln) core { h with cid := l.cid } (.store [] false)
  else if l.st ≠ 0 && !l.coh then
    let t := if k = 2 then l2Set s c ln { l with st := 3 } else l2Drop s c ln
    if l.st = 4 then
      fin (arrive t { coreHead s core { h with addr := ln * 64 } 0 with cid := l.cid } (.store l.data l.mark))
    else coreData t core 0 []
  else if coreWay s h 1 false = .coherent || (l.coh && l.st ≠ 0) then coreCoherent s core h (.cbo k)
  else coreData s core 0 []

/-- CBO_FLUSH (R250). -/
def execCboFlush (core : Nat) (h : Head) (s : State) : Res := .next (coreCbo s core h 1)

/-- CBO_CLEAN (R250). -/
def execCboClean (core : Nat) (h : Head) (s : State) : Res := .next (coreCbo s core h 2)

/-- CBO_INVAL (R250): acts as cbo.flush. -/
def execCboInval (core : Nat) (h : Head) (s : State) : Res := .next (coreCbo s core h 3)

/-- CBO_ZERO (R250): M, and zeros in the cache; elsewhere the line is stored as zeros. -/
def execCboZero (core : Nat) (h : Head) (s : State) : Res :=
  if coreStopped s core then .next s else
  let s := wakeCluster s (core / 4)
  let h' := { coreOwn s core h with addr := alignDown h.addr 64 }
  .next (match coreWay s h' 64 true with
    | .coherent => coreCoherent s core h' (.cbo 4)
    | .versioned r => coreVersioned s core h' r (.cbo 4) 7 (.store (zeros 64) false)
    | .uncached => fin (arrive s (coreHead s core h' 7) (.store (zeros 64) false)))

/-- HEARTH_FENCE (R298): with I or O in a set, a later uncached access of the core waits for the earlier ones; with R and W
alone the accesses of a core are already in the order that DOMAIN scope asks. -/
def execHearthFence (core : Nat) (predIO succIO predRW succRW : Bool) (s : State) : Res :=
  let f := (core, s.acc.nextSeq, s.acc.nextTag)
  .next (if coreStopped s core then s else if (predIO && (succIO || succRW)) || (succIO && predRW)
    then { s with ord := { s.ord with coreFences := s.ord.coreFences.filter (fun x => x.1 != core ||
      (s.acc.held.any (fun y => y.req.head.kind == 5 && y.req.head.unit == core && decide (x.2.1 ≤ y.seq)))) ++ [f] } }
    else s)

end Sys2Proof.Machine
end

