-- ==== Sys2Proof/Machine/EngMem.lean ====
section
/-! DEFINITION. How an engine's descriptor reads and writes memory (R105, R129, R136, R253, R274, R275, R377), and how a descriptor runs, is held by a translation fault, and completes (R299, R375 to R378). -/
namespace Sys2Proof.Machine

/-- Who accesses memory, and for which descriptor: the requester of R767, the CID, whether addresses are virtual, whether the access is the engine's own to a region of its kind
(TAB for the Bobbin, VEC for the Tape: Table 3.3), the descriptor that waits for the writes and which of its destinations they are for, the number that the next request had when the
command began, and the answers that other nodes give to reads, with what the media do to the node's own lines. -/
structure EngCtx where
  kind : Nat
  unit : Nat
  cid : Nat
  va : Bool
  inside : Bool
  desc : Option DescRef
  dest : Nat
  floor : Nat
  env : List Reply
  deriving DecidableEq, Repr

/-- A block by its code. -/
def blkOf (n : Nat) : Blk := [Blk.shuttle, .bobbin, .tape, .treadle].getD n .shuttle

/-- Context of a descriptor of a queue, on an engine unit, with an ASID. -/
def descCtx (s : State) (d : DescRef) (unit asid : Nat) (va : Bool) (env : List Reply) : EngCtx :=
  { kind := blkCode d.q.blk + 1, unit := unit, cid := mkCid d.q.part asid, va := va, inside := false, desc := some d, dest := 0, floor := s.acc.nextSeq, env := env }

/-- Has the command met a translation fault, or an access that cannot be made yet? -/
def engStopped (s : State) : Bool := s.acc.trap.isSome || s.acc.stall.isSome

/-- An access cannot be made yet; the first such access of the command counts. -/
def stallOn (s : State) (x : Stall) : State := if s.acc.stall.isSome then s else { s with acc := { s.acc with stall := some x } }

/-- The page that an address of the context is translated from. -/
def vpnOf (c : EngCtx) (a : Nat) : Option Nat := if c.va then some (a / 4096) else none

/-- The address as a GFA: translated when the context says so. A fault, or a wait of the walk for a move-up, is noted and answers `none` (R136, R204). -/
def engAddr (s : State) (c : EngCtx) (a : Nat) (write : Bool) : Option Nat × State :=
  if engStopped s then (none, s)
  else if !c.va then (some a, s)
  else
    match translate s c.kind c.unit c.cid a (!write) write with
    | .ok pa _ _ _ _ s => (some (endpointId s * 2 ^ 48 + pa), s)
    | .wait b s => (none, stallOn s (.bolt b))
    | .fault cause level pte user walked viol s =>
      let t : Trap := { cid := c.cid, kind := c.kind, unit := c.unit, vpn := a / 4096, cause := cause, level := level,
                        pte := pte, user := user, write := write, atomic := false, walked := walked, viol := viol }
      (none, { s with acc := { s.acc with trap := some t } })

/-- The answers that other nodes give to a read, in order. -/
def envFor (c : EngCtx) (key n : Nat) : List Reply :=
  c.env.filter (fun r => decide (r.addr ≤ key) && decide (key + n ≤ r.addr + r.data.length))

/-- Context of a block's own accesses to its tables: no descriptor, no translation. -/
def ownCtx (s : State) (kind cid : Nat) : EngCtx :=
  { kind := kind, unit := 0, cid := cid, va := false, inside := true, desc := none, dest := 0, floor := s.acc.nextSeq, env := [] }

/-- Does the source have an earlier ORD request that waits at the node unperformed (R279)? -/
def engBehind (s : State) (c : EngCtx) : Bool :=
  s.acc.held.any (fun x => decide (x.seq < c.floor) && isOrd x.req.op && x.req.head.kind == c.kind && x.req.head.unit == c.unit && x.req.head.cid == c.cid &&
    (match x.why with | .forwarded => false | .away .. => false | .discarded => false | _ => true))

/-- The answers to a read that has been sent: each RETRY has it sent again (R154); one with a status that no device returns is discarded (R18); with none left the read completes DEAD (R539). -/
def engAnswers (hd : Head) (port key n : Nat) : List Reply → State → Nat × Bytes × State
  | [], s => (1, ones n, deadTarget s hd (.load n))
  | r :: rest, s =>
    let s := meterPort s 0x4D0A (cidPart hd.cid) (8 * (3 + 8))
    if r.status = 4 then
      let tag := s.acc.nextTag
      engAnswers hd port key n rest (emit { s with acc := { s.acc with nextTag := tag + 1 } } (.issue tag port { head := hd, op := .load n }))
    else if 8 ≤ r.status then engAnswers hd port key n rest s
    else if r.status = 1 then (1, ones n, s)
    else (r.status, slice r.data (key - r.addr) n, s)

/-- A read of another endpoint (R105, R149), or through a window to a compatibility port (R147): an ORD load on the path of its destination, behind the ORD requests that it must not pass (R148,
R153, R154, R279, R280), answered within the command (log entry 84). -/
def engRemote (s : State) (c : EngCtx) (hd : Head) (compat : Option Nat) (n : Nat) : Nat × Bytes × State :=
  let ports := match compat with | some p => [p] | none => effPorts s hd.dst 5
  match (match compat with | some p => some p | none => ordPort s hd.dst) with
  | none => (1, ones n, deadTarget s hd (.load n))
  | some p =>
    if ports.isEmpty then (1, ones n, deadTarget s hd (.load n))
    else if mustHold s hd || engBehind s c then (0, zeros n, stallOn s .route)
    else
      match freeTag s p with
      | none => (0, zeros n, stallOn s .route)
      | some w =>
        let hd := { hd with tag := w, epoch := s.route.epoch }
        let tag := s.acc.nextTag
        let key := hd.dst * 2 ^ 48 + hd.addr
        engAnswers hd p key n (envFor c key n) (emit { s with acc := { s.acc with nextTag := tag + 1 } } (.issue tag p { head := hd, op := .load n }))

/-- A read through an inbound window (R145 to R147). -/
def engWindow (s : State) (c : EngCtx) (hd : Head) (n : Nat) : Nat × Bytes × State :=
  match windowSays s hd (.load n) c.va (windowAt s hd.addr) with
  | .violation => (0, zeros n, violReqS s hd (.load n) 3 0xFFFF)
  | .unsup => (6, zeros n, s)
  | .forward w =>
    let t := w.target + (hd.addr - w.wbase)
    if w.compat then engRemote s c { hd with dst := 65536 + w.port, addr := t, fwd := true } (some w.port) n
    else engRemote s c { hd with dst := t / 2 ^ 48, addr := t % 2 ^ 48, cid := w.targetCid, fwd := true } none n

/-- What a read of the node's own memory finds once its line is free: counted (R170), as the media give it (R213), under the partition's rights. -/
def engHome (s : State) (c : EngCtx) (r a n : Nat) : Nat × Bytes × State :=
  let me := endpointId s
  let at_ := storedAt s r c.cid me a
  let ecc := match envFor c (me * 2 ^ 48 + a) n with | x :: _ => x.ecc | [] => .clean
  homeRead (readError (touch s c.kind c.unit c.cid at_ false) at_ ecc) r c.cid me a n

/-- A read of the node's own memory (R105, R118, R123): the check, then what it may have to wait for: a move-up (R204), a tracker (R155), an earlier request of its source (R279), the line's
transaction (R240) or its recall (R121). The answer of an owner outside the node stands in the command (log entry 15). -/
def engLocal (s : State) (c : EngCtx) (hd : Head) (n : Nat) : Nat × Bytes × State :=
  let a := hd.addr
  let ln := lineOf a
  match checkMem s c.cid a n false with
  | none => (0, zeros n, violReqS s hd (.load n) 1 ((regionAt s a).getD 0xFFFF))
  | some r =>
    let kind := (getRegion s r).kind
    if inBasting s r a n then (0, zeros n, violReqS s hd (.load n) 1 r)
    else if boltDead s r c.cid hd.dst a then (1, ones n, s)
    else if !(c.inside || kindAllows kind (.load n)) || isCopy s r then (6, zeros n, s)
    else
      match boltBelow s r c.cid hd.dst a with
      | some b => (0, zeros n, stallOn s (.bolt b))
      | none =>
        if !trackerFree s none a then (0, zeros n, stallOn s .tracker)
        else if engBehind s c then (0, zeros n, stallOn s .route)
        else
          let busy := (txnGet s ln).isSome || s.coh.waits.any (fun w => w.line == ln)
          let e := dirGet s ln
          let lost := match e with | some e => e.st == 4 && !busy | none => false
          if kind ≠ 0 && e.isSome && !lost then (0, zeros n, stallOn s (.recall r ln c.kind c.unit c.cid))
          else if kind = 0 && busy then (0, zeros n, stallOn s .line)
          else
            let s := if kind = 0 then bump s 0x2401 5 else s
            match e, envFor c (hd.dst * 2 ^ 48 + a) n with
            | some e, x :: _ =>
              if kind = 0 && e.st = 1 && 4 ≤ e.owner then (x.status % 8, slice x.data (hd.dst * 2 ^ 48 + a - x.addr) n, touch s c.kind c.unit c.cid a false)
              else engHome s c r a n
            | _, _ => engHome s c r a n

/-- Read bytes of one line at a GFA: status and bytes. -/
def engReadAt (s : State) (c : EngCtx) (gfa n : Nat) : Nat × Bytes × State :=
  let hd := ownHead s c.kind c.unit c.cid gfa
  if engStopped s then (0, zeros n, s)
  else if hd.dst ≠ endpointId s then engRemote s c hd none n
  else
    match placeOf s hd.addr with
    | .reserved => (0, zeros n, s)
    | .pool => (0, zeros n, violReqS s hd (.load n) 1 0xFFFF)
    | .control p off =>
      if cidPart c.cid != p || !partExists s p then (0, zeros n, violReqS s hd (.load n) 4 0xFFFF)
      else if off % 8 ≠ 0 || n ≠ 8 then (6, zeros n, s)
      else (0, toLe 8 (cwRead s p hd.dst off), s)
    | .window => engWindow s c hd n
    | .memory => engLocal s c hd n

/-- Read `n` bytes, line by line (R274): the status and the bytes of each part. `fuel` bounds the lines. -/
def engChunks (c : EngCtx) : Nat → State → Nat → Nat → List (Nat × Bytes) × State
  | 0, s, _, n => ([(0, zeros n)], s)
  | fuel + 1, s, a, n =>
    if n = 0 then ([], s)
    else
      let k := min n (64 - a % 64)
      let x := engAddr s c a false
      match x.1 with
      | none => ([(0, zeros n)], x.2)
      | some gfa =>
        let y := engReadAt x.2 c gfa k
        let z := engChunks c fuel y.2.2 (a + k) (n - k)
        ((y.1, y.2.1) :: z.1, z.2)

/-- The first status of parts in the order of R20, and their bytes. -/
def joinChunks (l : List (Nat × Bytes)) : Nat × Bytes := (l.foldl (fun st x => firstStatus st x.1) 0, l.flatMap (·.2))

/-- The elements of `z` bytes that lie in parts that did not complete OK, from byte `off` on. -/
def badElems (z : Nat) : Nat → List (Nat × Bytes) → List Nat
  | _, [] => []
  | off, x :: t =>
    (if x.1 = 0 || x.2.isEmpty then [] else (upTo ((off + x.2.length - 1) / z + 1 - off / z)).map (off / z + ·)) ++ badElems z (off + x.2.length) t

/-- Read `n` bytes from an address of the context: the first status, and the bytes. -/
def engRead (s : State) (c : EngCtx) (a n : Nat) : Nat × Bytes × State :=
  let x := engChunks c (n / 64 + 2) s a n
  ((joinChunks x.1).1, (joinChunks x.1).2, x.2)

/-- Read a list of `n` elements of `z` bytes: also the numbers of the elements that did not complete OK. -/
def engReadList (s : State) (c : EngCtx) (a z n : Nat) : Nat × Bytes × List Nat × State :=
  let x := engChunks c (n * z / 64 + 2) s a (n * z)
  ((joinChunks x.1).1, (joinChunks x.1).2, badElems z 0 x.1, x.2)

/-- Read a little-endian field. -/
def engReadNat (s : State) (c : EngCtx) (a n : Nat) : Nat × Nat × State :=
  let x := engRead s c a n
  (x.1, leNat x.2.1, x.2.2)

/-- One more write that the descriptor waits for. -/
def descWaits (s : State) (c : EngCtx) : State :=
  match c.desc with
  | none => s
  | some d =>
    match findDesc s d with
    | none => s
    | some x => setDesc s d.q (addOut x c.dest)

/-- What an engine's access completes to: the descriptor, for a destination, with the bytes that count there. -/
def ctxTarget (c : EngCtx) (n : Nat) : IssFor :=
  match c.desc with
  | some d => .desc d.q d.pos c.dest n
  | none => .none

/-- Submit one access of an engine, to the GFA of address `a`: its completion counts for the descriptor. -/
def engSubmit (s : State) (c : EngCtx) (a gfa : Nat) (op : MemOp) : State :=
  fin (submitVia (descWaits s c) (vpnOf c a) c.kind c.unit c.cid gfa op (ctxTarget c (opLen op)))

/-- How a write of one line is sent: a whole line as a BLK write, of a group or none, where asked; else as an ORD store. -/
def lineOp (blk : Option (Nat × Bool)) (a : Nat) (d : Bytes) (poison : Bool) : MemOp :=
  match blk with
  | some (g, span) => if a % 64 = 0 && d.length = 64 then .blk g false span 0 d poison else .store d poison
  | none => .store d poison

/-- Write bytes, line by line. `fuel` bounds the lines. -/
def engWriteGo (c : EngCtx) (blk : Option (Nat × Bool)) (poison : Bool) : Nat → State → Nat → Bytes → State
  | 0, s, _, _ => s
  | fuel + 1, s, a, d =>
    if d.isEmpty then s
    else
      let k := min d.length (64 - a % 64)
      let x := engAddr s c a true
      match x.1 with
      | none => x.2
      | some gfa =>
        engWriteGo c blk poison fuel (engSubmit x.2 c a gfa (lineOp blk a (d.take k) poison)) (a + k) (d.drop k)

/-- Write bytes to an address of the context, by ORD stores. -/
def engWrite (s : State) (c : EngCtx) (a : Nat) (d : Bytes) : State := engWriteGo c none false (d.length / 64 + 2) s a d

/-- Write bytes, whole lines as BLK writes (R351). -/
def engWriteBlk (s : State) (c : EngCtx) (a : Nat) (d : Bytes) : State :=
  engWriteGo c (some (0, false)) false (d.length / 64 + 2) s a d

/-- A far atomic or another single-line operation of an engine. -/
def engOp (s : State) (c : EngCtx) (a : Nat) (op : MemOp) : State :=
  let x := engAddr s c a true
  match x.1 with
  | none => x.2
  | some gfa => engSubmit x.2 c a gfa op

/-- A descriptor advances an arrival counter at this destination as its writes complete (R522). -/
def addArrival (s : State) (c : EngCtx) (a : Nat) : State :=
  let x := engAddr s c a true
  match x.1, c.desc with
  | some gfa, some d =>
    (match findDesc x.2 d with
    | none => x.2
    | some y => setDesc x.2 d.q { y with arr := y.arr ++ [{ dest := c.dest, addr := gfa, cid := c.cid, unit := c.unit, due := 0, since := s.det.now, vpn := vpnOf c a }] })
  | _, _ => x.2

/-- What running a descriptor comes to: status, RCODE, RESULT and MISSING. -/
structure Ran where
  status : Nat
  rcode : Nat
  result : Nat
  missing : Nat
  deriving DecidableEq, Repr

/-- A status and nothing else. -/
def ranStatus (st : Nat) : Ran := { status := st, rcode := 0, result := 0, missing := 0 }

/-- A status with an RCODE. -/
def ranCode (st rc : Nat) : Ran := { status := st, rcode := rc, result := 0, missing := 0 }

/-- A command whose access cannot be made yet has no effect but to ask for what it waits for: the move-up of its bolt (R204), or the recall of its line (R121). -/
def askStall (s0 : State) (x : Stall) : State :=
  match x with
  | .bolt b => askMoveUp s0 b
  | .place b r q => askMoveUp (if (getBolt s0 b).home = 0 then (allocBolt s0 b r q).getD s0 else s0) b
  | .recall r ln kind unit cid =>
    if (txnGet s0 ln).isSome || s0.coh.waits.any (fun w => w.line == ln) then s0
    else
      submitTxn { kindCached s0 r ln kind unit cid with acc := { s0.acc with nextSeq := s0.acc.nextSeq + 1 } }
        { line := ln, kind := .kindRecall, agent := 0xFFF, tag := s0.acc.nextSeq, cid := cid, since := s0.det.now, pol := (getRegion s0 r).lostPolicy }
  | _ => s0

/-- An access of a descriptor waits: a new wait for a move-up is counted (R204), and its completion timeout runs from the beginning of the wait. -/
def stallDesc (s0 : State) (x : Stall) (d : DescRef) : State :=
  let s := askStall s0 x
  match findDesc s d with
  | none => s
  | some y =>
    let new_ := match x with
      | .bolt _ | .place .. => y.stalledAt.isNone || s.tier.upQueue.length != s0.tier.upQueue.length
      | _ => false
    let s := if new_ then bump s 0x2309 5 else s
    setDesc s d.q { y with stalledAt := some (if new_ then s.det.now else y.stalledAt.getD s.det.now) }

/-- What a command that a translation fault or a wait has stopped leaves of itself, from the state `s0` before it (R136, R204, R377); `none`: it was not stopped. -/
def stopped (s0 s : State) (d : DescRef) : Option State :=
  match s.acc.trap, s.acc.stall with
  | some t, _ => some (fin (holdDesc s0 t d))
  | none, some x => some (fin (stallDesc s0 x d))
  | none, none => none

/-- The same for a command that reads for no descriptor. -/
def stoppedAlone (s0 s : State) : Option State :=
  match s.acc.stall with
  | some x =>
    let s := askStall s0 x
    some (fin (if s.tier.upQueue.length = s0.tier.upQueue.length then s else bump s 0x2309 5))
  | none => if s.acc.trap.isSome then some s0 else none

/-- A descriptor's access waits no more. -/
def unstall (s : State) (d : DescRef) : State :=
  match findDesc s d with
  | some x => if x.stalledAt.isSome then setDesc s d.q { x with stalledAt := none } else s
  | none => s

/-- The home keeps a written line until its bolt has been moved up. -/
def lineLater (s : State) (b ln q : Nat) : State := lateLine (askMoveUp (bump s 0x2309 5) b) ln q

/-- A line of a descriptor's own accesses has completed with a status. -/
def descStatus (s : State) (c : EngCtx) (st : Nat) : State :=
  match c.desc with
  | some d => (match findDesc s d with
    | some x => setDesc s d.q { x with status := firstStatus x.status st }
    | none => s)
  | none => s

/-- A descriptor waits for one more mirror write. -/
def descMirrorWaits (s : State) (c : EngCtx) (m : Bool) : State :=
  match c.desc with
  | some d => (match findDesc s d with
    | some x => if m then setDesc s d.q { x with waitMirror := x.waitMirror + 1 } else s
    | none => s)
  | none => s

/-- Bytes of one line are written in place by the engine of their region (R167, R171, R175, R192, R695, R698); `none`: there is no slot. A write of a descriptor waits for what it must; of one
of the block itself, to a bolt that is to be moved up or without a slot, the home keeps the line until then (log entry 79). -/
def ownWrite (s : State) (c : EngCtx) (r a : Nat) (d : Bytes) : Option State :=
  let b := boltOf a
  let q := quadOf c.kind c.unit
  let put := fun (t : State) =>
    let tgt := match c.desc with | some q => IssFor.descMirror q.q q.pos | none => .none
    let x := rawWrite (touch t c.kind c.unit c.cid a true) r a d false tgt
    descMirrorWaits x.2 c x.1
  match ensureBolt s r a c.kind c.unit with
  | none => if c.desc.isSome then none else some (lateLine (noSlot (put s)) (lineOf a) q)
  | some t =>
    if inLanding a then some (put t)
    else if (getBolt t b).home = 3 then
      if cellarOff t (boltChannel t b) then some (descStatus s c 1)
      else if c.desc.isSome then some (stallOn s (.place b r q))
      else some (lineLater (put t) b (lineOf a) q)
    else if c.desc.isSome && (moveHolds t b || spanBusy t r a) then some (stallOn s .line)
    else some (put t)

/-- Run a descriptor's operation from `s0`, and complete it, unless a translation fault or a wait holds it. -/
def runDesc (s0 : State) (d : DescRef) (f : State → Ran × State) : State :=
  let r := f s0
  match stopped s0 r.2 d with
  | some t => t
  | none => fin (endDesc (unstall r.2 d) d r.1.status r.1.rcode r.1.result r.1.missing)

/-- Run a step of a descriptor that is not its last: nothing completes. -/
def partDesc (s0 : State) (d : DescRef) (f : State → State) : State :=
  let s := f s0
  match stopped s0 s d with
  | some t => t
  | none => fin (unstall s d)

/-- May the descriptor run now, with this opcode: its block is RUNNING, or STOPPING with it accepted (R65)? -/
def readyDesc (s : State) (d : DescRef) (op : Nat) : Option Desc :=
  if blkRun s d.q.blk < 2 then none
  else
    match mayStart s d with
    | some x => if descOp x = op && x.phase = 0 then some x else none
    | none => none

/-- Complete a descriptor without running it. -/
def denyDesc (s : State) (d : DescRef) (r : Ran) : State := fin (endDesc s d r.status r.rcode r.result r.missing)

end Sys2Proof.Machine
end

