-- ==== Sys2Proof/Machine/OrderRows.lean ====
section
/-! DEFINITION. The ordering descriptors FENCE and FLUSH_RANGE (R278, R294, R299, R300). -/
namespace Sys2Proof.Machine

/-- Is every reserved or fixed field of an ordering descriptor as Table 6.4 says (R300)? The rest of the slot is zero
(R299). -/
def orderForm (b : Bytes) : Bool :=
  bfld b 3 1 < 2 && (bit (bfld b 3 1) 0 || bfld b 4 2 == 0) && bfld b 4 2 < 16384 && bfld b 6 2 == 0 && bfld b 0x18 8 == 0 &&
  bfld b 0x20 28 == 0

/-- A FENCE's fields. -/
def fenceForm (b : Bytes) : Bool :=
  orderForm b && bfld b 3 1 == 0 && 1 ≤ bfld b 1 1 && bfld b 1 1 ≤ 3 && bfld b 2 1 ≤ 3 && bfld b 8 8 == 0 && bfld b 0x10 8 == 0

/-- A FLUSH_RANGE's fields. -/
def flushForm (b : Bytes) : Bool :=
  orderForm b && bfld b 1 1 == 0 && bfld b 8 8 % 64 == 0 && bfld b 0x10 8 != 0 && bfld b 0x10 8 % 64 == 0 &&
  bfld b 0x10 8 ≤ 2 ^ 40

/-- Has the condition of a FENCE been met (R294)? An acquire waits for the earlier descriptors' reads; a release or full
fence at SYSTEM scope waits until they have completed, and at a narrower one until their writes at this node have. -/
def fenceMet (s : State) (d : DescRef) (b : Bytes) : Bool :=
  let earlier := (getQueue s d.q).accepted.takeWhile (fun y => y.pos != d.pos)
  let mode := bfld b 1 1
  let scope := bfld b 2 1
  if scope = 0 || mode = 1 then earlier.all (fun y => y.ran)
  else if scope = 3 then earlier.isEmpty
  else earlier.all (fun y => y.ran && y.waitMirror == 0 &&
    !s.acc.held.any (fun h => match h.target with | .desc q p _ _ => q == d.q && p == y.pos | .descAdd q p _ => q == d.q && p == y.pos | _ => false))

/-- Run a FENCE of one mode: a malformed one completes UNSUP; otherwise it completes once its condition holds. -/
def runFence (s : State) (d : DescRef) (mode : Nat) : State :=
  match readyDesc s d 0xF0 with
  | none => s
  | some x =>
    if !fenceForm x.bytes then (if bfld x.bytes 1 1 = mode || 3 < bfld x.bytes 1 1 || bfld x.bytes 1 1 = 0 then denyDesc s d (ranStatus 6) else s)
    else if bfld x.bytes 1 1 ≠ mode then s
    else if fenceMet s d x.bytes then denyDesc s d (ranStatus 0)
    else setDesc s d.q { x with phase := 1 }

/-- FENCE_ACQUIRE (R294). -/
def execFenceAcquire (d : DescRef) (s : State) : Res := .next (runFence s d 1)

/-- FENCE_RELEASE (R294). -/
def execFenceRelease (d : DescRef) (s : State) : Res := .next (runFence s d 2)

/-- FENCE_FULL (R294). -/
def execFenceFull (d : DescRef) (s : State) : Res := .next (runFence s d 3)

/-- FENCE_COMPLETE (R300): the first fence of the queue that waits completes once its condition has been met. -/
def execFenceComplete (q : QueueId) (s : State) : Res :=
  .next (match (getQueue s q).accepted.find? (fun x => descOp x == 0xF0 && !x.ran && x.phase == 1) with
    | none => s
    | some x =>
      if fenceMet s { q := q, pos := x.pos } x.bytes then denyDesc s { q := q, pos := x.pos } (ranStatus 0) else s)

/-- Invalidate the row-cache copies of a range that a partition's tag marks (R278, R343): `n` pages or parts of pages. -/
def flushGo (c : EngCtx) (p : Nat) : Nat → State → Nat → Nat → State
  | 0, s, _, _ => s
  | fuel + 1, s, a, n =>
    if n = 0 then s
    else
      let k := min n (4096 - a % 4096)
      let x := engAddr s c a false
      match x.1 with
      | none => x.2
      | some gfa =>
        let s := x.2
        let lo := gfa % 2 ^ 48 / 64
        let s := if gfa / 2 ^ 48 = endpointId s then
            { s with eng := { s.eng with rowLines := s.eng.rowLines.filter (fun e =>
              !(e.2.2.1 == partTag s p && decide (lo ≤ e.2.1) && decide (e.2.1 < lo + k / 64))) } }
          else s
        flushGo c p fuel s (a + k) (n - k)

/-- FLUSH_RANGE (R278): a row cache holds dirty lines only while a seal runs, and the seal writes them back before it completes (R415), in the one step that SEAL_APPLY is; so the
copies of the range are dropped (log entry 105). -/
def execFlushRange (d : DescRef) (s : State) : Res :=
  .next (match readyDesc s d 0xF1 with
    | none => s
    | some x =>
      let b := x.bytes
      if !flushForm b then denyDesc s d (ranStatus 6)
      else runDesc s d (fun s =>
        let n := bfld b 0x10 8
        (ranStatus 0, flushGo (descCtx s d 0 (bfld b 4 2) (bit (bfld b 3 1) 0) []) d.q.part (n / 4096 + 2) (bump s 0x2208 9) (bfld b 8 8) n)))

end Sys2Proof.Machine
end

