-- ==== Sys2Proof/Machine/VersionRows.lean ====
section
/-! DEFINITION. Versions and leases (ch. 7): commands of a control-window slot, folding, basting pages, views and queries, the life of a lease. -/
namespace Sys2Proof.Machine

/-- A store to CW_VC_CMD of a slot: OPCODE, region and ASID (Table 7.5). -/
def vcStore (h : Head) (slot op region asid : Nat) (s : State) : Res :=
  .next (fin (cwStore s h (0x500000 + slot % 256 * 0x40) (op + region % 4096 * 256 + asid % 16384 * 2 ^ 20)))

/-- VC_OPEN_READ (R316). -/
def execVcOpenRead (h : Head) (slot region asid : Nat) (s : State) : Res := vcStore h slot 1 region asid s

/-- VC_CLOSE_READ (R313). -/
def execVcCloseRead (h : Head) (slot region asid : Nat) (s : State) : Res := vcStore h slot 2 region asid s

/-- VC_OPEN_WORK (R313). -/
def execVcOpenWork (h : Head) (slot region asid : Nat) (s : State) : Res := vcStore h slot 3 region asid s

/-- VC_PUBLISH (R317). -/
def execVcPublish (h : Head) (slot region asid : Nat) (s : State) : Res := vcStore h slot 4 region asid s

/-- VC_REBASE (R318). -/
def execVcRebase (h : Head) (slot region asid : Nat) (s : State) : Res := vcStore h slot 5 region asid s

/-- VC_DISCARD_WORK (R323). -/
def execVcDiscardWork (h : Head) (slot region asid : Nat) (s : State) : Res := vcStore h slot 6 region asid s

/-- VC_QUERY (R313). -/
def execVcQuery (h : Head) (slot region asid : Nat) (s : State) : Res := vcStore h slot 7 region asid s

/-- VER_FOLD (R322): one page is folded as one step. -/
def execVerFold (region page : Nat) (s : State) : Res :=
  .next (if (getRegion s region).valid then fin (foldPage s region page) else s)

/-- BASTE_PAGE_FREED (R309): a basting page is free, and the first write that waits for one is performed. -/
def execBastePageFreed (region : Nat) (s : State) : Res :=
  .next (match getVer s region with
    | none => s
    | some v =>
      if (basteFree (getRegion s region).size v).isNone then s
      else
        match s.acc.held.find? (fun h => h.why == .baste region) with
        | none => s
        | some h => fin { s with acc := { s.acc with held := s.acc.held.map (fun x =>
            if x.seq == h.seq then { x with why := .ready none } else x) } })

/-- VER_VIEW as read (R338). -/
def verViewOf (s : State) (r : Nat) : Nat :=
  let g := getRegion s r
  match getVer s r with
  | some v => v.view
  | none =>
    if g.valid && g.kind = 4 && sget (fun _ => 0) s.ver.forms r ≠ 1 then
      (if arrNum s 0x2540 r = 0 then defaultView g.size else arrNum s 0x2540 r)
    else 0

/-- May the view be set (R306)? -/
def verViewOk (s : State) (r view : Nat) : Bool :=
  let g := getRegion s r
  let free := match getVer s r with
    | some v => v.head == 1 && v.reads.isEmpty && v.works.isEmpty && v.staleWork.isEmpty
    | none => g.kind == 4 && sget (fun _ => 0) s.ver.forms r == 0
  g.valid && free && view != 0 && view % 65536 == 0 && decide (view + verDirBytes view + 65536 ≤ g.size)

/-- A write of VER_VIEW (R306, R338). -/
def writeVerView (s : State) (r : Nat) (b : Bytes) : WriteOut :=
  if b.length ≠ 8 then refuse s abTYPE
  else if !verViewOk s r (leNat b) then refuse s abINCONS
  else
    match getVer s r with
    | some v => applied (setVer s r { v with view := leNat b })
    | none => applied (setArrNum s 0x2540 r (leNat b))

/-- VER_VIEW (R306). -/
def execVerView (w : Writer) (region : Nat) (value : Bytes) (s : State) : Res := endWrite w (writeVerView s region value)

/-- A write of VER_QUERY, held for the session (R338). -/
def writeVerQuery (s : State) (w : Writer) (b : Bytes) : WriteOut :=
  if b.length ≠ 2 then refuse s abTYPE
  else applied (setSess s w.slot { getSess s w.slot with verQuery := leNat b })

/-- VER_QUERY (R338). -/
def execVerQuery (w : Writer) (value : Bytes) (s : State) : Res := endWrite w (writeVerQuery s w value)

/-- VER_INFO of a region (Table 7.8). -/
def verInfo (s : State) (r : Nat) : Bytes :=
  match getVer s r with
  | none => zeros 48
  | some v =>
    toLe 8 v.head ++ toLe 8 v.ground ++ toLe 8 (oldest v) ++ toLe 8 v.next ++
      toLe 4 (bastePages (getRegion s r).size v.view - (basteUsed v).length) ++ toLe 1 (pinned v).length ++ toLe 1 v.works.length ++
      toLe 2 (v.reads.length + v.works.length + v.staleWork.length) ++ zeros 8

/-- A write of LEASE_QUERY, held for the session (R338). -/
def writeLeaseQuery (s : State) (w : Writer) (b : Bytes) : WriteOut :=
  if b.length ≠ 2 then refuse s abTYPE
  else if 4095 < leNat b then refuse s abRANGE
  else applied (setSess s w.slot { getSess s w.slot with leaseQuery := leNat b })

/-- LEASE_QUERY (R338). -/
def execLeaseQuery (w : Writer) (value : Bytes) (s : State) : Res := endWrite w (writeLeaseQuery s w value)

/-- A time in ticks as a sync count: the deadline of LEASE_INFO. -/
def asSync (s : State) (t : Nat) : Nat := s.det.count + t - s.det.now

/-- LEASE_INFO of a lease (Table 7.8). -/
def leaseInfo (s : State) (n : Nat) : Bytes :=
  match sfind s.ver.leases n with
  | none => zeros 24
  | some l =>
    toLe 2 l.ep ++ toLe 1 l.part ++ toLe 1 l.st ++ toLe 4 l.durationMs ++ toLe 8 (asSync s l.deadline) ++
      toLe 2 (holderHandles s l.ep l.part) ++ toLe 2 (holderAgents s l.ep l.part).length ++ zeros 4

/-- LEASE_RENEW (R329): a store of DURATION to CW_LEASE_RENEW. -/
def execLeaseRenew (h : Head) (duration : Nat) (s : State) : Res := .next (fin (cwStore s h 0x510000 (duration % 8192)))

/-- LEASE_ACK_EXPIRED (R333). -/
def execLeaseAckExpired (h : Head) (s : State) : Res := .next (fin (cwStore s h 0x510000 8192))

/-- LEASE_DEADLINE (R330): an ACTIVE lease whose deadline has passed becomes LAPSING; the node's own never does (R331). -/
def execLeaseDeadline (lease : Nat) (s : State) : Res :=
  .next (match sfind s.ver.leases lease with
    | none => s
    | some l =>
      if l.st = 1 && l.deadline < s.det.now && l.ep ≠ endpointId s then setLease s lease { l with st := 2 } else s)

/-- LEASE_EXPIRY (R332): a lease whose deadline and grace have passed expires. -/
def execLeaseExpiry (lease : Nat) (s : State) : Res :=
  .next (match sfind s.ver.leases lease with
    | none => s
    | some l =>
      if (l.st = 1 || l.st = 2) && l.deadline + msT (num s 0x2510 1) < s.det.now && l.ep ≠ endpointId s
      then fin (expireLease s lease true) else s)

/-- STALE_HOLD_END (R333). -/
def execStaleHoldEnd (lease : Nat) (s : State) : Res :=
  .next (match sfind s.ver.leases lease with
    | none => s
    | some l => if l.st = 3 && due s l.expiredAt (secT (num s 0x2500 4)) then freeLease s lease else s)

/-- A write of LEASE_EXPIRE (R334); the node's own lease never expires (R331). -/
def writeLeaseExpire (s : State) (b : Bytes) : WriteOut :=
  if b.length ≠ 2 then refuse s abTYPE
  else if 4095 < leNat b then refuse s abRANGE
  else
    match sfind s.ver.leases (leNat b) with
    | none => applied s
    | some l => applied (if (l.st = 1 || l.st = 2) && l.ep ≠ endpointId s then expireLease s (leNat b) true else s)

/-- LEASE_EXPIRE (R334). -/
def execLeaseExpire (w : Writer) (value : Bytes) (s : State) : Res := endWrite w (writeLeaseExpire s value)

end Sys2Proof.Machine
end

