-- ==== Sys2Proof/Machine/BobTable.lean ====
section
/-! DEFINITION. Bobbin tables (R345 to R348, R357, R358, R361, R366, R369, R370): descriptor fields, the image, rows and records, free record space, the caches. -/
namespace Sys2Proof.Machine

/-- TAB_DESC of a table. -/
def tabDesc (s : State) (t : Nat) : Bytes := arrBlob s 0x2610 t

/-- Fields of Table 8.1. -/
def tabRegion (s : State) (t : Nat) : Nat := bfld (tabDesc s t) 0 2
def tabSplit (s : State) (t : Nat) : Bool := bfld (tabDesc s t) 2 1 == 1
def tabMaster (s : State) (t : Nat) : Bool := bit (bfld (tabDesc s t) 3 1) 0
def tabVersioned (s : State) (t : Nat) : Bool := bit (bfld (tabDesc s t) 3 1) 1
def tabDefaultZero (s : State) (t : Nat) : Bool := bit (bfld (tabDesc s t) 3 1) 2
def tabMembers (s : State) (t : Nat) : Nat := bfld (tabDesc s t) 4 1
def tabMember (s : State) (t : Nat) : Nat := bfld (tabDesc s t) 5 1
def tabMaxFmt (s : State) (t : Nat) : Nat := bfld (tabDesc s t) 6 1
def tabMinFmt (s : State) (t : Nat) : Nat := bfld (tabDesc s t) 7 1
def tabRowsN (s : State) (t : Nat) : Nat := bfld (tabDesc s t) 8 8
def tabDim (s : State) (t : Nat) : Nat := bfld (tabDesc s t) 0x10 2
def tabColOff (s : State) (t : Nat) : Nat := bfld (tabDesc s t) 0x12 2
def tabFullDim (s : State) (t : Nat) : Nat := bfld (tabDesc s t) 0x14 2
def tabHotMax (s : State) (t : Nat) : Nat := bfld (tabDesc s t) 0x18 4
def tabWindow (s : State) (t : Nat) : Nat := bfld (tabDesc s t) 0x1C 2
def tabAccMode (s : State) (t : Nat) : Nat := bfld (tabDesc s t) 0x20 1
def tabFrac (s : State) (t : Nat) : Nat := bfld (tabDesc s t) 0x21 1
def tabUpdFmt (s : State) (t : Nat) : Nat := bfld (tabDesc s t) 0x22 1
def tabOpt (s : State) (t : Nat) : Nat := bfld (tabDesc s t) 0x23 1
def tabSr (s : State) (t : Nat) : Bool := bit (bfld (tabDesc s t) 0x24 1) 0
def tabCreate (s : State) (t : Nat) : Bool := bit (bfld (tabDesc s t) 0x24 1) 1
def tabStateRegion (s : State) (t : Nat) : Nat := bfld (tabDesc s t) 0x26 2
def tabSeed (s : State) (t : Nat) : Nat := bfld (tabDesc s t) 0x28 4

/-- TAB_RUN of a table: 0 OFF, 1 STOPPED, 2 STOPPING, 3 RUNNING. -/
def tabRun (s : State) (t : Nat) : Nat := arrNum s 0x2616 t

/-- Member m of the table's group: endpoint and its own table number (R346). -/
def tabPeer (s : State) (t m : Nat) : Nat × Nat :=
  (bfld (arrBlob s 0x2612 t) (4 * m) 2, bfld (arrBlob s 0x2612 t) (4 * m + 2) 2)

/-- Local rows (R348). -/
def tabL (s : State) (t : Nat) : Nat := tableRows (tabDesc s t)

/-- Offsets of the areas of Table 8.2 in the image. -/
def tabMapOff (s : State) (t : Nat) : Nat := divUp (tabL s t * 8) 65536 * 65536
def tabHeadOff (s : State) (t : Nat) : Nat := headerOff s (tabDesc s t)
def tabHotOff (s : State) (t : Nat) : Nat := tabHeadOff s t + 65536
def tabStoreOff (s : State) (t : Nat) : Nat := tabHotOff s t + divUp (tabHotMax s t * 8) 65536 * 65536

/-- The logical row of a local row. -/
def tabLogical (s : State) (t row : Nat) : Nat := if tabSplit s t then row * tabMembers s t + tabMember s t else row

/-- Where the media hold the byte at an offset of the image as a selection reads it: in a page image's basting page, or in its own place. -/
def tabAt (s : State) (t : Nat) (sel : VerSel) (off : Nat) : Nat :=
  let r := tabRegion s t
  let base := (getRegion s r).base
  match getVer s r with
  | none => base + off
  | some v =>
    match selImage v sel (off / 4096) with
    | some i => basteAddr base v i.baste + off % 4096
    | none => base + off

/-- The offsets of the lines that `n` bytes from an offset touch. -/
def tabLines (off n : Nat) : List Nat := ((upTo (n / 64 + 2)).filter (fun k => decide (k * 64 < off % 64 + n))).map (fun k => alignDown off 64 + 64 * k)

/-- A line that lies on a Cellar channel that is OFF (R162, R192). -/
def placeDead (s : State) (a : Nat) : Bool := (getBolt s (boltOf a)).home == 3 && cellarOff s (boltChannel s (boltOf a))

/-- Bytes of the image, read with a selection of a versioned table (`none` for a plain one): status and bytes. -/
def tabRead (s : State) (t : Nat) (sel : VerSel) (off n : Nat) : Nat × Bytes :=
  let r := tabRegion s t
  let g := getRegion s r
  if (tabLines off n).any (fun k => placeDead s (tabAt s t sel k)) then (1, ones n)
  else
    match getVer s r with
    | some v => (if (tabLines off n).any (verPoison s g.base v sel) then 2 else 0, verRead s g.base v sel off n)
    | none => (if (tabLines off n).any (fun k => isPoison s (g.base + k)) then 2 else 0, if landStale s g (g.base + off) then zeros n else memRead s.mem (g.base + off) n)

/-- A descriptor's read of the image waits while a Cellar-homed bolt of it is moved up, unless the region is read in place (R187, R204). -/
def tabGate (s : State) (c : EngCtx) (t : Nat) (sel : VerSel) (off n : Nat) : State :=
  if c.desc.isNone || polInPlace (getRegion s (tabRegion s t)).tierPolicy then s
  else
    match (tabLines off n).find? (fun k => (getBolt s (boltOf (tabAt s t sel k))).home == 3 && !placeDead s (tabAt s t sel k)) with
    | some k => stallOn s (.bolt (boltOf (tabAt s t sel k)))
    | none => s

/-- What the media do to the lines of a read (R213, R680), as the command gives it; counted for placement (R170). -/
def tabMedia (s : State) (c : EngCtx) (t : Nat) (sel : VerSel) (off n : Nat) : State :=
  forS (tabLines off n) s (fun s k =>
    let a := tabAt s t sel k
    let s := touch s c.kind c.unit c.cid a false
    match envFor c (endpointId s * 2 ^ 48 + a) 1 with
    | x :: _ => readError s a x.ecc
    | [] => s)

/-- Write bytes of one line of the image: `none` where a versioned table's basting area, or every tier, is full. -/
def tabWriteLine (s : State) (c : EngCtx) (t : Nat) (sel : VerSel) (off : Nat) (d : Bytes) : Option State :=
  let r := tabRegion s t
  match getVer s r with
  | some v =>
    (match sel with
    | .work w0 =>
      -- the working version as it now stands
      (match v.works.find? (fun w => w.cid == w0.cid && w.holder == w0.holder) with
      | some w =>
        (match verWrite s r w off d false (quadOf 2 c.unit) with
        | .done s => some s
        | .bolt b _ => some (if placeDead s (b * 65536) then descStatus s c 1 else stallOn s (.place b r (quadOf 2 c.unit)))
        | _ => none)
      | none => none)
    | _ => none)
  | none => ownWrite s c r ((getRegion s r).base + off) d

/-- Write bytes of the image, line by line; `fuel` bounds the lines. -/
def tabWriteGo (c : EngCtx) (t : Nat) (sel : VerSel) : Nat → State → Nat → Bytes → Option State
  | 0, s, _, _ => some s
  | fuel + 1, s, off, d =>
    if d.isEmpty then some s
    else
      let k := min d.length (64 - off % 64)
      match tabWriteLine s c t sel off (d.take k) with
      | none => none
      | some s => tabWriteGo c t sel fuel s (off + k) (d.drop k)

/-- Write bytes of the image. -/
def tabWrite (s : State) (c : EngCtx) (t : Nat) (sel : VerSel) (off : Nat) (d : Bytes) : Option State :=
  tabWriteGo c t sel (d.length / 64 + 2) s off d

/-- A row's directory entry. -/
def rowEnt (s : State) (t : Nat) (sel : VerSel) (row : Nat) : RowEnt := entOf (leNat (tabRead s t sel (row * 8) 8).2)

/-- Write a row's entry, in one 8 B write (R357). -/
def setRowEnt (s : State) (c : EngCtx) (t : Nat) (sel : VerSel) (row : Nat) (e : RowEnt) : Option State :=
  tabWrite s c t sel (row * 8) (toLe 8 (entBits e))

/-- Offset of a record in the image. -/
def recOff (e : RowEnt) : Nat := e.bolt * 65536 + e.slot * 16

/-- Keys of written bytes of the image: of the ground, and of every image of a versioned table. -/
def imageKeys (s : State) (t : Nat) : List Nat :=
  let r := tabRegion s t
  let g := getRegion s r
  let n := imageSize s r
  let base := (s.mem.filter (fun c => decide (g.base ≤ c.1) && decide (c.1 < g.base + n))).map (fun c => c.1 - g.base)
  match getVer s r with
  | none => base
  | some v =>
    base ++ (v.images ++ v.works.flatMap (·.copies)).flatMap (fun i => i.data.map (fun x => i.page * 4096 + x.1))

/-- Local rows that have a directory entry other than zero, rising. -/
def rowsListed (s : State) (t : Nat) : List Nat :=
  ((imageKeys s t).filter (fun k => decide (k < tabL s t * 8))).foldl (fun l k => ninsert l (k / 8)) []

/-- Record places (bolt, slot, size) in use: by entries as any version reads them now, by moves and by old records. -/
def usedRecs (s : State) (t : Nat) (sel : VerSel) : List (Nat × Nat × Nat) :=
  let d := tabDim s t
  ((rowsListed s t).map (rowEnt s t sel)).filterMap (fun e =>
      if e.fmt = 0 || e.win then none else some (e.bolt, e.slot, recSize e.fmt d)) ++
    (s.eng.bob.moves.filter (fun m => m.table == t)).map (fun m => (m.bolt, m.slot, recSize m.fmt d)) ++
    (s.eng.bob.oldRecs.filter (fun o => o.1 == t)).map (fun o => (o.2.1, o.2.2, 16))

/-- The store map byte of a bolt of the image. -/
def mapByte (s : State) (t : Nat) (sel : VerSel) (b : Nat) : Nat := leNat (tabRead s t sel (tabMapOff s t + b) 1).2

/-- A free record slot of a format and band (R358, R366): in a store bolt of both, else in a free bolt, which becomes one. -/
def findRec_ (s : State) (c : EngCtx) (t : Nat) (sel : VerSel) (fmt band : Nat) : Option (Nat × Nat × State) :=
  let d := tabDim s t
  let z := recSize fmt d
  let per := 65536 / z
  let used := usedRecs s t sel
  let code := fmt + 8 * band
  let bolts := used.foldl (fun l u => ninsert l u.1) []
  let slotIn := fun (b : Nat) =>
    firstFree (fun k => used.any (fun u => u.1 == b && overlaps (u.2.1 * 16) u.2.2 (k * z) z)) 0 per
  let here := bolts.filterMap (fun b =>
    if mapByte s t sel b = code then (slotIn b).map (fun k => (b, k)) else none)
  match here with
  | (b, k) :: _ => some (b, k * z / 16, s)
  | [] =>
    let lo := tabStoreOff s t / 65536
    let hi := imageSize s (tabRegion s t) / 65536
    match firstFree (fun b => bolts.contains b) lo (min (hi - lo) (bolts.length + 1)) with
    | none => none
    | some b =>
      if hi ≤ b || per = 0 then none
      else (tabWrite s c t sel (tabMapOff s t + b) (toLe 1 code)).map (fun s => (b, 0, s))

/-- Remove lines of the image from every row cache (R344). -/
def dropRows (s : State) (t off n : Nat) : State :=
  let g := getRegion s (tabRegion s t)
  dropRowLines s (fun l => decide ((g.base + off) / 64 ≤ l) && decide (l * 64 < g.base + off + n))

/-- Remove every line of the table from the row caches. -/
def dropTable (s : State) (t : Nat) : State :=
  let g := getRegion s (tabRegion s t)
  dropRowLines s (fun l => decide (g.base ≤ l * 64) && decide (l * 64 < g.base + g.size))

/-- An old record is not freed yet (R370 step 4). A versioned table frees none: other versions may name it. -/
def leaveOld (s : State) (t : Nat) (e : RowEnt) : State :=
  if e.fmt = 0 || e.win || tabVersioned s t then s
  else { s with eng := { s.eng with bob := { s.eng.bob with oldRecs := s.eng.bob.oldRecs ++ [(t, e.bolt, e.slot)] } } }

/-- Give a row a new record with these values at once (R369, R370). `none`: no free record. -/
def newRecord (s : State) (c : EngCtx) (t : Nat) (sel : VerSel) (row fmt band : Nat) (hot : Bool) (xs : List Nat)
    (dith : Option (Nat → Nat)) : Option State :=
  let e := rowEnt s t sel row
  match findRec_ s c t sel fmt band with
  | none => none
  | some (b, k, s) =>
    let e' := { e with fmt := fmt, band := band, bolt := b, slot := k, hot := hot, moving := false, win := false }
    match tabWrite s c t sel (recOff e') (encodeRow fmt xs dith) with
    | none => none
    | some s => (setRowEnt (leaveOld s t e) c t sel row e')

/-- The default row (R361), FP32, and the status of its lines. -/
def defaultRow (s : State) (t : Nat) (sel : VerSel) : Nat × List Nat :=
  let x := tabRead s t sel (tabHeadOff s t) (4 * tabDim s t)
  (x.1, elemList 4 (tabDim s t) x.2)

/-- The band of a bucket (R366). -/
def bandOf (hot : Bool) (bucket : Nat) : Nat := if hot then 3 else if bucket ≤ 1 then 0 else if bucket ≤ 5 then 1 else 2

/-- Keep a line in an engine's directory or row cache of `room` lines, dropping its oldest. -/
def cacheKeep (room : Nat) (l : List (Nat × Nat × Nat × Nat)) (x : Nat × Nat × Nat × Nat) : List (Nat × Nat × Nat × Nat) :=
  (if room ≤ (l.filter (fun e => e.1 == x.1)).length then (match l.find? (fun e => e.1 == x.1) with | some y => l.erase y | none => l) else l) ++ [x]

/-- How a look-up reads rows: its engine context, table, selection, whether the right is held, and whether the row caches are
bypassed. -/
structure RowWay where
  c : EngCtx
  t : Nat
  sel : VerSel
  right : Bool
  bypass : Bool
  deriving DecidableEq, Repr

/-- The key of a line of the image in an engine's directory or row cache: under the partition's tag (R41), and the version in which it is read (R343). -/
def cacheKey (s : State) (w : RowWay) (off : Nat) : Nat × Nat × Nat × Nat :=
  (w.c.unit, ((getRegion s (tabRegion s w.t)).base + off) / 64, partTag s (cidPart w.c.cid), match w.sel, getVer s (tabRegion s w.t) with | .version n, _ => n | .work x, _ => x.base | _, some v => v.head | _, none => 0)

/-- Read a directory line by an engine's directory port (R343): a miss is counted, reads the tier, and keeps the line. -/
def dirTouch (s : State) (w : RowWay) (row : Nat) : State :=
  let x := cacheKey s w (row * 8)
  if s.eng.dirLines.contains x then s
  else
    let s := tabMedia (tabGate s w.c w.t w.sel (row * 8) 8) w.c w.t w.sel (row * 8) 8
    bump { s with eng := { s.eng with dirLines := cacheKeep 8192 s.eng.dirLines x } } 0x2601 4

/-- Read lines of the image, through the engine's row cache when `cached` (R344): a miss reads the tier and keeps the line. -/
def rowLinesRead (s : State) (w : RowWay) (cached : Bool) (off n : Nat) : State :=
  let tier := fun (s : State) (k : Nat) => tabMedia (tabGate s w.c w.t w.sel k 1) w.c w.t w.sel k 1
  forS (tabLines off n) s (fun s k =>
    let x := cacheKey s w k
    if !cached then tier s k
    else if s.eng.rowLines.contains x then bump s 0x2601 5
    else
      let s := tier s k
      { s with eng := { s.eng with rowLines := cacheKeep 1024 s.eng.rowLines x } })

/-- May a look-up's read use the row caches (R344)? -/
def rowCacheOn (s : State) (w : RowWay) : Bool := !w.bypass && num s 0x2600 5 != 0

/-- Read a record's lines (R344): those of hot-band bolts by the row cache. -/
def rowTouch (s : State) (w : RowWay) (e : RowEnt) : State :=
  let n := recSize e.fmt (tabDim s w.t)
  rowLinesRead (bumpBy s 0x2601 3 (divUp n 64)) w (rowCacheOn s w && e.band == 3) (recOff e) n

/-- Raise ACC of a row that a look-up read or an update wrote, on tables of the re-encoding loop (R363); an entry that is read in place from the Cellar is not written there (R175; log entry 104). -/
def raiseAcc (s : State) (c : EngCtx) (t row : Nat) : State :=
  if tabMaster s t || tabVersioned s t then s
  else
    let e := rowEnt s t .head row
    if e.acc = 3 || (getBolt s (boltOf (tabAt s t .head (row * 8)))).home = 3 then s else (setRowEnt s c t .head row { e with acc := e.acc + 1 }).getD s

/-- Count hits of default rows in TAB_STATS: invalid at offset 16, missing at 24, and in the block's counters (R361). -/
def countHit (s : State) (t : Nat) (invalid : Bool) : State :=
  let b := arrBlob s 0x2618 t
  let o := if invalid then 16 else 24
  bump (setArrBlob s 0x2618 t (bset b o 8 (addW 64 (bfld b o 8) 1))) 0x2601 (if invalid then 6 else 7)

/-- TAB_STATS as read: rows in each format, then the hits (Table 8.16). -/
def tabStats (s : State) (t : Nat) : Bytes :=
  let es := if tabRun s t = 0 then [] else (rowsListed s t).map (rowEnt s t .head)
  (upTo 4).flatMap (fun f => toLe 4 (es.filter (fun e => e.fmt == f + 1)).length) ++ slice (arrBlob s 0x2618 t) 16 16

/-- Does the table's image have room for the areas of Table 8.2 and one store bolt (R347)? -/
def imageFits (s : State) (d : Bytes) (image : Nat) : Bool :=
  let l := tableRows d
  decide (divUp (l * 8) 65536 * 65536 + divUp (image / 65536) 65536 * 65536 + 65536 + divUp (bfld d 0x18 4 * 8) 65536 * 65536 + 65536 ≤ image)
    && s.tier.up

/-- The conditions of R347 and R396 on a START of table t. -/
def tabStartable (s : State) (t : Nat) : Bool :=
  let d := tabDesc s t
  let r := tabRegion s t
  let g := getRegion s r
  let f := sget (fun _ => 0) s.ver.forms r
  let members := arrBlob s 0x2612 t
  let peer := tabPeer s t (tabMember s t)
  let image := if tabVersioned s t then (match getVer s r with | some v => v.view | none => verViewOf s r) else g.size
  let sr := getRegion s (tabStateRegion s t)
  decide (r < 4096) && g.valid && g.kind == 4 &&
  !(upTo 256).any (fun u => u != t && tableBound s u && tabRegion s u == r) &&
  decide (bfld d 2 1 ≤ 1) && decide (bfld d 3 1 < 8) && decide (1 ≤ tabMembers s t) && decide (tabMembers s t ≤ 64) &&
  decide (tabMember s t < tabMembers s t) && decide (1 ≤ tabMinFmt s t) && decide (tabMinFmt s t ≤ 4) &&
  decide (1 ≤ tabMaxFmt s t) && decide (tabMaxFmt s t ≤ tabMinFmt s t) &&
  decide (1 ≤ tabRowsN s t) && decide (tabRowsN s t ≤ 2 ^ 40) && decide (1 ≤ tabDim s t) && decide (tabDim s t ≤ 1024) &&
  decide (1 ≤ tabFullDim s t) && decide (tabHotMax s t ≤ 1048576) && bfld d 0x1E 2 == 0 &&
  decide (tabColOff s t + tabDim s t ≤ tabFullDim s t) &&
  (!tabSplit s t || (tabDim s t == tabFullDim s t && tabColOff s t == 0)) &&
  members.length == 4 * tabMembers s t && peer == (endpointId s, t) &&
  (tabWindow s t == 0xFFFF || (tabSplit s t && (sget (fun _ => Window.none) s.windows (tabWindow s t)).valid)) &&
  (f == 0 || (f == 2) == tabVersioned s t) &&
  imageFits s d image &&
  (tabAccMode s t == 0 ||
    (decide (tabAccMode s t ≤ 2) && decide (tabFrac s t ≤ 112) && decide (tabOpt s t ≤ 2) && decide (bfld d 0x24 1 < 4) &&
     decide (tabMaxFmt s t ≤ tabUpdFmt s t) && decide (tabUpdFmt s t ≤ tabMinFmt s t) &&
     (!tabMaster s t || tabUpdFmt s t == tabMaxFmt s t) &&
     (if tabOpt s t = 1 then decide (tabStateRegion s t < 4096) && sr.valid && (sr.kind == 1 || sr.kind == 3) &&
        decide (sr.base < landBase) && sr.owner == g.owner && decide (tabL s t * 4 ≤ sr.size)
      else tabStateRegion s t == 0xFFFF)))

/-- START of a table (R326, R347, R365). -/
def tabStart (s : State) (t : Nat) : WriteOut :=
  if 2 ≤ tabRun s t then applied s
  else if !tabStartable s t then refuse s abINCONS
  else
    let r := tabRegion s t
    let ver := tabVersioned s t
    let s := if ver && (getVer s r).isNone then setVer s r { newVer (getRegion s r).size with view := verViewOf s r } else s
    let s := { s with ver := { s.ver with forms := sput (fun _ => 0) s.ver.forms r (if ver then 2 else 1) }
                      eng := { s.eng with bob := { s.eng.bob with
                        sweeps := sput (fun _ => 0) s.eng.bob.sweeps t 0, bounds := sput (fun _ => 0) s.eng.bob.bounds t 0 } } }
    -- every BUCKET is 0 at START
    let c := ownCtx s 2 (mkCid (getRegion s r).owner 0)
    let s := if tabMaster s t || ver then s
      else forS (rowsListed s t) s (fun s row =>
        let e := rowEnt s t .head row
        if e.bucket = 0 then s else (setRowEnt s c t .head row { e with bucket := 0 }).getD s)
    applied (runFlag (setArrNum s 0x2616 t 3) 1)

/-- Has a table accepted descriptors that have not completed? -/
def tabBusy (s : State) (t : Nat) : Bool :=
  (blkQueues s .bobbin).any (fun q => q.2.accepted.any (fun d => descOp d != 0xF0 && descOp d != 0xF1 && bfld d.bytes 4 2 == t))

/-- STOP of a table (R347). -/
def tabStop (s : State) (t : Nat) : WriteOut :=
  if tabRun s t = 3 then
    let s := setArrNum s 0x2616 t 2
    applied { s with eng := { s.eng with bob := { s.eng.bob with
      stopOrd := sput (fun _ => 0) s.eng.bob.stopOrd t s.acc.nextSeq } } }
  else applied s

/-- A write of TAB_CMD. -/
def writeTabCmd (s : State) (t : Nat) (b : Bytes) : WriteOut :=
  if b.length ≠ 1 then refuse s abTYPE
  else match leNat b with
    | 1 => tabStart s t
    | 2 => tabStop s t
    | _ => refuse s abRANGE

/-- Every open step of a table is discarded (R401), and its pins and moves end, when it is unbound. -/
def tabUnbind (s : State) (t : Nat) : State :=
  let s := if tabRun s t = 0 then s else runFlag s 1
  let s := forS (s.eng.bob.pinned.filter (fun x => x.1 == t)) s (fun s x =>
    setBolt s x.2 { getBolt s x.2 with pins := (getBolt s x.2).pins - 1 })
  { s with eng := { s.eng with bob := { s.eng.bob with
    steps := s.eng.bob.steps.filter (fun y => y.table != t), pinned := s.eng.bob.pinned.filter (fun x => x.1 != t)
    moves := s.eng.bob.moves.filter (fun m => m.table != t), oldRecs := s.eng.bob.oldRecs.filter (fun o => o.1 != t)
    queue := s.eng.bob.queue.filter (fun x => x.1 != t) } } }

/-- A write of TAB_DESC while the table is STOPPED or OFF (R345, R347): REGION 0xFFFF unbinds. -/
def writeTabDesc (s : State) (t : Nat) (b : Bytes) : WriteOut :=
  if b.length ≠ 64 then refuse s abTYPE
  else if 2 ≤ tabRun s t then refuse s abSTATE
  else
    let s1 := if bfld b 0 2 ≠ tabRegion s t then setArrNum (tabUnbind s t) 0x2616 t 0 else s
    applied (setArrBlob s1 0x2610 t b)

end Sys2Proof.Machine
end

