-- ==== Sys2Proof/Machine/EngQueue.lean ====
section
/-! DEFINITION. The engine queues' commands (R341, R375 to R377, R496, R513): doorbells, slot reads, ring space; starting and stopping an engine block (R65, R342). -/
namespace Sys2Proof.Machine

/-- Opcodes that a block's queues accept; every other one completes UNSUP with BAD_DESC. -/
def knownOp (b : Blk) (op sub : Nat) : Bool :=
  op == 0xF0 || op == 0xF1 ||
  (match b with
  | .shuttle => decide (0x50 ≤ op) && decide (op ≤ 0x53)
  | .bobbin => (decide (0x10 ≤ op) && decide (op ≤ 0x12)) || (op == 0x13 && decide (1 ≤ sub) && decide (sub ≤ 7)) ||
      (decide (0x20 ≤ op) && decide (op ≤ 0x23))
  | .tape => decide (0x30 ≤ op) && decide (op ≤ 0x36)
  | .treadle => op == 0x40)

/-- BAD_DESC of a block (Tables 8.11, 10.10, 11.8, 12.7). -/
def badDesc : Blk → Nat
  | .shuttle => 0x10 | .treadle => 0x10 | .bobbin => 0x12 | .tape => 0x12

/-- Descriptors or launches that a scheduler holds accepted (R341, R498). -/
def acceptMax : Blk → Nat
  | .bobbin => 64 | .treadle => 16 | .shuttle => 65536 | .tape => 65536

/-- Does a drain hold the block's acceptance (R63)? -/
def draining (s : State) (b : Blk) : Bool :=
  s.pb.drains.any (fun v => (v.block == .bobbin && b == .bobbin) || (v.block == .treadle && b == .treadle))

/-- A descriptor as accepted. -/
def newDesc (s : State) (pos holder : Nat) (bytes : Bytes) : Desc :=
  { pos := pos, bytes := bytes, holder := holder, acceptedAt := s.det.now, engine := none, ran := false, ranAt := s.det.now, waitRemote := 0,
    waitMirror := 0, members := [], fault := none, status := 0, rcode := 0, result := 0, missing := 0, phase := 0,
    ord := s.acc.nextSeq, rcFrom := 0, arr := [], entry := none, lists := none, partials := [], owed := [], hits := 0, found := [], outs := [], heldEnd := none, heldBy := 0, pausedT := 0,
    group := [], dealt := [], doneP := [], knots := [], spans := [], polledAt := 0,
    ctT := usT (num s 0x2908 1), stageT := msT (num s 0x2900 4), waitT := msT (num s 0x2900 5), memberT := msT (num s 0x2700 7),
    trap := none, trapSeq := 0, stalledAt := none }

/-- Accept a descriptor into a queue. -/
def acceptDesc (s : State) (q : QueueId) (d : Desc) : State :=
  let k := getQueue s q
  setQueue { s with acc := { s.acc with nextSeq := s.acc.nextSeq + 1 } } q { k with accepted := k.accepted ++ [d] }

/-- The window offset of a block's queues (Table 3.7). -/
def blkWindow (b : Blk) : Nat := (blkCode b + 1) * 0x100000

/-- QUEUE_TAIL_WRITE (R376): a store to the queue's TAIL. -/
def execQueueTailWrite (h : Head) (q : QueueId) (tail : Nat) (s : State) : Res :=
  .next (fin (cwStore s h (blkWindow q.blk + q.q % 8 * 0x40 + 0x10) (tail % 65536)))

/-- The multicast group's members that a descriptor keeps from its acceptance on (R526): of an MCAST, and of the table or index of one that is to be fanned out. -/
def acceptGroup (s : State) (q : QueueId) (d : Desc) : List Nat :=
  let n := bfld d.bytes 4 2
  match q.blk with
  | .shuttle => if descOp d = 0x51 then groupMembers s n q.part else []
  | .bobbin => if bit (bfld d.bytes 2 2) 0 && n < 256 then groupMembers s (bfld (tabDesc s n) 0x16 2) q.part else []
  | .tape => if bit (bfld d.bytes 2 2) 0 && n < 16 then groupMembers s (bfld (vecDesc s n) 0x0A 2) q.part else []
  | .treadle => []

/-- SLOT_READ_COMPLETE (R341, R376): the scheduler reads the slot at HEAD and accepts its descriptor, or the queue halts. -/
def execSlotReadComplete (q : QueueId) (env : List Reply) (s : State) : Res :=
  let k := getQueue s q
  .next (if !k.en || k.halted || k.head = k.tail || 8 ≤ q.q || !partExists s q.part || blkRun s q.blk ≠ 3 || draining s q.blk ||
      acceptMax q.blk ≤ blkAccepted s q.blk then s
    else
      let c := { ownCtx s (blkCode q.blk + 1) (mkCid q.part 0) with inside := false, env := env }
      let x := engRead s c (k.qbase + k.head % 2 ^ k.log2n * 64) 64
      if let some t := stoppedAlone s x.2.2 then t
      else if x.1 ≠ 0 then setQueue x.2.2 q { getQueue x.2.2 q with halted := true }
      else
        let s := x.2.2
        let holder := match k.submitters.find? (fun e => e.1 == k.head) with | some e => e.2 | none => endpointId s
        let d := newDesc s k.head holder x.2.1
        let d := { d with group := acceptGroup s q d }
        let s := acceptDesc s q d
        let k' := getQueue s q
        let s := setQueue s q { k' with head := (k.head + 1) % 65536, submitters := k'.submitters.filter (fun e => e.1 != k.head) }
        if knownOp q.blk (descOp d) (bfld d.bytes 1 1) then s
        else denyDesc s { q := q, pos := k.head } (ranCode 6 (badDesc q.blk)))

/-- COMPLETION_RING_SPACE (R376): software has freed space, and the completion held longest is written. -/
def execCompletionRingSpace (q : QueueId) (s : State) : Res :=
  let k := getQueue s q
  .next (match k.waiting with
    | [] => s
    | e :: rest =>
      if !k.cqEn then setQueue s q { k with waiting := rest }
      else if 2 ^ k.cqLog2n ≤ slotDiff k.cqTail k.cqHead then s
      else fin (writeEntry (setQueue s q { k with waiting := rest }) q e))

/-- START of an engine block (R65, R342): not while its engines are OFF or the node is in limp (R688). -/
def blkStart (s : State) (b : Blk) : WriteOut :=
  if inLimp s then refuse s abINCONS
  else if blkRun s b = 0 then refuse s abSTATE
  else applied (setNum s (blkIndex b) 1 3)

/-- STOP of an engine block. -/
def blkStop (s : State) (b : Blk) : WriteOut :=
  if blkRun s b = 3 then applied (setNum s (blkIndex b) 1 2) else applied s

/-- A write of a block's command object: 1 START, 2 STOP. -/
def writeBlkCmd (s : State) (b : Blk) (v : Bytes) : WriteOut :=
  if v.length ≠ 1 then refuse s abTYPE
  else match leNat v with
    | 1 => blkStart s b
    | 2 => blkStop s b
    | _ => refuse s abRANGE

/-- A STOPPING block whose accepted descriptors, and the completions held by its rings, have ended is STOPPED (R342, R376). -/
def blkStopEnd (s : State) (b : Blk) : State :=
  if blkRun s b = 2 && blkAccepted s b = 0 && (blkQueues s b).all (fun q => q.2.waiting.isEmpty) then setNum s (blkIndex b) 1 1 else s

end Sys2Proof.Machine
end

