-- ==== Sys2Proof/Machine/BobLookup.lean ====
section
/-! DEFINITION. Bobbin: the block and its tables start and stop (R342, R347), look-ups (R341, R349 to R356, R361, R362, R371 to R374, R379, R380, R383), fan-out and its reports. -/
namespace Sys2Proof.Machine

/-- BN_START (R342). -/
def execBnStart (w : Writer) (s : State) : Res := endWrite w (writeBlkCmd s .bobbin [1])

/-- BN_STOP (R342). -/
def execBnStop (w : Writer) (s : State) : Res := endWrite w (writeBlkCmd s .bobbin [2])

/-- BN_STOP_END (R342). -/
def execBnStopEnd (s : State) : Res := .next (blkStopEnd s .bobbin)

/-- TAB_START (R347). -/
def execTabStart (w : Writer) (table : Nat) (s : State) : Res := endWrite w (writeTabCmd s table [1])

/-- TAB_STOP (R347). -/
def execTabStop (w : Writer) (table : Nat) (s : State) : Res := endWrite w (writeTabCmd s table [2])

/-- TAB_STOP_END (R347): the table's accepted descriptors have completed. -/
def execTabStopEnd (table : Nat) (s : State) : Res :=
  .next (if tabRun s table = 2 && !tabBusy s table then setArrNum s 0x2616 table 1 else s)

/-- Bobbin engines that are ON. -/
def bobbinOn (s : State) (e : Nat) : Bool := decide (e < 16) && domUsable s (28 + e) && !outOfService s (engRes 2 e)

/-- May a chunk of partition p go to engine e (R341)? -/
def dealable (s : State) (p e : Nat) : Bool := bobbinOn s e && bit (pnum s 0x4600 p) e

/-- A descriptor whose chunks wait to be dealt (R341): it may start, and no engine that may take it has it. -/
def undealt (s : State) (p k : Nat) (x : Desc) : Bool :=
  decide (0x10 ≤ descOp x) && decide (descOp x ≤ 0x12) && x.phase == 0 &&
  (mayStart s { q := { blk := .bobbin, part := p, q := k }, pos := x.pos }).isSome &&
  !(match x.engine with | some e => dealable s p e | none => false)

/-- A partition's descriptors that wait to be dealt. -/
def undealtOf (s : State) (p : Nat) : List Desc :=
  (blkQueues s .bobbin).flatMap (fun q => if q.1 / 16 % 64 = p then q.2.accepted.filter (undealt s p (q.1 % 16)) else [])

/-- Other partitions whose chunks wait and could be dealt. -/
def rivals (s : State) (p : Nat) : List Nat :=
  (upTo 64).filter (fun r => r != p && !(undealtOf s r).isEmpty && (upTo 16).any (dealable s r))

/-- Is it a descriptor's turn to be dealt (R341)? The first of its partition in order of acceptance, and no waiting partition has less in proportion to its BN_WEIGHT (log entry 127). -/
def dealTurn (s : State) (d : DescRef) (x : Desc) : Bool :=
  let p := d.q.part % 64
  (undealtOf s p).all (fun y => decide (x.ord ≤ y.ord)) && turnOf s.eng.bob.dealt (pnum s 0x4601) p (rivals s p)

/-- Deal a descriptor to an engine: its partition's share rises; with no other partition waiting, shares begin anew. -/
def dealTo (s : State) (d : DescRef) (x : Desc) (e : Nat) : State :=
  let p := d.q.part % 64
  let dealt := takeTurn s.eng.bob.dealt p (rivals s p)
  setDesc { s with eng := { s.eng with bob := { s.eng.bob with dealt := dealt } } } d.q { x with engine := some e }

/-- The engine on which a descriptor's chunks run: the one that it was dealt to; one not dealt yet is dealt, in its turn, to the first engine that may take it. An
update, which has no chunks, takes the first. -/
def bobTake (s : State) (d : DescRef) (x : Desc) : Option (Nat × Desc × State) :=
  let first := (upTo 16).find? (dealable s d.q.part)
  if 0x20 ≤ descOp x then first.map (fun e => (e, x, s))
  else
    match x.engine with
    | some e => if dealable s d.q.part e then some (e, x, s) else none
    | none => if dealTurn s d x then first.map (fun e => (e, { x with engine := some e }, dealTo s d x e)) else none

/-- CHUNK_DEAL (R341). -/
def execChunkDeal (d : DescRef) (engine : Nat) (s : State) : Res :=
  .next (match findDesc s d with
    | none => s
    | some x =>
      if d.q.blk == .bobbin && undealt s (d.q.part % 64) (d.q.q % 16) x && dealable s d.q.part engine && dealTurn s d x then dealTo s d x engine else s)

/-- NO_TABLE or TABLE_STOPPED (R380), for a descriptor accepted at `ord`; `none`: the table serves it. -/
def tabDeny (s : State) (t ord : Nat) : Option Ran :=
  if 256 ≤ t || tabRun s t = 0 then some (ranCode 0 0x10)
  else if tabRun s t = 3 || (tabRun s t = 2 && ord < sget (fun _ => 0) s.eng.bob.stopOrd t) then none
  else some (ranCode 0 0x11)

/-- The fields of Table 8.8 and the limits of R380. -/
def lookupForm (s : State) (t : Nat) (b : Bytes) : Bool :=
  let fl := bfld b 2 2
  let e := if bit fl 5 then 2 else 4
  let n := bfld b 0x30 4
  let bags := bfld b 0x34 4
  decide (bfld b 1 1 ≤ 3) && decide (fl < 128) && decide (bfld b 6 2 < 16384) && bfld b 0x20 8 % 64 == 0 &&
  ((bfld b 1 1 == 2) == (bfld b 0x18 8 != 0)) && bfld b 0x28 8 % 8 == 0 && (bit fl 3 || bfld b 0x28 8 == 0) &&
  decide (1 ≤ n) && decide (n ≤ 262144) && decide (1 ≤ bags) && decide (bags ≤ 262144) &&
  bfld b 0x38 4 % 64 == 0 && decide (tabFullDim s t * e ≤ bfld b 0x38 4) &&
  decide (n * divUp (recSize (tabMaxFmt s t) (tabDim s t)) 64 ≤ 262144) &&
  (bfld b 0x10 8 != 0 || n % bags == 0) && (bit fl 0 || !tabSplit s t || tabMembers s t == 1)

/-- The offset list of an accumulation whose elements at `bad` could not be read (R426): each takes the value before it, so that the bags it bounds hold only indices
that are left unadded; answers the list and those indices. -/
def mendOffsets (off : Bytes) (bad : List Nat) (n bags : Nat) : Bytes × List Nat :=
  if bad.isEmpty then (off, [])
  else
    let v := (upTo (bags + 1)).foldl (fun l k =>
      l ++ [if !bad.contains k then bfld off (4 * k) 4 else if k = 0 then 0 else if k = bags then n else l.getLast?.getD 0]) ([] : List Nat)
    (v.flatMap (toLe 4), ((upTo bags).filter (fun b => bad.contains b || bad.contains (b + 1))).flatMap (fun b =>
      (upTo (v.getD (b + 1) 0 - v.getD b 0)).map (v.getD b 0 + ·)))

/-- Read the index, offset and weight lists of a look-up or an accumulation, or take those that came with a share. -/
def readLists (s : State) (c : EngCtx) (x : Desc) (idx32 : Bool) (n bags : Nat) : Nat × Lists × State :=
  match x.lists with
  | some l => (0, l, s)
  | none =>
    let b := x.bytes
    let i := engReadList s c (bfld b 8 8) (if idx32 then 4 else 8) n
    let o := if bfld b 0x10 8 = 0 then (0, [], [], i.2.2.2) else engReadList i.2.2.2 c (bfld b 0x10 8) 4 (bags + 1)
    let w := if bfld b 0x18 8 = 0 then (0, [], [], o.2.2.2) else engReadList o.2.2.2 c (bfld b 0x18 8) 4 n
    let m := if descOp x = 0x21 then mendOffsets o.2.1 o.2.2.1 n bags else (o.2.1, [])
    (firstStatus i.1 (firstStatus o.1 w.1), { idx := i.2.1, off := m.1, wt := w.2.1, batch := [], bad := i.2.2.1 ++ w.2.2.1 ++ m.2 }, w.2.2.2)

/-- Does an offset list break R374? -/
def badOffsets (off : Bytes) (n bags : Nat) : Bool :=
  !off.isEmpty && (bfld off 0 4 != 0 || bfld off (4 * bags) 4 != n ||
    (upTo bags).any (fun k => decide (bfld off (4 * (k + 1)) 4 < bfld off (4 * k) 4)))

/-- The indices of bag `b`: [first, last). -/
def bagRange (off : Bytes) (n bags b : Nat) : Nat × Nat :=
  if off.isEmpty then (b * (n / bags), (b + 1) * (n / bags)) else (bfld off (4 * b) 4, bfld off (4 * (b + 1)) 4)

/-- Index `k` of a list; `none` for an invalid one (R361). -/
def indexAt (s : State) (t : Nat) (l : Bytes) (idx32 : Bool) (k : Nat) : Option Nat :=
  let v := if idx32 then bfld l (4 * k) 4 else bfld l (8 * k) 8
  if v = (if idx32 then 0xFFFFFFFF else 0xFFFFFFFFFFFFFFFF) || tabRowsN s t ≤ v then none else some v

/-- What an index contributes: values, or nothing; `bad`: the status of a failed row line (R373). -/
structure Contrib where
  elems : List Nat
  counts : Bool
  weight : Nat
  bad : Nat
  deriving DecidableEq, Repr

/-- A default row's contribution (R362), read by way of the header bolt, which the row caches may hold (R344). -/
def defaultContrib (s : State) (w : RowWay) (weight : Nat) : Contrib × State :=
  let x := defaultRow s w.t w.sel
  ({ elems := x.2, counts := !tabDefaultZero s w.t, weight := weight, bad := x.1 },
   rowLinesRead s w (rowCacheOn s w) (tabHeadOff s w.t) (4 * tabDim s w.t))

/-- Read one row (R343, R344, R356, R361, R370): `row` is the local row, `none` for an invalid index. -/
def readRow (s : State) (w : RowWay) (row : Option Nat) (weight : Nat) : Contrib × State :=
  let zero : Contrib := { elems := List.replicate (tabDim s w.t) 0, counts := true, weight := weight, bad := 0 }
  if !w.right then (zero, s)
  else
    match row with
    | none => defaultContrib (countHit s w.t true) w weight
    | some r =>
      let s := dirTouch s w r
      let d := tabRead s w.t w.sel (r * 8) 8
      let e := entOf (leNat d.2)
      if d.1 ≠ 0 then ({ zero with bad := d.1 }, s)
      else if e.fmt = 0 then defaultContrib (countHit s w.t false) w weight
      else if e.win then
        let k := sget (fun _ => Window.none) s.windows (tabWindow s w.t)
        let x := engRead s { w.c with va := false } (endpointId s * 2 ^ 48 + k.wbase + e.bolt * 65536 + e.slot * 16) (recSize e.fmt (tabDim s w.t))
        ({ zero with elems := decodeRow e.fmt (tabDim s w.t) x.2.1, bad := x.1 }, x.2.2)
      else
        let s := rowTouch s w e
        let x := tabRead s w.t w.sel (recOff e) (recSize e.fmt (tabDim s w.t))
        ({ zero with elems := decodeRow e.fmt (tabDim s w.t) x.2, bad := x.1 }, raiseAcc s w.c w.t r)

/-- Element-wise combination of two rows. -/
def zipRow (f : Nat → Nat → Nat) (a b : List Nat) : List Nat := List.zipWith f a b

/-- FP32 maximum; a NaN makes NaN. -/
def f32max (a b : Nat) : Nat :=
  if isNan (fdec fmtF32 a) || isNan (fdec fmtF32 b) then nanOf fmtF32 9 a b
  else if fltTotal (fdec fmtF32 a) (fdec fmtF32 b) then b else a

/-- Pool contributions in order (R371): 0 SUM, 1 MEAN (its sum), 2 WSUM, 3 MAX; +0 where nothing contributes. -/
def poolSum (pool dim : Nat) (cs : List Contrib) : List Nat :=
  let l := cs.filter (fun c => c.counts)
  let zero := List.replicate dim 0
  match pool with
  | 2 => l.foldl (fun a c => zipRow f32add a (c.elems.map (f32mul c.weight))) zero
  | 3 => (match l with
    | [] => zero
    | c :: t => t.foldl (fun a c => zipRow f32max a c.elems) c.elems)
  | _ => l.foldl (fun a c => zipRow f32add a c.elems) zero

/-- Divide a bag's sum for MEAN (R371). -/
def poolEnd (pool n : Nat) (a : List Nat) : List Nat :=
  if pool = 1 && n ≠ 0 then a.map (fun x => f32div x (f32ofInt n)) else a

/-- Output bytes of a pooled row. -/
def outBytes (bf16 : Bool) (a : List Nat) : Bytes :=
  if bf16 then a.flatMap (fun x => toLe 2 (narrow fmtBf16 false x)) else a.flatMap (toLe 4)

/-- Write one bag's output (R351, R373): all ones where a row line failed. -/
def writeBag (s : State) (c : EngCtx) (b : Bytes) (col bag dim : Nat) (bad : Bool) (a : List Nat) : State :=
  let bf := bit (bfld b 2 2) 5
  let e := if bf then 2 else 4
  let d := if bad then ones (dim * e) else outBytes bf a
  engWriteBlk (whenS bad s (fun s => bump s 0x2601 8)) c (bfld b 0x20 8 + bag * bfld b 0x38 4 + col * e) d

/-- The selection of a look-up or an update (R379, R383): RCODE or status where the handle is missing or stale. -/
def tabSelect (s : State) (t cid holder : Nat) (useVer work : Bool) : Option Ran × VerSel :=
  match getVer s (tabRegion s t) with
  | none => (none, .head)
  | some v =>
    if !useVer then (none, .head)
    else
      match verSelect v cid holder with
      | .stale => (some (ranStatus 7), .stale)
      | .work w => if work then (none, .work w)
          else (match v.reads.find? (fun h => h.cid == cid && h.holder == holder) with
            | some h => (none, .version h.version)
            | none => (some (ranCode 0 5), .head))
      | .version n => if work then (some (ranCode 0 5), .head) else (none, .version n)
      | .head => (some (ranCode 0 5), .head)

/-- Does the CID's partition hold the right on the table's region (R113)? A lack is a violation. -/
def tabRight (s : State) (t : Nat) (c : EngCtx) (write : Bool) : Bool :=
  partExists s (cidPart c.cid) && hasRight (getRegion s (tabRegion s t)) (cidPart c.cid) write

/-- Record the violation of a descriptor without its right. -/
def tabViolation (s : State) (t : Nat) (c : EngCtx) : State :=
  violation s (some c.cid) (violReq 1 c.kind 1 5 c.cid (endpointId s) (getRegion s (tabRegion s t)).base (tabRegion s t))

/-- One bag of a column-split look-up: its row, and what it added to the counts (default hits, failed bags, status). -/
structure Tally where
  hits : Nat
  errs : Nat
  status : Nat
  deriving DecidableEq, Repr

/-- Pool one bag from indices [lo, hi) of the lists, as local rows. -/
def gatherBag (s : State) (w : RowWay) (idx wt : Bytes) (idx32 : Bool) (lo hi : Nat) : List Contrib × Nat × State :=
  (upTo (hi - lo)).foldl (fun (r : List Contrib × Nat × State) k =>
    let i := lo + k
    let row := indexAt r.2.2 w.t idx idx32 i
    let x := readRow r.2.2 w row (bfld wt (4 * i) 4)
    let hit := match row with
      | none => 1
      | some j => if w.right && (rowEnt r.2.2 w.t w.sel j).fmt = 0 then 1 else 0
    (r.1 ++ [x.1], r.2.1 + hit, x.2)) ([], 0, s)

/-- The pooled share of a column-split look-up, or of a table without other members. -/
def shareColumn (s : State) (w : RowWay) (b : Bytes) (l : Lists) : Tally × State :=
  let n := bfld b 0x30 4
  let bags := bfld b 0x34 4
  let pool := bfld b 1 1
  let idx32 := bit (bfld b 2 2) 6
  (upTo bags).foldl (fun (r : Tally × State) bag =>
    let k := bagRange l.off n bags bag
    let g := gatherBag r.2 w l.idx l.wt idx32 k.1 k.2
    let bad := g.1.foldl (fun st c => firstStatus st c.bad) 0
    let cnt := (g.1.filter (fun c => c.counts)).length
    let s := writeBag g.2.2 w.c b (tabColOff r.2 w.t) bag (tabDim r.2 w.t) (bad ≠ 0) (poolEnd pool cnt (poolSum pool (tabDim r.2 w.t) g.1))
    ({ hits := r.1.hits + g.2.1, errs := r.1.errs + b2n (bad ≠ 0), status := firstStatus r.1.status bad }, s))
    ({ hits := 0, errs := 0, status := 0 }, s)

/-- The other members of a table's group. -/
def otherMembers (s : State) (t : Nat) : List Nat := (upTo (tabMembers s t)).filter (· ≠ tabMember s t)

/-- Send a descriptor and its lists to the other members on group MCAST as it was at acceptance (R526), and await their reports (R350). A member that the group leaves out gets nothing, and is missing
in the end (R353; log entry 126). -/
def fanOut (s : State) (d : DescRef) (x : Desc) (t : Nat) (l : Lists) (batch : Nat → List SubIdx) : State :=
  let s := forS ((otherMembers s t).filter (fun m => x.group.contains (tabPeer s t m).1)) s (fun s m =>
    let p := tabPeer s t m
    let s := bumpBy s 0x2601 0x0A (16 * (batch m).length)
    emit s (.fanout p.1 { ep := endpointId s, q := d.q, pos := d.pos, holder := x.holder, member := m, table := p.2, bytes := x.bytes,
                          idx := l.idx, off := l.off, wt := l.wt, batch := batch m, bad := l.bad }))
  match findDesc s d with
  | none => s
  | some y => setDesc s d.q { y with members := otherMembers s t, rcFrom := tabMember s t }

/-- Entries of a row-split look-up for owner `m` (R354), in index order. -/
def subBatch (s : State) (t : Nat) (b : Bytes) (l : Lists) (m : Nat) : List SubIdx :=
  let n := bfld b 0x30 4
  let bags := bfld b 0x34 4
  (upTo bags).flatMap (fun bag =>
    let k := bagRange l.off n bags bag
    (upTo (k.2 - k.1)).filterMap (fun j =>
      match indexAt s t l.idx (bit (bfld b 2 2) 6) (k.1 + j) with
      | some i => if i % tabMembers s t = m then some { row := i / tabMembers s t, bag := bag, weight := bfld l.wt (4 * (k.1 + j)) 4 } else none
      | none => none))

/-- Pool a sub-batch into partials (R354). -/
def poolBatch (s : State) (w : RowWay) (pool : Nat) (l : List SubIdx) : List Partial × Nat × Nat × State :=
  let bags := (l.map (·.bag)).eraseDups
  bags.foldl (fun (r : List Partial × Nat × Nat × State) bag =>
    let g := (l.filter (fun e => e.bag == bag)).foldl (fun (q : List Contrib × Nat × State) e =>
      let hit := b2n (w.right && (rowEnt q.2.2 w.t w.sel e.row).fmt == 0)
      let x := readRow q.2.2 w (some e.row) e.weight
      (q.1 ++ [x.1], q.2.1 + hit, x.2)) (([] : List Contrib), 0, r.2.2.2)
    let bad := g.1.foldl (fun st c => firstStatus st c.bad) 0
    let p : Partial := { bag := bag, count := (g.1.filter (fun c => c.counts)).length, bad := bad ≠ 0,
                         elems := poolSum pool (tabFullDim s w.t) g.1 }
    (r.1 ++ [p], r.2.1 + g.2.1, firstStatus r.2.2.1 bad, g.2.2)) (([] : List Partial), 0, 0, s)

/-- Combine two partials of a bag. -/
def joinPartial (pool : Nat) (a b : List Nat) : List Nat := if pool = 3 then zipRow f32max a b else zipRow f32add a b

/-- The coordinator writes every bag from its partials, in ascending member order, divided for MEAN (R354, R355). Invalid indices, which
the coordinator finds, take the default row: they are the partial of member −1, kept under number 64. -/
def combineRows (s : State) (c : EngCtx) (t : Nat) (x : Desc) : Nat × Nat × State :=
  let b := x.bytes
  let pool := bfld b 1 1
  let lost := bitsOf x.missing 64
  (upTo (bfld b 0x34 4)).foldl (fun (r : Nat × Nat × State) bag =>
    let ps := ((upTo 65).flatMap (fun m => x.partials.filter (fun p => p.1 == m && p.2.bag == bag))).map (·.2)
    let bad := ps.any (fun p => p.bad) || x.owed.any (fun o => lost.contains o.1 && o.2 == bag)
    let live := ps.filter (fun p => p.count != 0)
    let a := match live with
      | [] => List.replicate (tabFullDim s t) 0
      | p :: q => q.foldl (fun a p => joinPartial pool a p.elems) p.elems
    let cnt := (live.map (·.count)).sum
    (r.1 + b2n bad, 0, writeBag r.2.2 c b 0 bag (tabFullDim s t) bad (poolEnd pool cnt a))) (0, 0, s)

/-- The context of a look-up's accesses. -/
def lookupCtx (s : State) (d : DescRef) (b : Bytes) (eng : Nat) (env : List Reply) : EngCtx :=
  descCtx s d eng (bfld b 6 2) (bit (bfld b 2 2) 1) env

/-- Run a LOOKUP, or a member's share of one. -/
def runLookup (s0 : State) (d : DescRef) (x : Desc) (t eng : Nat) (env : List Reply) : State :=
  let b := x.bytes
  let fl := bfld b 2 2
  let c := lookupCtx s0 d b eng env
  let pool := bfld b 1 1
  let wide := tabSplit s0 t && 1 < tabMembers s0 t
  let vs := tabSelect s0 t c.cid x.holder (bit fl 4) false
  match vs.1 with
  | some r => if x.entry.isNone && bit fl 0 && 1 < tabMembers s0 t then
      -- the other members serve their shares
      let y := readLists s0 c x (bit fl 6) (bfld b 0x30 4) (bfld b 0x34 4)
      match stopped s0 y.2.2 d with
      | some z => z
      | none => denyDesc (fanOut y.2.2 d x t y.2.1 (fun m => if wide then subBatch s0 t b y.2.1 m else [])) d r
    else denyDesc s0 d r
  | none =>
    let right := tabRight s0 t c false
    let w : RowWay := { c := c, t := t, sel := vs.2, right := right, bypass := bit fl 2 }
    if x.entry.isSome && wide then
      runDesc s0 d (fun s =>
        let l := match x.lists with | some l => l.batch | none => []
        let p := poolBatch (whenS (!right) s (fun s => tabViolation s t c)) w pool l
        let s := bumpBy p.2.2.2 0x2601 0x0A (p.1.length * (4 * tabFullDim s0 t + 4))
        let s := match findDesc s d with
          | some y => setDesc s d.q { y with partials := p.1.map (fun q => (tabMember s0 t, q)) }
          | none => s
        ({ status := p.2.2.1, rcode := 0, result := p.2.1, missing := 0 }, s))
    else
      let y := readLists s0 c x (bit fl 6) (bfld b 0x30 4) (bfld b 0x34 4)
      match stopped s0 y.2.2 d with
      | some z => z
      | none =>
        if badOffsets y.2.1.off (bfld b 0x30 4) (bfld b 0x34 4) then denyDesc s0 d (ranCode 6 0x12)
        else if wide then
          -- coordinator (R354)
          partDesc s0 d (fun _ =>
            let s := fanOut y.2.2 d x t y.2.1 (fun m => subBatch s0 t b y.2.1 m)
            let mine := poolBatch s w pool (subBatch s0 t b y.2.1 (tabMember s0 t))
            let n := bfld b 0x30 4
            let bags := bfld b 0x34 4
            let bad := fun (bag : Nat) =>
              let k := bagRange y.2.1.off n bags bag
              ((upTo (k.2 - k.1)).map (k.1 + ·)).filter (fun i => (indexAt s t y.2.1.idx (bit fl 6) i).isNone)
            let inv := foldMapS (fun (s : State) (bag : Nat) =>
              let cs := foldMapS (fun (s : State) (i : Nat) => defaultContrib (countHit s t true) w (bfld y.2.1.wt (4 * i) 4)) s (bad bag)
              (({ bag := bag, count := (cs.1.filter (fun c => c.counts)).length, bad := cs.1.any (fun c => c.bad != 0),
                  elems := poolSum pool (tabFullDim s t) cs.1 } : Partial), cs.2)) mine.2.2.2 ((upTo bags).filter (fun bag => !(bad bag).isEmpty))
            let s := inv.2
            let owed := (otherMembers s t).flatMap (fun m => ((subBatch s t b y.2.1 m).map (fun e => (m, e.bag))).eraseDups)
            match findDesc s d with
            | none => s
            | some z => setDesc s d.q { z with
                phase := 1, ranAt := s.det.now, engine := some eng, status := firstStatus y.1 mine.2.2.1
                partials := mine.1.map (fun q => (tabMember s t, q)) ++ inv.1.map (fun p => (64, p)), owed := owed
                hits := mine.2.1 + ((upTo bags).map (fun bag => (bad bag).length)).sum })
        else
          runDesc s0 d (fun _ =>
            let s := bumpBy (bump y.2.2 0x2601 1) 0x2601 2 (bfld b 0x30 4)
            let s := if x.entry.isNone && bit fl 0 && 1 < tabMembers s0 t then fanOut s d x t y.2.1 (fun _ => []) else s
            let s := if bit fl 3 then addArrival s c (bfld b 0x28 8) else s
            let r := shareColumn (whenS (!right) s (fun s => tabViolation s t c)) w b y.2.1
            ({ status := firstStatus y.1 r.1.status, rcode := 0,
               result := (if x.entry.isNone then r.1.hits else 0) + r.1.errs * 2 ^ 32, missing := 0 }, r.2))

/-- LOOKUP (R371, R380). -/
def execLookup (d : DescRef) (env : List Reply) (s : State) : Res :=
  .next (match readyDesc s d 0x10 with
    | none => s
    | some x =>
      let t := bfld x.bytes 4 2
      match tabDeny s t x.ord with
      | some r => denyDesc s d r
      | none =>
        if !lookupForm s t x.bytes then denyDesc s d (ranCode 6 0x12)
        else match bobTake s d x with
          | none => s
          | some (e, x, s) => runLookup s d x t e env)

/-- The end of a row-split look-up at its coordinator: every partial is in, or its owner is missing. -/
def finishRows (s0 : State) (d : DescRef) (x : Desc) : State :=
  let t := bfld x.bytes 4 2
  let c := lookupCtx s0 d x.bytes (x.engine.getD 0) []
  runDesc s0 d (fun s =>
    let s := bumpBy (bump s 0x2601 1) 0x2601 2 (bfld x.bytes 0x30 4)
    let s := if bit (bfld x.bytes 2 2) 3 then addArrival s c (bfld x.bytes 0x28 8) else s
    let r := combineRows s c t x
    ({ status := x.status, rcode := x.rcode, result := x.hits + r.1 * 2 ^ 32, missing := x.missing }, r.2.2))

/-- Two RESULT words added field by field (R425). -/
def addResult (a b : Nat) : Nat := (a + b % 2 ^ 32) % 2 ^ 32 + (a / 2 ^ 32 + b / 2 ^ 32) % 2 ^ 32 * 2 ^ 32

/-- How a member's RESULT counts at the entry member: the sum for updates and row-split tables (R425); of a column-split look-up
only the failed bags; otherwise the entry member's own. -/
def takeResult (s : State) (x : Desc) (r : Nat) : Nat :=
  let op := descOp x
  let split := tabSplit s (bfld x.bytes 4 2)
  if 0x20 ≤ op && op ≤ 0x23 then addResult x.result r
  else if op = 0x10 then (if split then x.result else addResult x.result (r / 2 ^ 32 * 2 ^ 32))
  else if split then addResult x.result r else x.result

end Sys2Proof.Machine
end

