-- ==== Sys2Proof/Machine/BobRows.lean ====
section
/-! DEFINITION. Bobbin: loading rows (R381), the hot set (R367, R368), versions of a table (R382, R417), the re-encoding loop (R363 to R366), moves of records (R369, R370, R419). -/
namespace Sys2Proof.Machine

/-- A row's move in progress. -/
def findMove (s : State) (t row : Nat) : Option RowMove := s.eng.bob.moves.find? (fun m => m.table == t && m.row == row)

/-- Set the Bobbin block's own state. -/
def setBob (s : State) (b : BobState) : State := { s with eng := { s.eng with bob := b } }

/-- The context of the block's own accesses to a table: the table region's owner. -/
def loopCtx (s : State) (t : Nat) : EngCtx :=
  ownCtx s 2 (mkCid (getRegion s (tabRegion s t)).owner 0)

/-- Begin a new record of a row (R370 steps 1 and 2): MOVING, and the record in a free slot. `none`: no free record. -/
def startRowMove (s : State) (t row fmt band : Nat) (hot : Bool) : Option State :=
  let c := loopCtx s t
  let e := rowEnt s t .head row
  let xs := decodeRow e.fmt (tabDim s t) (tabRead s t .head (recOff e) (recSize e.fmt (tabDim s t))).2
  match findRec_ s c t .head fmt band with
  | none => none
  | some (b, k, s) =>
    match tabWrite s c t .head (b * 65536 + k * 16) (encodeRow fmt xs none) with
    | none => none
    | some s =>
      let m : RowMove := { table := t, row := row, fmt := fmt, band := band, bolt := b, slot := k, hot := hot, deltas := [] }
      setRowEnt (setBob s { s.eng.bob with moves := s.eng.bob.moves ++ [m] }) c t .head row { e with moving := true }

/-- Cut a move over (R370 step 3, R419): the newest delta is encoded into the new record, and the entry is rewritten in one 8 B write. -/
def cutOver (s : State) (m : RowMove) : State :=
  let c := loopCtx s m.table
  let e := rowEnt s m.table .head m.row
  let e' := { e with fmt := m.fmt, band := m.band, bolt := m.bolt, slot := m.slot, hot := m.hot, moving := false }
  let s := match m.deltas.getLast? with
    | some xs => (tabWrite (bump s 0x2605 0x0A) c m.table .head (recOff e') (encodeRow m.fmt xs none)).getD s
    | none => s
  let s := setBob s { s.eng.bob with moves := s.eng.bob.moves.filter (fun x => !(x.table == m.table && x.row == m.row)) }
  (setRowEnt (leaveOld s m.table e) c m.table .head m.row e').getD s

/-- RECORD_CUTOVER (R370). -/
def execRecordCutover (table row : Nat) (s : State) : Res :=
  .next (match findMove s table row with
    | none => s
    | some m => fin (cutOver s m))

/-- OLD_RECORD_FREE (R370 steps 4 and 5): the record's lines leave the row caches; a bolt without records is free. -/
def execOldRecordFree (table bolt slot : Nat) (s : State) : Res :=
  .next (if !s.eng.bob.oldRecs.contains (table, bolt, slot) then s
    else
      let s := dropRows s table (bolt * 65536 + slot * 16) (recSize 1 (tabDim s table))
      let s := setBob s { s.eng.bob with oldRecs := s.eng.bob.oldRecs.erase (table, bolt, slot) }
      if (usedRecs s table .head).any (fun u => u.1 == bolt) then s
      else fin ((tabWrite s (loopCtx s table) table .head (tabMapOff s table + bolt) [0]).getD s))

/-- The fields of Table 8.9. -/
def loadForm (s : State) (t : Nat) (b : Bytes) : Bool :=
  let dflt := bit (bfld b 2 2) 2
  let sf := bfld b 1 1
  (sf == 1 || sf == 2) && decide (bfld b 2 2 < 8) && decide (bfld b 6 2 < 16384) &&
  decide (tabFullDim s t * (if sf = 1 then 4 else 2) ≤ bfld b 0x1C 4) &&
  (dflt || (decide (1 ≤ bfld b 0x18 4) && decide (bfld b 0x18 4 ≤ 1048576) && decide (bfld b 0x10 8 + bfld b 0x18 4 ≤ tabRowsN s t))) &&
  bfld b 0x21 27 == 0

/-- The source row `k`'s elements that this member takes, as FP32. -/
def sourceRow (s : State) (c : EngCtx) (t : Nat) (b : Bytes) (k : Nat) : Nat × List Nat × State :=
  let z := if bfld b 1 1 = 1 then 4 else 2
  let x := engRead s c (bfld b 8 8 + k * bfld b 0x1C 4 + tabColOff s t * z) (tabDim s t * z)
  (x.1, (elemList z (tabDim s t) x.2.1).map (fun v => if z = 4 then v else widen fmtBf16 v), x.2.2)

/-- Load rows one after another until one finds no free record (R381): rows written, status, RCODE. -/
def loadRows (c : EngCtx) (t : Nat) (sel : VerSel) (b : Bytes) (fmt : Nat) : List Nat → State → Nat → Nat → Nat × Nat × Nat × State
  | [], s, n, st => (n, st, 0, s)
  | k :: rest, s, n, st =>
    let i := bfld b 0x10 8 + k
    if tabSplit s t && i % tabMembers s t ≠ tabMember s t then loadRows c t sel b fmt rest s n st
    else
      let row := if tabSplit s t then i / tabMembers s t else i
      let x := sourceRow s c t b k
      let s := match findMove x.2.2 t row with
        | some m => cutOver x.2.2 m
        | none => x.2.2
      if engStopped s then (n, st, 0, s)
      -- a row whose source could not be read is not written (log entry 128)
      else if x.1 ≠ 0 then loadRows c t sel b fmt rest s n (firstStatus st x.1)
      else
        let e := rowEnt s t sel row
        match newRecord s c t sel row fmt (bandOf e.hot e.bucket) e.hot x.2.1 none with
        | none => (n, st, 0x16, s)
        | some s => loadRows c t sel b fmt rest s (n + 1) st

/-- Run a TAB_LOAD, or a member's share (R381). -/
def runTabLoad (s0 : State) (d : DescRef) (x : Desc) (t eng : Nat) (env : List Reply) : State :=
  let b := x.bytes
  let c := descCtx s0 d eng (bfld b 6 2) (bit (bfld b 2 2) 1) env
  let fmt := if bfld b 0x20 1 = 0 then tabMaxFmt s0 t else bfld b 0x20 1
  let fan := fun (s : State) =>
    if x.entry.isNone && bit (bfld b 2 2) 0 && 1 < tabMembers s0 t then fanOut s d x t { idx := [], off := [], wt := [], batch := [], bad := [] } (fun _ => []) else s
  if fmt < tabMaxFmt s0 t || tabMinFmt s0 t < fmt then denyDesc (fan s0) d (ranCode 0 0x13)
  else if !tabRight s0 t c true then denyDesc (fan (tabViolation s0 t c)) d (ranStatus 0)
  else
    match tabSelect s0 t c.cid x.holder (tabVersioned s0 t) true with
    | (some r, _) => denyDesc (fan s0) d r
    | (none, sel) =>
      runDesc s0 d (fun s =>
        let s := fan s
        if bit (bfld b 2 2) 2 then
          let y := sourceRow s c t b 0
          if y.1 ≠ 0 then (ranStatus y.1, y.2.2)
          else match tabWrite y.2.2 c t sel (tabHeadOff s t) (y.2.1.flatMap (toLe 4)) with
          | some s => (ranStatus 0, dropTable s t)
          | none => (ranStatus 1, y.2.2)
        else
          let y := loadRows c t sel b fmt (upTo (bfld b 0x18 4)) s 0 0
          ({ status := y.2.1, rcode := y.2.2.1, result := y.1 % 2 ^ 32, missing := 0 }, y.2.2.2))

/-- A Bobbin descriptor that an engine is to run: its table serves it and an engine may take it. -/
def bobReady (s : State) (d : DescRef) (op : Nat) (form : Nat → Bytes → Bool) (run : State → Desc → Nat → Nat → State) : State :=
  match readyDesc s d op with
  | none => s
  | some x =>
    let t := bfld x.bytes 4 2
    match tabDeny s t x.ord with
    | some r => denyDesc s d r
    | none =>
      if !form t x.bytes then denyDesc s d (ranCode 6 0x12)
      else match bobTake s d x with
        | none => s
        | some (e, x, s) => run s x t e

/-- TAB_LOAD (R381). -/
def execTabLoad (d : DescRef) (env : List Reply) (s : State) : Res :=
  .next (bobReady s d 0x11 (loadForm s) (fun s x t e => runTabLoad s d x t e env))

/-- The fields of Table 8.10 for REFRESH_HOT. -/
def hotForm (b : Bytes) : Bool :=
  bfld b 1 1 == 0 && decide (bfld b 2 2 < 4) && decide (bfld b 6 2 < 16384) && decide (bfld b 0x10 4 ≤ 1048576) && bfld b 0x14 40 == 0

/-- Insert into a rising list, dropping duplicates. -/
def sortDedup (l : List Nat) : List Nat := l.foldl ninsert []

/-- Move the rows of a new hot set (R367): each gets a hot-set-band record at MAX_FMT and its HOT bit. `none`: no space. -/
def heatRows (c : EngCtx) (t : Nat) : List Nat → State → Option State
  | [], s => some s
  | row :: rest, s =>
    let e := rowEnt s t .head row
    if e.fmt = 0 || e.win || e.moving then heatRows c t rest s
    else if e.hot && e.band = 3 && e.fmt = tabMaxFmt s t then heatRows c t rest s
    else
      let s := tabMedia (tabGate s c t .head (recOff e) (recSize e.fmt (tabDim s t))) c t .head (recOff e) (recSize e.fmt (tabDim s t))
      let xs := decodeRow e.fmt (tabDim s t) (tabRead s t .head (recOff e) (recSize e.fmt (tabDim s t))).2
      match newRecord s c t .head row (tabMaxFmt s t) 3 true xs none with
      | none => none
      | some s => heatRows c t rest s

/-- Set PIN on the table's hot bolts, given relative to the image (R367, R368), and release the earlier ones. -/
def setPins (s : State) (t : Nat) (bolts : List Nat) : State :=
  let base := (getRegion s (tabRegion s t)).base / 65536
  let old := (s.eng.bob.pinned.filter (fun x => x.1 == t)).map (·.2)
  let new := (sortDedup bolts).map (base + ·)
  let s := forS (new.filter (fun b => !old.contains b)) s (fun s b => setBolt s b { getBolt s b with pins := (getBolt s b).pins + 1 })
  let s := forS (old.filter (fun b => !new.contains b)) s (fun s b => setBolt s b { getBolt s b with pins := (getBolt s b).pins - 1 })
  -- they are held in the Parlour: one homed elsewhere is moved there, as a stream window's are (log entry 129)
  let s := forS new s (fun s b =>
    let x := getBolt s b
    if x.home ≤ 1 || x.moving || !roomIn s x.part 1 then s
    else
      let r := pickCool s 1 x.quad 2 (fun _ => true)
      match r.1 with
      | some slot => startMove r.2 b 1 slot .stream
      | none => r.2)
  setBob s { s.eng.bob with pinned := s.eng.bob.pinned.filter (fun x => x.1 != t) ++ new.map (fun b => (t, b)) }

/-- Bolts that a partition has pinned, other than for table t's hot set. -/
def otherPins (s : State) (p t : Nat) : Nat :=
  (s.tier.map.filter (fun e => e.2.part == p && e.2.pins != 0 && !s.eng.bob.pinned.contains (t, e.1))).length

/-- Run a REFRESH_HOT, or a member's share (R367, R368). -/
def runRefreshHot (s0 : State) (d : DescRef) (x : Desc) (t eng : Nat) (env : List Reply) : State :=
  let b := x.bytes
  let c := descCtx s0 d eng (bfld b 6 2) (bit (bfld b 2 2) 1) env
  let n := bfld b 0x10 4
  let idx := match x.lists with
    | some l => (0, l.idx, s0)
    | none => engRead s0 c (bfld b 8 8) (8 * n)
  match stopped s0 idx.2.2 d with
  | some z => z
  | none =>
    let s := if x.entry.isNone && bit (bfld b 2 2) 0 && 1 < tabMembers s0 t then
        fanOut idx.2.2 d x t { idx := idx.2.1, off := [], wt := [], batch := [], bad := [] } (fun _ => []) else idx.2.2
    if !tabRight s0 t c true then denyDesc (tabViolation s t c) d (ranStatus 0)
    else if tabHotMax s0 t < n then denyDesc s d (ranCode 0 0x14)
    else if idx.1 ≠ 0 then denyDesc s d (ranStatus idx.1)
    else
      let all := elemList 8 n idx.2.1
      let valid := sortDedup (all.filter (fun i => decide (i < tabRowsN s0 t)))
      let bad := (all.filter (fun i => !decide (i < tabRowsN s0 t))).length
      let mine := valid.filterMap (fun i =>
        if !tabSplit s0 t then some i else if i % tabMembers s0 t = tabMember s0 t then some (i / tabMembers s0 t) else none)
      let owner := (getRegion s0 (tabRegion s0 t)).owner
      let sel := VerSel.head
      runDesc s d (fun s =>
        let res := mine.length % 2 ^ 32 + bad % 2 ^ 32 * 2 ^ 32
        if tabVersioned s0 t then
          let bolts := mine.filterMap (fun r => let e := rowEnt s t sel r; if e.fmt = 0 || e.win then none else some e.bolt)
          if quota s owner 1 < otherPins s owner t + (sortDedup bolts).length then (ranCode 0 0x15, s)
          else ({ status := 0, rcode := 0, result := res, missing := 0 }, dropTable (setPins s t bolts) t)
        else
          match heatRows c t mine s with
          | none => (ranCode 0 0x16, s)
          | some s1 =>
            let old := (rowsListed s1 t).filter (fun r => (rowEnt s1 t sel r).hot && !mine.contains r)
            let s1 := forS old s1 (fun s r => (setRowEnt s c t sel r { rowEnt s t sel r with hot := false }).getD s)
            let list := mine.flatMap (toLe 8)
            let s1 := (tabWrite s1 c t sel (tabHotOff s1 t) (slice list 0 (8 * tabHotMax s1 t))).getD s1
            let hotRows := (upTo (divUp (8 * tabHotMax s1 t) 65536)).map (fun k => tabHotOff s1 t / 65536 + k)
            let bolts := hotRows ++ mine.filterMap (fun r => let e := rowEnt s1 t sel r; if e.hot then some e.bolt else none)
            if quota s1 owner 1 < otherPins s1 owner t + (sortDedup bolts).length then (ranCode 0 0x15, s)
            else ({ status := 0, rcode := 0, result := res, missing := 0 }, dropTable (setPins s1 t bolts) t))

/-- Has the table a REFRESH_HOT that was accepted before and has not run (R368)? -/
def hotBefore (s : State) (t ord : Nat) : Bool :=
  (blkQueues s .bobbin).any (fun q => q.2.accepted.any (fun y => descOp y == 0x12 && bfld y.bytes 4 2 == t && decide (y.ord < ord) && !y.ran))

/-- REFRESH_HOT (R367): the refreshes of a table run one at a time. -/
def execRefreshHot (d : DescRef) (env : List Reply) (s : State) : Res :=
  .next (bobReady s d 0x12 (fun _ b => hotForm b) (fun s x t e => if hotBefore s t x.ord then s else runRefreshHot s d x t e env))

/-- The fields of Table 8.10 for VERSION. -/
def versionForm (b : Bytes) : Bool :=
  bfld b 2 2 == 0 && decide (bfld b 6 2 < 16384) && bfld b 0x10 8 == 0 && bfld b 0x18 36 == 0

/-- Is there a SEAL of the table that the partition submitted before and that has not completed (R417)? -/
def sealBefore (s : State) (p t ord : Nat) : Bool :=
  (blkQueues s .bobbin).any (fun q => q.1 / 16 % 64 == p && q.1 % 16 != 8 &&
    q.2.accepted.any (fun y => descOp y == 0x22 && bfld y.bytes 4 2 == t && decide (y.ord < ord)))

/-- A VERSION descriptor (R382, R383, R417): the command of Table 7.2 of its OP. -/
def runVersion (s : State) (d : DescRef) (op : Nat) : State :=
  match readyDesc s d 0x13 with
  | none => s
  | some x =>
    let b := x.bytes
    let t := bfld b 4 2
    if bfld b 1 1 ≠ op then s
    else
      match tabDeny s t x.ord with
      | some r => denyDesc s d r
      | none =>
        let c := descCtx s d 0 (bfld b 6 2) false []
        let r := tabRegion s t
        let arg := bfld b 8 8
        if !versionForm b then denyDesc s d (ranCode 6 0x12)
        else if !tabRight s t c (3 ≤ op && op ≤ 6) then denyDesc (tabViolation s t c) d (ranStatus 0)
        else if !tabVersioned s t then denyDesc s d (ranCode 6 0x0B)
        else if op = 4 && sealBefore s d.q.part t x.ord then s
        else
          let a := vcRun s r c.cid x.holder op arg
          denyDesc a.2 d { status := a.1.status, rcode := a.1.rcode, result := a.1.version, missing := 0 }

/-- VERSION_OPEN_READ (R382). -/
def execVersionOpenRead (d : DescRef) (s : State) : Res := .next (runVersion s d 1)

/-- VERSION_CLOSE_READ (R382). -/
def execVersionCloseRead (d : DescRef) (s : State) : Res := .next (runVersion s d 2)

/-- VERSION_QUERY (R382). -/
def execVersionQuery (d : DescRef) (s : State) : Res := .next (runVersion s d 7)

/-- VERSION_OPEN_WORK (R417). -/
def execVersionOpenWork (d : DescRef) (s : State) : Res := .next (runVersion s d 3)

/-- VERSION_PUBLISH (R417). -/
def execVersionPublish (d : DescRef) (s : State) : Res := .next (runVersion s d 4)

/-- VERSION_REBASE (R417). -/
def execVersionRebase (d : DescRef) (s : State) : Res := .next (runVersion s d 5)

/-- VERSION_DISCARD_WORK (R417). -/
def execVersionDiscardWork (d : DescRef) (s : State) : Res := .next (runVersion s d 6)

/-- T of R363. -/
def accTarget : Nat → Nat
  | 0 => 0 | 1 => 3 | 2 => 5
  | _ => 7

/-- The target format of a bucket (R364), limited to the table's range. -/
def bucketFmt (s : State) (t b : Nat) : Nat :=
  let f := if num s 0x2602 4 ≤ b then 1 else if num s 0x2602 5 ≤ b then 2 else if num s 0x2602 6 ≤ b then 3 else 4
  min (tabMinFmt s t) (max (tabMaxFmt s t) f)

/-- Is the loop frozen (R365, R688)? -/
def reencFrozen (s : State) : Bool := num s 0x2602 1 = 1 || inLimp s

/-- The loop's tables: RUNNING, with MASTER and VERSIONED clear (R363). -/
def loopTables (s : State) : List Nat := (upTo 256).filter (fun t => tabRun s t == 3 && !tabMaster s t && !tabVersioned s t)

/-- Sweep a table (R363): every entry's BUCKET and ACC. -/
def sweepTable (s : State) (t : Nat) : State :=
  let s := forS (rowsListed s t) s (fun s row =>
    let e := rowEnt s t .head row
    if e.fmt = 0 then s
    else
      let e' := { e with bucket := max (e.bucket - 1) (accTarget e.acc), acc := 0 }
      if e' = e then s else (setRowEnt s (loopCtx s t) t .head row e').getD s)
  setBob s { s.eng.bob with sweeps := sput (fun _ => 0) s.eng.bob.sweeps t (sget (fun _ => 0) s.eng.bob.sweeps t + 1) }

/-- The decisions that a sweep makes for a table (R364, R365): widenings first, then narrowings, in ascending row order. -/
def sweepChoices (s : State) (t : Nat) : List (Nat × Nat × Nat) :=
  let rows := (rowsListed s t).filter (fun r => let e := rowEnt s t .head r; e.fmt != 0 && !e.hot && !e.win)
  let wide := rows.filterMap (fun r =>
    let e := rowEnt s t .head r
    if bucketFmt s t e.bucket < e.fmt then some (t, r, bucketFmt s t e.bucket) else none)
  let thin := rows.filterMap (fun r =>
    let e := rowEnt s t .head r
    if e.fmt < bucketFmt s t e.bucket && e.fmt < bucketFmt s t (min 7 (e.bucket + 1)) then some (t, r, bucketFmt s t e.bucket) else none)
  if num s 0x2602 7 ≤ sget (fun _ => 0) s.eng.bob.sweeps t then wide ++ thin else wide

/-- REENC_SWEEP (R363): once per period, but not under FORBID (R658); frozen, the loop keeps ACC and BUCKET but decides nothing (R365). -/
def execReencSweep (s : State) : Res :=
  .next (if detMode s = 2 || !due s s.eng.bob.sweptAt (msT (num s 0x2602 2)) then s
    else
      let ts := loopTables s
      let s := forS ts s sweepTable
      fin (setBob s { s.eng.bob with sweptAt := s.det.now, queue := if reencFrozen s then [] else ts.flatMap (sweepChoices s) }))

/-- Carry out one decision of the loop (R364, R366, R369): a row that is moving, hot or in the window is left. -/
def reencodeNow (s : State) (t row fmt : Nat) : State :=
  let s := setBob s { s.eng.bob with queue := s.eng.bob.queue.filter (fun q => !(q.1 == t && q.2.1 == row)) }
  let e := rowEnt s t .head row
  if e.fmt = 0 || e.moving || e.hot || e.win || e.fmt = fmt || tabRun s t ≠ 3 then s
  else
    match startRowMove s t row fmt (bandOf false e.bucket) false with
    | none => bump s 0x2602 0x0A
    | some s => bump s 0x2602 (if fmt < e.fmt then 8 else 9)

/-- Is there budget left in this second for another decision (R364)? -/
def reencBudget (s : State) : Bool × State :=
  let x := s.eng.bob.second
  let x := if due s x.1 (secT 1) then (s.det.now, 0) else x
  (decide (x.2 < num s 0x2602 3), setBob s { s.eng.bob with second := (x.1, x.2 + 1) })

/-- ROW_REENCODE (R364): the next chosen row of its table, widenings before narrowings and each kind by ascending row, within the budget; under FORBID the loop acts only at a step boundary (R365). -/
def execRowReencode (table row : Nat) (s : State) : Res :=
  .next (match s.eng.bob.queue.find? (fun q => q.1 == table) with
    | none => s
    | some q =>
      if q.2.1 ≠ row || reencFrozen s || detMode s = 2 then s
      else
        let r := reencBudget s
        if r.1 then fin (markV (reencodeNow r.2 table row q.2.2) 0x48 (getRegion s (tabRegion s table)).owner) else s)

end Sys2Proof.Machine
end

