-- ==== Sys2Proof/Machine/BobUpdate.lean ====
section
/-! DEFINITION. Bobbin updates at the memory (ch. 9): steps and the accumulator pool (R398 to R401), accumulation (R402 to R408), seals (R409 to R416, R418 to R420), faults between the phases (R421, R422), descriptors (R425 to R427), and step boundaries (R657, R658). -/
namespace Sys2Proof.Machine

/-- An open step. -/
def getStep (s : State) (t n : Nat) : Option Step := s.eng.bob.steps.find? (fun y => y.table == t && y.step == n)

/-- Replace an open step. -/
def setStep (s : State) (y : Step) : State :=
  setBob s { s.eng.bob with steps := s.eng.bob.steps.map (fun z => if z.table == y.table && z.step == y.step then y else z) }

/-- Free a step: its cells return to the pool. -/
def dropStep (s : State) (t n : Nat) : State :=
  setBob s { s.eng.bob with steps := s.eng.bob.steps.filter (fun z => !(z.table == t && z.step == n)) }

/-- Does an accumulator bank work: its bit of ACC_BANKS_OK? -/
def bankWorks (s : State) (k : Nat) : Bool := bit (num s 0x2604 3) k && decide (2 ≤ num s 0x2010 (145 + k))

/-- Free cells of a bank that works (R398, R400). -/
def bankFree (s : State) (k : Nat) : Nat :=
  if bankWorks s k then 131072 - (s.eng.bob.steps.map (fun y => y.res.getD k 0 * y.cells)).sum else 0

/-- ACC_CELLS_FREE: free cells of the banks that work. -/
def cellsFree (s : State) : Nat := ((upTo 16).map (bankFree s)).sum

/-- Cells that a step holds. -/
def stepCells (y : Step) : Nat := y.res.sum * y.cells

/-- ACC_HELD of a partition. -/
def accHeld (s : State) (p : Nat) : Nat := ((s.eng.bob.steps.filter (fun y => y.part == p)).map stepCells).sum

/-- Cells of a row (R399). -/
def rowCells (exact_ : Bool) (dim : Nat) : Nat := if exact_ then dim + 2 else divUp dim 4 + 2

/-- Give `n` more rows to banks, in ascending order, within what each can still hold. -/
def spreadRest : Nat → List (Nat × Nat) → List Nat
  | _, [] => []
  | n, (got, room) :: t => let k := min n (room - got); (got + k) :: spreadRest (n - k) t

/-- Rows reserved in each bank, in proportion to the free cells (R400); the rest in ascending bank order. `none`: the banks cannot hold
them. -/
def spreadRows (s : State) (rows cells : Nat) : Option (List Nat) :=
  let free := (upTo 16).map (bankFree s)
  let total := free.sum
  if cells = 0 || total < rows * cells then none
  else
    let base := free.map (fun f => rows * f / total)
    let l := spreadRest (rows - base.sum) (base.zip (free.map (fun f => f / cells)))
    if l.sum = rows then some l else none

/-- STEP_INFO of a table (Table 9.11). -/
def stepInfo (s : State) (t : Nat) : Bytes :=
  slice ((s.eng.bob.steps.filter (fun y => y.table == t)).flatMap (fun y =>
    toLe 8 y.step ++ toLe 1 y.st ++ toLe 1 (if y.exact_ then 2 else 1) ++ zeros 2 ++ toLe 4 y.res.sum ++ toLe 4 y.rows.length)) 0 80

/-- Does the fan-out flag send the descriptor to the other members (R425)? -/
def fansOut (s : State) (x : Desc) (t : Nat) : Bool := x.entry.isNone && bit (bfld x.bytes 2 2) 0 && 1 < tabMembers s t

/-- No lists. -/
def noLists : Lists := { idx := [], off := [], wt := [], batch := [], bad := [] }

/-- Send a descriptor without lists to the other members where it asks for it. -/
def fanPlain (s : State) (d : DescRef) (x : Desc) (t : Nat) : State :=
  whenS (fansOut s x t) s (fun s => fanOut s d x t noLists (fun _ => []))

/-- The fields of Table 9.6. -/
def stepForm (s : State) (t : Nat) (op : Nat) (b : Bytes) : Bool :=
  tabAccMode s t != 0 && bfld b 1 1 == 0 && decide (bfld b 2 2 < 2) && decide (bfld b 6 2 < 16384) && bfld b 0x14 40 == 0 &&
  (if op = 0x20 then bfld b 8 8 != 0 && decide (1 ≤ bfld b 0x10 4) && decide (bfld b 0x10 4 ≤ 2097152) else bfld b 0x10 4 == 0)

/-- Run a STEP_OPEN, or a member's share (R400, R406). -/
def runStepOpen (s0 : State) (d : DescRef) (x : Desc) (t eng : Nat) : State :=
  let b := x.bytes
  let c := descCtx s0 d eng (bfld b 6 2) false []
  let s := fanPlain s0 d x t
  let n := bfld b 8 8
  let rows := bfld b 0x10 4
  let exact_ := detMode s = 2 || tabAccMode s t = 2
  let cells := rowCells exact_ (tabDim s t)
  let p := cidPart c.cid
  if !tabRight s t c true then denyDesc (tabViolation s t c) d (ranStatus 0)
  else if (getStep s t n).isSome then denyDesc s d (ranCode 0 0x19)
  else if 4 ≤ (s.eng.bob.steps.filter (fun y => y.table == t)).length then denyDesc s d (ranCode 0 0x1A)
  else if pnum s 0x4602 p < accHeld s p + rows * cells then denyDesc s d (ranCode 0 0x1C)
  else
    match spreadRows s rows cells with
    | none => denyDesc s d (ranCode 0 0x1C)
    | some l =>
      let y : Step := { table := t, step := n, st := 1, exact_ := exact_, part := p, cells := cells, res := l, left := l, rows := [], sealOrd := 0 }
      let s := setBob s { s.eng.bob with steps := s.eng.bob.steps ++ [y] }
      denyDesc s d { status := 0, rcode := 0, result := rows + cellsFree s % 2 ^ 32 * 2 ^ 32, missing := 0 }

/-- STEP_OPEN (R400). -/
def execStepOpen (d : DescRef) (s : State) : Res :=
  .next (bobReady s d 0x20 (fun t b => stepForm s t 0x20 b) (fun s x t e => runStepOpen s d x t e))

/-- Saturate to a 128-bit accumulator (R403): the value, and whether it saturated. -/
def sat128 (v : Int) : Int × Bool :=
  if (2 : Int) ^ 127 ≤ v then ((2 : Int) ^ 127 - 1, true) else if v ≤ -((2 : Int) ^ 127) then (-((2 : Int) ^ 127), true) else (v, false)

/-- One exact add (R403): the accumulator, whether it saturated, whether the product was NaN. -/
def addExact (frac : Nat) (acc : Int) (p : FNum) : Int × Bool × Bool :=
  match p with
  | .nan => (acc, false, true)
  | .inf n => (if n then -((2 : Int) ^ 127) else (2 : Int) ^ 127 - 1, true, false)
  | .fin n m e =>
    let q := sat128 (froundInt (.fin n m (e + frac)))
    if q.2 then (q.1, true, false)
    else
      let z := sat128 (acc + q.1)
      (z.1, z.2, false)

/-- One FP32 add (R405): the accumulator, and whether it is NaN or infinite. -/
def addFloat (acc : Int) (g w : Nat) : Int × Bool :=
  let z := f32add acc.toNat (f32mul g w)
  ((z : Int), !isFin (fdec fmtF32 z))

/-- Add one gradient row, with a weight, to a touched row; answers also the addends applied. -/
def addRow (exact_ : Bool) (frac : Nat) (r : StepRow) (g : List Nat) (w : Nat) : StepRow × Nat :=
  if r.lost then (r, 0)
  else if exact_ then
    let l := (r.acc.zip g).map (fun e => addExact frac e.1 (fmul (fdec fmtF32 e.2) (fdec fmtF32 w)))
    ({ r with n := r.n + 1, acc := l.map (·.1), sat := r.sat || l.any (·.2.1), nan := r.nan || l.any (·.2.2) },
     (l.filter (fun e => !e.2.2)).length)
  else
    let l := (r.acc.zip g).map (fun e => addFloat e.1 e.2 w)
    ({ r with n := r.n + 1, acc := l.map (·.1), nan := r.nan || l.any (·.2) }, l.length)

/-- The bank that a row of a step takes its cells in (R399): the first from bank (row mod 16) that still holds reserved cells. -/
def rowBank (s : State) (y : Step) (row : Nat) : Option Nat :=
  ((upTo 16).map (fun k => (row + k) % 16)).find? (fun k => y.left.getD k 0 != 0 && bankWorks s k)

/-- What an accumulation has come to: the step, indices dropped as invalid, dropped for ACC_FULL, addends applied. -/
structure AccRun where
  step : Step
  invalid : Nat
  full : Nat
  added : Nat
  deriving DecidableEq, Repr

/-- Add one index's addend (R402, R407). -/
def addIndex (s : State) (frac : Nat) (a : AccRun) (row : Nat) (g : List Nat) (w : Nat) : AccRun :=
  let y := a.step
  match y.rows.find? (fun r => r.row == row) with
  | some r =>
    let z := addRow y.exact_ frac r g w
    { a with step := { y with rows := y.rows.map (fun q => if q.row == row then z.1 else q) }, added := a.added + z.2 }
  | none =>
    match rowBank s y row with
    | none => { a with full := a.full + 1 }
    | some k =>
      let r : StepRow := { row := row, n := 0, sat := false, nan := false, lost := false, bank := k, acc := List.replicate g.length 0 }
      let z := addRow y.exact_ frac r g w
      { a with step := { y with rows := y.rows ++ [z.1], left := y.left.set k (y.left.getD k 0 - 1) }, added := a.added + z.2 }

/-- The fields of Table 9.7, and the limits of R380 with GRAD_STRIDE in place of OUT_STRIDE (R426). -/
def accForm (s : State) (t : Nat) (b : Bytes) : Bool :=
  let fl := bfld b 2 2
  let e := if bit fl 3 then 2 else 4
  let n := bfld b 0x30 4
  let bags := bfld b 0x34 4
  tabAccMode s t != 0 && decide (bfld b 1 1 ≤ 2) && decide (fl < 16) && decide (bfld b 6 2 < 16384) &&
  ((bfld b 1 1 == 2) == (bfld b 0x18 8 != 0)) &&
  decide (1 ≤ n) && decide (n ≤ 262144) && decide (1 ≤ bags) && decide (bags ≤ 262144) &&
  bfld b 0x38 4 % 4 == 0 && decide (tabFullDim s t * e ≤ bfld b 0x38 4) &&
  decide (n * divUp (recSize (tabMaxFmt s t) (tabDim s t)) 64 ≤ 262144) &&
  (bfld b 0x10 8 != 0 || n % bags == 0) && (bit fl 0 || !tabSplit s t || tabMembers s t == 1)

/-- The local row of an index at this member; `none` where another member owns it. -/
def ownRow (s : State) (t i : Nat) : Option Nat :=
  if !tabSplit s t then some i else if i % tabMembers s t = tabMember s t then some (i / tabMembers s t) else none

/-- An accumulation in progress: what it has come to, its status, and whether a lost request ended it (R422). -/
structure AccWalk where
  run : AccRun
  status : Nat
  aborted : Bool
  deriving DecidableEq, Repr

/-- Add one bag (R402): its gradient is read, and its indices add in order. -/
def addBag (t : Nat) (c : EngCtx) (b : Bytes) (l : Lists) (r : AccWalk × State) (bag : Nat) : AccWalk × State :=
  if r.1.aborted then r
  else
    let s := r.2
    let fl := bfld b 2 2
    let e := if bit fl 3 then 2 else 4
    let dim := tabDim s t
    let pool := bfld b 1 1
    let k := bagRange l.off (bfld b 0x30 4) (bfld b 0x34 4) bag
    let x := engReadList s c (bfld b 0x20 8 + bag * bfld b 0x38 4 + tabColOff s t * e) e dim
    let s := x.2.2.2
    let st := firstStatus r.1.status x.1
    if x.1 = 7 then ({ r.1 with status := st, aborted := true }, s)
    else
      let g := (elemList e dim x.2.1).map (fun v => if e = 4 then v else widen fmtBf16 v)
      let idx := (upTo (k.2 - k.1)).map (fun j => (k.1 + j, indexAt s t l.idx (bit fl 2) (k.1 + j)))
      let valid := (idx.filter (fun i => i.2.isSome)).length
      let rb := f32div 0x3F800000 (f32ofInt valid)
      let a := idx.foldl (fun (a : AccRun) i =>
        match i.2 with
        | none => { a with invalid := a.invalid + 1 }
        | some v =>
          if x.1 ≠ 0 || l.bad.contains i.1 then a
          else
            match ownRow s t v with
            | none => a
            | some row =>
              addIndex s (tabFrac s t) a row g (match pool with | 1 => rb | 2 => bfld l.wt (4 * i.1) 4 | _ => 0x3F800000)) r.1.run
      ({ run := a, status := st, aborted := false }, s)

/-- Record a taint (R422). -/
def taintStep (s : State) (y : Step) : State :=
  noteFault (bump (setStep s { y with st := 3 }) 0x2605 0x0D) 0x22 (resId 12 y.table) y.part 0xFF 0 (toLe 8 y.step)

/-- Has a SEAL of the step been accepted before number `ord` (R409)? -/
def sealedBefore (s : State) (y : Step) (ord : Nat) : Bool :=
  (y.st == 2 && decide (y.sealOrd < ord)) ||
  (blkQueues s .bobbin).any (fun q => q.2.accepted.any (fun z => descOp z == 0x22 && bfld z.bytes 4 2 == y.table &&
    bfld z.bytes 8 8 == y.step && z.phase == 0 && !z.ran && decide (z.ord < ord)))

/-- Run an ACCUMULATE, or a member's share (R402 to R408, R422). -/
def runAccumulate (s0 : State) (d : DescRef) (x : Desc) (t eng : Nat) (env : List Reply) : State :=
  let b := x.bytes
  let fl := bfld b 2 2
  let c := descCtx s0 d eng (bfld b 6 2) (bit fl 1) env
  let n := bfld b 0x30 4
  let bags := bfld b 0x34 4
  let l := readLists s0 c x (bit fl 2) n bags
  match stopped s0 l.2.2 d with
  | some z => z
  | none =>
    if badOffsets l.2.1.off n bags then denyDesc s0 d (ranCode 6 0x12)
    else
      let fan := fun (s : State) => whenS (fansOut s0 x t) s (fun s => fanOut s d x t l.2.1 (fun _ => []))
      if !tabRight s0 t c true then denyDesc (tabViolation (fan l.2.2) t c) d (ranStatus 0)
      else
        match getStep s0 t (bfld b 0x28 8) with
        | none => denyDesc (fan l.2.2) d (ranCode 0 0x18)
        | some y =>
          if y.st = 3 then denyDesc (fan l.2.2) d (ranCode 0 0x1D)
          else if sealedBefore s0 y x.ord then denyDesc (fan l.2.2) d (ranCode 0 0x18)
          else if !y.exact_ && detMode s0 = 2 then denyDesc (runBump (fan l.2.2) 0x50) d (ranCode 6 0x1F)
          else
            runDesc s0 d (fun _ =>
              let s := fan l.2.2
              let w := (upTo bags).foldl (addBag t c b l.2.1)
                ({ run := { step := y, invalid := 0, full := 0, added := 0 }, status := l.1, aborted := l.1 == 7 }, s)
              let a := w.1.run
              let s := w.2
              if w.1.aborted && a.added = 0 then (ranStatus 7, s)
              else
                let s := bumpBy (bump (setStep s a.step) 0x2605 1) 0x2605 2 a.added
                let s := if y.exact_ then s else markV s 0x28 (cidPart c.cid)
                let res := (a.invalid + a.full) % 2 ^ 32 + a.added % 2 ^ 32 * 2 ^ 32
                if w.1.aborted then
                  ({ status := w.1.status, rcode := 0x1D, result := res, missing := 0 }, taintStep s a.step)
                else
                  ({ status := w.1.status, rcode := if a.full ≠ 0 then 0x1B else 0, result := res, missing := 0 }, s))

/-- ACCUMULATE (R402). -/
def execAccumulate (d : DescRef) (env : List Reply) (s : State) : Res :=
  .next (bobReady s d 0x21 (accForm s) (fun s x t e => runAccumulate s d x t e env))

/-- The fields of Table 9.8 (R426, R417). -/
def sealForm (s : State) (t : Nat) (b : Bytes) : Bool :=
  let p0 := bfld b 0x10 4
  let p1 := bfld b 0x14 4
  let fin := fun v => isFin (fdec fmtF32 v)
  let zero := fun v => v == 0
  tabAccMode s t != 0 && bfld b 1 1 == 0 && decide (bfld b 2 2 < 8) && decide (bfld b 6 2 < 16384) && fin p0 && fin p1 &&
  (if tabOpt s t = 1 then flt (.fin false 0 0) (fdec fmtF32 p1) else zero p1) &&
  (tabOpt s t != 2 || (!flt (fdec fmtF32 p0) (.fin false 0 0) && !flt (ofInt 1) (fdec fmtF32 p0))) &&
  bfld b 0x18 8 % 16 == 0 && decide (bfld b 0x20 4 ≤ 65536) && (bfld b 0x20 4 != 0 || bfld b 0x18 8 == 0) && bfld b 0x24 24 == 0 &&
  (!tabVersioned s t || bit (bfld b 2 2) 2)

/-- A SEAL is accepted (R401, R409): the step is SEALING, and the seal waits. -/
def runSeal (s0 : State) (d : DescRef) (x : Desc) (t eng : Nat) : State :=
  let b := x.bytes
  let c := descCtx s0 d eng (bfld b 6 2) (bit (bfld b 2 2) 1) []
  let s := fanPlain s0 d x t
  if !tabRight s t c true then denyDesc (tabViolation s t c) d (ranStatus 0)
  else
    match getStep s t (bfld b 8 8) with
    | none => denyDesc s d (ranCode 0 0x18)
    | some y =>
      if y.st = 3 then denyDesc (dropStep s t y.step) d (ranCode 0 0x1D)
      else if y.st = 2 then denyDesc s d (ranCode 0 0x18)
      else
        let s := setStep s { y with st := 2, sealOrd := x.ord }
        match findDesc s d with
        | none => s
        | some z => fin (setDesc s d.q { z with phase := 1, engine := some eng })

/-- SEAL (R409). -/
def execSeal (d : DescRef) (s : State) : Res :=
  .next (bobReady s d 0x22 (sealForm s) (fun s x t e => runSeal s d x t e))

/-- The accumulators of a row rounded once to FP32 (R410). -/
def accFloats (y : Step) (frac : Nat) (r : StepRow) : List Nat :=
  r.acc.map (fun a => if y.exact_ then fenc fmtF32 false (.fin (decide (a < 0)) a.natAbs (-(frac : Int))) else a.toNat)

/-- The optimizer on one row (R410): OPT, P0, P1, the row, its accumulators, its count, and G. Answers the row and the new G. -/
def optimize (opt p0 p1 : Nat) (xs as_ : List Nat) (n g : Nat) : List Nat × Nat :=
  match opt with
  | 1 =>
    let sm := as_.foldl (fun z a => f32add z (f32mul a a)) 0
    let g' := f32add g (f32div sm (f32ofInt xs.length))
    let q := f32div p0 (f32add (f32sqrt g') p1)
    ((xs.zip as_).map (fun e => f32sub e.1 (f32mul q e.2)), g')
  | 2 => ((xs.zip as_).map (fun e => f32add e.1 (f32mul p0 (f32sub (f32div e.2 (f32ofInt n)) e.1))), g)
  | _ => ((xs.zip as_).map (fun e => f32add e.1 (f32mul p0 e.2)), g)

/-- Write a row's G (R396): 4 B in the state region. `none`: no tier has room. -/
def writeG (s : State) (c : EngCtx) (t row g : Nat) : Option State :=
  let r := tabStateRegion s t
  ownWrite s c r ((getRegion s r).base + row * 4) (toLe 4 g)

/-- What a seal did with a row: the report's reason (0: none), whether it was applied, promoted, created. -/
structure Sealed where
  reason : Nat
  applied : Bool
  promoted : Bool
  created : Bool
  deriving DecidableEq, Repr

/-- A row left unchanged. -/
def leftRow (reason : Nat) : Sealed := { reason := reason, applied := false, promoted := false, created := false }

/-- Write the sealed values of a row that is not moving (R411): in place within one line, else as a new record. -/
def sealWrite (s : State) (c : EngCtx) (t : Nat) (sel : VerSel) (row fmt : Nat) (e : RowEnt) (xs : List Nat) (dith : Option (Nat → Nat)) :
    Option State :=
  let z := recSize fmt xs.length
  if e.fmt = fmt && recOff e % 64 + z ≤ 64 then tabWrite s c t sel (recOff e) (encodeRow fmt xs dith)
  else newRecord s c t sel row fmt (bandOf e.hot e.bucket) e.hot xs dith

/-- Write the sealed values of a row that is moving (R418 to R420): the old record, and the delta log; a full log cuts over first, and
the write then finds the new record. -/
def sealMoving (s : State) (c : EngCtx) (t row : Nat) (m : RowMove) (xs : List Nat) (dith : Option (Nat → Nat)) : Option State :=
  if 4 ≤ m.deltas.length then
    let s := cutOver s m
    let e := rowEnt s t .head row
    sealWrite s c t .head row e.fmt e xs dith
  else
    let e := rowEnt s t .head row
    let b := encodeRow e.fmt xs (if e.fmt = 1 then none else dith)
    (tabWrite s c t .head (recOff e) b).map (fun s =>
      setBob s { s.eng.bob with moves := s.eng.bob.moves.map (fun y =>
        if y.table == t && y.row == row then { y with deltas := y.deltas ++ [decodeRow e.fmt xs.length b] } else y) })

/-- Seal one touched row (R410 to R413): what it did, the status of the row's lines, and the state. -/
def sealRow (c : EngCtx) (t : Nat) (sel : VerSel) (b : Bytes) (y : Step) (s : State) (r : StepRow) : Sealed × Nat × State :=
  let e := rowEnt s t sel r.row
  let dim := tabDim s t
  if r.lost then (leftRow 1, 0, s)
  else if e.win then (leftRow 6, 0, s)
  else if e.fmt = 0 && !tabCreate s t then (leftRow 5, 0, s)
  else if r.nan then (leftRow 3, 0, s)
  else if r.sat && detMode s = 2 then (leftRow 4, 0, s)
  else
    -- the row as it stands: its record, or the default row
    let at_ := if e.fmt ≠ 0 then (recOff e, recSize e.fmt dim) else (tabHeadOff s t, 4 * dim)
    let none_ := e.fmt = 0 && tabDefaultZero s t
    let s := if none_ then s else tabMedia (tabGate s c t sel at_.1 at_.2) c t sel at_.1 at_.2
    let old := tabRead s t sel at_.1 at_.2
    let g := if tabOpt s t = 1 then
        engReadNat s { c with va := false } (endpointId s * 2 ^ 48 + (getRegion s (tabStateRegion s t)).base + r.row * 4) 4
      else (0, 0, s)
    let s := g.2.2
    let bad := firstStatus (if none_ then 0 else old.1) g.1
    if bad ≠ 0 then (leftRow 0, bad, s)
    else
      let xs := if e.fmt ≠ 0 then decodeRow e.fmt dim old.2
        else if none_ then List.replicate dim 0 else elemList 4 dim old.2
      let g := g.2.1
      let o := optimize (tabOpt s t) (bfld b 0x10 4) (bfld b 0x14 4) xs (accFloats y (tabFrac s t) r) r.n g
      let fmt := if e.fmt = 0 then tabUpdFmt s t else min e.fmt (tabUpdFmt s t)
      let dith := if tabSr s t && fmt ≠ 1 then
          some (fun j => dither (tabSeed s t) y.step (tabLogical s t r.row) (tabColOff s t + j)) else none
      let s1 := if tabOpt s t = 1 then writeG s c t r.row o.2 else some s
      let mv := if sel = .head then findMove s t r.row else none
      let s2 := s1.bind (fun s => match mv with
        | some m => sealMoving s c t r.row m o.1 dith
        | none => sealWrite s c t sel r.row fmt e o.1 dith)
      match s2 with
      | none => (leftRow 2, 0, s)
      | some s => ({ reason := if r.sat then 4 else 0, applied := true, promoted := e.fmt ≠ 0 && fmt ≠ e.fmt && mv.isNone, created := e.fmt = 0 },
          0, raiseAcc s c t r.row)

/-- Put a row into a list in ascending order. -/
def insertRow (l : List StepRow) (r : StepRow) : List StepRow :=
  l.takeWhile (fun q => decide (q.row < r.row)) ++ r :: l.dropWhile (fun q => decide (q.row < r.row))

/-- Merge a reported row into the entries: consecutive rows with one reason are one entry (first, count, reason). -/
def mergeReport (l : List (Nat × Nat × Nat)) (row reason : Nat) : List (Nat × Nat × Nat) :=
  match l.getLast? with
  | some (f, n, k) => if f + n = row && k = reason then l.dropLast ++ [(f, n + 1, k)] else l ++ [(row, 1, reason)]
  | none => [(row, 1, reason)]

/-- The sweep at a boundary under FORBID (R658), with its re-encodes made at once, in the order of R364. -/
def boundarySweep (s : State) (t : Nat) : State :=
  let s := sweepTable s t
  if reencFrozen s then s
  else
    forS (sweepChoices s t) s (fun s q =>
      let e := rowEnt s t .head q.2.1
      let s := reencodeNow s t q.2.1 q.2.2
      match findMove s t q.2.1 with
      | some m => if e.moving then s else runBump (cutOver s m) 0x58
      | none => s)

/-- The table's own part of a step boundary (R657, R658). -/
def tableBoundary (s : State) (t : Nat) : State :=
  let n := sget (fun _ => 0) s.eng.bob.bounds t + 1
  let s := setBob s { s.eng.bob with bounds := sput (fun _ => 0) s.eng.bob.bounds t n }
  if detMode s = 2 && n % num s 0x2C01 3 = 0 && (loopTables s).contains t then boundarySweep s t else s

/-- A boundary of the placement loop (R198, R657): it is counted, and the queued decisions are carried out. -/
def placeBoundary (s : State) : State :=
  let s := bump s 0x2C01 4
  if detMode s = 2 then releaseDecisions s else s

/-- May a seal apply now (R409): earlier accumulates of the step have run, and no earlier seal of the table runs? -/
def sealMay (s : State) (t n ord : Nat) : Bool :=
  !(blkQueues s .bobbin).any (fun q => q.2.accepted.any (fun z => decide (z.ord < ord) && bfld z.bytes 4 2 == t && !z.ran &&
    ((descOp z == 0x21 && bfld z.bytes 0x28 8 == n) || (descOp z == 0x22 && z.phase == 1))))

/-- The rows of a sealing step, sealed in ascending order: counts, report entries, status, and the state. -/
def sealRows (c : EngCtx) (t : Nat) (sel : VerSel) (b : Bytes) (y : Step) (s : State) :
    List Sealed × List (Nat × Nat × Nat) × Nat × State :=
  (y.rows.foldl insertRow []).foldl (fun (q : List Sealed × List (Nat × Nat × Nat) × Nat × State) r =>
    let z := sealRow c t sel b y q.2.2.2 r
    (q.1 ++ [z.1], if z.1.reason = 0 then q.2.1 else mergeReport q.2.1 (tabLogical s t r.row) z.1.reason,
     firstStatus q.2.2.1 z.2.1, z.2.2)) (([] : List Sealed), ([] : List (Nat × Nat × Nat)), 0, s)

/-- Apply a seal (R410 to R416): rows, counters, report, boundary, LAST_SEALED; the step is free. -/
def applySeal (s : State) (x : Desc) (c : EngCtx) (t : Nat) (sel : VerSel) (y : Step) : Ran × State :=
  let b := x.bytes
  let q := sealRows c t sel b y s
  let s := q.2.2.2
  let count := fun (f : Sealed → Bool) => (q.1.filter f).length
  let sats := count (fun z => z.reason == 4)
  let s := bumpBy (bumpBy (bumpBy (bump s 0x2605 3) 0x2605 4 (count (·.applied))) 0x2605 5 (count (·.promoted))) 0x2605 6 (count (·.created))
  let s := bumpBy (bumpBy (bumpBy s 0x2605 7 sats) 0x2605 8 (count (fun z => z.reason == 3))) 0x2605 9 (count (fun z => z.reason == 1))
  let s := whenS (sats ≠ 0) s (fun s =>
    noteFault s 0x20 (resId 12 t) (getRegion s (tabRegion s t)).owner 0xFF 0 (toLe 8 y.step ++ toLe 4 sats))
  let max_ := bfld b 0x20 4
  let rep := (q.2.1.take max_).flatMap (fun e => toLe 8 e.1 ++ toLe 4 e.2.1 ++ toLe 1 e.2.2 ++ zeros 3)
  let s := engWrite s c (bfld b 0x18 8 + tabMember s t * max_ * 16) rep
  let s := dropTable (tableBoundary s t) t
  let s := (tabWrite s c t sel (tabHeadOff s t + 0x1000) (toLe 8 y.step)).getD s
  ({ status := q.2.2.1, rcode := if count (fun z => z.reason == 1) = 0 then 0 else 0x1E
     result := count (·.applied) % 2 ^ 32 + q.2.1.length % 2 ^ 32 * 2 ^ 32, missing := 0 }, placeBoundary (dropStep s t y.step))

/-- SEAL_APPLY (R410). -/
def execSealApply (d : DescRef) (s : State) : Res :=
  .next (match findDesc s d with
    | none => s
    | some x =>
      let b := x.bytes
      let t := bfld b 4 2
      if d.q.blk != .bobbin || descOp x != 0x22 || x.phase != 1 || x.ran || x.trap.isSome || blkRun s .bobbin < 2 then s
      else
        match getStep s t (bfld b 8 8), (upTo 16).find? (dealable s d.q.part) with
        | some y, some e =>
          if !sealMay s t y.step x.ord then s
          else
            let c := descCtx s d e (bfld b 6 2) (bit (bfld b 2 2) 1) []
            (match tabSelect s t c.cid x.holder (bit (bfld b 2 2) 2) true with
            | (some r, _) => denyDesc (dropStep s t y.step) d r
            | (none, sel) => runDesc s d (fun s => applySeal s x c t sel y))
        | none, _ => denyDesc s d (ranCode 0 0x18)
        | _, none => s)

/-- Run a STEP_DISCARD, or a member's share (R401, R425): during a seal it waits. -/
def runStepDiscard (s0 : State) (d : DescRef) (x : Desc) (t eng : Nat) : State :=
  let b := x.bytes
  let c := descCtx s0 d eng (bfld b 6 2) false []
  let n := bfld b 8 8
  match getStep s0 t n with
  | some y =>
    if y.st = 2 then s0
    else
      let s := fanPlain s0 d x t
      if !tabRight s t c true then denyDesc (tabViolation s t c) d (ranStatus 0)
      else denyDesc (bump (dropStep s t n) 0x2605 0x0E) d { status := 0, rcode := 0, result := y.rows.length % 2 ^ 32, missing := 0 }
  | none =>
    let s := fanPlain s0 d x t
    if !tabRight s t c true then denyDesc (tabViolation s t c) d (ranStatus 0) else denyDesc s d (ranStatus 0)

/-- STEP_DISCARD (R401). -/
def execStepDiscard (d : DescRef) (s : State) : Res :=
  .next (bobReady s d 0x23 (fun t b => stepForm s t 0x23 b) (fun s x t e => runStepDiscard s d x t e))

/-- An accumulator bank is lost (R421): its rows of open steps are LOST, its bit of ACC_BANKS_OK clears, BN_ACC_LOST is recorded. -/
def loseBank (s : State) (bank : Nat) : State :=
  let hit := s.eng.bob.steps.filter (fun y => y.res.getD bank 0 != 0)
  let s := setNum s 0x2604 3 (clrBit (num s 0x2604 3) bank)
  let s := setBob s { s.eng.bob with steps := s.eng.bob.steps.map (fun y =>
    { y with rows := y.rows.map (fun r => if r.bank == bank then { r with lost := true } else r) }) }
  match hit with
  | [] => noteFault s 0x21 (resId 7 bank) 0xFF 0xFF 0 []
  | _ => forS hit s (fun s y => noteFault s 0x21 (resId 7 bank) y.part 0xFF 0 (toLe 1 y.table ++ toLe 8 y.step))

/-- A bank's level-1 recovery ends at once, and its bit is set again; at a higher level the accumulator share stays retired (Table 17.4). -/
def scrubBank (s : State) (bank : Nat) : State :=
  if openLevel s (resId 7 bank) ≤ 1 && !outOfService s (resId 7 bank) then setNum s 0x2604 3 (setBit (num s 0x2604 3) bank) else s

/-- ACC_BANK_FAIL (R421): an uncorrectable error in one of the bank's cells, or, with `power`, the loss of its Landing bank's power. -/
def execAccBankFail (bank : Nat) (power : Bool) (s : State) : Res :=
  .next (if 16 ≤ bank then s
    else
      let part := match s.eng.bob.steps.find? (fun y => y.res.getD bank 0 != 0) with | some y => y.part | none => 0xFF
      let s := loseBank s bank
      if power then s else scrubBank (detectFault s 0x0A (resId 7 bank) 1 part 0xFF 0 []) bank)

end Sys2Proof.Machine
end

