-- ==== Sys2Proof/Machine/Aes.lean ====
section
/-! DEFINITION. AES-256-GCM, the protection of outer links (R576, R620), as FIPS 197 and NIST SP 800-38D define it: PRESUMED, log entry 2. -/
namespace Sys2Proof.Machine

/-- A product in the field of AES, modulo x⁸ + x⁴ + x³ + x + 1. -/
def aesMul (a b : Nat) : Nat :=
  ((upTo 8).foldl (fun (st : Nat × Nat) i =>
    (if bit b i then st.1.xor st.2 else st.1, if st.2 < 128 then 2 * st.2 else (2 * st.2).xor 0x11B)) (0, a)).1

/-- The inverse in that field, 0 for 0: the 254th power, 254 = 2 + 4 + … + 128. -/
def aesInv (a : Nat) : Nat :=
  ((upTo 7).foldl (fun (st : Nat × Nat) _ => let q := aesMul st.2 st.2; (aesMul st.1 q, q)) (1, a)).1

/-- SubBytes of one byte: the affine image of its inverse. -/
def aesSub (b : Byte) : Byte :=
  let v := BitVec.ofNat 8 (aesInv b.toNat)
  (upTo 5).foldl (fun acc k => acc ^^^ v.rotateLeft k) 0x63

/-- The S-box, by value. -/
def aesBox : List Byte := (upTo 256).map (fun v => aesSub (BitVec.ofNat 8 v))
def aesLook (b : Byte) : Byte := aesBox.getD b.toNat 0

/-- Bytes added position by position. -/
def xorBytes (a b : Bytes) : Bytes := List.zipWith (fun x y => x ^^^ y) a b

/-- The key schedule: `n` more words after those known, newest first; `i` is the number of the next. -/
def aesWords : Nat → Nat → List Bytes → List Bytes
  | 0, _, w => w
  | n + 1, i, w =>
    let last := w.getD 0 []
    let t :=
      if i % 8 = 0 then xorBytes (((last.drop 1) ++ last.take 1).map aesLook) (BitVec.ofNat 8 (2 ^ (i / 8 - 1)) :: zeros 3)
      else if i % 8 = 4 then last.map aesLook
      else last
    aesWords n (i + 1) (xorBytes (w.getD 7 []) t :: w)

/-- The 15 round keys of a 32-byte key. -/
def aesKeys (key : Bytes) : List Bytes :=
  let w := (aesWords 52 8 ((upTo 8).map (fun k => slice key (4 * k) 4)).reverse).reverse
  (upTo 15).map (fun r => ((w.drop (4 * r)).take 4).flatten)

/-- ShiftRows: byte r of column c comes from column c + r. -/
def aesShift (b : Bytes) : Bytes := (upTo 16).map (fun k => b.getD ((k + 4 * (k % 4)) % 16) 0)

/-- MixColumns. -/
def aesMix (b : Bytes) : Bytes :=
  (upTo 16).map (fun k =>
    let at_ := fun (r : Nat) => (b.getD (k / 4 * 4 + (k + r) % 4) 0).toNat
    BitVec.ofNat 8 (((aesMul (at_ 0) 2).xor (aesMul (at_ 1) 3)).xor ((at_ 2).xor (at_ 3))))

/-- One block enciphered under round keys. -/
def aesBlock (ks : List Bytes) (b : Bytes) : Bytes :=
  let first := xorBytes b (ks.getD 0 [])
  let mid := ((ks.drop 1).take 13).foldl (fun x k => xorBytes (aesMix (aesShift (x.map aesLook))) k) first
  xorBytes (aesShift (mid.map aesLook)) (ks.getD 14 [])

/-- A product of GCM's field of 128 bits, whose first bit is the most significant of a block. -/
def ghashMul (x y : Nat) : Nat :=
  ((upTo 128).foldl (fun (st : Nat × Nat) i =>
    (if bit x (127 - i) then st.1.xor st.2 else st.1, if st.2 % 2 = 1 then (st.2 / 2).xor (0xE1 * 2 ^ 120) else st.2 / 2)) (0, y)).1

/-- Bytes filled up with zeros to whole blocks of 16. -/
def padBlocks (b : Bytes) : Bytes := slice b 0 (divUp b.length 16 * 16)

/-- GHASH of a string of whole blocks. -/
def ghash (h : Nat) (b : Bytes) : Nat :=
  (upTo (b.length / 16)).foldl (fun v k => ghashMul (v.xor (beNat (slice b (16 * k) 16))) h) 0

/-- AES-256-GCM with an IV of 12 bytes: the ciphertext, and the tag over the additional data and it. -/
def gcmSeal (key iv aad plain : Bytes) : Bytes × Bytes :=
  let ks := aesKeys key
  let block := fun (n : Nat) => aesBlock ks (iv ++ toBe 4 n)
  let text := xorBytes plain ((upTo (divUp plain.length 16)).flatMap (fun k => block (k + 2)))
  let h := beNat (aesBlock ks (zeros 16))
  let sum := ghash h (padBlocks aad ++ padBlocks text ++ toBe 8 (8 * aad.length) ++ toBe 8 (8 * text.length))
  (text, xorBytes (block 1) (toBe 16 sum))

end Sys2Proof.Machine
end

