-- ==== Sys2Proof/Machine/TapeImage.lean ====
section
/-! DEFINITION. Tape: the image of an index as it is read and written (R434 to R438, Tables 10.2, 10.3, 10.5), free runs and pages, starting and stopping the block and its indexes (R431 to R433, R436). -/
namespace Sys2Proof.Machine

/-- "None" for pages and re-rank slots. -/
def none32 : Nat := 0xFFFFFFFF

/-- TP_START (R431). -/
def execTpStart (w : Writer) (s : State) : Res := endWrite w (writeBlkCmd s .tape [1])

/-- TP_STOP (R431). -/
def execTpStop (w : Writer) (s : State) : Res := endWrite w (writeBlkCmd s .tape [2])

/-- TP_STOP_END (R431): its rounds and its merges have ended. -/
def execTpStopEnd (s : State) : Res :=
  .next (if s.eng.tape.rounds.isEmpty && s.eng.tape.merges.isEmpty then blkStopEnd s .tape else s)

/-- Is Tape engine n ON (R430)? -/
def tapeOn (s : State) (n : Nat) : Bool := decide (n < 32) && domUsable s (52 + n) && !outOfService s (engRes 3 n)

/-- Treadle arrays that are ON, as a mask. -/
def arraysOn (s : State) : Nat := (upTo 8).foldl (fun m a => if domUsable s (20 + a) && !outOfService s (engRes 4 a) then setBit m a else m) 0

/-- Set the Tape block's own state. -/
def setTape (s : State) (t : TapeState) : State := { s with eng := { s.eng with tape := t } }

/-- Does the index have accepted descriptors from before its STOP that have not completed? -/
def vecBusy (s : State) (x : Nat) : Bool :=
  (blkQueues s .tape).any (fun q => q.2.accepted.any (fun d => descOp d != 0xF0 && descOp d != 0xF1 && bfld d.bytes 4 2 == x &&
    decide (d.ord < sget (fun _ => 0) s.eng.tape.stopOrd x)))

/-- VEC_RUN: STOPPING ends, without a command of its own, when the accepted descriptors have completed (R433). -/
def vecRun (s : State) (x : Nat) : Nat := if vecRunRaw s x = 2 && !vecBusy s x then 1 else vecRunRaw s x

/-- A list directory entry (Table 10.3). -/
structure VecEnt where
  version : Nat
  lane : Nat
  state : Nat
  first : Nat
  nbolts : Nat
  count : Nat
  tombs : Nat
  chain : Nat
  bitmap : Nat
  deriving DecidableEq, Repr

/-- Bytes of an image; all ones where a line of them lies on a Cellar channel that is OFF (R162, R192). -/
def vecRead (s : State) (x off n : Nat) : Bytes :=
  if (tabLines (vecBase s x + off) n).any (placeDead s) then ones n else memRead s.mem (vecBase s x + off) n

/-- Bolts of the areas before the list store that the block must have moved up before it reads them (R204, R435). -/
def areasBelow (s : State) (x : Nat) : List Nat :=
  (s.tier.map.filter (fun e => e.2.home == 3 && e.2.region == vecRegion s x && decide (e.1 * 65536 < vecBase s x + vecStoreOff s x) &&
    !cellarOff s (unitOfSlot s 3 e.2.slot))).map (·.1)

/-- The block asks for their move-ups; each that is new is counted (R204). -/
def askAreas (s : State) (x : Nat) : State :=
  forS (areasBelow s x) s (fun s b => if (getBolt s b).moving || s.tier.upQueue.contains b then s else askMoveUp (bump s 0x2309 5) b)

/-- The block reads lines of an image: they count for placement (R170). -/
def vecTouch (s : State) (x unit off n : Nat) : State :=
  forS (tabLines (vecBase s x + off) n) s (fun s a => touch s 3 unit (mkCid (getRegion s (vecRegion s x)).owner 0) a false)

/-- Is any line of a range of the image poisoned? -/
def vecPoison (s : State) (x off n : Nat) : Bool :=
  let a := vecBase s x + off
  s.poison.any (fun l => decide (a < l * 64 + 64) && decide (l * 64 < a + n))

/-- The context of the block's own accesses to an index: the VEC region's owner. -/
def vecCtx (s : State) (x unit : Nat) : EngCtx :=
  { ownCtx s 3 (mkCid (getRegion s (vecRegion s x)).owner 0) with unit := unit }

/-- Write bytes of an image, line by line. `fuel` bounds the lines. -/
def vecWriteGo (x unit : Nat) : Nat → State → Nat → Bytes → State
  | 0, s, _, _ => s
  | fuel + 1, s, off, d =>
    if d.isEmpty then s
    else
      let a := vecBase s x + off
      let k := min d.length (64 - a % 64)
      vecWriteGo x unit fuel ((ownWrite s (vecCtx s x unit) (vecRegion s x) a (d.take k)).getD s) (off + k) (d.drop k)

/-- Write bytes of an image. -/
def vecWrite (s : State) (x off : Nat) (d : Bytes) : State := vecWriteGo x 0 (d.length / 64 + 2) s off d

/-- The directory entry of a list; an EMPTY one holds nothing. -/
def vecEnt (s : State) (x l : Nat) : VecEnt :=
  let b := vecRead s x (vecDirOff s x + l * 32) 32
  let st := bfld b 5 1
  if st = 0 then { version := bfld b 0 4, lane := bfld b 4 1, state := 0, first := 0, nbolts := 0, count := 0, tombs := 0, chain := none32, bitmap := none32 }
  else { version := bfld b 0 4, lane := bfld b 4 1 % 32, state := st, first := bfld b 8 4, nbolts := bfld b 0x0C 4, count := bfld b 0x10 4,
         tombs := bfld b 0x14 4, chain := bfld b 0x18 4, bitmap := bfld b 0x1C 4 }

/-- Write a directory entry, in one 32 B write (R437). -/
def setVecEnt (s : State) (x l : Nat) (e : VecEnt) : State :=
  vecWrite s x (vecDirOff s x + l * 32) (toLe 4 e.version ++ toLe 1 e.lane ++ toLe 1 e.state ++ zeros 2 ++ toLe 4 e.first ++ toLe 4 e.nbolts ++
    toLe 4 e.count ++ toLe 4 e.tombs ++ toLe 4 e.chain ++ toLe 4 e.bitmap)

/-- Numbers of the items of `z` bytes of an area in which something is written, rising. -/
def areaKeys (s : State) (x off z n : Nat) : List Nat :=
  let a := vecBase s x + off
  (s.mem.filter (fun c => decide (a ≤ c.1) && decide (c.1 < a + n * z))).foldl (fun l c => ninsert l ((c.1 - a) / z)) []

/-- Lists with a directory entry, rising. -/
def listsListed (s : State) (x : Nat) : List Nat := areaKeys s x (vecDirOff s x) 32 (vecNlist s x)

/-- Image offset of byte `o` of a list version (R435, R437). -/
def verByte (s : State) (x : Nat) (e : VecEnt) (o : Nat) : Nat :=
  vecStoreOff s x + ((e.first + o / 65536) * 32 + e.lane) * 65536 + o % 65536

/-- Bytes of a list version. -/
def verBytes (s : State) (x : Nat) (e : VecEnt) (o n : Nat) : Bytes :=
  (upTo n).map (fun k => memGet s.mem (vecBase s x + verByte s x e (o + k)))

/-- Offset of the ID block of a version. -/
def idBlock (s : State) (x count : Nat) : Nat := divUp (count * vecCb s x) 64 * 64

/-- Bolts of a version of `count` positions. -/
def verBolts (s : State) (x count : Nat) : Nat := divUp (idBlock s x count + 16 * count) 65536

/-- An item: its ID, re-rank slot and code. -/
structure VecItem where
  id : Nat
  rslot : Nat
  code : Bytes
  deriving DecidableEq, Repr

/-- Position p of a version. -/
def verItem (s : State) (x : Nat) (e : VecEnt) (p : Nat) : VecItem :=
  let b := verBytes s x e (idBlock s x e.count + 16 * p) 16
  { id := bfld b 0 8, rslot := bfld b 8 4, code := verBytes s x e (p * vecCb s x) (vecCb s x) }

/-- Is position p removed? -/
def isTomb (s : State) (x : Nat) (e : VecEnt) (p : Nat) : Bool :=
  e.bitmap != none32 && bit (bfld (vecRead s x (vecSideOff s x + e.bitmap * 4096 + p / 8) 1) 0 1) (p % 8)

/-- Bytes of a chain entry, and entries of a page (Table 10.5). -/
def chainSize (s : State) (x : Nat) : Nat := divUp (16 + vecCb s x) 16 * 16

/-- Entries that a chain page holds. -/
def chainCap (s : State) (x : Nat) : Nat := 4032 / chainSize s x

/-- Offset of a side page. -/
def pageOff (s : State) (x p : Nat) : Nat := vecSideOff s x + p * 4096

/-- Side pages in which something is written. -/
def pagesListed (s : State) (x : Nat) : List Nat := areaKeys s x (vecSideOff s x) 4096 (vecSidePages s x)

/-- The pages of a chain in append order; `fuel` bounds them. -/
def chainPages (s : State) (x : Nat) : Nat → Nat → List Nat
  | 0, _ => []
  | fuel + 1, p => if vecSidePages s x ≤ p then [] else p :: chainPages s x fuel (bfld (vecRead s x (pageOff s x p) 4) 0 4)

/-- The pages of the chain that begins at a page. -/
def chainOf (s : State) (x p : Nat) : List Nat := if p = none32 then [] else chainPages s x ((pagesListed s x).length + 1) p

/-- A chain entry in its place. -/
structure ChainEnt where
  page : Nat
  slot : Nat
  dead : Bool
  item : VecItem
  deriving DecidableEq, Repr

/-- The entries of a chain in order. -/
def chainEnts (s : State) (x first : Nat) : List ChainEnt :=
  (chainOf s x first).flatMap (fun p =>
    (upTo (min (chainCap s x) (bfld (vecRead s x (pageOff s x p + 8) 2) 0 2))).map (fun k =>
      let b := vecRead s x (pageOff s x p + 0x40 + k * chainSize s x) (16 + vecCb s x)
      { page := p, slot := k, dead := bit (bfld b 0x0C 1) 0, item := { id := bfld b 0 8, rslot := bfld b 8 4, code := slice b 16 (vecCb s x) } }))

/-- The chain that a merge has closed and that searches still scan (Table 10.6 steps 1 to 3). -/
def closedChain (s : State) (x l : Nat) : Nat :=
  match s.eng.tape.merges.find? (fun m => m.index == x && m.list == l) with
  | some m => m.oldChain
  | none => none32

/-- Every chain entry that a search of the list scans. -/
def listChain (s : State) (x l : Nat) : List ChainEnt := chainEnts s x (closedChain s x l) ++ chainEnts s x (vecEnt s x l).chain

/-- Live items of a list. -/
def liveItems (s : State) (x l : Nat) : Nat :=
  let e := vecEnt s x l
  (e.count - e.tombs) + ((listChain s x l).filter (fun c => !c.dead)).length

/-- Bitmap pages of a version (R452). -/
def bitmapPages (count : Nat) : Nat := divUp count 32768

/-- Consecutive side pages of a bitmap. -/
def bitmapOf (first count : Nat) : List Nat := if first = none32 then [] else (upTo (bitmapPages count)).map (first + ·)

/-- Side pages in use. -/
def pagesUsed (s : State) (x : Nat) : List Nat :=
  (listsListed s x).flatMap (fun l => let e := vecEnt s x l; chainOf s x e.chain ++ bitmapOf e.bitmap e.count) ++
  (s.eng.tape.merges.filter (fun m => m.index == x)).flatMap (fun m => chainOf s x m.oldChain) ++
  (s.eng.tape.frees.filter (fun f => f.index == x)).flatMap (fun f =>
    chainOf s x f.chain ++ (if f.bitmap = none32 then [] else (upTo f.pages).map (f.bitmap + ·)))

/-- `n` consecutive free side pages. -/
def findPages (s : State) (x n : Nat) : Option Nat :=
  let used := pagesUsed s x
  match firstFree (fun p => (upTo n).any (fun k => used.contains (p + k))) 0 (used.length * n + 1) with
  | some p => if p + n ≤ vecSidePages s x then some p else none
  | none => none

/-- Clear side pages that are freed. -/
def wipePages (s : State) (x : Nat) (ps : List Nat) : State :=
  forS ps s (fun s p => { s with mem := memZero s.mem (vecBase s x + pageOff s x p) 4096 })

/-- Runs of lane bolts in use on a lane: first and number. -/
def laneUsed (s : State) (x lane : Nat) : List (Nat × Nat) :=
  ((listsListed s x).map (vecEnt s x)).filterMap (fun e => if e.lane = lane && e.nbolts ≠ 0 then some (e.first, e.nbolts) else none) ++
  (s.eng.tape.merges.filter (fun m => m.index == x && m.lane == lane)).map (fun m => (m.first, m.n)) ++
  (s.eng.tape.frees.filter (fun f => f.index == x && f.lane == lane)).map (fun f => (f.first, f.n))

/-- A free run of `n` lane bolts. -/
def findRun (s : State) (x lane n : Nat) : Option Nat :=
  let used := laneUsed s x lane
  (0 :: used.map (fun u => u.1 + u.2)).find? (fun a => decide (a + n ≤ laneBolts s x lane) && !used.any (fun u => overlaps a n u.1 u.2))

/-- Free lane bolts of a lane. -/
def laneFree (s : State) (x lane : Nat) : Nat := laneBolts s x lane - ((laneUsed s x lane).map (·.2)).sum

/-- The lane with the most free bolts (Table 10.8). -/
def bestLane (s : State) (x : Nat) : Nat :=
  (upTo 32).foldl (fun b l => if laneFree s x b < laneFree s x l then l else b) 0

/-- Give the lane bolts of a new version Cellar slots on the lane's channel (R435), within the owner's quota (R184). `none`: there are none. -/
def placeRun (s : State) (x lane first : Nat) : Nat → Option State
  | 0 => some s
  | n + 1 =>
    match placeRun s x lane first n with
    | none => none
    | some s =>
      let b := laneBolt s x lane (first + n)
      if (getBolt s b).home ≠ 0 then some s
      else if !unitOpen s 3 lane || !roomIn s (getRegion s (vecRegion s x)).owner 3 then none
      else (unitSlot s 3 lane).map (homeBolt s b (vecRegion s x) (quadOf 3 lane) 3)

/-- The bytes of a version: codes, then the ID block (R437). -/
def verContent (s : State) (x : Nat) (l : List VecItem) : Bytes :=
  slice (l.flatMap (·.code)) 0 (idBlock s x l.length) ++ l.flatMap (fun i => toLe 8 i.id ++ toLe 4 i.rslot ++ zeros 4)

/-- Program a version into a run of lane bolts, line by line; these bolts are written where they lie (R437). -/
def writeVersion (s : State) (x lane first : Nat) (d : Bytes) : State :=
  forS (upTo (divUp d.length 64)) s (fun s k =>
    let a := vecBase s x + vecStoreOff s x + ((first + k / 1024) * 32 + lane) * 65536 + k % 1024 * 64
    (rawWrite (touch s 3 lane (vecCtx s x lane).cid a true) (vecRegion s x) a (slice d (k * 64) (min 64 (d.length - k * 64))) false .none).2)

/-- Free the bolts of a run. -/
def freeRun (s : State) (x lane first n : Nat) : State := forS (upTo n) s (fun s k => releaseBolt s (laneBolt s x lane (first + k)))

/-- A graph node record (Table 10.5). -/
structure VecNode where
  gen : Nat
  live : Bool
  tomb : Bool
  edges : List Nat
  deriving DecidableEq, Repr

/-- A node. -/
def vecNode (s : State) (x n : Nat) : VecNode :=
  let b := vecRead s x (vecGraphOff s x + n * 256) 256
  { gen := bfld b 0 1, live := bit (bfld b 1 1) 0, tomb := bit (bfld b 1 1) 1, edges := elemList 4 (min 63 (bfld b 2 1)) (slice b 4 252) }

/-- Write a node. -/
def setVecNode (s : State) (x n : Nat) (v : VecNode) : State :=
  vecWrite s x (vecGraphOff s x + n * 256)
    (toLe 1 v.gen ++ toLe 1 (b2n v.live + 2 * b2n v.tomb) ++ toLe 1 v.edges.length ++ zeros 1 ++ slice (v.edges.flatMap (toLe 4)) 0 252)

/-- Nodes in which something is written, rising. -/
def nodesListed (s : State) (x : Nat) : List Nat := areaKeys s x (vecGraphOff s x) 256 (vecNlist s x)

/-- VEC_STATS as read (Table 10.12). -/
def vecStats (s : State) (x : Nat) : Bytes :=
  if vecRunRaw s x = 0 then zeros 32
  else
    let ls := listsListed s x
    toLe 8 ((ls.map (liveItems s x)).sum) ++ toLe 8 ((ls.map (fun l => ((listChain s x l).filter (fun c => !c.dead)).length)).sum) ++
      toLe 4 (vecSidePages s x - (pagesUsed s x).length) ++ toLe 4 (ls.filter (fun l => (vecEnt s x l).state == 2)).length ++
      toLe 4 (s.eng.tape.mergeQ.filter (fun q => q.1 == x)).length ++ zeros 4

/-- The fields of Table 10.1 in their ranges. -/
def vecDescOk (s : State) (x : Nat) : Bool :=
  let d := vecDesc s x
  let gr := vecGraph s x
  decide (bfld d 2 1 ≤ 1) && decide (bfld d 3 1 < 4) && decide (1 ≤ vecM s x) && decide (vecM s x ≤ 64) &&
  (vecBits s x == 8 || (vecBits s x == 4 && vecM s x % 2 == 0)) && decide (vecRrFmt s x ≤ 3) && decide (1 ≤ vecMembers s x) &&
  decide (vecMembers s x ≤ 64) && decide (1 ≤ vecDim s x) && decide (vecDim s x ≤ 4096) && vecDim s x % vecM s x == 0 &&
  decide (1 ≤ vecNlist s x) && decide (vecNlist s x ≤ (if gr then 16777216 else 1048576)) &&
  (vecRrFmt s x != 0 || vecRrRegion s x == 0xFFFF) && decide (vecMember s x < vecMembers s x) &&
  (if gr then decide (1 ≤ vecGraphR s x) && decide (vecGraphR s x ≤ 63) else vecGraphR s x == 0) &&
  decide (1 ≤ vecSidePages s x) && decide (vecSidePages s x ≤ 16777216) && decide (1 ≤ vecRoundMax s x) && decide (vecRoundMax s x ≤ 16384) &&
  decide (1 ≤ vecCandMax s x) && decide (vecCandMax s x ≤ 4096) && decide (1 ≤ vecMergeChain s x) && decide (vecMergeChain s x ≤ 16777216) &&
  decide (1 ≤ vecMergeTomb s x) && decide (vecMergeTomb s x ≤ 1024) &&
  (if gr then decide (1 ≤ vecEntryCount s x) && decide (vecEntryCount s x ≤ 16) else vecEntryCount s x == 0) && bfld d 0x23 29 == 0

/-- The conditions of R433. -/
def vecStartable (s : State) (x : Nat) : Bool :=
  let r := vecRegion s x
  let g := getRegion s r
  let rr := getRegion s (vecRrRegion s x)
  let members := blob s 0x2711 (x + 1)
  decide (r < 4096) && g.valid && g.kind == 5 && decide (g.base < landBase) &&
  !(upTo 16).any (fun y => y != x && vecRunRaw s y != 0 && vecRegion s y == r) &&
  vecDescOk s x && polInPlace g.tierPolicy &&
  (vecRrFmt s x == 0 || (decide (vecRrRegion s x < 4096) && rr.valid && rr.kind == 1 && rr.owner == g.owner)) &&
  members.length == 4 * vecMembers s x && bfld members (4 * vecMember s x) 2 == endpointId s && bfld members (4 * vecMember s x + 2) 2 == x &&
  (upTo 32).all (fun c => s.tier.cellarFitted.getD c 0 != 0) &&
  decide (vecStoreOff s x + 32 * 65536 ≤ g.size)

/-- START moves the areas as PLACE_HINT moves (R436): header to graph to the Parlour, work area and side pool to the Larder. -/
def startHints (s : State) (x : Nat) : State :=
  let b := vecBase s x / 65536
  let w := vecWorkOff s x / 65536
  let hs : List Hint := [{ first := b, count := w, tier := 1 }, { first := b + w, count := vecStoreOff s x / 65536 - w, tier := 2 }]
  let s := { s with tier := { s.tier with hints := s.tier.hints ++ hs } }
  if placeFrozen s || detMode s = 2 then s else doHints s

/-- START of an index (R433, R436). -/
def vecStart (s : State) (x : Nat) : WriteOut :=
  if 2 ≤ vecRun s x then applied s
  else if !vecStartable s x then refuse s abINCONS
  else applied (startHints (runFlag (setNum s 0x2713 (x + 1) 3) 1) x)

/-- STOP of an index (R433). -/
def vecStop (s : State) (x : Nat) : WriteOut :=
  if vecRun s x = 3 then
    applied (setTape (setNum s 0x2713 (x + 1) 2) { s.eng.tape with stopOrd := sput (fun _ => 0) s.eng.tape.stopOrd x s.acc.nextSeq })
  else applied s

/-- A write of VEC_CMD. -/
def writeVecCmd (s : State) (x : Nat) (b : Bytes) : WriteOut :=
  if b.length ≠ 1 then refuse s abTYPE
  else match leNat b with
    | 1 => vecStart s x
    | 2 => vecStop s x
    | _ => refuse s abRANGE

/-- VEC_START (R433). -/
def execVecStart (w : Writer) (index : Nat) (s : State) : Res := endWrite w (writeVecCmd s index [1])

/-- VEC_STOP (R433). -/
def execVecStop (w : Writer) (index : Nat) (s : State) : Res := endWrite w (writeVecCmd s index [2])

/-- Free an old version (Table 10.6 step 5): its bolts, bitmap pages and chain pages. -/
def freeVersion (s : State) (f : VecFree) : State :=
  let pages := chainOf s f.index f.chain ++ (if f.bitmap = none32 then [] else (upTo f.pages).map (f.bitmap + ·))
  let s := setTape s { s.eng.tape with frees := s.eng.tape.frees.erase f }
  wipePages (freeRun s f.index f.lane f.first f.n) f.index pages

/-- Give up a merge or a load before its swap: the version as it was, with the new chain behind the old one (log entry 130). -/
def abandonMerge (s : State) (m : VecMerge) : State :=
  let x := m.index
  let e := vecEnt s x m.list
  let s := freeRun (setTape s { s.eng.tape with merges := s.eng.tape.merges.erase m }) x m.lane m.first m.n
  let s := match (chainOf s x m.oldChain).getLast? with
    | some p => vecWrite s x (pageOff s x p) (toLe 4 e.chain)
    | none => s
  let chain := if m.oldChain = none32 then e.chain else m.oldChain
  setVecEnt s x m.list { e with chain := chain, state := if e.count = 0 && e.nbolts = 0 && chain = none32 then 0 else 1 }

/-- Unbind an index: what its rounds, merges and frees hold ends. -/
def vecUnbind (s : State) (x : Nat) : State :=
  let s := forS (s.eng.tape.merges.filter (fun m => m.index == x)) s abandonMerge
  let s := forS (s.eng.tape.frees.filter (fun f => f.index == x)) s freeVersion
  let t := s.eng.tape
  setTape (setNum (if vecRunRaw s x = 0 then s else runFlag s 1) 0x2713 (x + 1) 0) { t with
    rounds := t.rounds.filter (fun r => r.index != x), mergeQ := t.mergeQ.filter (fun q => q.1 != x) }

/-- A write of VEC_DESC while the index is STOPPED or OFF (R432, R433): another REGION unbinds it. -/
def writeVecDesc (s : State) (x : Nat) (b : Bytes) : WriteOut :=
  if b.length ≠ 64 then refuse s abTYPE
  else if 2 ≤ vecRun s x then refuse s abSTATE
  else
    let s1 := if bfld b 0 2 ≠ vecRegion s x then vecUnbind s x else s
    applied (setBlob s1 0x2710 (x + 1) b)

/-- NO_INDEX or INDEX_STOPPED (R465), for a descriptor accepted at `ord`; `none`: the index serves it. -/
def vecDeny (s : State) (x ord : Nat) : Option Ran :=
  if 16 ≤ x || vecRunRaw s x = 0 then some (ranCode 0 0x10)
  else if vecRunRaw s x = 3 || (vecRunRaw s x = 2 && ord < sget (fun _ => 0) s.eng.tape.stopOrd x) then none
  else some (ranCode 0 0x11)

/-- A Tape descriptor that the scheduler is to run: its index serves it, and its fields are in order. -/
def tapeReady (s : State) (d : DescRef) (op : Nat) (form : Nat → Bytes → Bool) (run : Desc → Nat → State) : State :=
  if d.q.blk != .tape then s
  else match readyDesc s d op with
  | none => s
  | some y =>
    let x := bfld y.bytes 4 2
    match vecDeny s x y.ord with
    | some r => denyDesc s d r
    | none =>
      if !form x y.bytes then denyDesc s d (ranCode 6 0x12)
      else if (areasBelow s x).isEmpty then run y x
      else askAreas s x

/-- Does the CID's partition hold the right on the index's region? -/
def vecRight (s : State) (x : Nat) (c : EngCtx) (write : Bool) : Bool :=
  partExists s (cidPart c.cid) && hasRight (getRegion s (vecRegion s x)) (cidPart c.cid) write

/-- Record the violation of a descriptor without its right (R463). -/
def vecViolation (s : State) (x : Nat) (c : EngCtx) : State :=
  violation s (some c.cid) (violReq 1 c.kind 0 5 c.cid (endpointId s) (vecBase s x) (vecRegion s x))

end Sys2Proof.Machine
end

