-- ==== Sys2Proof/Machine/TapeSearch.lean ====
section
/-! DEFINITION. Tape searches (R439 to R451, R454, R458, R459, R461, R463 to R465): acceptance, rounds, probe sets, passes, results. -/
namespace Sys2Proof.Machine

/-- Element size of a query format (Table 10.7), and an element as FP32. -/
def qElem (fmt : Nat) : Nat := if fmt = 0 then 4 else 2

/-- A query element widened to FP32. -/
def qWiden (fmt v : Nat) : Nat := if fmt = 0 then v else if fmt = 1 then widen fmtBf16 v else widen fmtF16 v

/-- The FP32 elements of a list of little-endian elements. -/
def qRow (fmt dim : Nat) (b : Bytes) : List Nat := (elemList (qElem fmt) dim b).map (qWiden fmt)

/-- Is (d, t) a smaller key than (e, u) (R450)? Distances compare under IEEE order. -/
def keyLt (d t e u : Nat) : Bool :=
  flt (fdec fmtF32 d) (fdec fmtF32 e) || (!flt (fdec fmtF32 e) (fdec fmtF32 d) && decide (t < u))

/-- FP32 terms of a squared difference, or of a negated product (R439). -/
def distTerms (ip : Bool) (q v : List Nat) : List Nat :=
  List.zipWith (fun a b => if ip then (f32mul a b).xor (2 ^ 31) else let e := f32sub a b; f32mul e e) q v

/-- The sum of terms: in ascending order in the fixed split (log entry 38); otherwise it may follow the arrays that are ON (R442). -/
def laneSum (s : State) (stable : Bool) (l : List Nat) : Nat :=
  if stable then l.foldl f32add 0 else Config.serviceSum (arraysOn s) l % 2 ^ 32

/-- A coarse centroid. -/
def centroid (s : State) (x l : Nat) : List Nat := elemList 4 (vecDim s x) (vecRead s x (vecCentOff + l * vecDim s x * 4) (vecDim s x * 4))

/-- The coarse distance of a query to a list (R439). -/
def coarse (s : State) (x : Nat) (stable : Bool) (q : List Nat) (l : Nat) : Nat := laneSum s stable (distTerms (vecIp s x) q (centroid s x l))

/-- Codeword c of sub-quantizer j (Table 10.2). -/
def codeword (s : State) (x j c : Nat) : List Nat :=
  elemList 4 (vecDs s x) (vecRead s x (vecBookOff s x + (j * vecC s x + c) * vecDs s x * 4) (vecDs s x * 4))

/-- Entry (j, c) of the distance table of a query for a list (R440), FP16 bits. -/
def tableEntry (s : State) (x : Nat) (stable : Bool) (q : List Nat) (l j c : Nat) : Nat :=
  let ds := vecDs s x
  let part := fun (v : List Nat) => (v.drop (j * ds)).take ds
  let r := if vecResidual s x && !vecIp s x then List.zipWith f32sub (part q) (part (centroid s x l)) else part q
  narrow fmtF16 true (laneSum s stable (distTerms (vecIp s x) r (codeword s x j c)))

/-- Sub-quantizer j's index in a code (R438). -/
def codeIdx (bits : Nat) (code : Bytes) (j : Nat) : Nat := if bits = 8 then bfld code j 1 else fld (bfld code (j / 2) 1) (4 * (j % 2)) 4

/-- The bias of a query for a list (R440). -/
def bias (s : State) (x : Nat) (dc : Nat) : Nat := if vecIp s x && vecResidual s x then dc else 0

/-- The code distance (R441). -/
def codeDist (s : State) (x : Nat) (stable : Bool) (q : List Nat) (l dc : Nat) (code : Bytes) : Nat :=
  (upTo (vecM s x)).foldl (fun a j => f32add a (widen fmtF16 (tableEntry s x stable q l j (codeIdx (vecBits s x) code j)))) (bias s x dc)

/-- Insert into a list kept best first, keeping at most `n`; a NaN distance is never kept (R441). -/
def keepBest (n : Nat) (l : List VecCand) (c : VecCand) : List VecCand :=
  if isNan (fdec fmtF32 c.dist) then l
  else (l.takeWhile (fun y => !keyLt c.dist c.tie y.dist y.tie) ++ c :: l.dropWhile (fun y => !keyLt c.dist c.tie y.dist y.tie)).take n

/-- Insert (distance, number) into a list kept in ascending key order. -/
def insertKey (l : List (Nat × Nat)) (k : Nat × Nat) : List (Nat × Nat) :=
  if isNan (fdec fmtF32 k.1) then l
  else l.takeWhile (fun y => !keyLt k.1 k.2 y.1 y.2) ++ k :: l.dropWhile (fun y => !keyLt k.1 k.2 y.1 y.2)

/-- The walk's pool (R458): (distance, node), best first, the nodes expanded, and the nodes visited; edges ignored and tombstones routed. -/
structure Walk where
  pool : List (Nat × Nat)
  done : List Nat
  seen : List Nat
  ignored : Nat
  routed : Nat
  deriving DecidableEq, Repr

/-- Put a node into the pool, keeping the EF best. -/
def walkPut (s : State) (x : Nat) (stable : Bool) (q : List Nat) (ef : Nat) (w : Walk) (n : Nat) : Walk :=
  { w with pool := (insertKey w.pool (coarse s x stable q n, n)).take ef, seen := w.seen ++ [n] }

/-- Follow one edge (R458, R459). -/
def walkEdge (s : State) (x : Nat) (stable : Bool) (q : List Nat) (ef : Nat) (w : Walk) (e : Nat) : Walk :=
  let n := e % 2 ^ 24
  let v := vecNode s x n
  if vecNlist s x ≤ n || e / 2 ^ 24 ≠ v.gen then { w with ignored := w.ignored + 1 }
  else if !(v.live || v.tomb) || w.seen.contains n then w
  else walkPut s x stable q ef w n

/-- Expand the best unexpanded node while there is one; `fuel` bounds the nodes. -/
def walkGo (s : State) (x : Nat) (stable : Bool) (q : List Nat) (ef : Nat) : Nat → Walk → Walk
  | 0, w => w
  | fuel + 1, w =>
    match w.pool.find? (fun k => !w.done.contains k.2) with
    | none => w
    | some k =>
      let v := vecNode s x k.2
      let w := { w with done := w.done ++ [k.2], routed := w.routed + b2n v.tomb }
      walkGo s x stable q ef fuel (v.edges.foldl (walkEdge s x stable q ef) w)

/-- The walk of a query from the entry nodes of the header. -/
def graphWalk (s : State) (x : Nat) (stable : Bool) (q : List Nat) (ef : Nat) : Walk :=
  let start := (elemList 4 (vecEntryCount s x) (vecRead s x 0 (4 * vecEntryCount s x))).foldl (fun (w : Walk) e =>
    let n := e % 2 ^ 24
    let v := vecNode s x n
    if e / 2 ^ 24 = v.gen && (v.live || v.tomb) && !w.seen.contains n then walkPut s x stable q ef w n else w)
    { pool := [], done := [], seen := [], ignored := 0, routed := 0 }
  walkGo s x stable q ef ((nodesListed s x).length + 1) start

/-- The probe set of a finite query (R439, R458): (list, coarse distance). -/
def probeSet (s : State) (x : Nat) (stable : Bool) (q : List Nat) (nprobe ef : Nat) : List (Nat × Nat) × State :=
  if vecGraph s x then
    let w := graphWalk s x stable q ef
    let t := forS w.seen s (fun s n => vecTouch s x 0 (vecCentOff + n * vecDim s x * 4) (vecDim s x * 4))
    let t := forS w.done t (fun s n => vecTouch s x 0 (vecGraphOff s x + n * 256) 256)
    (((w.pool.filter (fun k => !(vecNode s x k.2).tomb)).take nprobe).map (fun k => (k.2, k.1)),
     bumpBy (bumpBy t 0x2701 0x0B w.ignored) 0x2701 0x0C w.routed)
  else
    let ks := ((listsListed s x).filter (fun l => (vecEnt s x l).state != 0)).foldl (fun a l => insertKey a (coarse s x stable q l, l)) []
    ((ks.take nprobe).map (fun k => (k.2, k.1)), s)

/-- The fields of Table 10.7 (R465). -/
def searchForm (s : State) (x : Nat) (b : Bytes) : Bool :=
  let fl := bfld b 2 2
  let nprobe := bfld b 0x24 2
  let k := bfld b 0x22 2
  let cand := bfld b 0x26 2
  decide (bfld b 1 1 ≤ 2) && decide (fl < 32) && decide (bfld b 6 2 < 16384) && bfld b 0x10 8 % 64 == 0 && bfld b 0x18 8 % 8 == 0 &&
  (bit fl 4 || bfld b 0x18 8 == 0) && decide (1 ≤ bfld b 0x20 2) && decide (bfld b 0x20 2 ≤ vecRoundMax s x) && decide (1 ≤ k) &&
  decide (k ≤ cand) && decide (cand ≤ vecCandMax s x) && decide (1 ≤ nprobe) && decide (nprobe ≤ min (vecNlist s x) 4096) &&
  (if vecGraph s x then decide (nprobe ≤ bfld b 0x28 2) && decide (bfld b 0x28 2 ≤ 4096) else bfld b 0x28 2 == 0) &&
  bfld b 0x2A 2 == 0 && decide (vecDim s x * qElem (bfld b 1 1) ≤ bfld b 0x2C 4) && bfld b 0x30 4 % 64 == 0 &&
  decide (k * 16 ≤ bfld b 0x30 4) && bfld b 0x34 8 == 0

/-- The context of a search's accesses. -/
def searchCtx (s : State) (d : DescRef) (b : Bytes) (env : List Reply) : EngCtx := descCtx s d 0 (bfld b 6 2) (bit (bfld b 2 2) 1) env

/-- Read the queries of a descriptor: status, their bytes, the numbers of those that did not read OK. -/
def readQueries (s : State) (c : EngCtx) (b : Bytes) (dim : Nat) : Nat × Bytes × List Nat × State :=
  let z := dim * qElem (bfld b 1 1)
  (upTo (bfld b 0x20 2)).foldl (fun (r : Nat × Bytes × List Nat × State) n =>
    let x := engRead r.2.2.2 c (bfld b 8 8 + n * bfld b 0x2C 4) z
    (firstStatus r.1 x.1, r.2.1 ++ x.2.1, if x.1 = 0 then r.2.2.1 else r.2.2.1 ++ [n], x.2.2)) (0, [], [], s)

/-- The endpoint and index number of member m of an index's group. -/
def vecPeer (s : State) (x m : Nat) : Nat × Nat := (bfld (blob s 0x2711 (x + 1)) (4 * m) 2, bfld (blob s 0x2711 (x + 1)) (4 * m + 2) 2)

/-- Send a SEARCH and its queries to the other members on group MCAST (R461, R350; log entry 126). -/
def vecFan (s : State) (d : DescRef) (y : Desc) (x : Nat) (qs : Bytes) (bad : List Nat) : State :=
  let ms := (upTo (vecMembers s x)).filter (· ≠ vecMember s x)
  let s := forS (ms.filter (fun m => y.group.contains (vecPeer s x m).1)) s (fun s m =>
    emit s (.fanout (vecPeer s x m).1 { ep := endpointId s, q := d.q, pos := d.pos, holder := y.holder, member := m, table := (vecPeer s x m).2,
                                        bytes := y.bytes, idx := qs, off := [], wt := [], batch := [], bad := bad }))
  match findDesc s d with
  | none => s
  | some z => setDesc s d.q { z with members := ms, rcFrom := vecMember s x }

/-- Does a SEARCH wait for an AREA_LOAD of centroids or codewords accepted before it (R464)? -/
def areaBefore (s : State) (x ord : Nat) : Bool :=
  (blkQueues s .tape).any (fun q => q.2.accepted.any (fun z => descOp z == 0x34 && bfld z.bytes 4 2 == x && decide (z.ord < ord) && !z.ran &&
    (bfld z.bytes 1 1 == 1 || bfld z.bytes 1 1 == 2)))

/-- A result entry (Table 10.4). -/
def foundBytes (f : Found) : Bytes := toLe 8 f.id ++ toLe 4 f.dist ++ toLe 1 (b2n f.reranked + 2 * b2n f.side) ++ toLe 1 f.member ++ zeros 2

/-- An empty result entry (R448). -/
def emptyFound : Bytes := toLe 8 0xFFFFFFFFFFFFFFFF ++ toLe 4 0x7F800000 ++ zeros 4

/-- Insert a result in key order. -/
def insertFound (l : List Found) (f : Found) : List Found :=
  l.takeWhile (fun y => !keyLt f.dist f.tie y.dist y.tie) ++ f :: l.dropWhile (fun y => !keyLt f.dist f.tie y.dist y.tie)

/-- Keep, of each ID, the entry with the best key (R448). -/
def dedupFound (l : List Found) : List Found :=
  l.foldl (fun a f => if a.any (fun g => g.id == f.id) then a else a ++ [f]) []

/-- The K best of several members' entries (R461). -/
def bestFound (k : Nat) (l : List Found) : List Found := (dedupFound (l.foldl insertFound [])).take k

/-- A search whose members have all reported: its results are written (R448), or a share's entries are reported (R461). -/
def finishSearch (s0 : State) (d : DescRef) (y : Desc) (env : List Reply) : State :=
  let b := y.bytes
  let k := bfld b 0x22 2
  let nq := bfld b 0x20 2
  if y.entry.isSome then fin (endDesc s0 d y.status y.rcode (y.hits % 2 ^ 32 * 2 ^ 32) y.missing)
  else
    let c := searchCtx s0 d b env
    let res := (upTo nq).map (fun n => bestFound k (y.found.flatMap (fun m => m.2.getD n [])))
    runDesc s0 d (fun s =>
      let s := if bit (bfld b 2 2) 4 then addArrival s c (bfld b 0x18 8) else s
      let s := forS (res.zip (upTo nq)) s (fun s r =>
        engWriteBlk s c (bfld b 0x10 8 + r.2 * bfld b 0x30 4) (r.1.flatMap foundBytes ++ (List.replicate (k - r.1.length) emptyFound).flatten))
      let short := (res.filter (fun r => decide (r.length < k))).length
      ({ status := y.status, rcode := y.rcode, result := short + y.hits % 2 ^ 32 * 2 ^ 32, missing := y.missing }, s))

/-- SEARCH (R448): the descriptor is accepted into the next round of its index. A search that lacks its right finds nothing (R463). A search
whose results a translation fault held writes them. -/
def execSearch (d : DescRef) (env : List Reply) (s : State) : Res :=
  .next (match findDesc s d with
    | none => s
    | some z =>
      if z.phase = 2 && !z.ran && z.trap.isNone && z.members.isEmpty && d.q.blk == .tape && descOp z == 0x30 then finishSearch s d z env
      else
        tapeReady s d 0x30 (searchForm s) (fun y x =>
          let b := y.bytes
          let c := searchCtx s d b env
          if areaBefore s x y.ord then s
          else
            let q := match y.lists with
              | some l => (0, l.idx, l.bad, s)
              | none => readQueries s c b (vecDim s x)
            match stopped s q.2.2.2 d with
            | some z => z
            | none =>
              let stable := bit (bfld b 2 2) 2
              let forced := !stable && detMode s = 2
              let b' := if forced then bset b 2 2 (setBit (bfld b 2 2) 2) else b
              let s := q.2.2.2
              let s := if y.entry.isNone && !stable then
                  (if forced then runBump (bump s 0x2701 0x0A) 0x58 else markV s 0x38 (cidPart c.cid)) else s
              let right := vecRight s x c false
              let lists : Lists := { idx := q.2.1, off := [], wt := [], batch := [], bad := q.2.2.1 }
              let y' := { y with bytes := b', lists := some lists, status := firstStatus y.status q.1, phase := if right then 1 else 2, ranAt := s.det.now, stalledAt := none,
                                 found := if right then [] else [(vecMember s x, List.replicate (bfld b 0x20 2) [])] }
              let s := setDesc (if right then bump s 0x2701 1 else vecViolation s x c) d.q y'
              let s := if y.entry.isNone && bit (bfld b 2 2) 0 && 1 < vecMembers s x then vecFan s d y' x q.2.1 q.2.2.1 else s
              match right, findDesc s d with
              | false, some z => if z.members.isEmpty then finishSearch s d z env else fin s
              | _, _ => fin s))

/-- Searches of an index that wait for a round, in order of acceptance. -/
def roundWaiting (s : State) (x : Nat) : List (DescRef × Desc) :=
  let all := (blkQueues s .tape).flatMap (fun q => (q.2.accepted.filter (fun y => descOp y == 0x30 && bfld y.bytes 4 2 == x && y.phase == 1 &&
    !y.ran && y.trap.isNone)).map (fun y => (({ q := { blk := .tape, part := q.1 / 16 % 64, q := q.1 % 16 }, pos := y.pos } : DescRef), y)))
  all.foldl (fun l e => l.takeWhile (fun f => decide (f.2.ord < e.2.ord)) ++ e :: l.dropWhile (fun f => decide (f.2.ord < e.2.ord))) []

/-- Queries of a descriptor. -/
def nQueries (y : Desc) : Nat := bfld y.bytes 0x20 2

/-- Queries of a list of descriptors. -/
def sumQueries (l : List (DescRef × Desc)) : Nat := (l.map (fun e => nQueries e.2)).sum

/-- The descriptors of a list, in order, whose queries fit in `room`, up to the first that does not. -/
def takeQueries : Nat → List (DescRef × Desc) → List (DescRef × Desc)
  | _, [] => []
  | room, e :: rest => if nQueries e.2 ≤ room then e :: takeQueries (room - nQueries e.2) rest else []

/-- What a round takes (R443): whole descriptors in order of acceptance up to ROUND_MAX_Q; when more wait, each partition first takes up to
its share by TP_WEIGHT (Table 10.13), and the rest is filled in order. -/
def roundTake (s : State) (x : Nat) (l : List (DescRef × Desc)) : List (DescRef × Desc) :=
  let room := vecRoundMax s x
  if sumQueries l ≤ room then l
  else
    let ps := (l.map (fun e => e.1.q.part)).eraseDups
    let weights := (ps.map (fun p => pnum s 0x4700 p)).sum
    let first := ps.flatMap (fun p => takeQueries (room * pnum s 0x4700 p / weights) (l.filter (fun e => e.1.q.part == p)))
    let more := takeQueries (room - sumQueries first) (l.filter (fun e => !first.contains e))
    l.filter (fun e => first.contains e || more.contains e)

/-- The queries of a descriptor as they enter a round. -/
def roundQueries (s : State) (x : Nat) (e : DescRef × Desc) : List RoundQuery × State :=
  let b := e.2.bytes
  let fmt := bfld b 1 1
  let stable := bit (bfld b 2 2) 2 || detMode s == 2
  let lists := e.2.lists.getD noLists
  let z := vecDim s x * qElem fmt
  (upTo (nQueries e.2)).foldl (fun (r : List RoundQuery × State) n =>
    let v := qRow fmt (vecDim s x) (slice lists.idx (n * z) z)
    let ok := v.all (fun a => isFin (fdec fmtF32 a)) && !lists.bad.contains n
    let p := if ok then probeSet r.2 x stable v (bfld b 0x24 2) (bfld b 0x28 2) else ([], r.2)
    (r.1 ++ [{ d := e.1, n := n, stable := stable, vec := v, probes := p.1, cand := bfld b 0x26 2, cands := [] }], p.2)) (([] : List RoundQuery), s)

/-- Queries whose tables fit the SRAM together (R444). -/
def passWidth (s : State) (x : Nat) : Nat := min 64 (262144 / (vecM s x * vecC s x * 2))

/-- Cut a list into pieces of at most `n`. `fuel` bounds the pieces. -/
def cutList (n : Nat) : Nat → List Nat → List (List Nat)
  | 0, _ => []
  | fuel + 1, l => if l.isEmpty then [] else l.take n :: cutList n fuel (l.drop n)

/-- The passes of a round (R444): by list in ascending number, at most B queries each in order of position. -/
def roundPasses (s : State) (x : Nat) (qs : List RoundQuery) : List (Nat × List Nat) :=
  let at_ := (upTo qs.length).zip qs
  let ls := (qs.flatMap (fun q => q.probes.map (·.1))).foldl ninsert []
  ls.flatMap (fun l =>
    let who := (at_.filter (fun q => q.2.probes.any (fun p => p.1 == l))).map (·.1)
    (cutList (max 1 (passWidth s x)) who.length who).map (fun c => (l, c)))

/-- The round of an index. -/
def findRound (s : State) (x : Nat) : Option Round := s.eng.tape.rounds.find? (fun r => r.index == x)

/-- Replace it. -/
def setRound (s : State) (r : Round) : State :=
  setTape s { s.eng.tape with rounds := s.eng.tape.rounds.map (fun q => if q.index == r.index then r else q) }

/-- Is an array of TD_SERVICE_MASK ON, to run service launches (R442, R495)? -/
def serviceOn (s : State) : Bool := (upTo 8).any (fun a => bit (num s 0x2800 4) a && !bit s.sec.hem.treadleDisabled a && num s 0x2010 (20 + a + 1) == 4)

/-- The service launches of a round (R495), under the CIDs of its descriptors: at least one for each; how many, and their array cycles, are free (log entry 61). -/
def serviceLaunches (s : State) (parts : List Nat) : State :=
  forS parts s (fun s p =>
    let n := freshFree s
    let c := freshFree n.2
    pbumpBy (bumpBy c.2 0x2801 2 (1 + Config.freeNat n.1)) 0x4D08 p (Config.freeNat c.1))

/-- ROUND_OPEN (R443, R444): one round of an index at a time; its probe sets are formed. It waits for an array that may run service launches. -/
def execRoundOpen (index : Nat) (s : State) : Res :=
  .next (let w := roundWaiting s index
    match w with
    | [] => s
    | e :: _ =>
      if (findRound s index).isSome || blkRun s .tape < 2 || !serviceOn s ||
          (sumQueries w < num s 0x2700 4 && !due s e.2.acceptedAt (usT (num s 0x2700 5))) then s
      else if !(areasBelow s index).isEmpty then askAreas s index
      else
        let t := roundTake s index w
        let s := forS t s (fun s e => setDesc s e.1.q { e.2 with phase := 3 })
        -- the coarse scan reads each centroid once
        let s := if vecGraph s index then s else forS ((listsListed s index).filter (fun l => (vecEnt s index l).state != 0)) s (fun s l =>
          vecTouch s index 0 (vecCentOff + l * vecDim s index * 4) (vecDim s index * 4))
        let q := t.foldl (fun (r : List RoundQuery × State) e =>
          let z := roundQueries r.2 index e
          (r.1 ++ z.1, z.2)) (([] : List RoundQuery), s)
        let s := bump (serviceLaunches q.2 (t.map (fun e => e.1.q.part))) 0x2701 3
        setTape s { s.eng.tape with rounds := s.eng.tape.rounds ++ [{ index := index, queries := q.1, passes := roundPasses s index q.1 }] })

/-- Add a status and RCODE to the descriptors of a pass. -/
def passFault (s : State) (ds : List DescRef) (status rcode : Nat) : State :=
  forS ds.eraseDups s (fun s d =>
    match findDesc s d with
    | none => s
    | some y => setDesc s d.q { y with status := firstStatus y.status status, rcode := if rcode = 0 then y.rcode else rcode })

/-- Offer one item to a query of a pass (R445). -/
def offer (x l : Nat) (it : VecItem) (side bad : Bool) (r : RoundQuery × State) : RoundQuery × State :=
  let q := r.1
  let dc := match q.probes.find? (fun p => p.1 == l) with | some p => p.2 | none => 0
  let t := if q.stable then (it.id, r.2) else (let f := freshFree r.2; (Config.freeNat f.1, f.2))
  let c : VecCand := { dist := codeDist r.2 x q.stable q.vec l dc it.code, tie := t.1, id := it.id, rslot := it.rslot, side := side, bad := bad }
  ({ q with cands := keepBest q.cand q.cands c }, t.2)

/-- The items that a pass over a list scans: with whether they lie in a chain, and whether their ID-block line read POISON. Positions whose
4 KiB codeword of codes read POISON are skipped (R449). -/
def passItems (s : State) (x l : Nat) (e : VecEnt) : List (VecItem × Bool × Bool) × Bool :=
  let cb := vecCb s x
  let badCode := fun (p : Nat) => vecPoison s x (alignDown (verByte s x e (p * cb)) 4096) 4096 ||
    vecPoison s x (alignDown (verByte s x e (p * cb + cb - 1)) 4096) 4096
  let live := (upTo e.count).filter (fun p => !isTomb s x e p)
  let ok := live.filter (fun p => !badCode p)
  (ok.map (fun p => (verItem s x e p, false, vecPoison s x (alignDown (verByte s x e (idBlock s x e.count + 16 * p)) 64) 64)) ++
     ((listChain s x l).filter (fun c => !c.dead)).map (fun c => (c.item, true, false)),
   ok.length != live.length)

/-- Scan a list for the queries of a pass (R445). -/
def runPass (s : State) (x l eng : Nat) (qs : List RoundQuery) : List RoundQuery × State :=
  let e := vecEnt s x l
  let its := passItems s x l e
  let owner := mkCid (getRegion s (vecRegion s x)).owner 0
  let lines := upTo (divUp (e.count * vecCb s x) 64)
  let s := forS ((listChain s x l).map (·.page)).eraseDups s (fun s p => vecTouch s x eng (pageOff s x p) 4096)
  let s := forS lines s (fun s k => touch s 3 eng owner (vecBase s x + verByte s x e (k * 64)) false)
  let s := if its.2 then passFault s (qs.map (·.d)) 2 0 else s
  let s := bumpBy (bump s 0x2701 4) 0x2701 5 its.1.length
  let s := forS qs s (fun s q => pbumpBy s 0x4D09 q.d.q.part its.1.length)
  foldMapS (fun s q => its.1.foldl (fun r it => offer x l it.1 it.2.1 it.2.2 r) (q, s)) s qs

/-- PASS_START (R445): the engine's next pass, in ascending list number; on a lane that is OFF its lists are skipped (R449). -/
def execPassStart (index engine : Nat) (s : State) : Res :=
  .next (match findRound s index with
    | none => s
    | some r =>
      match r.passes.find? (fun p => (vecEnt s index p.1).lane == engine) with
      | none => s
      | some p =>
        let sel := p.2.filterMap (fun k => (r.queries[k]?).map (fun q => (k, q)))
        let rest := r.passes.erase p
        if !(areasBelow s index).isEmpty then askAreas s index
        else if !tapeOn s engine then setRound (passFault s (sel.map (·.2.d)) 1 0x16) { r with passes := rest }
        else
          let z := runPass s index p.1 engine (sel.map (·.2))
          let upd := (sel.map (·.1)).zip z.1
          setRound z.2 { r with
            passes := rest
            queries := ((upTo r.queries.length).zip r.queries).map (fun q => match upd.find? (fun u => u.1 == q.1) with | some u => u.2 | none => q.2) })

/-- The exact distance of a re-rank vector (R451). -/
def exactDist (ip : Bool) (q v : List Nat) : Nat := (distTerms ip q v).foldl f32add 0

/-- A candidate as a result, rescored where asked (R448, R451): `none` where its distance is NaN; the status of its vector's read. -/
def rescore (x : Nat) (c : EngCtx) (rerank : Bool) (q : RoundQuery) (a : VecCand) (s : State) : Option Found × Nat × State :=
  let f : Found := { id := a.id, dist := a.dist, reranked := false, side := a.side, member := vecMember s x, tie := a.tie }
  let rr := vecRrFmt s x
  if !rerank || rr = 0 || a.rslot = none32 then (some f, 0, s)
  else
    let fmt := rr - 1
    let base := (getRegion s (vecRrRegion s x)).base
    let y := engRead s { c with va := false } (endpointId s * 2 ^ 48 + base + a.rslot * vecVb s x) (vecDim s x * qElem fmt)
    if y.1 = 1 || y.1 = 2 then (some f, y.1, y.2.2)
    else
      let d := exactDist (vecIp s x) q.vec (qRow fmt (vecDim s x) y.2.1)
      (if isNan (fdec fmtF32 d) then none else some { f with dist := d, reranked := true }, y.1, y.2.2)

/-- One query's results at this member: K entries at most, in key order; candidates dropped; status. -/
def queryEnd (x k : Nat) (c : EngCtx) (rerank : Bool) (q : RoundQuery) (s : State) : List Found × Nat × Nat × State :=
  let good := q.cands.filter (fun a => !a.bad)
  let one := good.foldl (fun l a => if l.any (fun (b : VecCand) => b.id == a.id) then l else l ++ [a]) []
  let r := one.foldl (fun (z : List Found × Nat × State) a =>
    let y := rescore x c rerank q a z.2.2
    ((match y.1 with | some f => insertFound z.1 f | none => z.1), firstStatus z.2.1 y.2.1, y.2.2)) (([] : List Found), 0, s)
  (r.1.take k, q.cands.length - good.length, firstStatus r.2.1 (if q.cands.length = good.length then 0 else 2), r.2.2)

/-- A descriptor's results at the end of its round. -/
def searchEnd (s : State) (x : Nat) (qs : List RoundQuery) (d : DescRef) (env : List Reply) : State :=
  match findDesc s d with
  | none => s
  | some y =>
    let b := y.bytes
    let c := { searchCtx s d b env with desc := none }
    let mine := qs.filter (fun q => q.d == d)
    let r := mine.foldl (fun (z : List (List Found) × Nat × Nat × State) q =>
      let e := queryEnd x (bfld b 0x22 2) c (bit (bfld b 2 2) 3) q z.2.2.2
      (z.1 ++ [e.1], z.2.1 + e.2.1, firstStatus z.2.2.1 e.2.2.1, e.2.2.2)) (([] : List (List Found)), 0, 0, s)
    let s := pbumpBy (bumpBy r.2.2.2 0x2701 2 mine.length) 0x4701 d.q.part mine.length
    match findDesc s d with
    | none => s
    | some y =>
      let y := { y with phase := 2, found := y.found ++ [(vecMember s x, r.1)], hits := y.hits + r.2.1, status := firstStatus y.status r.2.2.1,
                        ranAt := s.det.now }
      let s := setDesc s d.q y
      if y.members.isEmpty then finishSearch s d y env else s

/-- ROUND_END (R448): candidates are resolved, re-ranked and written; a re-rank vector whose bolt is to be moved up holds the round (R204). -/
def execRoundEnd (index : Nat) (env : List Reply) (s : State) : Res :=
  .next (match findRound s index with
    | none => s
    | some r =>
      if !r.passes.isEmpty then s
      else
        let t := setTape s { s.eng.tape with rounds := s.eng.tape.rounds.filter (fun q => q.index != index) }
        let t := forS (r.queries.map (·.d)).eraseDups t (fun s d => searchEnd s index r.queries d env)
        match stoppedAlone s t with
        | some z => z
        | none => fin t)

end Sys2Proof.Machine
end

