-- ==== Sys2Proof/Machine/TapeEdit.lean ====
section
/-! DEFINITION. Tape: inserts, deletes, list loads, area loads, merges and graph edits (R452 to R457, R460, R463 to R465). -/
namespace Sys2Proof.Machine

/-- Write a chain entry (Table 10.5). -/
def putChainEnt (s : State) (x page slot : Nat) (i : VecItem) : State :=
  vecWrite s x (pageOff s x page + 0x40 + slot * chainSize s x) (toLe 8 i.id ++ toLe 4 i.rslot ++ zeros 4 ++ slice i.code 0 (vecCb s x))

/-- Set USED of a page. -/
def setUsed (s : State) (x page n : Nat) : State := vecWrite s x (pageOff s x page + 8) (toLe 2 n)

/-- Append an item to a list's chain (R452); an EMPTY list becomes LIVE. `none`: the side pool has no free page. -/
def appendItem (s : State) (x l : Nat) (i : VecItem) : Option State :=
  let e := vecEnt s x l
  let last := (chainOf s x e.chain).getLast?
  let used := match last with | some p => bfld (vecRead s x (pageOff s x p + 8) 2) 0 2 | none => 0
  match last with
  | some p =>
    if used < chainCap s x then some (setUsed (putChainEnt s x p used i) x p (used + 1))
    else
      (findPages s x 1).map (fun q =>
        let s := vecWrite s x (pageOff s x q) (toLe 4 none32 ++ toLe 4 l ++ toLe 2 1)
        vecWrite (putChainEnt s x q 0 i) x (pageOff s x p) (toLe 4 q))
  | none =>
    (findPages s x 1).map (fun q =>
      let s := vecWrite s x (pageOff s x q) (toLe 4 none32 ++ toLe 4 l ++ toLe 2 1)
      setVecEnt (putChainEnt s x q 0 i) x l { e with chain := q, state := if e.state = 0 then 1 else e.state })

/-- Queue a list for merge where R455 says so. -/
def noteMerge (s : State) (x l : Nat) : State :=
  let e := vecEnt s x l
  let live := ((chainEnts s x e.chain).filter (fun c => !c.dead)).length
  if e.state ≠ 1 || s.eng.tape.mergeQ.contains (x, l) then s
  else if vecMergeChain s x < live || (e.tombs ≠ 0 && vecMergeTomb s x * e.count ≤ e.tombs * 1024) then
    setTape s { s.eng.tape with mergeQ := s.eng.tape.mergeQ ++ [(x, l)] }
  else s

/-- The fields of Table 10.8 for INSERT. -/
def insertForm (s : State) (x : Nat) (b : Bytes) : Bool :=
  bfld b 1 1 == 0 && (bfld b 2 2 == 0 || bfld b 2 2 == 2) && decide (bfld b 6 2 < 16384) && decide (1 ≤ bfld b 0x10 4) &&
  decide (bfld b 0x10 4 ≤ 65536) && decide (16 + vecCb s x ≤ bfld b 0x14 4) && bfld b 0x18 36 == 0

/-- An insert record: status, LIST, item. -/
def readRecord (s : State) (c : EngCtx) (a cb : Nat) : Nat × Nat × VecItem × State :=
  let y := engRead s c a (16 + cb)
  (y.1, bfld y.2.1 8 4, { id := bfld y.2.1 0 8, rslot := bfld y.2.1 0x0C 4, code := slice y.2.1 16 cb }, y.2.2)

/-- Append records one after another (R452): appended, refused, status, RCODE. -/
def insertGo (x : Nat) (c : EngCtx) (b : Bytes) : List Nat → Nat → Nat → Nat → State → Nat × Nat × Nat × Nat × State
  | [], n, r, st, s => (n, r, st, 0, s)
  | k :: rest, n, r, st, s =>
    let y := readRecord s c (bfld b 8 8 + k * bfld b 0x14 4) (vecCb s x)
    let s := y.2.2.2
    let l := y.2.1
    let st := firstStatus st y.1
    if engStopped s then (n, r, st, 0, s)
    else if y.1 ≠ 0 then insertGo x c b rest n r st s
    else if vecNlist s x ≤ l || (vecGraph s x && !(vecNode s x l).live) then insertGo x c b rest n (r + 1) st s
    else
      match appendItem s x l y.2.2.1 with
      | none => (n, r, st, 0x13, s)
      | some s => insertGo x c b rest (n + 1) r st (noteMerge s x l)

/-- INSERT (R452). -/
def execInsert (d : DescRef) (env : List Reply) (s : State) : Res :=
  .next (tapeReady s d 0x31 (insertForm s) (fun y x =>
    let c := searchCtx s d y.bytes env
    if !vecRight s x c true then denyDesc (vecViolation s x c) d (ranStatus 0)
    else
      runDesc s d (fun s =>
        let r := insertGo x c y.bytes (upTo (bfld y.bytes 0x10 4)) 0 0 0 s
        ({ status := r.2.2.1, rcode := r.2.2.2.1, result := r.1 + r.2.1 * 2 ^ 32, missing := 0 }, bumpBy r.2.2.2.2 0x2701 6 r.1))))

/-- The fields of Table 10.8 for DELETE. -/
def deleteForm (b : Bytes) : Bool :=
  bfld b 1 1 == 0 && (bfld b 2 2 == 0 || bfld b 2 2 == 2) && decide (bfld b 6 2 < 16384) && decide (1 ≤ bfld b 0x10 4) &&
  decide (bfld b 0x10 4 ≤ 65536) && bfld b 0x14 40 == 0

/-- Remove positions of a version (R453): the bitmap is allocated at the first. `none`: the side pool has no room for it. -/
def tombPositions (s : State) (x l : Nat) (ps : List Nat) : Option State :=
  if ps.isEmpty then some s
  else
    let e := vecEnt s x l
    let bm := if e.bitmap ≠ none32 then some e.bitmap else findPages s x (bitmapPages e.count)
    bm.map (fun p =>
      let s := if e.bitmap ≠ none32 then s else wipePages s x (bitmapOf p e.count)
      let s := forS ps s (fun s k =>
        let o := pageOff s x p + k / 8
        vecWrite s x o (toLe 1 (setBit (bfld (vecRead s x o 1) 0 1) (k % 8))))
      setVecEnt s x l { e with bitmap := p, tombs := e.tombs + ps.length })

/-- Remove every occurrence of an ID in a list: whether there was one. `none`: no room for the bitmap. -/
def deleteOne (s : State) (x l id : Nat) : Option (Bool × State) :=
  let e := vecEnt s x l
  let cs := (chainEnts s x e.chain).filter (fun c => !c.dead && c.item.id == id)
  let ps := (upTo e.count).filter (fun p => !isTomb s x e p && (verItem s x e p).id == id)
  let owner := mkCid (getRegion s (vecRegion s x)).owner 0
  let s := forS (upTo (divUp (16 * e.count) 64)) s (fun s k => touch s 3 e.lane owner (vecBase s x + verByte s x e (idBlock s x e.count + k * 64)) false)
  let s := forS cs s (fun s c => vecWrite s x (pageOff s x c.page + 0x40 + c.slot * chainSize s x + 0x0C) (toLe 1 1))
  (tombPositions s x l ps).map (fun s => (!cs.isEmpty || !ps.isEmpty, noteMerge s x l))

/-- Lie a list's positions on a lane that is OFF, so that its ID block cannot be read (R162, R453; log entry 131)? -/
def laneLost (s : State) (x l : Nat) : Bool := let e := vecEnt s x l; e.count != 0 && !tapeOn s e.lane

/-- Delete records one after another (R453): removed, not found, status, RCODE. -/
def deleteGo (x : Nat) (rs : List (Nat × Nat × Nat)) : Nat → Nat → State → Nat × Nat × Nat × State
  | n, m, s =>
    rs.foldl (fun (a : Nat × Nat × Nat × State) r =>
      if a.2.2.1 ≠ 0 then a
      else if r.2.2 ≠ 0 then a
      else if vecNlist s x ≤ r.2.1 then (a.1, a.2.1 + 1, 0, a.2.2.2)
      else if laneLost a.2.2.2 x r.2.1 then a
      else
        match deleteOne a.2.2.2 x r.2.1 r.1 with
        | none => (a.1, a.2.1, 0x13, a.2.2.2)
        | some (true, s) => (a.1 + 1, a.2.1, 0, s)
        | some (false, s) => (a.1, a.2.1 + 1, 0, s)) (n, m, 0, s)

/-- The delete records of a descriptor: (ID, LIST, status), and the state. -/
def deleteRecords (s : State) (c : EngCtx) (b : Bytes) : List (Nat × Nat × Nat) × State :=
  foldMapS (fun s k =>
    let y := engRead s c (bfld b 8 8 + k * 16) 16
    ((bfld y.2.1 0 8, bfld y.2.1 8 4, y.1), y.2.2)) s (upTo (bfld b 0x10 4))

/-- DELETE (R453): one that names a list in state MERGING waits. -/
def execDelete (d : DescRef) (env : List Reply) (s : State) : Res :=
  .next (tapeReady s d 0x32 (fun _ b => deleteForm b) (fun y x =>
    let c := searchCtx s d y.bytes env
    if !vecRight s x c true then denyDesc (vecViolation s x c) d (ranStatus 0)
    else
      let r := deleteRecords s c y.bytes
      match stopped s r.2 d with
      | some z => z
      | none =>
        if r.1.any (fun q => decide (q.2.1 < vecNlist s x) && (vecEnt s x q.2.1).state == 2) then s
        else
          runDesc s d (fun _ =>
            let z := deleteGo x r.1 0 0 r.2
            let off := r.1.any (fun q => q.2.2 == 0 && decide (q.2.1 < vecNlist s x) && laneLost s x q.2.1)
            let st := r.1.foldl (fun a q => firstStatus a q.2.2) (if off then 1 else 0)
            let rc := if z.2.2.1 ≠ 0 then z.2.2.1 else if off then 0x16 else if z.1 = 0 && z.2.1 ≠ 0 then 0x14 else 0
            ({ status := st, rcode := rc, result := z.1 + z.2.1 * 2 ^ 32, missing := 0 }, bumpBy z.2.2.2 0x2701 7 z.1))))

/-- The fields of Table 10.8 for LIST_LOAD. -/
def loadListForm (s : State) (x : Nat) (b : Bytes) : Bool :=
  bfld b 1 1 == 0 && (bfld b 2 2 == 0 || bfld b 2 2 == 2) && decide (bfld b 6 2 < 16384) && decide (bfld b 0x10 4 < vecNlist s x) &&
  decide (bfld b 0x14 4 ≤ 16777216) && decide (16 + vecCb s x ≤ bfld b 0x18 4) &&
  (decide (bfld b 0x1C 1 < 32) || bfld b 0x1C 1 == 0xFF) && bfld b 0x1D 31 == 0

/-- Begin a new version of a list (Table 10.6 steps 1 to 3): MERGING, an empty chain, the version written into a free run of a lane. `none`: no
free run. -/
def beginVersion (s : State) (x l lane : Nat) (items : List VecItem) (load : Option DescRef) : Option State :=
  let e := vecEnt s x l
  let n := verBolts s x items.length
  match findRun s x lane n with
  | none => none
  | some first =>
    match placeRun s x lane first n with
    | none => none
    | some s =>
      let s := writeVersion s x lane first (verContent s x items)
      let m : VecMerge :=
        { index := x, list := l, lane := lane, first := first, n := n, count := items.length,
          oldChain := e.chain, load := load, since := s.acc.nextSeq }
      let s := setTape s { s.eng.tape with merges := s.eng.tape.merges ++ [m] }
      some (setVecEnt s x l { e with state := 2, chain := none32 })

/-- Records of a LIST_LOAD: items, the first status, and the state. -/
def loadItems (s : State) (c : EngCtx) (b : Bytes) (cb : Nat) : List VecItem × Nat × State :=
  let r := foldMapS (fun s k =>
    let y := readRecord s c (bfld b 8 8 + k * bfld b 0x18 4) cb
    ((y.2.2.1, y.1), y.2.2.2)) s (upTo (bfld b 0x14 4))
  (r.1.map (·.1), r.1.foldl (fun a q => firstStatus a q.2) 0, r.2)

/-- Is the lane's engine free of merges (R455)? -/
def laneIdle (s : State) (lane : Nat) : Bool := !s.eng.tape.merges.any (fun m => m.lane == lane)

/-- LIST_LOAD (R457): it waits for a merge of its list, and for its lane's engine. -/
def execListLoad (d : DescRef) (env : List Reply) (s : State) : Res :=
  .next (tapeReady s d 0x33 (loadListForm s) (fun y x =>
    let b := y.bytes
    let c := searchCtx s d b env
    let l := bfld b 0x10 4
    let e := vecEnt s x l
    let lane := if bfld b 0x1C 1 ≠ 0xFF then bfld b 0x1C 1 else if e.version = 0 then bestLane s x else e.lane
    if !vecRight s x c true then denyDesc (vecViolation s x c) d (ranStatus 0)
    else if s.eng.tape.merges.any (fun m => m.index == x && m.list == l) || !laneIdle s lane then s
    else if !tapeOn s lane then denyDesc s d (ranCode 1 0x16)
    else
      let r := loadItems s c b (vecCb s x)
      match stopped s r.2.2 d with
      | some z => z
      | none =>
        if r.2.1 ≠ 0 then denyDesc r.2.2 d (ranStatus r.2.1)
        else
          match beginVersion r.2.2 x l lane r.1 (some d) with
          | none => denyDesc (bump r.2.2 0x2701 9) d (ranCode 0 0x1A)
          | some s =>
            match findDesc s d with
            | none => s
            | some z => fin (setDesc s d.q { z with phase := 1, stalledAt := none })))

/-- The fields of Table 10.9 for AREA_LOAD: not centroids of an index with a graph. -/
def areaForm (s : State) (x : Nat) (b : Bytes) : Bool :=
  let a := bfld b 1 1
  let top := match a with
    | 1 => vecNlist s x
    | 2 => vecM s x * vecC s x
    | _ => vecEntryCount s x
  decide (1 ≤ a) && decide (a ≤ 3) && !(a == 1 && vecGraph s x) && (bfld b 2 2 == 0 || bfld b 2 2 == 2) && decide (bfld b 6 2 < 16384) &&
  decide (bfld b 0x10 4 + bfld b 0x14 4 ≤ top) && bfld b 0x1C 32 == 0

/-- Has a search of the index been accepted before `ord` and not completed (R464)? -/
def searchBefore (s : State) (x ord : Nat) : Bool :=
  (blkQueues s .tape).any (fun q => q.2.accepted.any (fun z => descOp z == 0x30 && bfld z.bytes 4 2 == x && decide (z.ord < ord) && !z.ran))

/-- AREA_LOAD (R464). -/
def execAreaLoad (d : DescRef) (env : List Reply) (s : State) : Res :=
  .next (tapeReady s d 0x34 (areaForm s) (fun y x =>
    let b := y.bytes
    let c := searchCtx s d b env
    let a := bfld b 1 1
    let z := match a with
      | 1 => vecDim s x * 4
      | 2 => vecDs s x * 4
      | _ => 4
    let off := match a with
      | 1 => vecCentOff
      | 2 => vecBookOff s x
      | _ => 0
    if !vecRight s x c true then denyDesc (vecViolation s x c) d (ranStatus 0)
    else if a ≠ 3 && searchBefore s x y.ord then s
    else
      runDesc s d (fun s =>
        let r := foldMapS (fun s k =>
          let q := engRead s c (bfld b 8 8 + k * bfld b 0x18 4) z
          ((q.2.1, q.1), q.2.2)) s (upTo (bfld b 0x14 4))
        let st := r.1.foldl (fun m q => firstStatus m q.2) 0
        let d := r.1.flatMap (·.1)
        if st ≠ 0 then (ranStatus st, r.2)
        else if a ≠ 3 && !(elemList 4 (d.length / 4) d).all (fun v => isFin (fdec fmtF32 v)) then (ranCode 0 0x18, r.2)
        else ({ status := 0, rcode := 0, result := bfld b 0x14 4, missing := 0 }, vecWrite r.2 x (off + bfld b 0x10 4 * z) d))))

/-- The fields of Table 10.9 for MERGE. -/
def mergeForm (s : State) (x : Nat) (b : Bytes) : Bool :=
  let g := bfld b 0x10 4
  bfld b 1 1 == 0 && (bfld b 2 2 == 0 || bfld b 2 2 == 2) && decide (bfld b 6 2 < 16384) && decide (g ≤ 1) && bfld b 0x0C 4 == 0 &&
  bfld b 0x14 40 == 0 && (if g = 1 then vecGraph s x else decide (bfld b 8 4 < vecNlist s x))

/-- Free a node that is in TOMB, with its list's version and chain (R460). -/
def freeNode (s : State) (x n : Nat) : State :=
  let v := vecNode s x n
  let e := vecEnt s x n
  let pages := chainOf s x e.chain ++ bitmapOf e.bitmap e.count
  let s := wipePages (freeRun s x e.lane e.first e.nbolts) x pages
  let s := setVecEnt s x n { e with state := 0, first := 0, nbolts := 0, count := 0, tombs := 0, chain := none32, bitmap := none32 }
  setVecNode s x n { v with tomb := false, live := false, edges := [] }

/-- A graph merge (R460): edges that mismatch or that name a node in TOMB go; then every TOMB node is freed. -/
def graphMerge (s : State) (x : Nat) : State :=
  let ns := nodesListed s x
  let tombs := ns.filter (fun n => (vecNode s x n).tomb)
  let s := forS ns s (fun s n =>
    let v := vecNode s x n
    let es := v.edges.filter (fun e => decide (e % 2 ^ 24 < vecNlist s x) && e / 2 ^ 24 == (vecNode s x (e % 2 ^ 24)).gen && !tombs.contains (e % 2 ^ 24))
    if es = v.edges then s else setVecNode s x n { v with edges := es })
  let s := forS tombs s (fun s n => freeNode s x n)
  setTape s { s.eng.tape with mergeQ := s.eng.tape.mergeQ.filter (fun q => !(q.1 == x && tombs.contains q.2)) }

/-- MERGE (R455, R460): a list is queued at once, and the descriptor completes at the swap; a graph merge is carried out, once no TOMB list is
MERGING. RESULT of a graph merge, which makes no version, is a free value. -/
def execMerge (d : DescRef) (s : State) : Res :=
  .next (tapeReady s d 0x35 (mergeForm s) (fun y x =>
    let b := y.bytes
    let c := searchCtx s d b []
    let l := bfld b 8 4
    if !vecRight s x c true then denyDesc (vecViolation s x c) d (ranStatus 0)
    else if bfld b 0x10 4 = 1 then
      if (nodesListed s x).any (fun n => (vecNode s x n).tomb && (vecEnt s x n).state == 2) then s
      else
        let f := freshFree (graphMerge s x)
        denyDesc f.2 d { status := 0, rcode := 0, result := Config.freeNat f.1 % 2 ^ 32, missing := 0 }
    else
      let s := if s.eng.tape.mergeQ.contains (x, l) then s else setTape s { s.eng.tape with mergeQ := s.eng.tape.mergeQ ++ [(x, l)] }
      match findDesc s d with
      | none => s
      | some z => fin (setDesc s d.q { z with phase := 1 })))

/-- The items that a merge keeps (R456): live positions, then live chain entries in chain order. -/
def mergeItems (s : State) (x l : Nat) : List VecItem :=
  let e := vecEnt s x l
  ((upTo e.count).filter (fun p => !isTomb s x e p)).map (verItem s x e) ++
    ((chainEnts s x e.chain).filter (fun c => !c.dead)).map (·.item)

/-- MERGE_START (R455, R456): the engine takes the first queued merge of its lane; with no free run the merge is postponed. -/
def execMergeStart (engine : Nat) (s : State) : Res :=
  .next (if !tapeOn s engine || !laneIdle s engine || blkRun s .tape < 2 then s
    else
      match s.eng.tape.mergeQ.find? (fun q => (vecEnt s q.1 q.2).lane == engine && vecRunRaw s q.1 != 0 && (vecEnt s q.1 q.2).state != 2) with
      | none => s
      | some q =>
        match beginVersion s q.1 q.2 engine (mergeItems s q.1 q.2) none with
        | none =>
          setTape (bump s 0x2701 9) { s.eng.tape with mergeQ := s.eng.tape.mergeQ.erase q ++ [q] }
        | some s => fin (setTape s { s.eng.tape with mergeQ := s.eng.tape.mergeQ.erase q }))

/-- MERGE descriptors of a list, accepted before number `since`, that wait for its swap. -/
def mergesOf (s : State) (x l since : Nat) : List DescRef :=
  (blkQueues s .tape).flatMap (fun q => (q.2.accepted.filter (fun y => descOp y == 0x35 && bfld y.bytes 4 2 == x && bfld y.bytes 8 4 == l &&
    bfld y.bytes 0x10 4 == 0 && y.phase == 1 && !y.ran && decide (y.ord < since))).map (fun y => { q := { blk := .tape, part := q.1 / 16 % 64, q := q.1 % 16 }, pos := y.pos }))

/-- MERGE_SWAP (Table 10.6 step 4): one directory write; the descriptor that asked for it completes. -/
def execMergeSwap (index list : Nat) (s : State) : Res :=
  .next (match s.eng.tape.merges.find? (fun m => m.index == index && m.list == list) with
    | none => s
    | some m =>
      let e := vecEnt s index list
      let v := (e.version + 1) % 2 ^ 32
      let f : VecFree := { index := index, list := list, lane := e.lane, first := e.first, n := e.nbolts, bitmap := e.bitmap,
                           pages := bitmapPages e.count, chain := m.oldChain }
      let s := setTape s { s.eng.tape with merges := s.eng.tape.merges.erase m, frees := s.eng.tape.frees ++ [f] }
      -- what was inserted meanwhile keeps the list LIVE (log entry 132)
      let empty := m.load.isSome && m.count = 0 && e.chain = none32
      let s := setVecEnt s index list { version := v, lane := m.lane, state := if empty then 0 else 1, first := m.first, nbolts := m.n, count := m.count,
                                        tombs := 0, chain := e.chain, bitmap := none32 }
      let s := noteMerge s index list
      let r : Ran := { status := 0, rcode := 0, result := v, missing := 0 }
      match m.load with
      | some d => fin (endDesc s d r.status r.rcode r.result r.missing)
      | none => fin (forS (mergesOf s index list m.since) (bump s 0x2701 8) (fun s d => endDesc s d r.status r.rcode r.result r.missing)))

/-- MERGE_FREE (Table 10.6 step 5): the old version's bolts, bitmap pages and chain pages. -/
def execMergeFree (index list : Nat) (s : State) : Res :=
  .next (match s.eng.tape.frees.find? (fun f => f.index == index && f.list == list) with
    | none => s
    | some f => freeVersion s f)

/-- The fields of Table 10.9 for GRAPH_EDIT. -/
def editForm (s : State) (x : Nat) (b : Bytes) : Bool :=
  (bfld b 2 2 == 0 || bfld b 2 2 == 2) && decide (1 ≤ bfld b 1 1) && decide (bfld b 1 1 ≤ 3) && decide (bfld b 6 2 < 16384) && vecGraph s x &&
  bfld b 0x0C 4 == 0 && decide (bfld b 0x10 4 ≤ vecGraphR s x) && bfld b 0x14 12 == 0 && bfld b 0x28 20 == 0

/-- A GRAPH_EDIT with an OP: `run` gets the node's number, its generation as given, and the node. -/
def graphEdit (s : State) (d : DescRef) (op : Nat) (env : List Reply)
    (run : State → EngCtx → Nat → Bytes → Nat → Nat → VecNode → Ran × State) : State :=
  match findDesc s d with
  | none => s
  | some z =>
    if bfld z.bytes 1 1 ≠ op && 1 ≤ bfld z.bytes 1 1 && bfld z.bytes 1 1 ≤ 3 then s
    else
      tapeReady s d 0x36 (editForm s) (fun y x =>
        let b := y.bytes
        let c := searchCtx s d b env
        let n := bfld b 8 3
        if !vecRight s x c true then denyDesc (vecViolation s x c) d (ranStatus 0)
        else if vecNlist s x ≤ n then denyDesc s d (ranCode 0 0x19)
        else runDesc s d (fun s => run s c x b n (bfld b 0x0B 1) (vecNode s x n)))

/-- RETIRE (R460). -/
def retireNode (s : State) (_c : EngCtx) (x : Nat) (_b : Bytes) (n gen : Nat) (v : VecNode) : Ran × State :=
  if gen ≠ v.gen || !v.live then (ranCode 0 0x19, s)
  else if liveItems s x n ≠ 0 then (ranCode 0 0x15, s)
  else (ranStatus 0, setVecNode s x n { v with live := false, tomb := true })

/-- ADD (R460). -/
def addNode (s : State) (c : EngCtx) (x : Nat) (b : Bytes) (n gen : Nat) (v : VecNode) : Ran × State :=
  if v.live || v.tomb || gen ≠ (v.gen + 1) % 256 then (ranCode 0 0x19, s)
  else
    let deg := bfld b 0x10 4
    let z := vecDim s x * 4
    let y := engRead s c (bfld b 0x20 8) (z + 4 * deg)
    if y.1 ≠ 0 then (ranStatus y.1, y.2.2)
    else
      let s := vecWrite y.2.2 x (vecCentOff + n * z) (y.2.1.take z)
      ({ status := 0, rcode := 0, result := vecDim s x + deg, missing := 0 },
       setVecNode s x n { gen := gen, live := true, tomb := false, edges := elemList 4 deg (y.2.1.drop z) })

/-- LINK (R460). -/
def linkNode (s : State) (c : EngCtx) (x : Nat) (b : Bytes) (n gen : Nat) (v : VecNode) : Ran × State :=
  if gen ≠ v.gen || !v.live then (ranCode 0 0x19, s)
  else
    let deg := bfld b 0x10 4
    let y := engRead s c (bfld b 0x20 8) (4 * deg)
    if y.1 ≠ 0 then (ranStatus y.1, y.2.2)
    else ({ status := 0, rcode := 0, result := deg, missing := 0 }, setVecNode y.2.2 x n { v with edges := elemList 4 deg y.2.1 })

/-- GRAPH_RETIRE (R460). -/
def execGraphRetire (d : DescRef) (s : State) : Res := .next (graphEdit s d 1 [] retireNode)

/-- GRAPH_ADD (R460). -/
def execGraphAdd (d : DescRef) (env : List Reply) (s : State) : Res := .next (graphEdit s d 2 env addNode)

/-- GRAPH_LINK (R460). -/
def execGraphLink (d : DescRef) (env : List Reply) (s : State) : Res := .next (graphEdit s d 3 env linkNode)

end Sys2Proof.Machine
end

