-- ==== Sys2Proof/Machine/FanOut.lean ====
section
/-! DEFINITION. Fan-out between the members of a table or an index (R350, R353 to R355, R425, R461): shares received, reports taken, members missing. -/
namespace Sys2Proof.Machine

/-- Does an entry member combine a row-split look-up itself (R354)? -/
def isWide (d : DescRef) (x : Desc) : Bool := descOp x == 0x10 && x.phase == 1 && d.q.blk == .bobbin

/-- Is the descriptor a search at its entry member? -/
def isSearch (d : DescRef) (x : Desc) : Bool := descOp x == 0x30 && d.q.blk == .tape

/-- A descriptor whose members have all reported, or are missing, goes on. -/
def membersIn (s : State) (d : DescRef) (x : Desc) (env : List Reply) : State :=
  if !x.members.isEmpty then s
  else if isWide d x then finishRows s d x
  else if isSearch d x then (if x.phase = 2 then finishSearch s d x env else s)
  else fin (tryComplete s d.q d.pos)

/-- MEMBER_REPORT (R353, R354, R425, R461): a report that is not awaited is discarded. -/
def execMemberReport (d : DescRef) (m : MemberMsg) (s : State) : Res :=
  .next (match findDesc s d with
    | none => s
    | some x =>
      if !x.members.contains m.member then s
      else
        let x := mergeCode { x with members := x.members.filter (· ≠ m.member), status := firstStatus x.status m.status } m.member m.rcode
        let x := if isWide d x then { x with partials := x.partials ++ m.partials.map (fun p => (m.member, p)), hits := x.hits + m.result }
          else if isSearch d x then { x with found := x.found ++ [(m.member, m.found)], hits := x.hits + m.result / 2 ^ 32 }
          else { x with result := takeResult s x m.result }
        membersIn (setDesc s d.q x) d x [])

/-- Every member that has not reported is missing (R353). -/
def missMembers (s : State) (d : DescRef) (x : Desc) (index sub : Nat) : State :=
  let x := { x with missing := x.members.foldl setBit x.missing, status := firstStatus x.status 1, rcode := 0x17, members := [] }
  membersIn (setDesc (bump s index sub) d.q x) d x []

/-- MEMBER_MISSING_TIMEOUT (R353, R355): the entry member's completion timeout. -/
def execMemberMissingTimeout (d : DescRef) (s : State) : Res :=
  .next (match findDesc s d with
    | none => s
    | some x =>
      if x.members.isEmpty || isSearch d x || !due s x.ranAt x.ctT then s else missMembers s d x 0x2601 9)

/-- TAPE_MEMBER_TIMEOUT (R461): MEMBER_WAIT_MS. -/
def execTapeMemberTimeout (d : DescRef) (s : State) : Res :=
  .next (match findDesc s d with
    | none => s
    | some x =>
      if x.members.isEmpty || !isSearch d x || x.phase ≠ 2 || !due s x.ranAt x.memberT then s
      else missMembers s d x 0x2701 0x0D)

/-- Run a share that has just been accepted, as its own command runs it; where it cannot run yet it stays accepted. -/
def runShare (s : State) (d : DescRef) (op : Nat) (env : List Reply) : Res :=
  match d.q.blk, op with
  | .bobbin, 0x10 => execLookup d env s
  | .bobbin, 0x11 => execTabLoad d env s
  | .bobbin, 0x12 => execRefreshHot d env s
  | .bobbin, 0x20 => execStepOpen d s
  | .bobbin, 0x21 => execAccumulate d env s
  | .bobbin, 0x22 => execSeal d s
  | .bobbin, 0x23 => execStepDiscard d s
  | .tape, 0x30 => execSearch d env s
  | _, _ => .next s

/-- Accept a share at this member, under its own table or index number. -/
def acceptShare (s : State) (m : FanMsg) : State :=
  let pos := s.acc.nextSeq
  let lists : Lists := { idx := m.idx, off := m.off, wt := m.wt, batch := m.batch, bad := m.bad }
  let d := { newDesc s pos m.holder (bset m.bytes 4 2 m.table) with
             entry := some { ep := m.ep, q := m.q, pos := m.pos, member := m.member }, lists := some lists }
  acceptDesc s { m.q with q := 8 } d

/-- FANOUT_RECEIVE (R350, R461): the share is accepted at this member and served; during a drain it waits (R63). -/
def execFanoutReceive (m : FanMsg) (env : List Reply) (s : State) : Res :=
  let op := bfld m.bytes 0 1
  if !knownOp m.q.blk op (bfld m.bytes 1 1) || op = 0xF0 || op = 0xF1 then .next s
  else if draining s m.q.blk then .next { s with eng := { s.eng with heldShares := s.eng.heldShares ++ [m] } }
  else runShare (acceptShare s m) { q := { m.q with q := 8 }, pos := s.acc.nextSeq } op env

/-- The shares that a drain has held are accepted. -/
def acceptHeldShares (s : State) (b : Blk) : State :=
  forS (s.eng.heldShares.filter (fun m => m.q.blk == b)) { s with eng := { s.eng with heldShares := s.eng.heldShares.filter (fun m => m.q.blk != b) } } acceptShare

end Sys2Proof.Machine
end

