-- ==== Sys2Proof/Machine/TdFormat.lean ====
section
/-! DEFINITION. Treadle formats and arithmetic (R469 to R476, R481): rows of tiles, group sums, GELU and EXP, conversions. Words are 32-bit patterns. -/
namespace Sys2Proof.Machine

/-- Element bits of a FMT (Table 11.2); 0 where reserved. -/
def tdBits : Nat → Nat
  | 0 => 16 | 1 => 16 | 2 => 8 | 3 => 8 | 4 => 8 | 5 => 8 | 6 => 4 | 7 => 4
  | 8 => 8 | 9 => 8 | 10 => 6 | 11 => 6 | 12 => 4 | 15 => 32
  | _ => 0

/-- K of an MMA. -/
def tdK : Nat → Nat
  | 0 => 64 | 1 => 64 | 6 => 256 | 7 => 256 | 12 => 256
  | _ => 128

/-- Is a FMT an MX format? -/
def tdMx (f : Nat) : Bool := decide (8 ≤ f) && decide (f ≤ 12)

/-- Is it an integer format? -/
def tdInt (f : Nat) : Bool := decide (4 ≤ f) && decide (f ≤ 7)

/-- The element format of a float FMT. -/
def tdFmt : Nat → FFmt
  | 0 => fmtBf16 | 1 => fmtF16 | 2 => fmtE4m3 | 3 => fmtE5m2 | 8 => fmtE4m3 | 9 => fmtE5m2
  | 10 => fmtE2m3 | 11 => fmtE3m2 | 12 => fmtE2m1
  | _ => fmtF32

/-- The set of R473 that a FMT lies in; 0 for none. -/
def tdSet (f : Nat) : Nat :=
  if f ≤ 1 then 1 else if f ≤ 3 then 2 else if f ≤ 5 then 3 else if f ≤ 7 then 4 else if f ≤ 11 then 5 else if f = 12 then 6 else 0

/-- Element k of a 128 B row (R470). -/
def tdElem (f : Nat) (row : Nat) (k : Nat) : Nat := fld row (k * tdBits f) (tdBits f)

/-- The K elements of row i of a slot, in a FMT. -/
def tdRow (f : Nat) (d : Bytes) (i : Nat) : List Nat :=
  let v := leNat (slice d (128 * i) 128)
  (List.range (tdK f)).map (tdElem f v)

/-- An element of an integer format. -/
def tdIntVal (f v : Nat) : Int := if f = 4 || f = 6 then toSigned (tdBits f) v else (v : Int)

/-- A power of two as an exact number; scale code 0xFF is NaN (R475). -/
def e8m0 (v : Nat) : FNum := if v = 0xFF then .nan else .fin false 1 ((v : Int) - 127)

/-- The exact sum of products of a group (R474). -/
def groupSum (fa fb : Nat) (l : List (Nat × Nat)) : FNum :=
  match l.map (fun p => fmul (fdec (tdFmt fa) p.1) (fdec (tdFmt fb) p.2)) with
  | [] => .fin false 0 0
  | x :: t => t.foldl fadd x

/-- Add the groups of a float product to a bank word, in ascending k (R474): `G` elements a group; `sc` gives a group's scale. -/
def addGroups (fa fb g : Nat) (sc : Nat → FNum) : Nat → Nat → List (Nat × Nat) → Nat → Nat
  | 0, w, _, _ => w
  | fuel + 1, w, l, k =>
    if l.isEmpty then w
    else
      addGroups fa fb g sc fuel (fenc fmtF32 false (fadd (fdec fmtF32 w) (fmul (groupSum fa fb (l.take g)) (sc k)))) (l.drop g) (k + 1)

/-- One word of a float MMA. -/
def mmaFloat (fa fb : Nat) (sa sb : Nat → Nat) (w : Nat) (a b : List Nat) : Nat :=
  let g := if fa ≤ 1 then 1 else 32
  addGroups fa fb g (fun k => if tdMx fa then fmul (e8m0 (sa k)) (e8m0 (sb k)) else .fin false 1 0) 257 w (a.zip b) 0

/-- One word of an integer MMA (R476). -/
def mmaInt (fa fb w : Nat) (a b : List Nat) : Nat :=
  ofSigned 32 ((a.zip b).foldl (fun (z : Int) p => z + tdIntVal fa p.1 * tdIntVal fb p.2) (w : Int))

/-- An MMA (R469): words of the bank, slots A and B, scale slots A and B. -/
def mma (fa fb : Nat) (bank : List Nat) (a b sa sb : Bytes) : List Nat :=
  let rows := (List.range 64).map (tdRow fa a)
  let cols := (List.range 64).map (tdRow fb b)
  ((List.range 64).zip rows).flatMap (fun r =>
    ((List.range 64).zip cols).map (fun c =>
      let w := bank.getD (64 * r.1 + c.1) 0
      if tdInt fa then mmaInt fa fb w r.2 c.2
      else mmaFloat fa fb (fun k => bfld sa (r.1 * 8 + k) 1) (fun k => bfld sb (c.1 * 8 + k) 1) w r.2 c.2))

/-- The words of an FP32 slot pair (R470): columns 0 to 31, then 32 to 63. -/
def pairWords (lo hi : Bytes) : List Nat :=
  (List.range 64).flatMap (fun i => elemList 4 32 (slice lo (128 * i) 128) ++ elemList 4 32 (slice hi (128 * i) 128))

/-- The two slots of 64 × 64 FP32 words. -/
def wordsPair (w : List Nat) : Bytes × Bytes :=
  let half := fun (c : Nat) => (List.range 64).flatMap (fun i => ((w.drop (64 * i + c)).take 32).flatMap (toLe 4))
  (half 0, half 32)

/-- Move an FP32 value by `n` units in the last place along the ordered line of patterns. -/
def ulpMove (x : Nat) (n : Int) : Nat :=
  let o : Int := (if bit x 31 then -((x % 2 ^ 31 : Nat) : Int) else ((x % 2 ^ 31 : Nat) : Int)) + n
  if o < 0 then 2 ^ 31 + o.natAbs else o.natAbs

/-- Fixed-point unit of the reference values of EXP and GELU. -/
def expOne : Nat := 2 ^ 256

/-- e^y for y in units of 2^−256, below 1: terms of the series. -/
def expSeries (y : Nat) : Nat := ((List.range 48).foldl (fun (t : Nat × Nat) k => (t.1 + t.2, t.2 * y / expOne / (k + 1))) (0, expOne)).1

/-- Square `n` times. -/
def expSquare : Nat → Nat → Nat
  | 0, v => v
  | n + 1, v => expSquare n (v * v / expOne)

/-- e^y for y ≥ 0 in units of 2^−256, by halving 8 times. -/
def expPos (y : Nat) : Nat := expSquare 8 (expSeries (y / 256))

/-- A magnitude in units of 2^−256. -/
def fix256 (m : Nat) (e : Int) : Nat := if 0 ≤ e + 256 then m * 2 ^ (e + 256).toNat else m / 2 ^ (-(e + 256)).toNat

/-- e^x, rounded to FP32 from a reference value of about 240 bits (log entry 41). -/
def expRef (x : Nat) : Nat :=
  match fdec fmtF32 x with
  | .nan => nanOf fmtF32 10 x 0
  | .inf n => if n then 0 else 0x7F800000
  | .fin n m e =>
    let y := fix256 m e
    if 128 * expOne ≤ y then (if n then 0 else 0x7F800000)
    else
      let v := expPos y
      if n then fdivTo fmtF32 false (ofInt 1) (.fin false v (-256)) else fenc fmtF32 false (.fin false v (-256))

/-- EXP (R481): within 2 units in the last place, by a free choice for each operand; never below zero. -/
def tdExp (x : Nat) : Nat :=
  let r := expRef x
  if !isFin (fdec fmtF32 x) then r
  else
    let v := ulpMove r ((Config.expUlp x % 5 : Nat) - 2 : Int)
    if bit v 31 then 0 else v

/-- The argument of GELU's tanh, u = 0.797_884_6 (x + 0.044_715 x³), of a finite magnitude, in units of 2^−256. -/
def geluArg (m : Nat) (e : Int) : Nat :=
  let x := fix256 m e
  let x3 := x * x / expOne * x / expOne
  (x + x3 * 44715 / 1000000) * 7978846 / 10000000

/-- 0.5 x (1 + tanh u) = x ÷ (1 + e^(−2u)), rounded to FP32. -/
def geluRef (x : Nat) : Nat :=
  match fdec fmtF32 x with
  | .nan => nanOf fmtF32 11 x 0
  | .inf _ => x
  | .fin n m e =>
    if m = 0 then x
    else
      -- beyond 2^10 the value is x, or rounds to zero
      if 2 ^ 10 * expOne ≤ fix256 m e then (if n then 2 ^ 31 else x)
      else
        let u2 := 2 * geluArg m e
        if 200 * expOne ≤ u2 then (if n then 2 ^ 31 else x)
        else
          let ex := expPos u2
          -- x ≥ 0: x e^2u ÷ (1 + e^2u); x < 0: x ÷ (1 + e^2|u|)
          let num : FNum := if n then .fin true m e else fmul (.fin false m e) (.fin false ex (-256))
          fdivTo fmtF32 false num (.fin false (ex + expOne) (-256))

/-- GELU (R481): within 4 units in the last place, by a free choice for each operand; of −∞ the spec gives no result. -/
def tdGelu (x : Nat) : Nat :=
  if x = 0xFF800000 then Config.geluUlp x % 2 ^ 32
  else if !isFin (fdec fmtF32 x) then geluRef x
  else ulpMove (geluRef x) ((Config.geluUlp x % 9 : Nat) - 4 : Int)

/-- Round a magnitude to a format stochastically (R414): the adjacent grid magnitudes, and the dither. Beyond the largest value: saturation, or
infinity. -/
def srMag (f : FFmt) (sat : Bool) (m : Nat) (e : Int) (d : Nat) : Nat :=
  if m = 0 then 0
  else
    let top : Int := (Nat.log2 m : Int) + e
    let emin : Int := 1 - f.bias
    let g : Int := if top < emin then emin else top
    let ulp : Int := g - f.fb
    let q : Nat := if e < ulp then m / 2 ^ (ulp - e).toNat else m * 2 ^ (e - ulp).toNat
    let r : Nat := if e < ulp then m % 2 ^ (ulp - e).toNat * 2 ^ 24 / 2 ^ (ulp - e).toNat else 0
    let q : Nat := if 2 ^ 24 ≤ r + d then q + 1 else q
    let bits : Nat := if q < 2 ^ f.fb then q else ((g + f.bias).toNat - 1) * 2 ^ f.fb + q
    if fmaxBits f < bits then (if f.ieee && !sat then (2 ^ f.eb - 1) * 2 ^ f.fb else fmaxBits f) else bits

/-- Round a value to a float format, to nearest or with a dither. -/
def roundTo (f : FFmt) (sat : Bool) (v : FNum) (d : Option Nat) : Nat :=
  match d, v with
  | some k, .fin n m e => fsign f n + srMag f sat m e k
  | _, v => fenc f sat v

/-- Round a value to an integer, to nearest or with a dither. -/
def roundInt (v : FNum) (d : Option Nat) : Int :=
  match d, v with
  | some k, .fin n m e =>
    let q : Nat := if 0 ≤ e then m * 2 ^ e.toNat else m / 2 ^ (-e).toNat
    let r : Nat := if 0 ≤ e then 0 else m % 2 ^ (-e).toNat * 2 ^ 24 / 2 ^ (-e).toNat
    let q : Nat := if 2 ^ 24 ≤ r + k then q + 1 else q
    if n then -(q : Int) else (q : Int)
  | _, v => froundInt v

/-- A word as an element of an integer format (R481). -/
def cvtInt (f : Nat) (w : Nat) (d : Option Nat) : Nat :=
  let n := tdBits f
  let lo : Int := if f = 4 || f = 6 then -((2 ^ (n - 1) : Nat) : Int) else 0
  let hi : Int := if f = 4 || f = 6 then ((2 ^ (n - 1) - 1 : Nat) : Int) else ((2 ^ n - 1 : Nat) : Int)
  match fdec fmtF32 w with
  | .nan => 0
  | .inf neg => ofSigned n (if neg then lo else hi)
  | v =>
    let i := roundInt v d
    ofSigned n (if i < lo then lo else if hi < i then hi else i)

/-- A word as an element of a float format without scales (R481): BF16 and FP16 overflow to infinity; E4M3 and E5M2 saturate, NaN is 0x7F. -/
def cvtFloat (f : Nat) (w : Nat) (d : Option Nat) : Nat :=
  if f ≤ 1 then (if isNan (fdec fmtF32 w) then nanOf (tdFmt f) 12 w f else roundTo (tdFmt f) false (fdec fmtF32 w) d)
  else if isNan (fdec fmtF32 w) then 0x7F
  else roundTo (tdFmt f) true (fdec fmtF32 w) d

/-- emax of an MX format. -/
def mxEmax : Nat → Int
  | 8 => 8 | 9 => 15 | 10 => 2 | 11 => 4
  | _ => 2

/-- X of a group of 32 words (R481): `none` where every element is zero. An infinity takes the largest X. -/
def mxExp (f : Nat) (ws : List Nat) : Option Int :=
  let clamp := fun (x : Int) => if x < -127 then -127 else if 127 < x then 127 else x
  ws.foldl (fun (r : Option Int) w =>
    let x : Option Int := match fdec fmtF32 w with
      | .inf _ => some 127
      | .fin _ m e => if m = 0 then none else some (clamp ((Nat.log2 m : Int) + e - mxEmax f))
      | .nan => none
    match r, x with
    | none, x => x
    | r, none => r
    | some a, some b => some (max a b)) none

/-- The scale code of a group. -/
def mxScale (f : Nat) (ws : List Nat) : Nat :=
  if ws.any (fun w => isNan (fdec fmtF32 w)) then 0xFF
  else match mxExp f ws with
    | none => 0
    | some x => (x + 127).toNat

/-- A word of a group without NaN as an element: x ÷ 2^X, rounded and saturated. -/
def mxElem (f : Nat) (ws : List Nat) (w : Nat) (d : Option Nat) : Nat :=
  let x : Int := (mxExp f ws).getD (-127)
  roundTo (tdFmt f) true (fmul (fdec fmtF32 w) (.fin false 1 (-x))) d

/-- Elements of `bits` each as a row's bytes from byte 0. -/
def packBits (bits : Nat) (l : List Nat) : Nat := l.foldr (fun v a => v % 2 ^ bits + 2 ^ bits * a) 0

end Sys2Proof.Machine
end

