-- ==== Sys2Proof/Machine/TdCore.lean ====
section
/-! DEFINITION. Treadle: the fields of instructions and their check (R478, R489), storage with tags and poison (R488, R490), issue in order by unit (R468, R486, R487), the run of one instruction, faults of its accesses (R490, R491). -/
namespace Sys2Proof.Machine

/-- Fields of an instruction's words (R478, Table 11.4). -/
def tiClass (w : Nat × Nat) : Nat := fld w.1 0 4
def tiOp (w : Nat × Nat) : Nat := fld w.1 4 4
def tiV (w : Nat × Nat) : Bool := bit w.1 8
def tiCnt (w : Nat × Nat) : Nat := fld w.1 9 4
def tiCntEn (w : Nat × Nat) : Bool := bit w.1 13
def tiSlot (w : Nat × Nat) : Nat := fld w.1 16 8
def tiBase (w : Nat × Nat) : Nat := fld w.1 24 2
def tiHigh (w : Nat × Nat) : Nat := fld w.1 32 32
def tiBank (w : Nat × Nat) : Nat := fld w.1 16 2
def tiFmtA (w : Nat × Nat) : Nat := fld w.1 18 4
def tiFmtB (w : Nat × Nat) : Nat := fld w.1 22 4
def tiSlotA (w : Nat × Nat) : Nat := fld w.1 26 8
def tiSlotB (w : Nat × Nat) : Nat := fld w.1 34 8
def tiScaleA (w : Nat × Nat) : Nat := fld w.1 42 7
def tiScaleB (w : Nat × Nat) : Nat := fld w.1 49 7
def tiSrc (w : Nat × Nat) : Nat := fld w.1 18 2
def tiIntBit (w : Nat × Nat) : Bool := bit w.1 20
def tiSlotV (w : Nat × Nat) : Nat := fld w.1 21 8
def tiPeer (w : Nat × Nat) : Nat := fld w.1 29 3
def tiMask (w : Nat × Nat) : Nat := fld w.1 32 8
def tiVreg (w : Nat × Nat) : Nat := fld w.1 18 3
def tiFmt (w : Nat × Nat) : Nat := fld w.1 29 4
def tiSr (w : Nat × Nat) : Bool := bit w.1 33
def tiRow (w : Nat × Nat) : Nat := fld w.1 34 6
def tiScale (w : Nat × Nat) : Nat := fld w.1 40 7
def tiCounter (w : Nat × Nat) : Nat := fld w.1 16 5
def tiScope (w : Nat × Nat) : Nat := fld w.1 21 2
def tiImm (w : Nat × Nat) : Nat := fld w.2 0 32

/-- Does an instruction carry V (R493)? -/
def tiIsV (w : Nat × Nat) : Bool := tiClass w == 2 && tiOp w == 5 && !tiIntBit w

/-- Does an instruction make its part communicate (R489)? -/
def tiTalks (w : Nat × Nat) : Bool :=
  (tiClass w == 2 && (tiOp w == 4 || tiOp w == 5)) || (tiClass w == 5 && tiOp w == 1) || (tiClass w == 6 && tiOp w == 0)

/-- Is a part named as a peer other than this one, and below PARTS? -/
def peerOk (p parts q : Nat) : Bool := q != p && decide (q < parts)

/-- Does an instruction of part `p` of `parts` pass the check of R489, END apart? -/
def tiOk (p parts : Nat) (w : Nat × Nat) : Bool :=
  let op := tiOp w
  let f := tiFmt w
  let lowRsv := fld w.1 14 2 == 0 && tiV w == tiIsV w
  lowRsv && (match tiClass w with
  | 0 => decide (op ≤ 1) && fld w.1 26 6 == 0 && decide (tiSlot w ≤ (if op = 0 then 247 else 127))
  | 4 => decide (op ≤ 1) && fld w.1 26 6 == 0 && decide (tiSlot w ≤ (if op = 0 then 247 else 127))
  | 1 => decide (op ≤ 1) && fld w.1 56 8 == 0 && w.2 == 0 && tdSet (tiFmtA w) != 0 && tdSet (tiFmtA w) == tdSet (tiFmtB w) &&
      decide (tiSlotA w ≤ 247) && decide (tiSlotB w ≤ 247) && (tdMx (tiFmtA w) || (tiScaleA w == 0 && tiScaleB w == 0))
  | 2 => decide (op ≤ 5) && fld w.1 40 24 == 0 && w.2 == 0 && decide (tiSlotV w ≤ (if op = 3 then 246 else 247)) &&
      (op != 4 || peerOk p parts (tiPeer w)) && (op != 5 || (bitsOf (tiMask w) 8).all (peerOk p parts))
  | 3 => decide (op ≤ 13) && fld w.1 47 17 == 0 && fld w.2 32 32 == 0 && (tdMx f || tiScale w == 0) && f != 13 && f != 14 &&
      decide (tiSlotV w ≤ (if f = 15 && (op = 0 || op = 12) then 246 else 247)) && (op != 12 || f == 0 || f == 1 || f == 15)
  | 5 => decide (op ≤ 2) && bit w.1 23 == false && fld w.1 26 6 == 0 && (op == 2 || w.2 == 0) && (op != 0 || decide (tiCounter w ≤ 15))
  | 6 => decide (op ≤ 2) && bit w.1 23 == false && fld w.1 26 6 == 0 && (op != 0 || w.2 == 0)
  | _ => false)

/-- Is an instruction END, with every other field zero? -/
def tiIsEnd (w : Nat × Nat) : Bool := tiClass w == 7 && tiOp w == 0

/-- Does a part pass the check: END last and only there, every instruction in order? -/
def partOk (p parts : Nat) (l : List (Nat × Nat)) : Bool :=
  match l.getLast? with
  | some e => tiIsEnd e && fld e.1 16 48 == 0 && fld e.1 14 2 == 0 && !tiV e && e.2 == 0 && l.dropLast.all (tiOk p parts)
  | none => false

/-- The Treadle block's own state. -/
def setTd (s : State) (t : TdState) : State := { s with eng := { s.eng with td := t } }

/-- An array. -/
def getArray (s : State) (a : Nat) : TdArray := sget (fun _ => TdArray.reset) s.eng.td.arrays a

/-- Set it. -/
def setArray (s : State) (a : Nat) (x : TdArray) : State :=
  setTd s { s.eng.td with arrays := sput (fun _ => TdArray.reset) s.eng.td.arrays a x }

/-- The launch of a descriptor, once picked. -/
def findLaunch (s : State) (d : DescRef) : Option Launch := s.eng.td.launches.find? (fun l => l.d == d)

/-- Replace it. -/
def setLaunch (s : State) (l : Launch) : State :=
  setTd s { s.eng.td with launches := s.eng.td.launches.map (fun x => if x.d == l.d then l else x) }

/-- Is array `a` ON, enabled and in service? -/
def arrayOn (s : State) (a : Nat) : Bool := decide (a < 8) && domUsable s (20 + a) && !outOfService s (engRes 4 a)

/-- Storage bytes of a location (Table 11.1). -/
def locSize : TdLoc → Nat
  | .slot _ => 8192 | .scale _ => 512 | .bank _ => 16384 | .vreg _ => 256

/-- A piece of storage. -/
def getCell (x : TdArray) : TdLoc → TdCell
  | .slot n => sget (fun _ => TdCell.empty) x.slots n
  | .scale n => sget (fun _ => TdCell.empty) x.scales n
  | .bank n => sget (fun _ => TdCell.empty) x.banks n
  | .vreg n => sget (fun _ => TdCell.empty) x.vregs n

/-- Set it. -/
def setCell (x : TdArray) (l : TdLoc) (c : TdCell) : TdArray :=
  match l with
  | .slot n => { x with slots := sput (fun _ => TdCell.empty) x.slots n c }
  | .scale n => { x with scales := sput (fun _ => TdCell.empty) x.scales n c }
  | .bank n => { x with banks := sput (fun _ => TdCell.empty) x.banks n c }
  | .vreg n => { x with vregs := sput (fun _ => TdCell.empty) x.vregs n c }

/-- `n` free bytes (log entry 3). -/
def freeBytes (s : State) (n : Nat) : Bytes × State :=
  ((upTo n).map (fun k => Config.freeByte (s.free + k)), { s with free := s.free + n })

/-- An instruction that is to run: its launch, part, number and words, the array, and the storage whose bytes it reads or writes while another
unit's instruction that has been issued writes or reads it (R487). -/
structure TdJob where
  l : Launch
  p : Nat
  run : PartRun
  idx : Nat
  w : Nat × Nat
  racing : List TdLoc
  mixing : List TdLoc
  deriving DecidableEq, Repr

/-- Read storage of array `a`: bytes and poison mark. Another partition's storage reads zero and is a violation (R488); a racing read gives
free bytes (R487). -/
def tdGetAt (s : State) (cid a : Nat) (racing : List TdLoc) (l : TdLoc) : Bytes × Bool × State :=
  let c := getCell (getArray s a) l
  if c.tag ≠ 0 && c.tag ≠ partTag s (cidPart cid) then
    (zeros (locSize l), false, violation s (some cid) (violReq 5 4 0 0 cid (endpointId s) 0 0xFFFF))
  else if racing.contains l then
    let f := freeBytes s (locSize l)
    (f.1, c.poison, f.2)
  else (slice c.data 0 (locSize l), c.poison, s)

/-- Read storage of the instruction's own array. -/
def tdGet (s : State) (j : TdJob) (l : TdLoc) : Bytes × Bool × State := tdGetAt s j.l.cid j.run.array j.racing l

/-- Write storage: a byte that another unit's instruction has raced for keeps either writer's value (R487). -/
def tdPut (s : State) (j : TdJob) (l : TdLoc) (d : Bytes) (poison : Bool) : State :=
  let x := getArray s j.run.array
  let old := slice (getCell x l).data 0 (locSize l)
  let mixed := j.mixing.contains l
  let d' := if mixed then (((upTo (locSize l)).zip (old.zip d)).map (fun e => if Config.freeNat (s.free + e.1) % 2 = 0 then e.2.1 else e.2.2)) else d
  let s := if mixed then { s with free := s.free + locSize l } else s
  setArray s j.run.array (setCell x l { tag := partTag s (cidPart j.l.cid), poison := poison, data := d' })

/-- The words of a bank or vector register. -/
def wordsOf (n : Nat) (b : Bytes) : List Nat := elemList 4 n b

/-- Words as bytes. -/
def wordBytes (l : List Nat) : Bytes := l.flatMap (toLe 4)

/-- The units that an instruction runs on (R468): 0 load, 1 store, 2 MAC, 3 vector; none for the sequencer. -/
def tiUnits (w : Nat × Nat) : List Nat :=
  match tiClass w with
  | 0 => [0]
  | 4 => [1]
  | 1 => [2]
  | 2 => if 4 ≤ tiOp w then [3, 0] else [3]
  | 3 => [3]
  | _ => []

/-- Slots of an FP32 pair, or one. -/
def pairLocs (f n : Nat) : List TdLoc := if f = 15 then [.slot n, .slot (n + 1)] else [.slot n]

/-- Storage of its own array that an instruction reads. -/
def tiReads (w : Nat × Nat) : List TdLoc :=
  let op := tiOp w
  match tiClass w with
  | 4 => if op = 0 then [.slot (tiSlot w)] else [.scale (tiSlot w)]
  | 1 => [.slot (tiSlotA w), .slot (tiSlotB w)] ++ (if op = 0 then [.bank (tiBank w)] else []) ++
      (if tdMx (tiFmtA w) then [.scale (tiScaleA w), .scale (tiScaleB w)] else [])
  | 2 => (match op with
    | 0 => []
    | 1 => [.bank (tiSrc w)]
    | 2 => [.bank (tiBank w), .bank (tiSrc w)]
    | 3 => pairLocs 15 (tiSlotV w)
    | _ => [.bank (tiBank w)])
  | 3 => (match op with
    | 12 => pairLocs (tiFmt w) (tiSlotV w)
    | 8 => [.bank (tiBank w), .vreg (tiVreg w)]
    | 9 => [.bank (tiBank w), .vreg (tiVreg w)]
    | 10 => [.bank (tiBank w), .vreg (tiVreg w)]
    | 11 => [.bank (tiBank w), .vreg (tiVreg w)]
    | _ => [.bank (tiBank w)])
  | _ => []

/-- Storage of its own array that an instruction writes. -/
def tiWrites (w : Nat × Nat) : List TdLoc :=
  let op := tiOp w
  match tiClass w with
  | 0 => if op = 0 then [.slot (tiSlot w)] else [.scale (tiSlot w)]
  | 1 => [.bank (tiBank w)]
  | 2 => [.bank (tiBank w)]
  | 3 => (match op with
    | 0 => pairLocs (tiFmt w) (tiSlotV w) ++ (if tdMx (tiFmt w) then [.scale (tiScale w)] else [])
    | 6 => [.vreg (tiVreg w)]
    | 7 => [.vreg (tiVreg w)]
    | 12 => [.vreg (tiVreg w)]
    | _ => [.bank (tiBank w)])
  | _ => []

/-- Instructions that a unit accepts and has not finished (R486). -/
def unitRoom (u : Nat) : Nat := if u ≤ 1 then 64 else 2

/-- Walk from the first instruction not executed: those issued and not executed, oldest first, and the sequencer's instruction at which issue
stands, if any. -/
def issueWalk (done : List Nat) : List (Nat × Nat) → Nat → List (Nat × (Nat × Nat)) → List (Nat × (Nat × Nat)) × Option (Nat × (Nat × Nat))
  | [], _, q => (q, none)
  | w :: t, i, q =>
    if done.contains i then issueWalk done t (i + 1) q
    else if (tiUnits w).isEmpty then (q, some (i, w))
    else if (tiUnits w).any (fun u => decide (unitRoom u ≤ (q.filter (fun e => (tiUnits e.2).contains u)).length)) then (q, none)
    else issueWalk done t (i + 1) (q ++ [(i, w)])

/-- The instructions of a part as its array holds them. -/
def partCode (s : State) (r : PartRun) : List (Nat × Nat) := match (getArray s r.array).code with | some c => c.code | none => []

/-- The part that an array runs: its launch, number and run. -/
def arrayPart (s : State) (a : Nat) : Option (Launch × Nat × PartRun) :=
  s.eng.td.launches.findSome? (fun l =>
    if l.started && !l.expired then (l.parts.find? (fun e => e.2.array == a && !e.2.ended)).map (fun e => (l, e.1, e.2)) else none)

/-- The issued, unexecuted instructions of a part, and where the sequencer stands. -/
def partIssue (s : State) (r : PartRun) : List (Nat × (Nat × Nat)) × Option (Nat × (Nat × Nat)) :=
  issueWalk r.done ((partCode s r).drop r.base) r.base []

/-- The instruction of a class and op that an array runs next: the oldest of each of its units, or the sequencer's. -/
def nextJob (s : State) (a cls op : Nat) : Option TdJob :=
  match arrayPart s a with
  | none => none
  | some (l, p, r) =>
    let q := partIssue s r
    let hit := fun (w : Nat × Nat) => tiClass w == cls && tiOp w == op
    let pick := if 5 ≤ cls then (match q.2 with | some e => if hit e.2 then some e else none | none => none)
      else q.1.find? (fun e => hit e.2 && (tiUnits e.2).all (fun u => match q.1.find? (fun f => (tiUnits f.2).contains u) with | some f => f.1 == e.1 | none => false))
    pick.map (fun e =>
      let others := q.1.filter (fun f => f.1 != e.1 && !(tiUnits f.2).any (fun u => (tiUnits e.2).contains u))
      let raced := (r.raced.filter (fun x => x.2 == e.1)).map (·.1)
      { l := l, p := p, run := r, idx := e.1, w := e.2,
        racing := ((tiReads e.2).filter (fun x => others.any (fun f => (tiWrites f.2).contains x))) ++ raced
        mixing := raced })

/-- Drop the executed instructions from the front. `fuel` bounds them. -/
def foldDone : Nat → Nat → List Nat → Nat × List Nat
  | 0, b, d => (b, d)
  | fuel + 1, b, d => if d.contains b then foldDone fuel (b + 1) (d.erase b) else (b, d)

/-- Raise a local counter. -/
def bumpCounter (m : Sparse Nat) (k n : Nat) : Sparse Nat := sput (fun _ => 0) m k (addW 32 (sget (fun _ => 0) m k) n)

/-- The part's run as it now stands. -/
def curRun (s : State) (j : TdJob) : PartRun :=
  match findLaunch s j.l.d with
  | some l => (match sfind l.parts j.p with | some r => r | none => j.run)
  | none => j.run

/-- Set a part's run. -/
def setRun (s : State) (d : DescRef) (p : Nat) (r : PartRun) : State :=
  match findLaunch s d with
  | some l => setLaunch s { l with parts := sset l.parts p r }
  | none => s

/-- The destination number under which an instruction's stores are outstanding. -/
def tdDest (j : TdJob) : Nat := j.p * 16384 + j.idx + 1

/-- Are stores of a destination outstanding? -/
def destBusy (s : State) (d : DescRef) (dest : Nat) : Bool :=
  match findDesc s d with | some x => x.outs.any (fun e => e.1 == dest) | none => false

/-- An instruction has executed: it is counted, its counter rises at once or when its stores have been performed, and storage that others still
issued read or write is marked as raced for. -/
def jobDone (s : State) (j : TdJob) : State :=
  let r := curRun s j
  let q := partIssue s r
  let others := q.1.filter (fun f => f.1 != j.idx && !(tiUnits f.2).any (fun u => (tiUnits j.w).contains u))
  let raced := (tiWrites j.w).flatMap (fun x => (others.filter (fun f => (tiReads f.2).contains x || (tiWrites f.2).contains x)).map (fun f => (x, f.1)))
  let f := foldDone ((partCode s r).length + 1) r.base (r.done ++ [j.idx])
  let busy := destBusy s j.l.d (tdDest j)
  let cnt := if tiCntEn j.w then some (tiCnt j.w) else none
  let r := { r with base := f.1, done := f.2, raced := r.raced.filter (fun x => x.2 != j.idx) ++ raced
                    storing := if busy then r.storing ++ [(tdDest j, cnt)] else r.storing
                    counters := match cnt, busy with | some k, false => bumpCounter r.counters k 1 | _, _ => r.counters }
  let s := setRun s j.l.d j.p r
  bump s 0x2801 3

/-- Stores of a part that have been performed raise their counters. -/
def settleStores (s : State) (d : DescRef) (p : Nat) : State :=
  match findLaunch s d with
  | none => s
  | some l =>
    match sfind l.parts p with
    | none => s
    | some r =>
      let ended := r.storing.filter (fun e => !destBusy s d e.1)
      let r := { r with storing := r.storing.filter (fun e => destBusy s d e.1)
                        counters := ended.foldl (fun m e => match e.2 with | some k => bumpCounter m k 1 | none => m) r.counters }
      setRun s d p r

/-- Add a status to the launch's. -/
def launchStatus (s : State) (d : DescRef) (st : Nat) : State :=
  match findDesc s d with
  | some x => setDesc s d.q { x with status := firstStatus x.status st }
  | none => s

/-- Does a class and op access memory under the launch's CID? -/
def tiAccesses (cls op : Nat) : Bool := cls == 0 || cls == 4 || (cls == 6 && op != 0) || (cls == 5 && op == 2)

/-- Run an instruction of an array. `f` answers whether it is executed and its effect; a translation fault or a wait holds the instruction (R204, R491), and when that
has ended with a status, `ended` gives the effect of an access that completes with it. -/
def tdStep (s : State) (a cls op : Nat) (f : State → TdJob → Bool × State) (ended : State → TdJob → Nat → State) : State :=
  match arrayPart s a with
  | none => s
  | some (l0, p0, _) =>
    let s := settleStores s l0.d p0
    match nextJob s a cls op with
    | none => s
    | some j =>
      match findDesc s j.l.d with
      | none => s
      | some x =>
        let go := fun (_ : Unit) =>
          let y := f s j
          match stopped s y.2 j.l.d with
          | some t =>
            (match findDesc t j.l.d with
            | some x => setDesc t j.l.d.q { x with heldBy := tdDest j }
            | none => t)
          | none => fin (if y.1 then unstall (jobDone y.2 j) j.l.d else y.2)
        if !tiAccesses cls op then go ()
        else if x.trap.isSome then s
        else
          match x.heldEnd with
          | none => go ()
          | some st =>
            if x.heldBy ≠ tdDest j then s
            else
              let s := setDesc s j.l.d.q { x with heldEnd := none, status := firstStatus x.status st }
              fin (jobDone (ended s j st) j)

/-- An instruction of the MAC array, the vector unit or the sequencer, which makes no access that a record could hold. -/
def tdPlain (s : State) (a cls op : Nat) (f : State → TdJob → Bool × State) : Res := .next (tdStep s a cls op f (fun s _ _ => s))

/-- A BASE of the launch descriptor (R479). -/
def tdBase (s : State) (d : DescRef) (n : Nat) : Nat :=
  match findDesc s d with
  | some x => if n = 0 then 0 else bfld x.bytes (0x18 + 8 * (n - 1)) 8
  | none => 0

/-- The address of an instruction (R479). -/
def tdAddr (s : State) (j : TdJob) : Nat := addW 64 j.w.2 (tdBase s j.l.d (tiBase j.w))

/-- The context of an instruction's accesses. -/
def tdCtx (s : State) (j : TdJob) (env : List Reply) : EngCtx :=
  let va := match findDesc s j.l.d with | some x => bit (bfld x.bytes 2 2) 0 | none => false
  { kind := 4, unit := j.run.array, cid := j.l.cid, va := va, inside := false, desc := some j.l.d, dest := tdDest j, floor := s.acc.nextSeq, env := env }

/-- An address of the context as the engine's accesses take it: a local offset becomes a GFA. -/
def tdPlace (s : State) (c : EngCtx) (a : Nat) : Nat := if c.va then a else endpointId s * 2 ^ 48 + a % 2 ^ 48

/-- Is an address misaligned, or no local offset (R490)? -/
def tdBad (c : EngCtx) (a align : Nat) : Bool := a % align != 0 || (!c.va && decide (2 ^ 48 ≤ a))

/-- Is an address of the node, as an instruction gives it, in a bolt of the tile layout (R179)? -/
def tdTiled (s : State) (c : EngCtx) (a : Nat) (write : Bool) : Bool :=
  match (engAddr s c (tdPlace s c a) write).1 with
  | none => false
  | some g => g / 2 ^ 48 = endpointId s && (match regionAt s (g % 2 ^ 48) with | some r => (getRegion s r).tile | none => false)

/-- The parts of a transfer: addresses and lengths (R480). In a region with TILE set, 8 KiB at a tile's place in its bolt are that tile: 128 B of each of the bolt's
64 rows (R179, R471; log entry 135). -/
def tdParts (s : State) (c : EngCtx) (w : Nat × Nat) (a : Nat) (write : Bool) : List (Nat × Nat) :=
  let rows := fun (first pitch : Nat) => (upTo 64).map (fun r => (addW 64 first (r * pitch), 128))
  if tiOp w = 1 then [(a, 512)]
  else if tiHigh w ≠ 0 then rows a (tiHigh w)
  else if tdTiled s c a write then rows (alignDown a 65536 + a % 65536 / 8192 * 128) 1024
  else [(a, 8192)]

/-- The bolt of which a transfer moves a whole tile (R180). -/
def tdTile (s : State) (c : EngCtx) (ps : List (Nat × Nat)) (write : Bool) : Option Nat :=
  let at_ := fun (a : Nat) => (engAddr s c (tdPlace s c a) write).1
  match ps with
  | (a, 128) :: _ =>
    (match at_ a with
    | none => none
    | some g =>
      let o := g % 2 ^ 48
      if tdTiled s c a write && ps.length = 64 && o % 65536 < 1024 &&
          (ps.zip (upTo 64)).all (fun p => at_ p.1.1 == some (g + p.2 * 1024)) then some (boltOf o) else none)
  | _ => none

/-- A whole tile is one access to its bolt (R170, R180). -/
def tileOnce (s0 s : State) (b : Option Nat) (q : Nat) : State :=
  match b with
  | none => s
  | some b =>
    let old := getBolt s0 b
    let x := getBolt s b
    if x.pendingN ≤ old.pendingN && x.tally == old.tally then s
    else setBolt s b { x with pendingN := min 255 (old.pendingN + 1), tally := (upTo 4).map (fun k => old.tally.getD k 0 + (if k = q then 1 else 0)) }

/-- TD_START (R503). -/
def execTdStart (w : Writer) (s : State) : Res := endWrite w (writeBlkCmd s .treadle [1])

/-- TD_STOP (R503). -/
def execTdStop (w : Writer) (s : State) : Res := endWrite w (writeBlkCmd s .treadle [2])

/-- TD_STOP_END (R503). -/
def execTdStopEnd (s : State) : Res := .next (blkStopEnd s .treadle)

end Sys2Proof.Machine
end

