-- ==== Sys2Proof/Machine/TdInstr.lean ====
section
/-! DEFINITION. Treadle: the effects of the operations of Table 11.5 on storage and memory (R469, R480 to R484, R490). -/
namespace Sys2Proof.Machine

/-- Read several pieces of the array's storage: their bytes, and whether any is poisoned. -/
def tdGets (s : State) (j : TdJob) (ls : List TdLoc) : List Bytes × Bool × State :=
  let x := foldMapS (fun (s : State) l => let y := tdGet s j l; ((y.1, y.2.1), y.2.2)) s ls
  (x.1.map (·.1), x.1.any (·.2), x.2)

/-- Does a transfer's address break Table 11.5 (R490)? -/
def tdAskew (c : EngCtx) (w : Nat × Nat) (a : Nat) : Bool :=
  if tiOp w = 1 then tdBad c a 64 || tiHigh w != 0
  else if tiHigh w = 0 then tdBad c a 8192
  else tdBad c a 128 || tiHigh w % 128 != 0

/-- The storage of a transfer. -/
def tdSlotLoc (w : Nat × Nat) : TdLoc := if tiOp w = 0 then .slot (tiSlot w) else .scale (tiSlot w)

/-- LOAD_TILE (R480, R482, R490): a poisoned line is stored and marks the slot; a line that completes with another status is all ones. -/
def tdLoad (env : List Reply) (s : State) (j : TdJob) : Bool × State :=
  let c := tdCtx s j env
  let a := tdAddr s j
  let l := tdSlotLoc j.w
  if tdAskew c j.w a then (true, launchStatus (tdPut s j l (ones (locSize l)) false) j.l.d 6)
  else
    let ps := tdParts s c j.w a false
    let x := foldMapS (fun (s : State) (p : Nat × Nat) => engChunks c (p.2 / 64 + 2) s (tdPlace s c p.1) p.2) s ps
    let s := tileOnce s x.2 (tdTile s c ps false) (quadOf 4 c.unit)
    let lines := x.1.flatten
    let data := lines.flatMap (fun e => if e.1 = 0 || e.1 = 2 then e.2 else ones e.2.length)
    (true, launchStatus (tdPut s j l data (lines.any (fun e => e.1 == 2))) j.l.d (joinChunks lines).1)

/-- A load whose translation fault has been ended fills its slot with all ones (R491). -/
def tdLoadEnded (s : State) (j : TdJob) (_ : Nat) : State := tdPut s j (tdSlotLoc j.w) (ones (locSize (tdSlotLoc j.w))) false

/-- STORE_TILE (R480, R482, R490): the lines, poisoned where the slot is; remote ones as ungrouped BLK writes. -/
def tdStore (s : State) (j : TdJob) : Bool × State :=
  let c := tdCtx s j []
  let a := tdAddr s j
  if tdAskew c j.w a then (true, launchStatus s j.l.d 6)
  else
    let g := tdGet s j (tdSlotLoc j.w)
    let ps := tdParts s c j.w a true
    let x := ps.foldl (fun (st : State × Bytes) p =>
      (engWriteGo c (some (0, false)) g.2.1 (p.2 / 64 + 2) st.1 (tdPlace st.1 c p.1) (st.2.take p.2), st.2.drop p.2)) (g.2.2, g.1)
    (true, tileOnce s x.1 (tdTile s c ps true) (quadOf 4 c.unit))

/-- MMA, and MMA_ZERO, which takes every bank word as zero (R469, R480). -/
def tdMma (zero : Bool) (s : State) (j : TdJob) : Bool × State :=
  let w := j.w
  let mx := tdMx (tiFmtA w)
  let bank := TdLoc.bank (tiBank w)
  let x := tdGets s j ([.slot (tiSlotA w), .slot (tiSlotB w)] ++ (if mx then [.scale (tiScaleA w), .scale (tiScaleB w)] else []))
  let b := if zero then (zeros 16384, false, x.2.2) else tdGet x.2.2 j bank
  let r := mma (tiFmtA w) (tiFmtB w) (wordsOf 4096 b.1) (x.1.getD 0 []) (x.1.getD 1 []) (x.1.getD 2 []) (x.1.getD 3 [])
  (true, bump (tdPut b.2.2 j bank (wordBytes r) (x.2.1 || b.2.1)) 0x2801 4)

/-- Add two words as ADD does (R480). -/
def accAdd (int : Bool) (a b : Nat) : Nat := if int then addW 32 a b else f32add a b

/-- Add two banks. -/
def addBanks (int : Bool) (a b : Bytes) : Bytes :=
  wordBytes (((wordsOf 4096 a).zip (wordsOf 4096 b)).map (fun e => accAdd int e.1 e.2))

/-- ACC ZERO. -/
def tdAccZero (s : State) (j : TdJob) : Bool × State := (true, tdPut s j (.bank (tiBank j.w)) (zeros 16384) false)

/-- ACC COPY. -/
def tdAccCopy (s : State) (j : TdJob) : Bool × State :=
  let x := tdGet s j (.bank (tiSrc j.w))
  (true, tdPut x.2.2 j (.bank (tiBank j.w)) x.1 x.2.1)

/-- ACC ADD. -/
def tdAccAdd (s : State) (j : TdJob) : Bool × State :=
  let x := tdGets s j [.bank (tiBank j.w), .bank (tiSrc j.w)]
  (true, tdPut x.2.2 j (.bank (tiBank j.w)) (addBanks (tiIntBit j.w) (x.1.getD 0 []) (x.1.getD 1 [])) x.2.1)

/-- ACC LOAD: from an FP32 slot pair. -/
def tdAccLoad (s : State) (j : TdJob) : Bool × State :=
  let x := tdGets s j (pairLocs 15 (tiSlotV j.w))
  (true, tdPut x.2.2 j (.bank (tiBank j.w)) (wordBytes (pairWords (x.1.getD 0 []) (x.1.getD 1 []))) x.2.1)

/-- Read a bank of another part of the launch: an issued and unfinished instruction of that part that writes it races (R487). -/
def tdPeer (s : State) (j : TdJob) (p : Nat) : Bytes × Bool × State :=
  match findLaunch s j.l.d with
  | none => (zeros 16384, false, s)
  | some l =>
    match sfind l.parts p with
    | none => (zeros 16384, false, s)
    | some r =>
      let loc := TdLoc.bank (tiSrc j.w)
      let racing := !r.ended && (partIssue s r).1.any (fun e => (tiWrites e.2).contains loc)
      tdGetAt s j.l.cid r.array (if racing then [loc] else []) loc

/-- Add the bank SRC of parts to DST, in the order given (ACC PULL and PULL_ANY). -/
def tdPull (ps : List Nat) (s : State) (j : TdJob) : State :=
  let d := TdLoc.bank (tiBank j.w)
  let b := tdGet s j d
  let x := ps.foldl (fun (st : Bytes × Bool × State) p =>
    let y := tdPeer st.2.2 j p
    (addBanks (tiIntBit j.w) st.1 y.1, st.2.1 || y.2.1, y.2.2)) b
  tdPut x.2.2 j d x.1 x.2.1

/-- ACC PULL. -/
def tdAccPull (s : State) (j : TdJob) : Bool × State := (true, tdPull [tiPeer j.w] s j)

/-- Count a V instruction (R493, R501). -/
def countV (s : State) (j : TdJob) : State :=
  let s := bump s 0x2801 8
  let s := match findLaunch s j.l.d with | some l => setLaunch s { l with vcount := min 32767 (l.vcount + 1) } | none => s
  match detMode s with
  | 0 => s
  | 1 => runBump s 0x40
  | _ => runBump (bump s 0x2801 9) 0x58

/-- ACC PULL_ANY (R493): in the order in which peers' data arrive; under FORBID, and where `arrivals` is no order of the peers, in ascending
part order. With INT set the result depends on no order and no V is set. -/
def tdAccPullAny (arrivals : List Nat) (s : State) (j : TdJob) : Bool × State :=
  let ps := bitsOf (tiMask j.w) 8
  let perm := arrivals.length == ps.length && ps.all (fun p => arrivals.contains p)
  let order := if perm && (tiIntBit j.w || detMode s ≠ 2) then arrivals else ps
  let s := tdPull order s j
  (true, if tiIsV j.w then countV s j else s)

/-- An ELEM operation that maps each word of a bank, with its row and column. -/
def tdMapBank (f : Nat → Nat → Nat → Nat) (s : State) (j : TdJob) : Bool × State :=
  let b := TdLoc.bank (tiBank j.w)
  let x := tdGet s j b
  let ws := (wordsOf 4096 x.1).zip (upTo 4096)
  (true, tdPut x.2.2 j b (wordBytes (ws.map (fun e => f (e.2 / 64) (e.2 % 64) e.1))) x.2.1)

/-- An ELEM operation of a bank's words with a vector register; the operation takes row, column, word and the register's elements. -/
def tdMapVec (f : Nat → Nat → Nat → (Nat → Nat) → Nat) (s : State) (j : TdJob) : Bool × State :=
  let b := TdLoc.bank (tiBank j.w)
  let x := tdGets s j [b, .vreg (tiVreg j.w)]
  let v := wordsOf 64 (x.1.getD 1 [])
  let ws := (wordsOf 4096 (x.1.getD 0 [])).zip (upTo 4096)
  (true, tdPut x.2.2 j b (wordBytes (ws.map (fun e => f (e.2 / 64) (e.2 % 64) e.1 (fun k => v.getD k 0)))) x.2.1)

/-- max(x, +0); NaN stays NaN (R480). -/
def reluWord (x : Nat) : Nat := if isNan (fdec fmtF32 x) then x else if bit x 31 then 0 else x

/-- The larger of two words that are no NaN; +0 is above −0. -/
def maxWord (a b : Nat) : Nat :=
  if flt (fdec fmtF32 a) (fdec fmtF32 b) then b
  else if a % 2 ^ 31 = 0 && b % 2 ^ 31 = 0 then (if bit a 31 then b else a)
  else a

/-- The maximum of a row, with the number of a free value: of a row that holds a NaN the spec gives none. -/
def rowMax (free : Nat) (r : List Nat) : Nat :=
  if r.any (fun x => isNan (fdec fmtF32 x)) then Config.freeNat free % 2 ^ 32 else r.foldl maxWord 0xFF800000

/-- The sum of a row in ascending j, each add rounded. -/
def rowSum : List Nat → Nat
  | [] => 0
  | x :: t => t.foldl f32add x

/-- ELEM RMAX and RSUM: each row of the bank gives one element of the vector register. -/
def tdReduce (sum : Bool) (s : State) (j : TdJob) : Bool × State :=
  let x := tdGet s j (.bank (tiBank j.w))
  let ws := wordsOf 4096 x.1
  let out := (upTo 64).map (fun i =>
    let r := (ws.drop (64 * i)).take 64
    if sum then rowSum r else rowMax (x.2.2.free + i) r)
  (true, tdPut { x.2.2 with free := x.2.2.free + 64 } j (.vreg (tiVreg j.w)) (wordBytes out) x.2.1)

/-- ELEM VLOAD. -/
def tdVload (s : State) (j : TdJob) : Bool × State :=
  let f := tiFmt j.w
  let x := tdGets s j (pairLocs f (tiSlotV j.w))
  let row := fun (b : Bytes) => slice b (128 * tiRow j.w) 128
  let ws := if f = 15 then elemList 4 32 (row (x.1.getD 0 [])) ++ elemList 4 32 (row (x.1.getD 1 []))
    else (elemList 2 64 (row (x.1.getD 0 []))).map (widen (tdFmt f))
  (true, tdPut x.2.2 j (.vreg (tiVreg j.w)) (wordBytes ws) x.2.1)

/-- The dither of element e of a CVT with SR set (R481); none otherwise. -/
def cvtDither (s : State) (j : TdJob) (e : Nat) : Option Nat :=
  if tiSr j.w then
    let b := match findDesc s j.l.d with | some x => x.bytes | none => []
    some (dither (bfld b 0x34 4) (bfld b 0x38 4) (j.p * 2 ^ 24 + j.idx) e)
  else none

/-- The elements of a row as CVT encodes them (R481). A group of an MX row that holds a NaN has no stated elements. -/
def cvtRow (f : Nat) (free : Nat) (i : Nat) (ws : List Nat) (d : Nat → Option Nat) : List Nat :=
  (ws.zip (upTo 64)).map (fun e =>
    let dd := d (64 * i + e.2)
    if tdInt f then cvtInt f e.1 dd
    else if tdMx f then
      let g := (ws.drop (e.2 / 32 * 32)).take 32
      if g.any (fun x => isNan (fdec fmtF32 x)) then Config.freeNat (free + e.2) % 2 ^ tdBits f else mxElem f g e.1 dd
    else cvtFloat f e.1 dd)

/-- A row's 128 bytes: the elements, then bytes of which the spec states nothing; with 6-bit elements bytes 96 to 127 are zero (R470). -/
def cvtRowBytes (f : Nat) (free : Nat) (l : List Nat) : Bytes :=
  let n := 64 * tdBits f / 8
  let body := toLe n (packBits (tdBits f) l)
  let top := if tdBits f = 6 then 96 else 128
  body ++ (upTo (top - n)).map (fun k => Config.freeByte (free + 64 + k)) ++ zeros (128 - top)

/-- ELEM CVT (R481). -/
def tdCvt (s : State) (j : TdJob) : Bool × State :=
  let f := tiFmt j.w
  let x := tdGet s j (.bank (tiBank j.w))
  let s := x.2.2
  let ws := wordsOf 4096 x.1
  let n := tiSlotV j.w
  if f = 15 then
    let y := wordsPair ws
    (true, tdPut (tdPut s j (.slot n) y.1 x.2.1) j (.slot (n + 1)) y.2 x.2.1)
  else
    let base := s.free
    let rows := (upTo 64).map (fun i => (i, (ws.drop (64 * i)).take 64))
    let data := rows.flatMap (fun r => cvtRowBytes f (base + 256 * r.1) (cvtRow f (base + 256 * r.1) r.1 r.2 (cvtDither s j)))
    let scales := rows.flatMap (fun r => toLe 1 (mxScale f (r.2.take 32)) ++ toLe 1 (mxScale f (r.2.drop 32)) ++
      (upTo 6).map (fun k => Config.freeByte (base + 256 * r.1 + 192 + k)))
    let s := tdPut { s with free := base + 256 * 64 } j (.slot n) data x.2.1
    (true, if tdMx f then tdPut s j (.scale (tiScale j.w)) scales x.2.1 else s)

/-- WAIT LOCAL (R483). -/
def tdWaitLocal (s : State) (j : TdJob) : Bool × State :=
  (decide (tiHigh j.w ≤ sget (fun _ => 0) (curRun s j).counters (tiCounter j.w)), s)

/-- WAIT LAUNCH (R483). -/
def tdWaitLaunch (s : State) (j : TdJob) : Bool × State :=
  match findLaunch s j.l.d with
  | some l => (decide (tiHigh j.w ≤ sget (fun _ => 0) l.counters (tiCounter j.w)), s)
  | none => (false, s)

/-- WAIT MEM (R483): one read of the word. -/
def tdWaitMem (env : List Reply) (s : State) (j : TdJob) : Bool × State :=
  let c := tdCtx s j env
  let a := tdAddr s j
  if tdBad c a 8 then (true, launchStatus s j.l.d 6)
  else
    let x := engReadNat s c (tdPlace s c a) 8
    (decide (tiHigh j.w ≤ x.2.1), launchStatus x.2.2 j.l.d x.1)

/-- Has every earlier instruction of the part completed (R484, R485)? -/
def tdEarlierDone (s : State) (j : TdJob) : Bool :=
  let r := curRun s j
  r.base == j.idx && r.storing.isEmpty

/-- SIGNAL LAUNCH (R484). -/
def tdSignalLaunch (s : State) (j : TdJob) : Bool × State :=
  match tdEarlierDone s j, findLaunch s j.l.d with
  | true, some l => (true, setLaunch s { l with counters := bumpCounter l.counters (tiCounter j.w) (tiHigh j.w) })
  | _, _ => (false, s)

/-- SIGNAL STORE and ADD (R484). -/
def tdSignalMem (add : Bool) (s : State) (j : TdJob) : Bool × State :=
  let c := tdCtx s j []
  let a := tdAddr s j
  if !tdEarlierDone s j then (false, s)
  else if tdBad c a 8 then (true, launchStatus s j.l.d 6)
  else if add then (true, engOp s c (tdPlace s c a) (.atomic .add 3 0 0 (toLe 8 (tiHigh j.w))))
  else (true, engWrite s c (tdPlace s c a) (toLe 8 (tiHigh j.w)))

/-- Instructions that a held record does not concern end as they are. -/
def tdNothing (s : State) (_ : TdJob) (_ : Nat) : State := s

/-- TD_LOAD_TILE. -/
def execTdLoadTile (array : Nat) (env : List Reply) (s : State) : Res := .next (tdStep s array 0 0 (tdLoad env) tdLoadEnded)

/-- TD_LOAD_SCALE. -/
def execTdLoadScale (array : Nat) (env : List Reply) (s : State) : Res := .next (tdStep s array 0 1 (tdLoad env) tdLoadEnded)

/-- TD_MMA. -/
def execTdMma (array : Nat) (s : State) : Res := tdPlain s array 1 0 (tdMma false)

/-- TD_MMA_ZERO. -/
def execTdMmaZero (array : Nat) (s : State) : Res := tdPlain s array 1 1 (tdMma true)

/-- TD_ACC_ZERO. -/
def execTdAccZero (array : Nat) (s : State) : Res := tdPlain s array 2 0 tdAccZero

/-- TD_ACC_COPY. -/
def execTdAccCopy (array : Nat) (s : State) : Res := tdPlain s array 2 1 tdAccCopy

/-- TD_ACC_ADD. -/
def execTdAccAdd (array : Nat) (s : State) : Res := tdPlain s array 2 2 tdAccAdd

/-- TD_ACC_LOAD. -/
def execTdAccLoad (array : Nat) (s : State) : Res := tdPlain s array 2 3 tdAccLoad

/-- TD_PULL. -/
def execTdPull (array : Nat) (s : State) : Res := tdPlain s array 2 4 tdAccPull

/-- TD_PULL_ANY. -/
def execTdPullAny (array : Nat) (arrivals : List Nat) (s : State) : Res := tdPlain s array 2 5 (tdAccPullAny arrivals)

/-- TD_CVT. -/
def execTdCvt (array : Nat) (s : State) : Res := tdPlain s array 3 0 tdCvt

/-- TD_MULS. -/
def execTdMuls (array : Nat) (s : State) : Res := tdPlain s array 3 1 (fun s j => tdMapBank (fun _ _ x => f32mul x (tiImm j.w)) s j)

/-- TD_ADDS. -/
def execTdAdds (array : Nat) (s : State) : Res := tdPlain s array 3 2 (fun s j => tdMapBank (fun _ _ x => f32add x (tiImm j.w)) s j)

/-- TD_RELU. -/
def execTdRelu (array : Nat) (s : State) : Res := tdPlain s array 3 3 (tdMapBank (fun _ _ x => reluWord x))

/-- TD_GELU. -/
def execTdGelu (array : Nat) (s : State) : Res := tdPlain s array 3 4 (tdMapBank (fun _ _ x => tdGelu x))

/-- TD_EXP. -/
def execTdExp (array : Nat) (s : State) : Res := tdPlain s array 3 5 (tdMapBank (fun _ _ x => tdExp x))

/-- TD_RMAX. -/
def execTdRmax (array : Nat) (s : State) : Res := tdPlain s array 3 6 (tdReduce false)

/-- TD_RSUM. -/
def execTdRsum (array : Nat) (s : State) : Res := tdPlain s array 3 7 (tdReduce true)

/-- TD_SUBR. -/
def execTdSubr (array : Nat) (s : State) : Res := tdPlain s array 3 8 (tdMapVec (fun i _ x v => f32sub x (v i)))

/-- TD_DIVR. -/
def execTdDivr (array : Nat) (s : State) : Res := tdPlain s array 3 9 (tdMapVec (fun i _ x v => f32div x (v i)))

/-- TD_ADDV. -/
def execTdAddv (array : Nat) (s : State) : Res := tdPlain s array 3 10 (tdMapVec (fun _ k x v => f32add x (v k)))

/-- TD_MULV. -/
def execTdMulv (array : Nat) (s : State) : Res := tdPlain s array 3 11 (tdMapVec (fun _ k x v => f32mul x (v k)))

/-- TD_VLOAD. -/
def execTdVload (array : Nat) (s : State) : Res := tdPlain s array 3 12 tdVload

/-- TD_ITOF. -/
def execTdItof (array : Nat) (s : State) : Res := tdPlain s array 3 13 (tdMapBank (fun _ _ x => f32ofInt (toSigned 32 x)))

/-- TD_STORE_TILE. -/
def execTdStoreTile (array : Nat) (s : State) : Res := .next (tdStep s array 4 0 tdStore tdNothing)

/-- TD_STORE_SCALE. -/
def execTdStoreScale (array : Nat) (s : State) : Res := .next (tdStep s array 4 1 tdStore tdNothing)

/-- TD_WAIT_LOCAL. -/
def execTdWaitLocal (array : Nat) (s : State) : Res := tdPlain s array 5 0 tdWaitLocal

/-- TD_WAIT_LAUNCH. -/
def execTdWaitLaunch (array : Nat) (s : State) : Res := tdPlain s array 5 1 tdWaitLaunch

/-- TD_WAIT_MEM. -/
def execTdWaitMem (array : Nat) (env : List Reply) (s : State) : Res := .next (tdStep s array 5 2 (tdWaitMem env) tdNothing)

/-- TD_SIGNAL_LAUNCH. -/
def execTdSignalLaunch (array : Nat) (s : State) : Res := tdPlain s array 6 0 tdSignalLaunch

/-- TD_SIGNAL_STORE. -/
def execTdSignalStore (array : Nat) (s : State) : Res := .next (tdStep s array 6 1 (tdSignalMem false) tdNothing)

/-- TD_SIGNAL_ADD. -/
def execTdSignalAdd (array : Nat) (s : State) : Res := .next (tdStep s array 6 2 (tdSignalMem true) tdNothing)

end Sys2Proof.Machine
end

