-- ==== Sys2Proof/Machine/TdRun.lean ====
section
/-! DEFINITION. Treadle launches: submission (R497), the scheduler's pick, reservation and image load (R489, R498 to R500), the ends of parts and launches (R485, R492, R501), views. -/
namespace Sys2Proof.Machine

/-- Fields of a LAUNCH descriptor (Table 11.6). -/
def lnArrays (b : Bytes) : Nat := bfld b 1 1
def lnVa (b : Bytes) : Bool := bit (bfld b 2 2) 0
def lnSync (b : Bytes) : Bool := bit (bfld b 2 2) 1
def lnImage (b : Bytes) : Nat := bfld b 8 8
def lnStart (b : Bytes) : Nat := bfld b 0x10 8
def lnWatchdog (b : Bytes) : Nat := bfld b 0x30 4

/-- Is a LAUNCH descriptor malformed (R497)? An IMAGE_ADDR that is no local offset of the node is misplaced too (log entry 42). -/
def lnBad (b : Bytes) : Bool :=
  fld (bfld b 2 2) 2 14 != 0 || bfld b 4 2 != 0 || fld (bfld b 6 2) 14 2 != 0 || lnImage b % 64 != 0 ||
  (!lnSync b && lnStart b != 0) || (!lnVa b && decide (2 ^ 48 ≤ lnImage b))

/-- The CID of a launch (R497). -/
def lnCid (d : DescRef) (b : Bytes) : Nat := mkCid d.q.part (bfld b 6 2 % 2 ^ 14)

/-- The context of the scheduler's reads of an image. -/
def lnCtx (s : State) (d : DescRef) (b : Bytes) (unit : Nat) (env : List Reply) : EngCtx :=
  { kind := 4, unit := unit, cid := lnCid d b, va := lnVa b, inside := false, desc := some d, dest := 0, floor := s.acc.nextSeq, env := env }

/-- Arrays that are not disabled in the Hem (R7). -/
def enabledArrays (s : State) : List Nat := (upTo 8).filter (fun a => !bit s.sec.hem.treadleDisabled a)

/-- The arrays that a launch may use: ARRAYS, 0 meaning any, the partition's TD_ARRAY_MASK, and enabled (R497, R498). -/
def mayUse (s : State) (d : DescRef) (b : Bytes) : List Nat :=
  (enabledArrays s).filter (fun a => (lnArrays b = 0 || bit (lnArrays b) a) && bit (pnum s 0x4800 d.q.part) a)

/-- The header's fixed fields (Table 11.3). -/
def hdrOk (h : Bytes) : Bool :=
  bfld h 0 4 == 0x48435453 && bfld h 4 1 == 1 && decide (1 ≤ bfld h 5 1) && decide (bfld h 5 1 ≤ 8) && fld (bfld h 6 2) 2 14 == 0 &&
  bfld h 0x10 16 == 0 && bfld h 0x60 32 == 0 &&
  (upTo 8).all (fun p =>
    let off := bfld h (0x20 + 8 * p) 4
    let len := bfld h (0x24 + 8 * p) 4
    if p < bfld h 5 1 then off % 16 == 0 && decide (1 ≤ len) && decide (len ≤ 16384) else off == 0 && len == 0)

/-- Is an image empty: its first 8 bytes read as zero (R489)? -/
def hdrZero (h : Bytes) : Bool := bfld h 0 8 == 0

def hdrParts (h : Bytes) : Nat := bfld h 5 1
def hdrHasV (h : Bytes) : Bool := bit (bfld h 6 2) 0
def hdrIndep (h : Bytes) : Bool := bit (bfld h 6 2) 1

/-- Arrays that a launch needs at least. -/
def hdrNeed (h : Bytes) : Nat := if hdrIndep h then 1 else hdrParts h

/-- Read the header. -/
def readHeader (s : State) (d : DescRef) (b : Bytes) (env : List Reply) : Nat × Bytes × State :=
  let c := lnCtx s d b 0 env
  engRead s c (tdPlace s c (lnImage b)) 128

/-- LAUNCH (R496, R497): the descriptor is checked, and waits for the scheduler. -/
def execLaunch (d : DescRef) (env : List Reply) (s : State) : Res :=
  .next (match readyDesc s d 0x40 with
  | none => s
  | some x =>
    if d.q.blk ≠ .treadle then s
    else if lnBad x.bytes then denyDesc s d (ranCode 6 0x10)
    else if (upTo 8).any (fun a => bit (lnArrays x.bytes) a && bit s.sec.hem.treadleDisabled a) then denyDesc s d (ranCode 6 0x12)
    else
      let h := readHeader s d x.bytes env
      match stopped s h.2.2 d with
      | some t => t
      | none =>
        let s := unstall h.2.2 d
        if hdrOk h.2.1 && decide ((mayUse s d x.bytes).length < hdrNeed h.2.1) then denyDesc s d (ranCode 6 0x13)
        else fin (setDesc s d.q { x with phase := 1, stalledAt := none }))

/-- Arrays that launches hold. -/
def heldArrays (s : State) : List Nat := s.eng.td.launches.flatMap (·.arrays)

/-- Does an earlier accepted launch of the partition wait to be picked (R498)? One that a fault record holds holds back no other (R491). -/
def earlierWaits (s : State) (d : DescRef) (x : Desc) : Bool :=
  (blkQueues s .treadle).any (fun e => e.1 / 16 % 64 == d.q.part && e.2.accepted.any (fun y =>
    decide (y.ord < x.ord) && !y.ran && y.trap.isNone && (y.phase == 1 || (y.phase == 0 && e.1 % 16 == d.q.q)) && descOp y == 0x40 &&
      (findLaunch s { q := { d.q with q := e.1 % 16 }, pos := y.pos }).isNone))

/-- The words of instructions. -/
def codeOf : Nat → Bytes → List (Nat × Nat)
  | 0, _ => []
  | n + 1, b => (bfld b 0 8, bfld b 8 8) :: codeOf n (b.drop 16)

/-- Does an array hold a part already (R499)? -/
def holdsPart (s : State) (a tag addr id p : Nat) : Option (List (Nat × Nat)) :=
  match (getArray s a).code with
  | some c => if num s 0x2800 6 ≠ 0 && c.tag = tag && c.addr = addr && c.id = id && c.part = p then some c.code else none
  | none => none

/-- Read a part's instructions: status and words. -/
def readPart (s : State) (d : DescRef) (b h : Bytes) (env : List Reply) (a p : Nat) : Nat × List (Nat × Nat) × State :=
  let c := lnCtx s d b a env
  let n := bfld h (0x24 + 8 * p) 4
  let x := engRead s c (addW 64 (tdPlace s c (lnImage b)) (bfld h (0x20 + 8 * p) 4)) (16 * n)
  (x.1, codeOf n x.2.1, x.2.2)

/-- Does the image pass the check of R489? -/
def imageOk (h : Bytes) (parts : List (List (Nat × Nat))) : Bool :=
  (parts.zip (upTo parts.length)).all (fun e => partOk e.2 (hdrParts h) e.1) &&
  hdrHasV h == parts.any (fun l => l.any tiIsV) &&
  (!hdrIndep h || parts.all (fun l => l.all (fun w => !tiTalks w)))

/-- Put part `p` of a launch into an array, unless the array holds it (R499), and give its run. -/
def loadPart (s : State) (l : Launch) (a p : Nat) : PartRun × State :=
  let tag := partTag s (cidPart l.cid)
  let r : PartRun := { array := a, ended := false, base := 0, done := [], counters := [], storing := [], raced := [] }
  match holdsPart s a tag l.addr l.id p with
  | some _ => (r, s)
  | none =>
    (r, bump (setArray s a { getArray s a with code := some { tag := tag, addr := l.addr, id := l.id, part := p, code := l.image.getD p [] } }) 0x2801 5)

/-- Give the parts not yet run, in ascending order, to arrays of the launch that run none (R494, R498). -/
def dealParts (s : State) (l : Launch) : Launch × State :=
  let busy := (l.parts.filter (fun e => !e.2.ended)).map (·.2.array)
  let free := (l.arrays.filter (fun a => !busy.contains a)).mergeSort
  let next := (upTo l.image.length).filter (fun p => (sfind l.parts p).isNone)
  (next.zip free).foldl (fun (st : Launch × State) e =>
    let x := loadPart st.2 l e.2 e.1
    ({ st.1 with parts := sset st.1.parts e.1 x.1 }, x.2)) (l, s)

/-- The parts of a launch begin issue (R500). -/
def startLaunch (s : State) (l : Launch) (late : Bool) : State :=
  let s := bump s 0x2801 1
  let s := if late then bump s 0x2801 0x0A else s
  setLaunch s { l with started := true, late := late, startedAt := s.det.now }

/-- A launch that is ready starts, or waits for its START_COUNT; after it, it starts at once, late (R500). -/
def readyLaunch (s : State) (l : Launch) (b : Bytes) : State :=
  if !lnSync b then startLaunch s l false
  else if s.det.count < lnStart b then setLaunch s l
  else startLaunch s l (decide (lnStart b < s.det.count))

/-- A launch is gone: its arrays are free. -/
def dropLaunch (s : State) (d : DescRef) : State :=
  setTd s { s.eng.td with launches := s.eng.td.launches.filter (fun l => l.d != d) }

/-- End a launch that has executed nothing. -/
def denyLaunch (s : State) (d : DescRef) (r : Ran) : State := denyDesc (dropLaunch s d) d r

/-- Does a launch picked before this one still lack arrays of which `a` may be one? It is served first (log entry 127). -/
def claimed (s : State) (d : DescRef) (a : Nat) : Bool :=
  (s.eng.td.launches.takeWhile (fun l => l.d != d)).any (fun l => l.image.isEmpty && (match findDesc s l.d with
    | some x => x.trap.isNone && (mayUse s l.d x.bytes).contains a
    | none => false))

/-- Reserve free arrays that are ON, ascending, until the launch holds as many as it has parts (R498). -/
def reserveArrays (s : State) (l : Launch) (b : Bytes) (parts : Nat) : Launch :=
  let free := (mayUse s l.d b).filter (fun a => arrayOn s a && !(heldArrays s).contains a && !claimed s l.d a)
  { l with arrays := l.arrays ++ free.take (parts - l.arrays.length) }

/-- A picked launch holds its arrays: its parts are read, checked and loaded (R489, R499). -/
def loadLaunch (s0 s : State) (d : DescRef) (x : Desc) (l : Launch) (h : Bytes) (env : List Reply) : State :=
  let c := lnCtx s d x.bytes 0 env
  let adr := engAddr s c (tdPlace s c (lnImage x.bytes)) false
  let addr := adr.1.getD 0
  let id := bfld h 8 8
  let sorted := l.arrays.mergeSort
  let tag := partTag s (cidPart l.cid)
  let rd := foldMapS (fun (s : State) p =>
    match (sorted[p]?).bind (fun a => holdsPart s a tag addr id p) with
    | some code => ((0, code), s)
    | none => let y := readPart s d x.bytes h env (sorted.getD p 0) p; ((y.1, y.2.1), y.2.2)) adr.2 (upTo (hdrParts h))
  match stopped s0 rd.2 d with
  | some t => t
  | none =>
    let s := unstall rd.2 d
    let image := rd.1.map (·.2)
    let st := rd.1.foldl (fun z e => firstStatus z e.1) 0
    let s := launchStatus s d st
    if !imageOk h image then denyLaunch (bump s 0x2801 6) d (ranCode 6 0x11)
    else
      let y := dealParts s { l with image := image, addr := addr, id := id, independent := hdrIndep h }
      let s := match findDesc y.2 d with | some x => setDesc y.2 d.q { x with phase := 2 } | none => y.2
      fin (readyLaunch s y.1 x.bytes)

/-- A launch as picked. -/
def newLaunch (d : DescRef) (b : Bytes) : Launch :=
  { d := d, cid := lnCid d b, arrays := [], image := [], addr := 0, id := 0, independent := false, parts := [], counters := [], cycles := 0,
    vcount := 0, started := false, late := false, expired := false, startedAt := 0 }

/-- Other partitions with a launch that waits to be picked (R498). -/
def pickRivals (s : State) (p : Nat) : List Nat :=
  (upTo 64).filter (fun r => r != p && (blkQueues s .treadle).any (fun e => e.1 / 16 % 64 == r && e.2.accepted.any (fun y =>
    let d : DescRef := { q := { blk := .treadle, part := r, q := e.1 % 16 }, pos := y.pos }
    y.phase == 1 && descOp y == 0x40 && (mayStart s d).isSome && (findLaunch s d).isNone)))

/-- LAUNCH_PICK (R498 to R500): the scheduler picks the launch, or goes on with one it has picked that still lacks arrays; when it holds enough, its
parts are loaded and it starts. An INDEPENDENT launch that runs takes arrays that have become free for the parts not yet run. -/
def execLaunchPick (d : DescRef) (env : List Reply) (s : State) : Res :=
  .next (match mayStart s d with
  | none => s
  | some x =>
    if d.q.blk ≠ .treadle || blkRun s .treadle < 2 || descOp x ≠ 0x40 then s
    else
      match findLaunch s d with
      | some l =>
        if x.phase = 2 then
          (if l.independent && l.started && !l.expired then
            let l := reserveArrays s l x.bytes ((l.image.length - l.parts.length) + l.arrays.length)
            let y := dealParts s l
            setLaunch y.2 y.1
          else s)
        else
          let h := readHeader s d x.bytes env
          (match stopped s h.2.2 d with
          | some t => t
          | none =>
            let s1 := launchStatus (unstall h.2.2 d) d h.1
            if hdrZero h.2.1 then denyLaunch s1 d (ranCode 0 0)
            else if !hdrOk h.2.1 then denyLaunch (bump s1 0x2801 6) d (ranCode 6 0x11)
            else
              let l := reserveArrays s1 l x.bytes (hdrParts h.2.1)
              let s1 := setLaunch s1 l
              if l.arrays.length < hdrNeed h.2.1 then fin s1 else loadLaunch s s1 d x l h.2.1 env)
      | none =>
        let rivals := pickRivals s d.q.part
        if x.phase ≠ 1 || earlierWaits s d x || !turnOf s.eng.td.dealt (pnum s 0x4801) d.q.part rivals then s
        else
          let h := readHeader s d x.bytes env
          match stopped s h.2.2 d with
          | some t => t
          | none =>
            let s1 := launchStatus (unstall h.2.2 d) d h.1
            if hdrZero h.2.1 then denyDesc s1 d (ranCode 0 0)
            else if !hdrOk h.2.1 then denyDesc (bump s1 0x2801 6) d (ranCode 6 0x11)
            else
              let l := reserveArrays s1 (newLaunch d x.bytes) x.bytes (hdrParts h.2.1)
              let s1 := setTd s1 { s1.eng.td with launches := s1.eng.td.launches ++ [l], dealt := takeTurn s1.eng.td.dealt d.q.part rivals }
              if l.arrays.length < hdrNeed h.2.1 then fin s1 else loadLaunch s s1 d x l h.2.1 env)

/-- SYNC_START_REACHED (R500): the sync counter has reached START_COUNT. -/
def execSyncStartReached (d : DescRef) (s : State) : Res :=
  .next (match findLaunch s d, findDesc s d with
  | some l, some x =>
    if x.phase = 2 && !l.started && lnSync x.bytes && decide (lnStart x.bytes ≤ s.det.count) then startLaunch s l false else s
  | _, _ => s)

/-- The cycles that a part has run on its array: how many, the spec does not say (log entry 3). They are counted for the launch, the array and
the partition (R501, R507, R683). -/
def countCycles (s : State) (d : DescRef) (a : Nat) : State :=
  let n := Config.freeNat s.free % 2 ^ 48
  let s := { s with free := s.free + 1 }
  let s := match findLaunch s d with | some l => setLaunch s { l with cycles := l.cycles + n } | none => s
  pbumpBy (bumpBy s 0x2803 (a + 1) n) 0x4D08 d.q.part n

/-- TD_END (R485): the part ends once every earlier instruction has completed; a part of an INDEPENDENT image that still waits takes the array
(R494). -/
def execTdEnd (array : Nat) (s : State) : Res :=
  tdPlain s array 7 0 (fun s j =>
    if !tdEarlierDone s j then (false, s)
    else
      let s := setRun s j.l.d j.p { curRun s j with ended := true }
      let s := countCycles s j.l.d array
      match findLaunch s j.l.d with
      | some l => let y := dealParts s l; (true, setLaunch y.2 y.1)
      | none => (true, s))

/-- Have all parts of a launch ended? -/
def partsEnded (l : Launch) : Bool := (upTo l.image.length).all (fun p => match sfind l.parts p with | some r => r.ended | none => false)

/-- RESULT of a launch (R501). -/
def launchResult (l : Launch) : Nat := l.cycles % 2 ^ 48 + min 32767 l.vcount * 2 ^ 48 + b2n l.late * 2 ^ 63

/-- LAUNCH_END (R501): every part has ended; the entry is written when every access has completed. -/
def execLaunchEnd (d : DescRef) (s : State) : Res :=
  .next (match findLaunch s d, findDesc s d with
  | some l, some x =>
    if l.started && !l.expired && partsEnded l && !x.ran then
      fin (endDesc (dropLaunch s d) d x.status 0 (launchResult l) 0)
    else s
  | _, _ => s)

/-- The watchdog of a launch, in µs (R492). -/
def watchdogUs (s : State) (b : Bytes) : Nat :=
  let m := num s 0x2800 5
  if lnWatchdog b = 0 || m < lnWatchdog b then m else lnWatchdog b

/-- WATCHDOG_EXPIRE (R492): every part stops at once; the launch completes DEAD with the parts that had not ended missing. -/
def execWatchdogExpire (d : DescRef) (s : State) : Res :=
  .next (match findLaunch s d, findDesc s d with
  | some l, some x =>
    if l.started && !x.ran && x.fault.isNone && !partsEnded l && decide (l.startedAt + usT (watchdogUs s x.bytes) + x.pausedT ≤ s.det.now) then
      let missing := (upTo l.image.length).foldl (fun m p =>
        match sfind l.parts p with | some r => if r.ended then m else setBit m p | none => setBit m p) 0
      let s := forS (l.parts.filter (fun e => !e.2.ended)) s (fun s e => countCycles s d e.2.array)
      let l := (findLaunch s d).getD l
      fin (endDesc (dropLaunch (bump s 0x2801 7) d) d 1 0x14 (launchResult l) missing)
    else s
  | _, _ => s)

/-- Cancel the launches of a partition that is fenced (R502): no completion entry is written. -/
def fenceLaunches (s : State) (p : Nat) : State :=
  setTd s { s.eng.td with launches := s.eng.td.launches.filter (fun l => l.d.q.part != p) }

/-- TD_ARRAYS_ON: arrays that are ON. -/
def tdArraysOn (s : State) : Nat := ((upTo 8).filter (arrayOn s)).foldl setBit 0

/-- ARRAY_STATE of an array (Table 11.9). -/
def arrayState (s : State) (a : Nat) : Nat :=
  if !arrayOn s a then 0
  else if (arrayPart s a).isSome then 4
  else if (heldArrays s).contains a then 2
  else 1

/-- TD_SERVICE_MASK is written: a mask that names no enabled array is refused with INCONSISTENT (R507). -/
def writeServiceMask (s : State) (v : Bytes) : WriteOut :=
  if v.length ≠ 1 then refuse s abTYPE
  else if (enabledArrays s).any (fun a => bit (leNat v) a) then applied (setNum s 0x2800 4 (leNat v))
  else refuse s abINCONS

end Sys2Proof.Machine
end

