-- ==== Sys2Proof/Machine/Shuttle.lean ====
section
/-! DEFINITION. Shuttle (ch. 12): copies, multicast and reductions as pieces of lines (R508 to R536), waits (R537), arrival adds (R522, R523). -/
namespace Sys2Proof.Machine

/-- Fields of COPY, MCAST and REDUCE descriptors (Tables 12.1 and 12.2). -/
def cpFlags (b : Bytes) : Nat := bfld b 2 2
def cpSrcVa (b : Bytes) : Bool := bit (cpFlags b) 0
def cpDstVa (b : Bytes) : Bool := bit (cpFlags b) 1
def cpKnot (b : Bytes) : Bool := bit (cpFlags b) 2
def cpTree (b : Bytes) : Bool := bit (cpFlags b) 2
def cpArrival (b : Bytes) : Bool := bit (cpFlags b) 3
def cpSrc (b : Bytes) : Nat := bfld b 8 8
def cpDst (b : Bytes) : Nat := bfld b 0x10 8
def cpLen (b : Bytes) : Nat := bfld b 0x18 8
def cpArr (b : Bytes) : Nat := bfld b 0x20 8
def rdRop (b : Bytes) : Nat := fld (bfld b 1 1) 0 2
def rdType (b : Bytes) : Nat := fld (bfld b 1 1) 2 2
def rdRank (b : Bytes) : Nat := bfld b 4 1
def rdN (b : Bytes) : Nat := bfld b 5 1
def rdPeer (b : Bytes) : Nat := bfld b 0x28 8
def rdExpect (b : Bytes) : Nat := bfld b 0x30 8

/-- Bytes of a piece (R509). -/
def pieceBytes : Nat := 4 * 2 ^ 20

/-- Does a COPY or MCAST descriptor break its table, R521 or a reserved field (R538)? -/
def copyBad (b : Bytes) : Bool :=
  let mc := bfld b 0 1 == 0x51
  bfld b 1 1 != 0 || fld (cpFlags b) 4 12 != 0 || fld (bfld b 6 2) 14 2 != 0 || bfld b 0x28 20 != 0 ||
  cpLen b == 0 || decide (2 ^ 40 < cpLen b) || (!cpArrival b && cpArr b != 0) ||
  (cpKnot b && (decide (cpLen b < 64) || (cpDst b + cpLen b) % 64 != 0)) ||
  (if mc then cpDstVa b || decide (255 < bfld b 4 2) || decide (2 ^ 48 ≤ cpDst b) || decide (2 ^ 48 ≤ cpArr b) else bfld b 4 2 != 0)

/-- Does a REDUCE descriptor break its table, R532 or a reserved field (R538)? Of a tree's rank other than the root, DST is not used. -/
def reduceDescBad (b : Bytes) : Bool :=
  let z := atypeSize (rtypeAtype (rdType b))
  let useDst := !cpTree b || rdRank b == 0
  fld (bfld b 1 1) 4 4 != 0 || rdRop b == 3 || fld (cpFlags b) 4 12 != 0 || fld (bfld b 6 2) 14 2 != 0 || bfld b 0x38 4 != 0 ||
  cpLen b % z != 0 || (useDst && (cpDst b % z != 0 || cpSrc b % 64 != cpDst b % 64)) || (!cpArrival b && cpArr b != 0) ||
  (if cpTree b then rdN b == 0 || decide (64 < rdN b) || decide (rdN b ≤ rdRank b) || cpLen b % 64 != 0 || cpLen b == 0 || decide (16 * 2 ^ 20 < cpLen b)
   else rdN b != 0 || rdRank b != 0 || rdPeer b != 0 || rdExpect b != 0 || cpLen b == 0 || decide (2 ^ 40 < cpLen b))

/-- Does a descriptor that is divided into pieces do nothing: malformed, or without a group (R526)? -/
def pieceless (x : Desc) : Bool :=
  match descOp x with
  | 0x50 => copyBad x.bytes
  | 0x51 => copyBad x.bytes || x.group.isEmpty
  | 0x52 => reduceDescBad x.bytes
  | _ => true

/-- Is Shuttle engine `e` ON and in service? -/
def shEngineOn (s : State) (e : Nat) : Bool := decide (e < 32) && domUsable s (44 + e / 4) && !outOfService s (engRes 1 (e / 4))

/-- Does a piece of a descriptor still use its engine's context? -/
def pieceLive (x : Desc) (p : Nat) : Bool :=
  !x.doneP.contains p || !x.outs.isEmpty && (let n := if descOp x = 0x51 then max 1 x.group.length else 1
    x.outs.any (fun o => o.1 % 64 == p % n && shPiece o.1 == p / n))

/-- Descriptor contexts of an engine in use (R508). -/
def shContexts (s : State) (e : Nat) : Nat :=
  ((blkQueues s .shuttle).map (fun q => (q.2.accepted.map (fun x => (x.dealt.filter (fun p => p.2 == e && pieceLive x p.1)).length)).sum)).sum

/-- Does an earlier accepted descriptor of the partition have pieces to deal (R509)? -/
def earlierPieces (s : State) (p : Nat) (x : Desc) : Bool :=
  (blkQueues s .shuttle).any (fun e => e.1 / 16 % 64 == p && e.2.accepted.any (fun y =>
    decide (y.ord < x.ord) && !pieceless y && decide (y.dealt.length < shPieces y) &&
      (mayStart s { q := { blk := .shuttle, part := p, q := e.1 % 16 }, pos := y.pos }).isSome))

/-- Other partitions with pieces to deal, and an engine that may take them. -/
def pieceRivals (s : State) (p : Nat) : List Nat :=
  (upTo 64).filter (fun r => r != p && (upTo 32).any (fun e => shEngineOn s e && bit (pnum s 0x4900 r) e) &&
    (blkQueues s .shuttle).any (fun e => e.1 / 16 % 64 == r && e.2.accepted.any (fun y =>
      !pieceless y && decide (y.dealt.length < shPieces y) && (mayStart s { q := { blk := .shuttle, part := r, q := e.1 % 16 }, pos := y.pos }).isSome)))

/-- PIECE_DEAL (R509): in the partition's turn by SH_WEIGHT, the descriptor's next piece goes to an engine that is ON, set in the partition's SH_ENGINE_MASK, with a free context. -/
def execPieceDeal (d : DescRef) (engine : Nat) (s : State) : Res :=
  .next (match mayStart s d with
  | none => s
  | some x =>
    if d.q.blk ≠ .shuttle || blkRun s .shuttle < 2 || pieceless x || shPieces x ≤ x.dealt.length || earlierPieces s d.q.part x then s
    else if !shEngineOn s engine || !bit (pnum s 0x4900 d.q.part) engine || 4096 ≤ shContexts s engine then s
    else
      let rivals := pieceRivals s d.q.part
      if !turnOf s.eng.shDealt (pnum s 0x4901) d.q.part rivals then s
      else setDesc { s with eng := { s.eng with shDealt := takeTurn s.eng.shDealt d.q.part rivals } } d.q
        { x with dealt := x.dealt ++ [(x.dealt.length, engine)], ranAt := s.det.now })

/-- The context of a piece's accesses. -/
def shCtx (s : State) (d : DescRef) (b : Bytes) (unit : Nat) (va : Bool) (dest : Nat) (env : List Reply) : EngCtx :=
  { descCtx s d unit (bfld b 6 2 % 2 ^ 14) va env with dest := dest }

/-- Read a range as bytes with the status of each. -/
def readFlagged (s : State) (c : EngCtx) (a n : Nat) : List (Byte × Nat) × State :=
  let x := engChunks c (n / 64 + 2) s a n
  (x.1.flatMap (fun e => e.2.map (fun y => (y, e.1))), x.2)

/-- May a byte that was read with this status be written (R519)? -/
def readGood (st : Nat) : Bool := st == 0 || st == 2

/-- The GFA ranges that an address range covers, page by page when virtual. `fuel` bounds the pages. -/
def spanParts (c : EngCtx) : Nat → State → Nat → Nat → List (Nat × Nat) × State
  | 0, s, _, _ => ([], s)
  | fuel + 1, s, a, n =>
    if n = 0 then ([], s)
    else
      let k := if c.va then min n (4096 - a % 4096) else n
      let x := engAddr s c a false
      match x.1 with
      | none => ([], x.2)
      | some g =>
        let y := spanParts c fuel x.2 (a + k) (n - k)
        ((g, k) :: y.1, y.2)

/-- Bytes at a GFA, with each byte that the source range covers replaced by a free one (R517). -/
def overlapFree (s : State) (src : List (Nat × Nat)) (gfa : Nat) (d : List (Byte × Nat)) : List (Byte × Nat) × State :=
  if src.any (fun r => decide (r.1 < gfa + d.length) && decide (gfa < r.1 + r.2)) then
    (((upTo d.length).zip d).map (fun e => if src.any (fun r => decide (r.1 ≤ gfa + e.1) && decide (gfa + e.1 < r.1 + r.2))
      then (Config.freeByte (s.free + e.1), e.2.2) else e.2), { s with free := s.free + d.length })
  else (d, s)

/-- How the lines of a piece are written. -/
structure PieceRun where
  c : EngCtx
  va : Bool
  src : List (Nat × Nat)
  group : Nat
  piece : Nat
  member : Nat
  knotAt : Option Nat
  fallback : Bool
  last : Bool
  deriving DecidableEq, Repr

/-- Write the lines of a piece: whole lines as BLK writes, of the piece's group when it ends with a knot; part lines, and lines of which a source
line did not complete OK or POISON, as ORD stores of the bytes read (R516, R519, R520). Answers the lines sent in the group. The line at `knotAt` waits.
`fuel` bounds the lines. -/
def pieceLines (r : PieceRun) : Nat → State → Nat → List (Byte × Nat) → Nat → Nat × State
  | 0, s, _, _, n => (n, s)
  | fuel + 1, s, a, d, n =>
    if d.isEmpty then (n, s)
    else
      let k := min d.length (64 - a % 64)
      let x := engAddr s { r.c with va := r.va } a true
      match x.1 with
      | none => (n, x.2)
      | some gfa =>
        let o := overlapFree x.2 r.src gfa (d.take k)
        let s := o.2
        let bad := o.1.takeWhile (fun e => !readGood e.2)
        let run := (o.1.drop bad.length).takeWhile (fun e => readGood e.2)
        let bytes := run.map (·.1)
        let poison := run.any (fun e => e.2 == 2)
        let whole := run.length = 64
        let y : Nat × State :=
          if run.isEmpty then (n, s)
          else if r.knotAt = some a && whole then
            (match r.c.desc with
            | some dd =>
              (match findDesc s dd with
              | some z => (n, setDesc s dd.q { z with knots := z.knots ++
                  [{ piece := r.piece, member := r.member, addr := gfa, cid := r.c.cid, unit := r.c.unit, knot := !r.fallback, last := r.last,
                     group := r.group, count := n, data := bytes, poison := poison, vpn := vpnOf { r.c with va := r.va } a }] })
              | none => (n, s))
            | none => (n, s))
          else if whole then
            (n + 1, engSubmit s { r.c with va := r.va, dest := shDest r.member r.piece 0 } a gfa (.blk (if r.fallback then 0 else r.group) false false 0 bytes poison))
          else (n, engSubmit s { r.c with va := r.va, dest := shDest r.member r.piece 2 } (a + bad.length) (gfa + bad.length) (.store bytes poison))
        pieceLines r fuel y.2 (a + k) (d.drop k) y.1

/-- Is a destination out of a knot's reach: its path has not negotiated knots, or it is an inbound window (R521)? -/
def noKnotPath (s : State) (gfa : Nat) : Bool :=
  let ep := gfa / 2 ^ 48
  if ep = endpointId s then (match placeOf s (gfa % 2 ^ 48) with | .window => true | _ => false)
  else !(effPorts s ep 6).isEmpty && (effPorts s ep 6).all (fun p => !portFeature s p 2)

/-- The groups of engine `e` whose span is open (R520). -/
def openGroups (s : State) : List Nat := (blkQueues s .shuttle).flatMap (fun q => q.2.accepted.flatMap (fun x => x.spans.map (·.2)))

/-- The GROUP that an engine takes next: of e × 2,048 + 1 to 2,047, in turn, none that is open (R520). -/
def nextGroup (s : State) (e : Nat) : Option Nat :=
  let last := sget (fun _ => 0) s.eng.shGroup e
  let opened := openGroups s
  ((upTo 2047).map (fun i => e * 2048 + (last + i) % 2047 + 1)).find? (fun g => !opened.contains g)

/-- The engine takes it. -/
def takeGroup (s : State) (e g : Nat) : State :=
  { s with eng := { s.eng with shGroup := sput (fun _ => 0) s.eng.shGroup e (g % 2048) } }

/-- A piece whose lines have been issued. -/
def pieceDone (s : State) (d : DescRef) (p : Nat) : State :=
  match findDesc s d with
  | some x => setDesc s d.q { x with doneP := x.doneP ++ [p] }
  | none => s

/-- A descriptor all of whose pieces have been issued has run: what its writes come to stands in it already. -/
def endShuttle (s : State) (d : DescRef) : State :=
  match findDesc s d with
  | none => s
  | some x =>
    if x.doneP.length < shPieces x then fin (sendKnots s d.q d.pos)
    else
      let s := fin (sendKnots s d.q d.pos)
      match findDesc s d with
      | some y => fin (endDesc s d 0 y.rcode y.result y.missing)
      | none => s

/-- Merge a status into a descriptor. -/
def shStatus (s : State) (d : DescRef) (st : Nat) : State :=
  match findDesc s d with
  | some x => setDesc s d.q { x with status := firstStatus x.status st }
  | none => s

/-- The member and the number of a piece within the member's range. -/
def pieceOf (x : Desc) (p : Nat) : Nat × Nat :=
  let n := if descOp x = 0x51 then max 1 x.group.length else 1
  (p % n, p / n)

/-- The first statuses of flagged bytes. -/
def flagStatus (d : List (Byte × Nat)) : Nat := d.foldl (fun st e => firstStatus st e.2) 0

/-- The bytes of an arrival counter's destination are counted from the first piece on (R522). -/
def openArrival (s : State) (d : DescRef) (x : Desc) (m : Nat) (gfa : Nat) : State :=
  if cpArrival x.bytes && !x.arr.any (fun a => a.dest == m) then addArrival s (shCtx s d x.bytes 0 false m []) gfa else s

/-- Run piece `p` of a COPY or MCAST on its engine (R515 to R521, R527). -/
def runPiece (s : State) (d : DescRef) (x : Desc) (p engine : Nat) (env : List Reply) : State :=
  let b := x.bytes
  let mk := pieceOf x p
  let mc := descOp x == 0x51
  let base := if mc then x.group.getD mk.1 0 * 2 ^ 48 else 0
  let off := mk.2 * pieceBytes
  let n := min pieceBytes (cpLen b - off)
  let final := decide (cpLen b ≤ off + n)
  let cs := shCtx s d b engine (cpSrcVa b) 0 env
  let cd := shCtx s d b engine (cpDstVa b) (shDest mk.1 mk.2 0) env
  let dst := base + cpDst b + off
  let s := openArrival s d x mk.1 (base + cpArr b)
  let sp := spanParts cs (cpLen b / 4096 + 2) s (cpSrc b) (cpLen b)
  let data := readFlagged sp.2 cs (cpSrc b + off) n
  let tail := engAddr data.2 cd (dst + n - 1) true
  let s := tail.2
  let knots := cpKnot b
  let fallback := knots && noKnotPath s (tail.1.getD 0)
  let g := if knots && !fallback then nextGroup s engine else none
  let s := match g with | some v => takeGroup s engine v | none => s
  let s := match g, findDesc s d with
    | some v, some z => setDesc s d.q { z with spans := z.spans ++ [(shDest mk.1 mk.2 1, v)] }
    | _, _ => s
  let s := if fallback && final then bump s 0x2901 6 else s
  let at_ := if knots && (!fallback || final) then some (dst + n - 64) else none
  let r : PieceRun := { c := cd, va := cpDstVa b, src := sp.1, group := g.getD 0, piece := mk.2, member := mk.1, knotAt := at_,
                        fallback := fallback, last := final }
  let y := pieceLines r (n / 64 + 2) s dst data.1 0
  pieceDone (shStatus y.2 d (flagStatus data.1)) d p

/-- A piece that was dealt and has not run: its engine. A knot-closed piece also needs a GROUP of its engine that is not open. -/
def dealtPiece (s : State) (x : Desc) (p : Nat) : Option Nat :=
  match x.dealt.find? (fun e => e.1 == p) with
  | some e => if x.doneP.contains p || (descOp x ≠ 0x52 && cpKnot x.bytes && (nextGroup s e.2).isNone) then none else some e.2
  | none => none

/-- A Shuttle descriptor that may run, of an opcode. -/
def shReady (s : State) (d : DescRef) (op : Nat) : Option Desc :=
  if d.q.blk == .shuttle && decide (2 ≤ blkRun s .shuttle) then
    (match mayStart s d with
    | some x => if descOp x = op then some x else none
    | none => none)
  else none

/-- COPY (R515 to R521): a malformed descriptor has no effect; else a piece that has been dealt runs. -/
def execCopy (d : DescRef) (piece : Nat) (env : List Reply) (s : State) : Res :=
  .next (match shReady s d 0x50 with
  | none => s
  | some x =>
    if copyBad x.bytes then denyDesc s d (ranCode 6 0x10)
    else
      match dealtPiece s x piece with
      | none => s
      | some e => partDesc s d (fun s =>
          endShuttle (runPiece (if x.doneP.isEmpty then bump s 0x2901 1 else s) d x piece e env) d))

/-- MCAST (R526 to R529). -/
def execMcast (d : DescRef) (piece : Nat) (env : List Reply) (s : State) : Res :=
  .next (match shReady s d 0x51 with
  | none => s
  | some x =>
    if copyBad x.bytes then denyDesc s d (ranCode 6 0x10)
    else if x.group.isEmpty then denyDesc s d (ranCode 0 0x11)
    else
      match dealtPiece s x piece with
      | none => s
      | some e => partDesc s d (fun s =>
          endShuttle (runPiece (if x.doneP.isEmpty then bump s 0x2901 2 else s) d x piece e env) d))

/-- Send one REDUCE request for each line of a range (R532); a line whose source is poisoned or did not complete OK is not sent. `fuel` bounds the lines. -/
def reduceLines (c : EngCtx) (rop rt : Nat) : Nat → State → Nat → List (Byte × Nat) → State
  | 0, s, _, _ => s
  | fuel + 1, s, a, d =>
    if d.isEmpty then s
    else
      let k := min d.length (64 - a % 64)
      let x := engAddr s c a true
      match x.1 with
      | none => x.2
      | some gfa =>
        let l := d.take k
        let s := if l.any (fun e => e.2 != 0) then x.2 else engSubmit x.2 c a gfa (.reduce rop rt (l.map (·.1)))
        reduceLines c rop rt fuel s (a + k) (d.drop k)

/-- Does a REDUCE carry V (R533)? -/
def reduceV (b : Bytes) : Bool := rdRop b == 0 && (rdType b == 2 || rdType b == 3) && !cpTree b

/-- Run piece `p` of a REDUCE without TREE. -/
def runReduce (s : State) (d : DescRef) (x : Desc) (p engine : Nat) (env : List Reply) : State :=
  let b := x.bytes
  let off := p * pieceBytes
  let n := min pieceBytes (cpLen b - off)
  let s := openArrival s d x 0 (cpArr b)
  let data := readFlagged s (shCtx s d b engine (cpSrcVa b) 0 env) (cpSrc b + off) n
  let s := reduceLines (shCtx s d b engine (cpDstVa b) (shDest 0 p 0) env) (rdRop b) (rdType b) (n / 64 + 2) data.2 (cpDst b + off) data.1
  pieceDone (shStatus s d (flagStatus data.1)) d p

/-- SH_REDUCE (R532, R533): under FORBID a REDUCE that carries V is refused. -/
def execShReduce (d : DescRef) (piece : Nat) (env : List Reply) (s : State) : Res :=
  .next (match shReady s d 0x52 with
  | none => s
  | some x =>
    if reduceDescBad x.bytes then denyDesc s d (ranCode 6 0x10)
    else if cpTree x.bytes then s
    else if reduceV x.bytes && detMode s = 2 && x.doneP.isEmpty then denyDesc (runBump s 0x50) d (ranCode 6 0x12)
    else
      match dealtPiece s x piece with
      | none => s
      | some e => partDesc s d (fun s =>
          let s := if x.doneP.isEmpty then bump s 0x2901 3 else s
          let s := if x.doneP.isEmpty && reduceV x.bytes then markV (bump s 0x2901 7) 0x30 d.q.part else s
          endShuttle (runReduce s d x piece e env) d))

/-- The elements of a type in a range, combined: each add rounded in FP32 and BF16 rounded once at the end (R535). -/
def stageCombine (rop rt : Nat) (l : List Nat) : Nat :=
  let t := rtypeAtype rt
  match l with
  | [] => 0
  | x :: rest =>
    if rop = 0 then
      (if t = 5 then fenc fmtBf16 false (fdec fmtF32 ((rest.map (widen fmtBf16)).foldl f32add (widen fmtBf16 x))) else rest.foldl (elemAdd t) x)
    else rest.foldl (elemMinMax t (rop == 2)) x

/-- Combine ranges element by element, with the status of each byte. `fuel` bounds the elements. -/
def stageAll (rop rt : Nat) : Nat → List (List (Byte × Nat)) → List (Byte × Nat)
  | 0, _ => []
  | fuel + 1, ls =>
    let z := atypeSize (rtypeAtype rt)
    if ls.any (fun l => l.length < z) || ls.isEmpty then []
    else
      let st := flagStatus (ls.flatMap (·.take z))
      (toLe z (stageCombine rop rt (ls.map (fun l => leNat ((l.take z).map (·.1)))))).map (fun y => (y, st)) ++
        stageAll rop rt fuel (ls.map (·.drop z))

/-- An entry of the peer table: STAGE and STAGE_CTR (R534). -/
def peerEntry (s : State) (c : EngCtx) (b : Bytes) (r : Nat) : Nat × Nat × State :=
  let x := engRead s c (rdPeer b + 16 * r) 16
  (bfld x.2.1 0 8, bfld x.2.1 8 8, x.2.2)

/-- A rank's children (R534). -/
def treeChildren (b : Bytes) : List Nat := [2 * rdRank b + 1, 2 * rdRank b + 2].filter (fun c => decide (c < rdN b))

/-- Steps 2 and 3 of R534: combine and send up, or to DST at the root. -/
def stageSend (s : State) (d : DescRef) (x : Desc) (engine : Nat) (env : List Reply) : State :=
  let b := x.bytes
  let n := cpLen b
  let c := shCtx s d b engine false (shDest 0 0 0) env
  let own := peerEntry s c b (rdRank b)
  let src := readFlagged own.2.2 { c with va := cpSrcVa b } (cpSrc b) n
  let parts := foldMapS (fun (s : State) k => readFlagged s c (own.1 + k * n) n) src.2 (upTo (treeChildren b).length)
  let all := stageAll (rdRop b) (rdType b) n (src.1 :: parts.1)
  let s := bump (shStatus parts.2 d (flagStatus all)) 0x2901 8
  let s := if rdRank b = 0 then
      let s := openArrival s d x 0 (cpArr b)
      reduceLines { c with va := cpDstVa b } (rdRop b) (rdType b) (n / 64 + 2) s (cpDst b) all
    else
      let up := peerEntry s c b ((rdRank b - 1) / 2)
      let s := addArrival up.2.2 c up.2.1
      let r : PieceRun := { c := c, va := false, src := [], group := 0, piece := 0, member := 0, knotAt := none, fallback := true, last := true }
      (pieceLines r (n / 64 + 2) s (up.1 + (rdRank b - 1) % 2 * n) all 0).2
  pieceDone s d 0

/-- SH_REDUCE_TREE (R534): a rank without children sends at once; one with children waits for their partials. -/
def execShReduceTree (d : DescRef) (env : List Reply) (s : State) : Res :=
  .next (match shReady s d 0x52 with
  | none => s
  | some x =>
    if reduceDescBad x.bytes then denyDesc s d (ranCode 6 0x10)
    else if !cpTree x.bytes || x.phase ≠ 0 then s
    else
      match dealtPiece s x 0 with
      | none => s
      | some e =>
        if (treeChildren x.bytes).isEmpty then partDesc s d (fun s => endShuttle (stageSend (bump s 0x2901 3) d x e env) d)
        else setDesc (bump s 0x2901 3) d.q { x with phase := 1, ranAt := s.det.now })

/-- STAGE_COUNTER_REACHED (R534): the stage counter is at least EXPECT. -/
def execStageCounterReached (d : DescRef) (env : List Reply) (s : State) : Res :=
  .next (match shReady s d 0x52 with
  | none => s
  | some x =>
    match dealtPiece s x 0 with
    | none => s
    | some e =>
      if x.phase ≠ 1 then s
      else partDesc s d (fun s =>
        let c := shCtx s d x.bytes e false (shDest 0 0 0) env
        let own := peerEntry s c x.bytes (rdRank x.bytes)
        let v := engReadNat own.2.2 c own.2.1 8
        if readGood v.1 && decide (rdExpect x.bytes ≤ v.2.1) then endShuttle (stageSend v.2.2 d x e env) d else v.2.2))

/-- STAGE_WAIT_TIMEOUT (R536). -/
def execStageWaitTimeout (d : DescRef) (s : State) : Res :=
  .next (match shReady s d 0x52 with
  | none => s
  | some x => if x.phase = 1 && x.doneP.isEmpty && due s x.ranAt x.stageT then denyDesc s d (ranCode 1 0x15) else s)

/-- Does a WAIT descriptor break Table 12.6? -/
def waitBad (b : Bytes) : Bool :=
  decide (3 < bfld b 1 1) || fld (bfld b 2 2) 1 15 != 0 || bfld b 4 2 != 0 || fld (bfld b 6 2) 14 2 != 0 || bfld b 8 8 % 8 != 0 ||
  decide (600000 < bfld b 0x18 4) || bfld b 0x1C 32 != 0

/-- SH_WAIT (R537): one read of the word; once it is at least VALUE the descriptor completes. A read that fails leaves the wait as it is. -/
def execShWait (d : DescRef) (env : List Reply) (s : State) : Res :=
  .next (match shReady s d 0x53 with
  | none => s
  | some x =>
    if waitBad x.bytes then denyDesc s d (ranCode 6 0x10)
    else if x.phase = 1 && !due s x.polledAt (usT 1) then s
    else
      partDesc s d (fun s =>
        let s := if x.phase = 0 then setDesc (bump s 0x2901 9) d.q { x with phase := 1, ranAt := s.det.now, polledAt := s.det.now }
          else setDesc s d.q { x with polledAt := s.det.now }
        let v := engReadNat s (shCtx s d x.bytes 0 (bit (bfld x.bytes 2 2) 0) 0 env) (bfld x.bytes 8 8) 8
        let s := v.2.2
        if !readGood v.1 then s
        else if bfld x.bytes 0x10 8 ≤ v.2.1 then endDesc s d 0 0 v.2.1 0
        else match findDesc s d with | some y => setDesc s d.q { y with result := v.2.1 } | none => s))

/-- The bound of a WAIT. -/
def waitBound (x : Desc) : Nat := if bfld x.bytes 0x18 4 = 0 then x.waitT else msT (bfld x.bytes 0x18 4)

/-- WAIT_TIMEOUT (R537). -/
def execWaitTimeout (d : DescRef) (s : State) : Res :=
  .next (match shReady s d 0x53 with
  | none => s
  | some x =>
    if x.phase = 1 && due s x.ranAt (waitBound x) then
      denyDesc (bump s 0x2901 0x0A) d { status := 1, rcode := 0x16, result := x.result, missing := 0 }
    else s)

/-- ARRIVAL_ADD (R522): an add of 65,536 that have completed, or of what has completed when 2 µs have passed since the previous add. -/
def execArrivalAdd (d : DescRef) (dest : Nat) (s : State) : Res :=
  .next (match findDesc s d with
  | none => s
  | some x =>
    match x.arr.find? (fun a => a.dest == dest) with
    | none => s
    | some a =>
      let n := if 65536 ≤ a.due then 65536 else if due s a.since (usT 2) then a.due else 0
      if n = 0 then s
      else
        let arr := x.arr.map (fun y => if y.dest == dest then { y with due := y.due - n, since := s.det.now } else y)
        let s := setDesc s d.q { x with arr := arr, waitRemote := x.waitRemote + 1 }
        fin (submitVia (if d.q.blk == .shuttle then bump s 0x2901 5 else s) a.vpn (blkCode d.q.blk + 1) a.unit a.cid a.addr
          (.atomic .add 3 0 0 (toLe 8 n)) (.descAdd d.q d.pos dest)))

/-- SH_START (R510). -/
def execShStart (w : Writer) (s : State) : Res := endWrite w (writeBlkCmd s .shuttle [1])

/-- SH_STOP (R510). -/
def execShStop (w : Writer) (s : State) : Res := endWrite w (writeBlkCmd s .shuttle [2])

/-- SH_STOP_END (R510). -/
def execShStopEnd (s : State) : Res := .next (blkStopEnd s .shuttle)

/-- SH_ENGINES_ON. -/
def shEnginesOn (s : State) : Nat := ((upTo 32).filter (shEngineOn s)).foldl setBit 0

/-- A multicast group is written (R525): COUNT 1 to 64, reserved bytes zero, no endpoint twice; entries beyond COUNT zero. -/
def writeMcastGroup (s : State) (g : Nat) (v : Bytes) : WriteOut :=
  let n := bfld v 8 1
  let eps := (upTo n).map (fun k => bfld v (16 + 2 * k) 2)
  if v.length ≠ 144 then refuse s abTYPE
  else if n = 0 || 64 < n || bfld v 9 7 ≠ 0 || eps.eraseDups.length ≠ n || (v.drop (16 + 2 * n)).any (fun y => y != 0) then refuse s abINCONS
  else applied (setArrBlob s 0x2920 g v)

/-- MCAST_GROUP (R525). -/
def execMcastGroup (w : Writer) (group : Nat) (v : Bytes) (s : State) : Res :=
  if 256 ≤ group then .next s else endWrite w (writeMcastGroup s group v)

/-- May a barrier start (R542)? -/
def barStartOk (s : State) (b : Nat) : Bool :=
  let d := arrBlob s 0x2930 b
  let a := barAddr s b
  decide (barOwner s b ≤ 63) && bfld d 1 1 == 0 && decide (1 ≤ barN s b) && decide (barN s b ≤ 1024) &&
  (barGroup s b == 0xFFFF || decide (barGroup s b ≤ 255)) && decide (1 ≤ barThresh s b) && decide (barThresh s b ≤ 1024) &&
  a % 8 == 0 && decide (barTimeout s b ≤ 3600000) && bfld d 0x14 12 == 0 && (arrBlob s 0x2932 b).length == 2 * barN s b &&
  (match regionAt s a with
  | some r => ((getRegion s r).kind == 1 || (getRegion s r).kind == 3) && (getRegion s r).owner == barOwner s b
  | none => false)

/-- A barrier starts at episode 1, its lateness history cleared (R542). -/
def barStart (s : State) (b : Nat) : WriteOut :=
  if barRunning s b then applied s
  else if !barStartOk s b then refuse s abINCONS
  else applied (setArrNum (setBar s b { getBar s b with episode := 1, arrived := [], openedAt := s.det.now, timedOut := false,
                                                        completed := 0, lasts := [], suspects := [] }) 0x2936 b 3)

/-- A STOP aborts the open episode and stops the barrier (R548). -/
def barStop (s : State) (b : Nat) : State := if barRunning s b then setArrNum (barAbort s b) 0x2936 b 1 else s

/-- A write of BAR_CMD. -/
def writeBarCmd (s : State) (b : Nat) (v : Bytes) : WriteOut :=
  if v.length ≠ 1 then refuse s abTYPE
  else match leNat v with
    | 1 => barStart s b
    | 2 => applied (barStop s b)
    | 3 => if barRunning s b then applied (barAbort s b) else refuse s abSTATE
    | _ => refuse s abRANGE

/-- BAR_START (R542). -/
def execBarStart (w : Writer) (barrier : Nat) (s : State) : Res :=
  if 256 ≤ barrier then .next s else endWrite w (writeBarCmd s barrier [1])

/-- BAR_STOP (R548). -/
def execBarStop (w : Writer) (barrier : Nat) (s : State) : Res :=
  if 256 ≤ barrier then .next s else endWrite w (writeBarCmd s barrier [2])

/-- BAR_ABORT (R545). -/
def execBarAbort (w : Writer) (barrier : Nat) (s : State) : Res :=
  if 256 ≤ barrier then .next s else endWrite w (writeBarCmd s barrier [3])

/-- A barrier's descriptor or member list is written: not while it is RUNNING (R548). -/
def writeBarBlob (s : State) (base b : Nat) (v : Bytes) : WriteOut :=
  if (base = 0x2930 && v.length ≠ 32) || 2048 < v.length then refuse s abTYPE
  else if barRunning s b then refuse s abSTATE
  else applied (setArrBlob s base b v)

/-- BAR_ARRIVE (R543, R544): an 8 B store to SH_BAR_ARRIVE of a barrier. -/
def execBarArrive (h : Head) (barrier : Nat) (v : Nat) (s : State) : Res :=
  .next (fin (cwStore s h (0x180000 + barrier % 256 * 8) (v % 2 ^ 64)))

/-- BAR_TIMEOUT (R545): an episode left open beyond TIMEOUT_MS is counted and recorded once. -/
def execBarTimeout (barrier : Nat) (s : State) : Res :=
  let x := getBar s barrier
  .next (if 256 ≤ barrier || !barRunning s barrier || barTimeout s barrier = 0 || x.timedOut || !due s x.openedAt (msT (barTimeout s barrier)) then s
    else
      let missing := (upTo (barN s barrier)).filter (fun r => !x.arrived.contains r)
      let s := setBar s barrier { x with timedOut := true, timeouts := (x.timeouts + 1) % 65536 }
      let s := noteFault s 0x24 (resId 13 barrier) (barOwner s barrier) 0xFF 0
        (toLe 2 missing.length ++ zeros 6 ++ toLe 128 (missing.foldl setBit 0))
      latch s (partSource (barOwner s barrier) 3))

/-- BAR_STATUS, BAR_LATE, BAR_SUSPECT and BAR_WINDOW (Table 12.8). -/
def barStatusObj (s : State) (b : Nat) : Bytes :=
  let x := getBar s b
  toLe 8 x.episode ++ toLe 8 x.completed ++ toLe 2 x.arrived.length ++ toLe 2 x.stray ++ toLe 2 x.duplicates ++ toLe 2 x.timeouts
def barLate (s : State) (b : Nat) : Bytes := (upTo 1024).flatMap (fun r => toLe 2 (((getBar s b).lasts.filter (· == r)).length))
def barSuspect (s : State) (b : Nat) : Bytes := toLe 128 ((getBar s b).suspects.foldl setBit 0)
def barWindow (s : State) (b : Nat) : Nat := (getBar s b).lasts.length

/-- The barriers of a fenced partition are aborted and become STOPPED (R545). -/
def fenceBarriers (s : State) (p : Nat) : State :=
  forS (upTo 256) s (fun s b => if barRunning s b && barOwner s b = p then barStop s b else s)

end Sys2Proof.Machine
end

