-- ==== Sys2Proof/Machine/Mirror.lean ====
section
/-! DEFINITION. Mirrored regions (R692 to R701): binds, their answers and timeouts, mirror writes, rebuilds, takeover. -/
namespace Sys2Proof.Machine

/-- BASE bits [47:16] of a mirror NOTICE, as a local offset (Table 17.6). -/
def noticeBase (data : Nat) : Nat := data / 2 ^ 32 % 2 ^ 32 * 65536

/-- The copy that a primary at `ep` with this BASE names: the lowest SECONDARY region that stands for it (R692). -/
def copyOf (s : State) (ep base : Nat) : Option Nat :=
  (s.regions.find? (fun e => e.2.valid && e.2.mirror && arrNum s 0x3640 e.1 == 1 && e.2.mirrorEp == ep && e.2.mirrorBase == base)).map (·.1)

/-- The reason for which a bind is refused, 0 for none (R693, Table 17.6; log entry 46 on their order). -/
def bindReason (s : State) (ep unit data : Nat) : Nat :=
  match copyOf s ep (noticeBase data) with
  | none => 1
  | some r =>
    let g := getRegion s r
    if g.kind ≠ fld unit 12 3 || g.enc ≠ bit unit 15 then 2
    else if num s 0x3600 1 = 0 || data % 2 ^ 32 = 0 then 5
    else if num s 0x3600 1 = data % 2 ^ 32 then 3
    else if 5 ≤ mirrorState s r && bfld (arrBlob s 0x3680 r) 0 2 ≠ ep then 4
    else 0

/-- MIRROR_BIND at the partner (R693, R694): the copy's bolts become unallocated, and the primary is answered. Whether the copy counts as COPY or as
COPY_BUILDING the notice does not say: a free value (log entry 47). -/
def takeBind (s : State) (ep unit data : Nat) : State :=
  let why := bindReason s ep unit data
  match copyOf s ep (noticeBase data) with
  | none => noticeTo s ep 0x0102 1 (data / 2 ^ 32 * 2 ^ 32)
  | some r =>
    if why ≠ 0 then noticeTo s ep 0x0102 why (data / 2 ^ 32 * 2 ^ 32)
    else
      let g := getRegion s r
      let s := releaseBolts s (g.base / 65536) (g.size / 65536)
      let s := { s with poison := s.poison.filter (fun l => !(decide (g.base ≤ l * 64) && decide (l * 64 < g.base + g.size))) }
      let f := freshFree s
      let st := if Config.freeNat f.1 % 2 = 0 then 6 else 5
      let s := setArrNum f.2 0x3660 r st
      let s := setArrBlob s 0x3680 r (toLe 2 ep ++ toLe 1 st ++ zeros 5 ++ toLe 8 s.det.count ++ zeros 32)
      noticeTo s ep 0x0101 r (num s 0x3600 1 % 2 ^ 32 + g.size / 65536 % 2 ^ 32 * 2 ^ 32)

/-- MIRROR_BIND (R693). -/
def execMirrorBind (ep unit data : Nat) (s : State) : Res := .next (fin (takeBind s ep unit data))

/-- A bind ends: its write is answered with INCONSISTENT, and the next bind to the endpoint is sent. -/
def refuseBind (s : State) (b : Bind) : State :=
  let s := { s with flt := { s.flt with binds := s.flt.binds.filter (fun x => x.region != b.region) } }
  let s := match b.write with
    | some w => answerWaiting s w abINCONS
    | none => s
  sendBinds s

/-- Begin a rebuild (R694, R698): the region's entry of MIRROR_REBUILD starts anew. -/
def startRebuild (s : State) (r ep : Nat) : State :=
  setArrBlob (setArrNum s 0x3660 r 2) 0x3680 r (toLe 2 ep ++ toLe 1 2 ++ zeros 5 ++ toLe 8 s.det.count ++ zeros 32)

/-- A bind has been accepted (R693, R694): the write is checked once more (log entry 48) and applied. -/
def acceptBind (s : State) (b : Bind) : State :=
  let ok := if b.create then !(getRegion s b.region).valid && regionCreatable s b.region b.new
    else (getRegion s b.region).valid && regionChangeable s b.region (getRegion s b.region) b.new
  if !ok then refuseBind s b
  else
    let s := { s with flt := { s.flt with binds := s.flt.binds.filter (fun x => x.region != b.region) } }
    let s := if b.create then
        (let s := setArrNum (createRegion s b.region b.new) 0x3660 b.region 1
         match b.write with
         | some w => answerWaiting s w 0
         | none => s)
      else
        let o := getRegion s b.region
        let s := if o.mirror && (o.mirrorEp ≠ b.new.mirrorEp || o.mirrorBase ≠ b.new.mirrorBase) then sendUnbind s b.region o else s
        startRebuild (changeRegion s b.region b.new b.write) b.region b.new.mirrorEp
    sendBinds s

/-- The bind outstanding to an endpoint. -/
def boundTo (s : State) (ep : Nat) : Option Bind := s.flt.binds.find? (fun b => b.sent && b.new.mirrorEp == ep)

/-- MIRROR_BOUND at the primary (R693): refused all the same where the domains are equal or unassigned, or the sizes differ. -/
def takeBound (s : State) (ep data : Nat) : State :=
  match boundTo s ep with
  | none => s
  | some b =>
    let dom := data % 2 ^ 32
    if dom = num s 0x3600 1 || dom = 0 || num s 0x3600 1 = 0 || data / 2 ^ 32 % 2 ^ 32 ≠ b.new.size / 65536 then refuseBind s b
    else acceptBind s b

/-- MIRROR_BOUND (R693). -/
def execMirrorBound (ep _unit data : Nat) (s : State) : Res := .next (fin (takeBound s ep data))

/-- MIRROR_REFUSED at the primary, which names the bind by its BASE (R693). -/
def takeRefused (s : State) (ep data : Nat) : State :=
  match boundTo s ep with
  | none => s
  | some b => if b.new.base = noticeBase data then refuseBind s b else s

/-- MIRROR_REFUSED (R693). -/
def execMirrorRefused (ep _unit data : Nat) (s : State) : Res := .next (fin (takeRefused s ep data))

/-- MIRROR_UNBIND at the partner (R693): the copy returns to UNBOUND with its contents kept. -/
def takeUnbind (s : State) (ep data : Nat) : State :=
  match copyOf s ep (noticeBase data) with
  | none => s
  | some r => if 5 ≤ mirrorState s r then setArrNum s 0x3660 r 4 else s

/-- MIRROR_UNBIND (R693). -/
def execMirrorUnbind (ep _unit data : Nat) (s : State) : Res := .next (fin (takeUnbind s ep data))

/-- MIRROR_BIND_TIMEOUT (R693). -/
def execMirrorBindTimeout (region : Nat) (s : State) : Res :=
  .next (match s.flt.binds.find? (fun b => b.region == region) with
    | none => s
    | some b => if b.sent && due s b.sentAt (msT (num s 0x3600 4)) then fin (refuseBind s b) else s)

/-- MIRROR_WRITE (R696): a mirror write is an ORD STORE of a whole line, a rebuild write a BLK write; the check at the memory finds the copy. -/
def execMirrorWrite (h : Head) (op : MemOp) (s : State) : Res :=
  .next (match op with
    | .store d p => fin (arrive s h (.store d p))
    | .blk g k sp n d p => fin (arrive s h (.blk g k sp n d p))
    | _ => s)

/-- MIRROR_WRITE_TIMEOUT (R697): MIRROR_WRITE_US after it began to wait, a mirror write leaves its partner's regions DEGRADED. -/
def execMirrorWriteTimeout (tag : Nat) (s : State) : Res :=
  .next (match s.acc.issued.find? (fun i => i.tag == tag) with
    | none => s
    | some i =>
      match i.mirror with
      | none => s
      | some r => if due s i.at_ (usT (num s 0x3600 2)) then fin (mirrorFail s i r) else s)

/-- MIRROR_REBIND_RETRY (R697): once per second a DEGRADED region tries its bind again, while MIRROR_AUTO_REBUILD is true. -/
def execMirrorRebindRetry (region : Nat) (s : State) : Res :=
  let g := getRegion s region
  .next (if g.valid && g.mirror && arrNum s 0x3640 region = 0 && mirrorState s region = 3 && num s 0x3600 5 = 1 &&
      !s.flt.binds.any (fun b => b.region == region) && due s (sget (fun _ => 0) s.flt.rebindAt region) (secT 1) then
      fin (startBind { s with flt := { s.flt with rebindAt := sput (fun _ => 0) s.flt.rebindAt region s.det.now } } region g false none)
    else s)

/-- Send the bolt of a rebuild as a knot-closed span (R285, R698): 1,023 lines and a knot that counts them, in a group of the region's own
(log entry 49). -/
def sendBolt (s : State) (r b : Nat) : State :=
  let g := getRegion s r
  let group := 0xF000 + r % 4096
  let s := bumpBy s 0x3601 3 65536
  let bad := (upTo 1024).any (fun k => isPoison s (g.base + b * 65536 + k * 64))
  let e := slice (arrBlob s 0x3680 r) 0 48
  let s := if bad then setArrBlob s 0x3680 r (bset e 28 4 (bfld e 28 4 + 1)) else s
  forS (upTo 1024) s (fun s k =>
    let a := g.base + b * 65536 + k * 64
    let h := ownHead s 6 0 (mkCid g.owner 0) (g.mirrorEp * 2 ^ 48 + (g.mirrorBase + (a - g.base)) % 2 ^ 48)
    let knot := k == 1023
    issueReq s { head := h, op := .blk group knot (b % 2 == 1) (if knot then 1023 else 0) (memRead s.mem a 64) (isPoison s a) }
      (if knot then .rebuild r b else .none) none)

/-- REBUILD_BOLT (R698, R699): the next bolt is sent once the knot of the one before it has completed; an empty route leaves the region DEGRADED. -/
def execRebuildBolt (region : Nat) (s : State) : Res :=
  let g := getRegion s region
  let b := watermark s region
  .next (if !(g.valid && g.mirror && mirrorState s region = 2) || g.size ≤ b * 65536 ||
        s.acc.issued.any (fun i => i.target == .rebuild region b) then s
    else if (effPorts s g.mirrorEp 6).isEmpty then fin (degradePartner s g.mirrorEp 2)
    else fin (sendBolt s region b))

/-- Every line of the bolts [b, b + n) reads POISON until it is written in full (R700). -/
def poisonBolts (s : State) (base b n : Nat) : State :=
  let lo := base / 64 + b * 1024
  { s with poison := s.poison.filter (fun l => decide (l < lo)) ++ (upTo (n * 1024)).map (fun k => lo + k) ++
                     s.poison.filter (fun l => decide (lo + n * 1024 ≤ l)) }

/-- A versioned region changes hands (R327): every handle is stale; head and ground are what the mirrored directory holds, whose entry form the spec
does not give: free values (log entry 50). -/
def takeVersions (s : State) (r : Nat) : State :=
  match getVer s r with
  | none => s
  | some v =>
    let f := freshFree s
    let g := freshFree f.2
    let head := Config.freeNat f.1 + 1
    setVer g.2 r { v with head := head, next := head + 1, ground := Config.freeNat g.1 % head + 1, works := [],
                          reads := v.reads.map (fun h => { h with stale := true }), staleWork := v.staleWork ++ v.works.map (fun w => (w.cid, w.holder)) }

/-- A write of MIRROR_TAKEOVER (R700). -/
def writeTakeover (s : State) (b : Bytes) : WriteOut :=
  let r := leNat b
  let g := getRegion s r
  let st := mirrorState s r
  if b.length ≠ 2 then refuse s abTYPE
  else if !(g.valid && isCopy s r && (st = 5 || st = 6)) || !(effPorts s g.mirrorEp 5).isEmpty then refuse s abINCONS
  else
    let mark := watermark s r
    let bolts := g.size / 65536
    let lost := if st = 5 then bolts - mark else 0
    let s := setArrNum (setArrNum s 0x3640 r 0) 0x3660 r 3
    let s := noteFault s 0x31 (resId 11 r) g.owner 0xFF 0 (toLe 2 g.mirrorEp ++ toLe 4 (if st = 5 then mark else bolts))
    let s := takeVersions s r
    let e := bset (bset (slice (arrBlob s 0x3680 r) 0 48) 2 1 3) 16 8 s.det.count
    if lost = 0 then applied (setArrBlob s 0x3680 r e)
    else
      let s := poisonBolts s g.base mark lost
      let s := setArrBlob s 0x3680 r (bset (bset e 32 4 mark) 36 4 lost)
      applied (noteFault s 0x32 (resId 11 r) g.owner 0xFF 0 (toLe 4 mark ++ toLe 4 lost))

/-- MIRROR_TAKEOVER (R700). -/
def execMirrorTakeover (w : Writer) (value : Bytes) (s : State) : Res := endWrite w (writeTakeover s value)

end Sys2Proof.Machine
end

