-- ==== Sys2Proof/Machine/PortState.lean ====
section
/-! DEFINITION. The fabric ports (ch. 13), first part: states, LINK flits, faults of a port (R683), going down (R586, R587), equalisation (R557 to R562), FIT (R563 to R567), link keys (R618 to R622), becoming ACTIVE. -/
namespace Sys2Proof.Machine

/-- The ports in TRF mode: the port block (R551). -/
def trfPorts (s : State) : List Nat := (upTo 32).filter (fun p => num s 0x2101 (p + 1) == 1)

/-- PORTS_RUN as read (R551): OFF when the domains of all TRF ports are OFF. -/
def portsRun (s : State) : Nat := if (trfPorts s).all (fun p => domOff s (112 + p)) then 0 else num s 0x2100 1

/-- PORTS_ACTIVE as read: bit n, port n ACTIVE or COMPAT_L0. -/
def portsActive (s : State) : Nat := (((upTo 32).filter (portUp s)).map (fun p => 2 ^ p)).sum

/-- Enter a state (R555): leaving or entering ACTIVE, DOWN or COMPAT_L0 asserts the port's source. -/
def setPState (s : State) (p st : Nat) : State :=
  let old := portState s p
  let s := setPort (setNum s 0x2107 (p + 1) st) p { getPort s p with since := s.det.now }
  let s := if st = 7 || st = 12 then setBlob s 0x2109 (p + 1) (bset (slice (blob s 0x2109 (p + 1)) 0 48) 0x28 8 s.det.count) else s
  if old ≠ st && [7, 10, 12].any (fun k => k == old || k == st) then latch s (64 + p) else s

/-- Bytes that the Thimble draws. -/
def drawBytes (s : State) (n : Nat) : Bytes × State :=
  let f := freshFree s
  ((upTo n).map (Config.thimbleByte f.1), f.2)

/-- KEYS_GENERATED and KEYS_DESTROYED (Table 14.7). -/
def keysMade (s : State) (n : Nat) : State := bumpBy s 0x2A21 2 n
def keysGone (s : State) (n : Nat) : State := bumpBy s 0x2A21 3 n

/-- The credit word (Table 13.8) and what is then still owed: the two lowest classes that have credits to return. -/
def creditWord (owed : List Nat) : Nat × List Nat :=
  match (upTo 8).filter (fun c => decide (0 < owed.getD c 0)) with
  | [] => (0xF000F, owed)
  | a :: rest =>
    let x := min (owed.getD a 0) 4095
    let o := owed.set a (owed.getD a 0 - x)
    match rest with
    | [] => (a + x * 16 + 0xF0000, o)
    | b :: _ =>
      let y := min (o.getD b 0) 4095
      (a + x * 16 + b * 2 ^ 16 + y * 2 ^ 20, o.set b (o.getD b 0 - y))

/-- Form a flit that is first sent now (Tables 13.7, 13.8, R576, R620): the header with ACK, NAK and the credits owed; on a link with keys the units, ciphertext
when SEALED, and the tag under the next counter value. -/
def formFlit (s : State) (p ftype : Nat) (sealed : Bool) (cont seq linkOp : Nat) (units : Bytes) : Bytes × State :=
  let x := getPort s p
  let cw := creditWord x.owedCr
  let hdr := toLe 8 (flitHeader ftype sealed x.txKey.isSome cont seq x.rxSeq x.rxAny x.nakDue linkOp) ++ toLe 4 cw.1
  let y := { x with owedCr := cw.2, nakDue := false }
  let s := portCount s p 0 1
  match x.txKey with
  | none => (flitSeal (hdr ++ slice units 0 224), setPort s p y)
  | some k =>
    let u := slice units 0 208
    let iv := k.salt ++ toBe 8 k.count
    let r := if sealed then gcmSeal k.key iv hdr u else (u, (gcmSeal k.key iv (hdr ++ u) []).2)
    (flitSeal (hdr ++ r.1 ++ r.2),
     setPort s p { y with txKey := some { k with count := k.count + 1 } })

/-- Send a LINK flit (R571). -/
def sendLink (s : State) (p op : Nat) (payload : Bytes) : State :=
  let f := formFlit s p 2 false 0 0 op payload
  emit f.2 (.flit p f.1)

/-- A fault of a port at a level of its own (R683): while its level-3 window is open it is handled beyond level 3. -/
def portFault (s : State) (code p n : Nat) (detail : Bytes) : State :=
  let res := resId 1 p
  if openLevel s res = 3 && !outOfService s res then
    let r := beyondLast s res code
    let s := noteFault r.2 0x48 res 0xFF 0xFF 0 (toLe 1 n ++ toLe 1 r.1 ++ toLe 2 (getWindow s res).code ++ toLe 2 code)
    recordFault s code res 0xFF r.1 0xFF 0 detail
  else recordFault s code res 0xFF n 0xFF 0 detail

/-- The keys that a port holds (KEYS_HELD of LINK_KEY_STATE). -/
def keysHeld (x : PortDyn) : Nat := b2n x.txKey.isSome + b2n x.txOld.isSome + b2n x.rxKey.isSome + b2n x.rxOld.isSome

/-- LINK_KEY_STATE as read. -/
def linkKeyState (s : State) (p : Nat) : Bytes :=
  let x := getPort s p
  let g := fun (k : Option LinkKey) => match k with | some y => (y.gen, y.count) | none => (0, 0)
  toLe 4 (g x.txKey).1 ++ toLe 4 (g x.rxKey).1 ++ toLe 8 (g x.txKey).2 ++ toLe 8 (g x.rxKey).2 ++ toLe 1 (keysHeld x) ++ zeros 7

/-- The port block's STOP ends once every TRF port is DISABLED, DOWN or OFF (R551). -/
def portsStopEnd (s : State) : State :=
  if num s 0x2100 1 = 2 && (trfPorts s).all (fun p => [0, 1, 10].contains (portState s p)) then setNum s 0x2100 1 1 else s

/-- PORT_DOWN is recorded and the ladder entered (R586, R683): a DOWN by detach or force enters none and closes the windows. -/
def downFault (s : State) (p reason : Nat) : State :=
  let res := resId 1 p
  let d := toLe 1 reason ++ toLe 2 (bfld (blob s 0x2109 (p + 1)) 8 2)
  if 12 ≤ reason then setWindow (noteFault s 0x2C res 0xFF 0xFF 0 d) res { getWindow s res with level := 0, closes := none }
  else if outOfService s res then recordFault s 0x2C res 0xFF 3 0xFF 0 d
  else if openLevel s res = 3 then portFault s 0x2C p 3 d
  else
    let s := openWindow (recordFault s 0x2C res 0xFF 3 0xFF 0 d) res 3 0x2C none
    if num s 0x2105 (p + 1) = 1 then
      queueRecovery s { res := res, fromLevel := 3, level := 3, code := 0x2C, queuedAt := s.det.now, startedAt := 0, endedAt := 0 }
    else s

/-- What has arrived by a port and is still in progress is carried out, and its completion is discarded; the credit it holds went with the link (R587, R597). -/
def forgetPort (s : State) (p : Nat) : State :=
  let far := fun (h : Held) => if h.req.head.kind = 0 && h.req.head.unit = p then
    { h with owed := none, req := { h.req with head := { h.req.head with tag := 2 ^ 32 } } } else h
  { s with
    acc := { s.acc with held := s.acc.held.map far }
    ord := { s.ord with knots := s.ord.knots.map (fun k =>
      { k with knot0 := k.knot0.map (fun x => { x with held := far x.held }), knot1 := k.knot1.map (fun x => { x with held := far x.held }) }) }
    coh := { s.coh with trackWait := s.coh.trackWait.map (fun t => if t.msg.port = p then { t with owed := false } else t) } }

/-- An FLR, a hot reset or a link that goes down (R597, Table 14.4): configuration, BARs, MSI-X and decoders reset, completions of outstanding requests
discarded, SPDM and IDE keys destroyed; memory and the control-window registers stay. -/
def functionReset (s : State) (p : Nat) : State :=
  let x := getPort s p
  let keys := x.host.ideKeys.length + b2n (x.host.session || x.host.handshake)
  let s := keysGone s keys
  let s := setPort (forgetPort s p) p { x with inReqs := [], host := { HostFn.reset with events := x.host.events } }
  let b := slice (blob s 0x2111 (p + 1)) 0 32
  setBlob s 0x2111 (p + 1) (bset (bset b 4 1 0) 24 4 (addW 32 (bfld b 24 4) 1))

/-- A port goes DOWN (R586): reason, PORT_DOWN, its queues discarded and counted, its tags freed, its keys and their secret destroyed (R622); a DOWN_NOTICE goes before where
the link still works. A compatibility port's link going down acts as an FLR (R597). -/
def portDown (s : State) (p reason : Nat) (notice : Bool) : State :=
  let s := if notice then sendLink s p 6 (toLe 1 reason) else s
  let s := if portCompat s p && (portState s p == 12 || portState s p == 9) then functionReset s p else s
  let s := downFault (setNum s 0x2108 (p + 1) reason) p reason
  let x := getPort s p
  let lost := (x.replay.map (fun f => f.msgs)).sum + x.txq.length + (if x.split.isSome && x.replay.isEmpty then 1 else 0)
  let s := keysGone (portCount s p 0x38 lost) (keysHeld x + b2n x.txKey.isSome + b2n x.keyEx.isSome + b2n x.updateKey.isSome)
  let s := { s with acc := { s.acc with issued := s.acc.issued.map (fun i => if i.port = p && i.sent then { i with wire := none } else i) } }
  let s := setPort (forgetPort s p) p { PortDyn.reset with history := x.history, pollAt := x.pollAt, host := x.host }
  let s := portsStopEnd (setPState s p 10)
  sendReady (s.acc.issued.length + 1) s

/-- A port that a fault has put out of service while it was up goes DOWN (R682: held at its last level; log entry 51 on the reason). -/
def holdDown (s : State) (p : Nat) : State :=
  if outOfService s (resId 1 p) && (portState s p = 7 || portState s p = 8 || portState s p = 9) then portDown s p 10 (portState s p != 8) else s

/-- A port enters DETECT (Table 13.1). -/
def startDetect (s : State) (p : Nat) (byAttach : Bool) : State :=
  let s := setPort s p { getPort s p with stage := 2, cameFrom := portState s p, byAttach := byAttach, pollAt := s.det.now }
  setPState s p 2

/-- C_PRE, C_POST as two's complement of 8 bits and CTLE of a reach class (Table 13.2). -/
def preset (reach : Nat) : Nat × Nat × Nat × Nat := [(0, 30, 254, 8), (254, 25, 251, 16), (253, 21, 248, 24), (254, 24, 250, 20)].getD reach (0, 30, 254, 8)

/-- The entry of PORT_EQ of one lane (Table 13.12). -/
def eqEntry (pre main post ctle dfe1 source mv ui : Nat) : Bytes :=
  toLe 1 pre ++ toLe 1 main ++ toLe 1 post ++ toLe 1 ctle ++ toLe 1 dfe1 ++ toLe 1 source ++ toLe 2 mv ++ toLe 2 ui ++ zeros 2

/-- PORT_EQ of a port, 96 bytes. -/
def eqBlob (s : State) (p : Nat) : Bytes := slice (blob s 0x210B (p + 1)) 0 96

/-- C_MAIN: 32 minus both magnitudes (R557). -/
def cMain (pre post : Nat) : Nat := (32 + toSigned 8 pre + toSigned 8 post).toNat

/-- Coefficients within R557: C_PRE from −8 to 0, C_POST from −12 to 0, magnitudes adding to at most 16. -/
def coefOk (pre post : Nat) : Bool :=
  let a := toSigned 8 pre
  let b := toSigned 8 post
  decide (-8 ≤ a) && decide (a ≤ 0) && decide (-12 ≤ b) && decide (b ≤ 0) && decide (-16 ≤ a + b)

/-- Equalisation begins (R558, R560, R562): from the held values, or from the presets of the reach class; a retrain goes without phase 2, a frozen one
without phases 1 and 2. -/
def startEq (s : State) (p : Nat) : State :=
  let x := getPort s p
  let frozen := num s 0x210A (p + 1) == 1
  let retrain := portState s p == 8
  let s := if x.history || retrain then s
    else
      let q := preset (num s 0x2102 (p + 1))
      setBlob s 0x210B (p + 1) ((upTo 8).flatMap (fun _ => eqEntry q.1 q.2.1 q.2.2.1 q.2.2.2 0 0 0 0))
  let s := setPort s p { x with stage := 4, fromHeld := x.history || retrain, phase := if retrain && frozen then 3 else 1 }
  if retrain then s else setPState s p 4

/-- One lane after phase 1 or 2: CTLE and DFE as adapted, unless the values are frozen (R562); the coefficients move in phase 2 alone. -/
def eqLane (b : Bytes) (l phase : Nat) (frozen : Bool) (e : EqLane) : Bytes :=
  let at_ := fun (k n : Nat) => bfld b (12 * l + k) n
  let ok := phase == 2 && coefOk e.pre e.post
  let pre := if ok then e.pre % 256 else at_ 0 1
  let post := if ok then e.post % 256 else at_ 2 1
  if frozen then eqEntry pre (cMain pre post) post (at_ 3 1) (at_ 4 1) 2 e.eyeMv e.eyeUi
  else eqEntry pre (cMain pre post) post (min e.ctle 32) e.dfe1 1 e.eyeMv e.eyeUi

/-- The width that good lanes give (R559). -/
def widthOf (good : Nat) : Nat := if fld good 0 8 = 255 then 8 else if fld good 0 4 = 15 || fld good 4 4 = 15 then 4 else 0

/-- This node's offer for a port (Table 13.5, R563 to R565, Table 13.3). -/
def fitOfferOf (s : State) (p : Nat) : Bytes :=
  let credits := [16, 256, 128, 512, 256, 512, 512, 32]
  toLe 1 1 ++ toLe 1 0 ++ toLe 1 (if num s 0x2103 (p + 1) = 2 then 3 else 1) ++ toLe 1 (b2n (bit s.sec.hem.portOuter p)) ++
    toLe 4 ((num s 0x2104 (p + 1)).land 0x3F) ++ toLe 2 (endpointId s) ++ toLe 1 p ++ toLe 1 (num s 0x2102 (p + 1)) ++ toLe 1 (getPort s p).good ++
    toLe 1 0 ++ toLe 2 (num s 0x1001 1) ++ toLe 2 (num s 0x1001 2) ++ zeros 2 ++ toLe 4 (num s 0x3600 1) ++ credits.flatMap (toLe 2) ++ zeros 24

/-- Enter FIT: the offer is sent (R563). -/
def enterFit (s : State) (p : Nat) : State :=
  let s := if portState s p = 8 then s else setPState s p 5
  let m := fitOfferOf s p
  let s := setPort s p { getPort s p with stage := 5, fitMine := m, fitOffer := none, fitTries := 0 }
  sendLink s p 1 m

/-- The result of two offers (R564): the reason of a failure or 0, the version bit, OUTER, FEATURES, WIDTH. -/
def fitResult (s : State) (p : Nat) (mine offer : Bytes) : Nat × Nat × Nat × Nat × Nat :=
  let vs := ((bfld mine 2 1).land (bfld offer 2 1)).land (if num s 0x2103 (p + 1) = 2 then 3 else 1)
  let v := if bit vs 1 then 2 else if bit vs 0 then 1 else 0
  let outer := bfld mine 3 1 == 1 || bfld offer 3 1 == 1
  let f := (((bfld mine 4 4).land (bfld offer 4 4)).land (num s 0x2104 (p + 1))).land (if v = 2 then 0x3F else 0)
  let f := if outer then clrBit f 1 else clrBit f 5
  let w := widthOf ((bfld mine 0xC 1).land (bfld offer 0xC 1))
  let why := if v = 0 then 4 else if outer && !bit f 5 then 5
    else if bfld offer 8 2 = endpointId s && !bit (bfld offer 4 4) 6 then 6 else if w = 0 then 3 else 0
  (why, v, b2n outer, f, w)

/-- The result block, with ROUND 1: no credits for REQ and SNP on a link without COH (R577). -/
def fitBlock (mine : Bytes) (r : Nat × Nat × Nat × Nat × Nat) : Bytes :=
  let b := bset (bset (bset (bset (bset mine 1 1 1) 2 1 r.2.1) 3 1 r.2.2.1) 4 4 r.2.2.2.1) 0xD 1 r.2.2.2.2
  if bit r.2.2.2.1 1 then b else bset b 0x1A 4 0

/-- PORT_LINK of a result (Table 13.11); SWITCH is reported from the partner's offer. -/
def linkRecord (offer : Bytes) (r : Nat × Nat × Nat × Nat × Nat) : Bytes :=
  let cr := slice offer 0x18 16
  let cr := if bit r.2.2.2.1 1 then cr else bset cr 2 4 0
  toLe 1 r.2.1 ++ toLe 1 r.2.2.2.2 ++ toLe 1 r.2.2.1 ++ toLe 1 5 ++ toLe 4 (r.2.2.2.1 + 64 * b2n (bit (bfld offer 4 4) 6)) ++ slice offer 8 2 ++
    slice offer 0xA 1 ++ zeros 1 ++ slice offer 0xE 2 ++ slice offer 0x10 2 ++ slice offer 0x14 4 ++ zeros 4 ++ cr ++ zeros 8

/-- Own requests that have left by a port and await completion. -/
def portIssued (s : State) (p : Nat) : Bool := s.acc.issued.any (fun i => i.sent && i.port == p && i.wire.isSome)

/-- Is the message that carries a request to the partner still unsent in the port's queue? -/
def stillQueued (x : PortDyn) (wire : Nat) : Bool :=
  x.txq.any (fun m => (m.cls == 5 || m.cls == 6) && (let w := wireParse m.bytes; w.rport * 4096 + whTag w == wire))

/-- Own requests outstanding on the link: sent to the partner and awaiting completion (Table 13.17, step 3). -/
def linkAwaits (s : State) (p : Nat) : Bool :=
  s.acc.issued.any (fun i => i.sent && i.port == p && (match i.wire with | some w => !stillQueued (getPort s p) w | none => false))

/-- Does the port detach on this node's own account, or on its partner's; both may (R592, R593)? -/
def ownDetach (x : PortDyn) : Bool := x.detach == 1 || x.detach == 3
def partnerDetach (x : PortDyn) : Bool := x.detach == 2 || x.detach == 3

/-- Queue a CTL message for the link partner. -/
def sendCtl (s : State) (p op tag dst : Nat) (loc : Bool) (payload : Bytes) : State :=
  queueTx s p 0 none (ctlWire op tag dst (endpointId s) s.route.epoch loc payload)

/-- The partner's endpoint of a port's link. -/
def partnerEp (s : State) (p : Nat) : Nat := bfld (blob s 0x2109 (p + 1)) 8 2

/-- Steps 1 and 2 of a detach (Table 13.17), from ACTIVE; in RETRAIN it waits for the return to ACTIVE (log entry 52). -/
def portDetach (s : State) (p : Nat) : State :=
  let x := getPort s p
  let s := if ownDetach x then s else setPort s p { x with detach := 1, detachAt := s.det.now, ackIn := false }
  if portState s p = 7 then
    let s := setPState s p 9
    sendCtl (sendCtl s p 3 0 (partnerEp s p) true (toLe 1 0xE2 ++ zeros 7)) p 5 0 (partnerEp s p) true []
  else s

/-- A detach goes on when its condition holds: DETACH_ACK as the partner of a detach (R593); the end of an own one (step 4); a compatibility port is
disabled once its own requests have completed (R594). -/
def detachStep (s : State) (p : Nat) : State :=
  let x := getPort s p
  if portState s p ≠ 9 then s
  else if portCompat s p then (if portIssued s p then s else portDown s p 12 false)
  else if partnerDetach x && !x.ackOut && !linkAwaits s p then
    sendCtl (setPort s p { x with ackOut := true }) p 6 0 (partnerEp s p) true []
  else if ownDetach x && x.ackIn && !linkAwaits s p && x.inReqs.isEmpty && x.txq.all (fun m => bit x.quiesce m.cls) && x.split.isNone && x.replay.isEmpty then
    portDown s p 12 true
  else s

/-- A port becomes ACTIVE (R567, R577, R583, R683): fresh from training with the partner's credits, or back from a retrain with its replay buffer, tags,
credits and keys, to replay from the last ACK. -/
def goActive (s : State) (p : Nat) : State :=
  let x := getPort s p
  let x := if portState s p = 8 then { x with stage := 0, resend := x.replay.length, ackAt := s.det.now }
    else { x with stage := 0, credits := (upTo 8).map (fun c => bfld (blob s 0x2109 (p + 1)) (0x18 + 2 * c) 2), ackAt := s.det.now, keyEx := none }
  let s := setPState (setPort s p x) p 7
  let res := resId 1 p
  let w := getWindow s res
  let s := if w.level = 3 && w.closes.isNone then setWindow s res { w with closes := some (s.det.now + windowTicks s 3) } else s
  let s := if ownDetach x || num s 0x2100 1 = 2 then portDetach s p else s
  sendReady (s.acc.issued.length + 1) s

/-- Enter KEY (R618): part 1 is made and sent; while the Thimble makes no keys the state fails (R615). -/
def enterKey (s : State) (p : Nat) : State :=
  let s := setPState s p 6
  if num s 0x2A21 1 ≠ 0 then portDown s p 8 true
  else
    let d := drawBytes s 80
    let priv := beNat (slice d.1 32 48) % (ecN - 1) + 1
    let part := toLe 1 1 ++ zeros 7 ++ slice d.1 0 32 ++ ecEncode (ecMul 384 priv ecG)
    let s := keysMade d.2 1
    sendLink (setPort s p { getPort s p with keyEx := some { priv := priv, mine := part, theirs := none, sentAt := s.det.now } }) p 2 part

/-- A FIT block is taken (R563, R583). -/
def takeFit (s : State) (p : Nat) (b : Bytes) : State :=
  let x := getPort s p
  let here := portState s p == 5 || (portState s p == 8 && x.stage == 5)
  if !here || bfld b 0 1 ≠ 1 then s
  else if bfld b 1 1 = 0 then
    let r := fitResult s p x.fitMine b
    if r.1 ≠ 0 then portDown s p r.1 true
    else sendLink (setPort s p { x with fitOffer := some (slice b 0 64) }) p 1 (fitBlock x.fitMine r)
  else
    match x.fitOffer with
    | none => s
    | some o =>
      let r := fitResult s p x.fitMine o
      let same := bfld b 2 1 == r.2.1 && bfld b 3 1 == r.2.2.1 && (bfld b 4 4).land 0x3F == r.2.2.2.1 && bfld b 0xD 1 == r.2.2.2.2
      if same then
        let l := linkRecord o r
        if portState s p = 8 then
          let old := slice (blob s 0x2109 (p + 1)) 0 48
          if bset (bset l 1 1 0) 0x28 8 0 = bset (bset old 1 1 0) 0x28 8 0 then goActive (setBlob s 0x2109 (p + 1) (bset old 1 1 r.2.2.2.2)) p
          else portDown s p 11 true
        else
          let s := setBlob s 0x2109 (p + 1) l
          if r.2.2.1 = 1 then enterKey s p else goActive s p
      else if x.fitTries < 3 then
        let m := fitOfferOf s p
        sendLink (setPort s p { x with fitTries := x.fitTries + 1, fitMine := m, fitOffer := none }) p 1 m
      else s

/-- The device's identity public key, or the debug identity key in its place (Table 14.4, R613). -/
def identityKey (s : State) : Bytes := (upTo 97).map (Config.identityByte s.sec.debugUnlocked)

/-- This node's part 2 (Table 14.5): its identity public key and a signature. -/
def keyPart2 (s : State) : Bytes × State :=
  let sig := drawBytes s 96
  (toLe 1 2 ++ zeros 7 ++ identityKey s ++ sig.1, sig.2)

/-- Is this node side A of a link, the lower pair of endpoint and port (R618)? -/
def sideA (s : State) (p : Nat) : Bool :=
  let ep := partnerEp s p
  decide (endpointId s < ep) || (endpointId s == ep && decide (p < bfld (blob s 0x2109 (p + 1)) 0xA 1))

/-- Two values in the order A, B. -/
def inOrder (a : Bool) (mine theirs : Bytes) : Bytes := if a then mine ++ theirs else theirs ++ mine

/-- A key and salt from a derived output (R620). -/
def linkKeyOf (s : State) (n gen : Nat) (b : Bytes) : LinkKey :=
  { id := n, gen := gen, count := 0, madeAt := s.det.now, key := slice b 0 32, salt := slice b 32 4 }

/-- The key of a rekey (R621), for the direction from A (`a`) or from B. -/
def rekeyed (s : State) (p : Nat) (a : Bool) (n : Nat) (nonce : Bytes) (gen : Nat) : LinkKey :=
  linkKeyOf s n gen (hkdf384 (slice nonce 0 28 ++ toLe 4 gen) (getPort s p).linkSecret (ascii (if a then "TRF2 rekey A2B" else "TRF2 rekey B2A")))

/-- Is a public key's digest among LINK_PEERS (R619)? Empty entries are ignored. -/
def peerKnown (s : State) (pk : Bytes) : Bool :=
  let d := sha384 pk
  (upTo 64).any (fun k => blob s 0x2A11 (k + 1) == d)

/-- Is a partner's part 2 accepted (R619): its identity among LINK_PEERS, its signature over the transcript and its side good, its ephemeral key on the curve? -/
def part2Ok (s : State) (p : Nat) (mine theirs b : Bytes) : Bool :=
  let a := sideA s p
  let t := sha384 (inOrder a (slice mine 8 129) (slice theirs 8 129) ++ inOrder a (identityKey s) (slice b 8 97))
  peerKnown s (slice b 8 97) && ecdsaOk (slice b 8 97) (t ++ toLe 1 (if a then 2 else 1)) (slice b 0x69 96) && (ecDecode (slice theirs 0x28 97)).isSome

/-- A part 1 (R618, R619): the first is kept and answered with part 2; the same again is answered again; a changed one fails the exchange. -/
def takePart1 (s : State) (p : Nat) (b : Bytes) : State :=
  if portState s p ≠ 6 || bfld b 0 1 ≠ 1 then s
  else
    match (getPort s p).keyEx with
    | none => s
    | some k =>
      let b := slice b 0 137
      let answer := fun (s : State) =>
        let q := keyPart2 s
        sendLink q.2 p 2 q.1
      match k.theirs with
      | none => answer (setPort s p { getPort s p with keyEx := some { k with theirs := some b } })
      | some t => if t = b then answer s else portDown s p 8 true

/-- A part 2 (R619, R620): accepted, the link secret and the keys of both directions are derived, and the port becomes ACTIVE. -/
def takePart2 (s : State) (p : Nat) (b : Bytes) : State :=
  if portState s p ≠ 6 || bfld b 0 1 ≠ 2 then s
  else
    match (getPort s p).keyEx with
    | none => s
    | some k =>
      match k.theirs with
      | none => s
      | some t =>
        if num s 0x2A21 1 ≠ 0 || !part2Ok s p k.mine t b then portDown s p 8 true
        else
          let a := sideA s p
          let shared := match ecDecode (slice t 0x28 97) with | some q => ecdh k.priv q | none => zeros 48
          let out := fun (info : String) => hkdf384 (inOrder a (slice k.mine 8 32) (slice t 8 32)) shared (ascii info)
          let f := freshFree s
          let g := freshFree f.2
          let ab := out "TRF2 link A2B"
          let ba := out "TRF2 link B2A"
          let s := keysGone (keysMade g.2 3) 1
          goActive (setPort s p { getPort s p with keyEx := none, linkSecret := out "TRF2 link secret",
                                                   txKey := some (linkKeyOf s f.1 0 (if a then ab else ba)), rxKey := some (linkKeyOf s g.1 0 (if a then ba else ab)) }) p

/-- A retrain begins (R583), from ACTIVE; an own one asks the partner for its own (log entry 53). -/
def startRetrain (s : State) (p cause : Nat) : State :=
  if portState s p ≠ 7 then s
  else
    let s := if cause = 3 then s else sendLink s p 5 []
    let s := portFault (portCount s p 0x28 1) 0x2B p 2 (toLe 1 cause)
    if outOfService s (resId 1 p) then holdDown s p
    else setPState (setPort s p { getPort s p with stage := 2, cause := cause }) p 8

/-- ACK of a LINK or IDLE flit, or of an accepted DATA flit (R574, R621): acknowledged flits leave the replay buffer; a KEY_UPDATE acknowledged brings
the new key into use, and the old one goes once no flit under it is left. -/
def takeAck (s : State) (p ack : Nat) : State :=
  let x := getPort s p
  match x.replay.findIdx? (fun f => f.seq == ack) with
  | none => s
  | some k =>
    let rest := x.replay.drop (k + 1)
    let upd := match x.updateSeq with
      | some q => (x.replay.take (k + 1)).any (fun f => f.seq == q)
      | none => false
    let x := { x with replay := rest, resend := min x.resend rest.length, ackAt := s.det.now, replays := 0 }
    let x := if upd then { x with txOld := x.txKey, txKey := x.updateKey, updateKey := none, updateSeq := none } else x
    let s := if upd then bump s 0x2A10 3 else s
    match x.txOld with
    | some o => if rest.any (fun f => f.key == o.id) then setPort s p x else keysGone (setPort s p { x with txOld := none }) 1
    | none => setPort s p x

/-- Replay from the oldest unacknowledged flit (R574); after REPLAY_LIMIT replays of it in vain the port retrains. -/
def replayFrom (s : State) (p : Nat) : State :=
  let x := getPort s p
  if x.replay.isEmpty then s
  else if num s 0x2100 7 ≤ x.replays then startRetrain s p 1
  else setPort (portCount s p 0x20 1) p { x with resend := x.replay.length, replays := x.replays + 1, ackAt := s.det.now }

/-- Credits that a flit returns (R577). -/
def takeCredits (s : State) (p : Nat) (l : List (Nat × Nat)) : State :=
  forS l s (fun s e =>
    let x := getPort s p
    setPort s p { x with credits := x.credits.set e.1 (x.credits.getD e.1 0 + e.2) })

/-- What a LINK flit brings beside its operation. -/
def takeLinkHdr (s : State) (p : Nat) (l : LinkHdr) : State :=
  let s := takeCredits (if l.ackV then takeAck s p l.ack else s) p l.credits
  if l.nak then replayFrom s p else s

/-- Is a LINK flit discarded for want of authentication (R576)? Counted, and PORT_AUTH. -/
def linkRefused (s : State) (p : Nat) (l : LinkHdr) : Bool := (getPort s p).rxKey.isSome && !l.authOk

/-- A flit without a good tag (R576). -/
def authFail (s : State) (p : Nat) (sealed : Bool) : State := holdDown (portFault (portCount s p 0x30 1) 0x2A p 1 (toLe 1 (b2n sealed))) p

/-- A LINK operation on a port in one of some states, after its header. -/
def onLink (s : State) (p : Nat) (l : LinkHdr) (f : State → State) : Res :=
  .next (if p < 32 && (portState s p == 7 || portState s p == 8 || portState s p == 9) then
      (if linkRefused s p l then authFail (portCount s p 8 1) p false else fin (f (takeLinkHdr (portCount s p 8 1) p l)))
    else s)

end Sys2Proof.Machine
end

