-- ==== Sys2Proof/Machine/PortFlits.lean ====
section
/-! DEFINITION. The fabric ports (ch. 13), second part: messages received (R572, R579, R580), flits received (R573 to R576), flits sent (R577, R578), rekeying (R621). -/
namespace Sys2Proof.Machine

/-- A NOTICE is recorded among the last 16 of its port, asserts the port's source (R580), and does what its code says (R675, Table 17.6). -/
def takeNotice (s : State) (p ep code unit data : Nat) : State :=
  let e := toLe 2 code ++ toLe 2 unit ++ zeros 4 ++ toLe 8 data ++ toLe 8 s.det.count
  let s := latch (setBlob s 0x210E (p + 1) (slice (e ++ blob s 0x210E (p + 1)) 0 384)) (64 + p)
  match code with
  | 0x0100 => takeBind s ep unit data
  | 0x0101 => takeBound s ep data
  | 0x0102 => takeRefused s ep data
  | 0x0103 => takeUnbind s ep data
  | _ => s

/-- QUIESCE (R581): the masked classes of REQ, ORD, BLK and EVT. -/
def takeQuiesce (s : State) (p mask : Nat) : State := setPort s p { getPort s p with quiesce := mask.land 0xE2 }

/-- RESUME (R581): requests that waited may leave. -/
def takeResume (s : State) (p : Nat) : State :=
  let s := setPort s p { getPort s p with quiesce := 0 }
  sendReady (s.acc.issued.length + 1) s

/-- DETACH_REQ (R593): this side takes step 1, and DETACH_ACK goes once its own requests have completed, be it detaching itself or not. -/
def takeDetachReq (s : State) (p : Nat) : State :=
  let x := getPort s p
  if portState s p = 7 then detachStep (setPState (setPort s p { x with detach := 2, ackOut := false, quiesce := 0xE2 }) p 9) p
  else if portState s p = 9 && x.detach = 1 then detachStep (setPort s p { x with detach := 3, ackOut := false, quiesce := 0xE2 }) p
  else s

/-- DETACH_ACK (R592). -/
def takeDetachAck (s : State) (p : Nat) : State :=
  if ownDetach (getPort s p) then detachStep (setPort s p { getPort s p with ackIn := true }) p else s

/-- KEY_UPDATE (R621): the new key is derived and held beside the old one; a GEN that does not follow takes the port DOWN. -/
def takeKeyUpdate (s : State) (p : Nat) (nonce : Bytes) (gen : Nat) : State :=
  let x := getPort s p
  match x.rxKey with
  | none => s
  | some k =>
    if gen % 2 ^ 32 ≠ (k.gen + 1) % 2 ^ 32 then portDown s p 8 true
    else
      let f := freshFree s
      let s := keysGone (keysMade (bump f.2 0x2A10 3) 1) (b2n x.rxOld.isSome)
      setPort s p { x with rxOld := some k, rxKey := some (rekeyed s p (!sideA s p) f.1 nonce (gen % 2 ^ 32)) }

/-- A CTL message (Table 13.10). -/
def takeCtl (s : State) (p : Nat) (m : WireMsg) : State :=
  match whOp m with
  | 1 => sendCtl s p 2 (m.rport * 4096 + whTag m) m.src m.loc []
  | 2 => setPort s p { getPort s p with pings := (getPort s p).pings.filter (fun t => t != whTag m) }
  | 3 => takeQuiesce s p (bfld m.payload 0 1)
  | 4 => takeResume s p
  | 5 => takeDetachReq s p
  | 6 => takeDetachAck s p
  | 7 => takeKeyUpdate s p (slice m.payload 0 28) (bfld m.payload 28 4)
  | _ => s

/-- A message that is discarded (R572, R579). -/
def dropMsg (s : State) (p : Nat) : State := portCount s p 0x38 1

/-- The kind of transaction of a REQ opcode (Table 5.4). -/
def reqKind : Nat → Option TxnKind
  | 1 => some .rdS | 2 => some .rdOwn | 3 => some .upgrade | 4 => some .peek
  | _ => none

/-- A REQ (R126, R127, R155, R579): it keeps its credit until it has passed its checks and has a tracker; one with an opcode that Table 5.4 does not list is a protocol error. -/
def takeReqMsg (s : State) (p : Nat) (m : WireMsg) : State :=
  let c := cohOf m p
  match reqKind (whOp m) with
  | some k => cohReqBy s true c k
  | none => protocolError (giveCredit s p 1) c.agent (whOp m) 1 p

/-- The completion that an RSP or DAT message carries (Table 6.2). -/
def completionOf (m : WireMsg) : Completion := { tag := m.rport * 4096 + whTag m, status := whStatus m, epoch := m.epoch, data := m.payload.take 64 }

/-- An RSP message. -/
def takeRsp (s : State) (p : Nat) (m : WireMsg) : State :=
  let c := cohOf m p
  match whOp m with
  | 0x01 => snoopReply s c none 1 3
  | 0x03 => takeCmpAck s c
  | 0x04 => takeWriteback s c false
  | 0x10 => takeCmp s (completionOf m) 0
  | 0x11 => takeCmp s (completionOf m) 1
  | o => protocolError s c.agent o 3 p

/-- A DAT message. -/
def takeDat (s : State) (p : Nat) (m : WireMsg) : State :=
  let c := cohOf m p
  match whOp m with
  | 0x03 => snoopReply s { c with flag := false } (some (slice c.data 0 64, c.status == 2)) 3 4
  | 0x04 => takeWriteback s c true
  | 0x10 => takeCmp s (completionOf m) 2
  | o => protocolError s c.agent o 4 p

/-- An ORD or BLK message: it keeps its credit until it has passed its checks and has a tracker (R155). One with an opcode that Table 6.2 does not list, or a reserved AOP, completes UNSUP once the
checks of its port have passed it (R26). -/
def takeMem (s : State) (p : Nat) (m : WireMsg) : State :=
  let r := reqOf m p (portFeature s p 0)
  let h := r.1.head
  if r.2 then arriveBy s (some (whClass m)) h r.1.op
  else if !portTakes s p then giveCredit s p (whClass m)
  else
    let x := getPort s p
    let s := setPort s p { x with inReqs := x.inReqs ++ [(h.tag, whClass m)] }
    match vestibule s h r.1.op with
    | .back st d s => completeReq (giveCredit s p (whClass m)) h st d
    | .pass h' s => completeReq (giveCredit s p (whClass m)) h' 6 (zeroData r.1.op)

/-- One message received: credits for its buffer are owed again (Table 13.3), at once or when the request leaves the port (R155), and it is taken (R572, R579, R580). -/
def takeMsg (s : State) (p : Nat) (b : Bytes) : State :=
  let m := wireParse b
  let cls := whClass m
  let drop := m.dst ≠ endpointId s && !m.loc
  let keeps := !drop && (cls == 1 || cls == 5 || cls == 6)
  let s := if keeps then s else giveCredit s p cls
  if drop then dropMsg s p
  else
    match cls with
    | 0 => takeCtl s p m
    | 1 => takeReqMsg s p m
    | 3 => takeRsp s p m
    | 4 => takeDat s p m
    | 5 => takeMem s p m
    | 6 => takeMem s p m
    | 7 => if whOp m = 1 then takeNotice s p m.src (bfld m.payload 0 2) (bfld m.payload 2 2) (bfld m.payload 8 8) else dropMsg s p
    | _ => dropMsg s p

/-- The messages that begin in a flit's units, one after another; what is left of one that does not end in them (R569). -/
def takeMsgs (p : Nat) : Nat → State → Bytes → State × Bytes
  | 0, s, _ => (s, [])
  | n + 1, s, b =>
    let k := wireSize b
    if b.length < 8 || k < 3 then (s, [])
    else if b.length < 8 * k then (s, b)
    else takeMsgs p n (takeMsg s p (b.take (8 * k))) (b.drop (8 * k))

/-- The units of an accepted DATA flit: first the rest of a message begun before (CONT units), then those that begin here. A flit that goes ahead of the
rest of a split message has CONT 0 (log entry 54). -/
def takeUnits (s : State) (p cont : Nat) (u : Bytes) : State :=
  let x := getPort s p
  if x.rxPart.isEmpty || cont = 0 then
    let r := takeMsgs p 29 s (u.drop (8 * cont))
    if r.2.isEmpty then r.1 else setPort r.1 p { getPort r.1 p with rxPart := r.2 }
  else
    let first := x.rxPart ++ u.take (8 * cont)
    let k := wireSize first
    if first.length < 8 * k then setPort s p { x with rxPart := first }
    else
      let s := takeMsg (setPort s p { x with rxPart := [] }) p (first.take (8 * k))
      let r := takeMsgs p 29 s (u.drop (8 * cont))
      setPort r.1 p { getPort r.1 p with rxPart := r.2 }

/-- The checks of a flit (R573, R576): what is wrong (0 nothing, 1 its CRC, 2 its tag), and its bytes after FEC. The lane of a corrected symbol is not
derivable from the spec: a free value (log entry 55). -/
def rxCheck (s : State) (p : Nat) (f : RxFlit) : Nat × Bytes × State :=
  let d := flitFec f.raw
  let s := portCount (portCount s p 8 1) p 0x10 d.2
  let s := if d.2 = 0 then s
    else
      let l := freshFree s
      noteFault l.2 0x29 (resId 1 p) 0xFF 0xFF 0 (toLe 1 (Config.freeNat l.1 % 8))
  if !flitCrcOk d.1 then (1, d.1, portCount s p 0x18 1)
  else
    let x := getPort s p
    if x.rxKey.isSome && (!flAuth d.1 || f.key = 0 || (f.key = 2 && x.rxOld.isNone)) then (2, d.1, s)
    else
      let cnt := fun (k : Option LinkKey) => k.map (fun y => { y with count := y.count + 1 })
      (0, d.1, setPort s p (if f.key = 2 then { x with rxOld := cnt x.rxOld } else { x with rxKey := cnt x.rxKey }))

/-- Ask for a replay once (R574). -/
def askReplay (s : State) (p : Nat) : State :=
  let x := getPort s p
  if x.nakOut then s else setPort s p { x with nakOut := true, nakDue := true }

/-- Can the port take flits? -/
def takesFlits (s : State) (p : Nat) : Bool := decide (p < 32) && num s 0x2101 (p + 1) == 1 && (portState s p == 7 || portState s p == 9)

/-- A DATA flit (R573, R574): accepted only when it is intact and the next in sequence. -/
def takeData (s : State) (p : Nat) (f : RxFlit) : State :=
  let c := rxCheck s p f
  let b := c.2.1
  let s := c.2.2
  if c.1 = 1 then holdDown (portFault (askReplay s p) 0x28 p 1 (toLe 2 (flSeq b))) p
  else if c.1 = 2 then authFail (askReplay s p) p (flSealed b)
  else if flType b ≠ 0 then s
  else
    let x := getPort s p
    if flSeq b ≠ (x.rxSeq + 1) % 4096 then askReplay s p
    else
      let gone := f.key == 1 && x.rxOld.isSome
      let s := setPort s p { x with rxSeq := flSeq b, rxAny := true, nakOut := false, nakDue := false, rxOld := if f.key = 1 then none else x.rxOld }
      let s := if gone then keysGone s 1 else s
      let s := takeCredits (if flAckV b then takeAck s p (flAck b) else s) p (flCredits b)
      let u := if x.rxKey.isSome then (if flSealed b then slice f.plain 0 208 else slice b 12 208) else slice b 12 224
      let s := takeUnits s p (flCont b) u
      let s := if flNak b then replayFrom s p else s
      detachStep s p

/-- DATA_FLIT (R574). -/
def execDataFlit (port : Nat) (f : RxFlit) (s : State) : Res := .next (if takesFlits s port then fin (takeData s port f) else s)

/-- An IDLE flit (R571): its ACK, NAK and credits. -/
def takeIdle (s : State) (p : Nat) (f : RxFlit) : State :=
  let c := rxCheck s p f
  let b := c.2.1
  if c.1 = 1 then c.2.2
  else if c.1 = 2 then authFail c.2.2 p (flSealed b)
  else if flType b ≠ 1 then c.2.2
  else
    let s := takeCredits (if flAckV b then takeAck c.2.2 p (flAck b) else c.2.2) p (flCredits b)
    detachStep (if flNak b then replayFrom s p else s) p

/-- IDLE_FLIT (R571). -/
def execIdleFlit (port : Nat) (f : RxFlit) (s : State) : Res := .next (if takesFlits s port then fin (takeIdle s port f) else s)

/-- ACK_TIMEOUT (R574): ACK has not advanced for ACK_TIMEOUT_NS while flits are unacknowledged. -/
def execAckTimeout (port : Nat) (s : State) : Res :=
  .next (if takesFlits s port && !(getPort s port).replay.isEmpty && due s (getPort s port).ackAt (num s 0x2100 6 / 10) then fin (replayFrom s port) else s)

/-- Does a class travel in SEALED flits on an outer link (R576)? -/
def sealedClass (cls : Nat) : Bool := cls == 4 || cls == 5 || cls == 6

/-- May the first waiting message of a class be started: a credit, no QUIESCE, and on a link with keys the kind of the flit (R576, R577)? Its place. -/
def sendable (x : PortDyn) (kind : Option Bool) (cls : Nat) : Option Nat :=
  if x.credits.getD cls 0 = 0 || bit x.quiesce cls then none
  else if x.txKey.isSome && (match kind with | some k => k != sealedClass cls | none => false) then none
  else x.txq.findIdx? (fun m => m.cls == cls)

/-- The message to start next (R578): CTL; RSP and DAT in order of arrival; SNP; REQ, ORD, BLK and EVT in round robin. Its place, and the next turn. -/
def pickMsg (x : PortDyn) (kind : Option Bool) : Option (Nat × Nat) :=
  match sendable x kind 0 with
  | some i => some (i, x.turn)
  | none =>
    let two := match sendable x kind 3, sendable x kind 4 with
      | some a, some b => some (min a b)
      | some a, none => some a
      | none, b => b
    match two with
    | some i => some (i, x.turn)
    | none =>
      match sendable x kind 2 with
      | some i => some (i, x.turn)
      | none =>
        (upTo 4).findSome? (fun k =>
          let t := (x.turn + k) % 4
          (sendable x kind ([1, 5, 6, 7].getD t 1)).map (fun i => (i, (t + 1) % 4)))

/-- A DATA flit in the making: the port, its units so far, messages begun, whether it is of the SEALED kind once known, and whether a KEY_UPDATE ends in it. -/
structure FlitBuild where
  x : PortDyn
  units : Bytes
  msgs : Nat
  kind : Option Bool
  upd : Bool

/-- Is the message a KEY_UPDATE? -/
def isKeyUpdate (m : TxMsg) : Bool := m.cls == 0 && whOp (wireParse m.bytes) == 7

/-- Start messages while units are left; `ctl`: CTL alone. -/
def fillFlit (cap : Nat) (ctl : Bool) : Nat → FlitBuild → FlitBuild
  | 0, f => f
  | n + 1, f =>
    if cap * 8 ≤ f.units.length || f.x.split.isSome then f
    else
      let pick := if ctl then (sendable f.x f.kind 0).map (fun i => (i, f.x.turn)) else pickMsg f.x f.kind
      match pick with
      | none => f
      | some (i, t) =>
        match f.x.txq[i]? with
        | none => f
        | some m =>
          let room := cap * 8 - f.units.length
          if ctl && room < m.bytes.length then f
          else
            let sl := sealedClass m.cls
            let up := isKeyUpdate m
            let whole := decide (m.bytes.length ≤ room)
            let x := { f.x with txq := f.x.txq.eraseIdx i, turn := t, credits := f.x.credits.set m.cls (f.x.credits.getD m.cls 0 - 1),
                                split := if whole then none else some (b2n sl + 2 * b2n up, m.bytes.drop room) }
            fillFlit cap ctl n { x := x, units := f.units ++ m.bytes.take room, msgs := f.msgs + 1, kind := some sl, upd := f.upd || (up && whole) }

/-- The DATA flit of this boundary (R569, R578): at least once in eight led by a waiting CTL message, else the rest of a split message first. Units, CONT. -/
def buildFlit (x : PortDyn) (cap : Nat) : FlitBuild × Nat :=
  let f0 : FlitBuild := { x := x, units := [], msgs := 0, kind := none, upd := false }
  let sealedSplit := match x.split with | some (k, _) => k % 2 == 1 | none => false
  let lead := decide (7 ≤ x.sinceCtl) && (sendable x (some false) 0).isSome && !(x.txKey.isSome && sealedSplit)
  match x.split with
  | none => (fillFlit cap false 29 f0, 0)
  | some (k, rest) =>
    if lead then
      let f := fillFlit cap true 29 { f0 with x := { x with split := none } }
      ({ f with x := { f.x with split := some (k, rest) } }, 0)
    else
      let whole := decide (rest.length ≤ cap * 8)
      let f := { f0 with x := { x with split := if whole then none else some (k, rest.drop (cap * 8)) }, units := rest.take (cap * 8),
                         kind := some (k % 2 == 1), upd := decide (2 ≤ k) && whole }
      (fillFlit cap false 29 f, min cap (divUp rest.length 8))

/-- Send one flit (R568, R571, R574, R578): a replayed one, byte for byte; a DATA flit while fewer than 512 are unacknowledged and something can go; else IDLE. -/
def flitBoundary (s : State) (p : Nat) : State :=
  let x := getPort s p
  let idle := fun (s : State) =>
    let f := formFlit s p 1 false 0 0 0 []
    emit f.2 (.flit p f.1)
  if 0 < x.resend then
    match x.replay[x.replay.length - x.resend]? with
    | some f => emit (setPort (portCount s p 0 1) p { x with resend := x.resend - 1 }) (.flit p f.bytes)
    | none => idle s
  else if 512 ≤ x.replay.length then idle s
  else
    let b := buildFlit x (if x.txKey.isSome then 26 else 28)
    let f := b.1
    if f.units.isEmpty then idle s
    else
      let led := b.2 == 0 && (match x.split with | some _ => true | none => whClass (wireParse f.units) == 0)
      let y := { f.x with txSeq := (x.txSeq + 1) % 4096, sinceCtl := if led then 0 else x.sinceCtl + 1, updateSeq := if f.upd then some x.txSeq else x.updateSeq,
                          ackAt := if x.replay.isEmpty then s.det.now else x.ackAt }
      let key := match x.txKey with | some k => k.id | none => 0
      let r := formFlit (setPort s p y) p 0 (x.txKey.isSome && f.kind == some true) b.2 x.txSeq 0 f.units
      let z := getPort r.2 p
      emit (setPort r.2 p { z with replay := z.replay ++ [{ seq := x.txSeq, bytes := r.1, msgs := f.msgs, key := key }] }) (.flit p r.1)

/-- FLIT_BOUNDARY (R578). -/
def execFlitBoundary (port : Nat) (s : State) : Res :=
  .next (if takesFlits s port then fin (detachStep (flitBoundary s port) port) else s)

/-- A message of the CTL or EVT class on its own. -/
def onMsg (s : State) (p : Nat) (f : State → State) : Res := .next (if takesFlits s p then fin (f s) else s)

/-- PING (R580). -/
def execPing (port src tag : Nat) (loc : Bool) (s : State) : Res := onMsg s port (fun s => sendCtl s port 2 tag src loc [])

/-- PONG (R580). -/
def execPong (port tag : Nat) (s : State) : Res :=
  onMsg s port (fun s => setPort s port { getPort s port with pings := (getPort s port).pings.filter (fun t => t != tag) })

/-- QUIESCE (R581). -/
def execQuiesce (port mask : Nat) (s : State) : Res := onMsg s port (fun s => takeQuiesce s port mask)

/-- RESUME (R581). -/
def execResume (port : Nat) (s : State) : Res := onMsg s port (fun s => takeResume s port)

/-- DETACH_REQ (R593). -/
def execDetachReq (port : Nat) (s : State) : Res := onMsg s port (fun s => takeDetachReq s port)

/-- DETACH_ACK (R592). -/
def execDetachAck (port : Nat) (s : State) : Res := onMsg s port (fun s => takeDetachAck s port)

/-- KEY_UPDATE (R621). -/
def execKeyUpdate (port : Nat) (nonce : Bytes) (gen : Nat) (s : State) : Res := onMsg s port (fun s => takeKeyUpdate s port nonce gen)

/-- NOTICE (R580). -/
def execNotice (port ep code unit data : Nat) (s : State) : Res := onMsg s port (fun s => takeNotice s port ep code unit data)

/-- REKEY_DUE (R621): a new transmit key is drawn, and KEY_UPDATE is sent; not while an old key is held, an update is on its way, or the Thimble makes no keys (R615). -/
def execRekeyDue (port : Nat) (s : State) : Res :=
  let x := getPort s port
  .next (match x.txKey with
    | none => s
    | some k =>
      if !takesFlits s port || num s 0x2A21 1 ≠ 0 || x.txOld.isSome || x.updateKey.isSome || (k.count < num s 0x2A10 1 && !due s k.madeAt (secT (num s 0x2A10 2))) then s
      else
        let n := drawBytes s 28
        let f := freshFree n.2
        let new := rekeyed s port (sideA s port) f.1 n.1 ((k.gen + 1) % 2 ^ 32)
        let s := setPort (keysMade f.2 1) port { x with updateKey := some new }
        sendCtl s port 7 0 (partnerEp s port) true (n.1 ++ toLe 4 new.gen))

/-- COUNTER_EXHAUSTED (R622). -/
def execCounterExhausted (port : Nat) (s : State) : Res :=
  .next (match (getPort s port).txKey with
    | some k => if 2 ^ 63 ≤ k.count then fin (portDown s port 8 true) else s
    | none => s)

end Sys2Proof.Machine
end

