-- ==== Sys2Proof/Machine/PortRows.lean ====
section
/-! DEFINITION. The fabric ports (ch. 13), third part: the commands of the port block and of the ports, training step by step, LINK operations, timeouts. -/
namespace Sys2Proof.Machine

/-- START of the port block (R551): not before an endpoint ID has been set, nor once the sled is going (R742); the firmware releases the ports' pads (R716). -/
def portsStart (s : State) : WriteOut :=
  if num s 0x2200 2 ≠ 1 || s.pwr.sledGone then refuse s abINCONS else applied (forS (upTo 32) (setNum s 0x2100 1 3) (fun s p => releasePad s (112 + p)))

/-- STOP of the port block (R551, R594): every TRF port is detached. -/
def portsStop (s : State) : WriteOut :=
  if num s 0x2100 1 ≠ 3 then applied s
  else applied (portsStopEnd (forS (trfPorts s) (setNum s 0x2100 1 2) (fun s p => if portState s p = 7 || portState s p = 8 then portDetach s p else s)))

/-- A write of PORTS_CMD. -/
def writePortsCmd (s : State) (v : Nat) : WriteOut := if v = 1 then portsStart s else if v = 2 then portsStop s else refuse s abRANGE

/-- PORTS_START (R551). -/
def execPortsStart (w : Writer) (s : State) : Res := endWrite w (portsStart s)

/-- PORTS_STOP (R551). -/
def execPortsStop (w : Writer) (s : State) : Res := endWrite w (portsStop s)

/-- A write of JOIN_EPOCH (R553): only while the port block is not running; the replaced epoch gets no grace. -/
def writeJoin (s : State) (b : Bytes) : WriteOut :=
  if b.length ≠ 2 then refuse s abTYPE
  else if 2 ≤ portsRun s then refuse s abSTATE
  else
    let s := commitMap s (leNat b)
    applied { s with route := { s.route with prev := none } }

/-- JOIN_EPOCH (R553). -/
def execJoinEpoch (w : Writer) (value : Bytes) (s : State) : Res := endWrite w (writeJoin s value)

/-- May the port start to train: not held out of service, DISABLED or DOWN, the device not in N3 (R556), its block running (R590); a compatibility port is its own block. -/
def mayAttach (s : State) (p : Nat) : Bool :=
  (portState s p == 1 || portState s p == 10) && num s 0x2000 1 != 3 && !outOfService s (resId 1 p) && !s.pwr.sledGone &&
  (portCompat s p || (num s 0x2101 (p + 1) == 1 && num s 0x2100 1 == 3))

/-- Training starts; a compatibility port enters COMPAT (log entry 56). -/
def attach (s : State) (p : Nat) (byAttach : Bool) : State :=
  if !mayAttach s p then s else if portCompat s p then setPState s p 11 else startDetect s p byAttach

/-- PORT_CMD 1 (R590). -/
def portAttach (s : State) (p : Nat) : WriteOut := applied (attach s p true)

/-- PORT_CMD 2 (R591, R594). -/
def portDetachCmd (s : State) (p : Nat) : WriteOut :=
  if s.coh.agents.any (fun e => e.2.v && e.2.port == p) then refuse s abINCONS
  else if portCompat s p then
    (if portState s p = 11 || portState s p = 12 then
      applied (detachStep (setPState (setPort s p { getPort s p with detach := 1, detachAt := s.det.now }) p 9) p)
    else applied s)
  else if portState s p = 7 || portState s p = 8 then applied (portDetach s p)
  else applied s

/-- PORT_CMD 3 (R583). -/
def portRetrainCmd (s : State) (p : Nat) : WriteOut := applied (startRetrain s p 4)

/-- PORT_CMD 4 (R594): DOWN at once, with DOWN_NOTICE where flits run. -/
def portForceDown (s : State) (p : Nat) : WriteOut :=
  if [0, 1, 10].contains (portState s p) then applied s
  else applied (portDown s p 15 (!portCompat s p && (portState s p == 7 || portState s p == 9)))

/-- A write of PORT_CMD. -/
def writePortCmd (s : State) (p v : Nat) : WriteOut :=
  match v with
  | 1 => portAttach s p
  | 2 => portDetachCmd s p
  | 3 => portRetrainCmd s p
  | 4 => portForceDown s p
  | _ => refuse s abRANGE

/-- PORT_ATTACH (R590). -/
def execPortAttach (w : Writer) (port : Nat) (s : State) : Res := endWrite w (if port < 32 then portAttach s port else refuse s 1)

/-- PORT_DETACH (R592). -/
def execPortDetach (w : Writer) (port : Nat) (s : State) : Res := endWrite w (if port < 32 then portDetachCmd s port else refuse s 1)

/-- PORT_RETRAIN_CMD (R583). -/
def execPortRetrainCmd (w : Writer) (port : Nat) (s : State) : Res := endWrite w (if port < 32 then portRetrainCmd s port else refuse s 1)

/-- PORT_FORCE_DOWN (R594). -/
def execPortForceDown (w : Writer) (port : Nat) (s : State) : Res := endWrite w (if port < 32 then portForceDown s port else refuse s 1)

/-- Is the port's re-attach queued in, or run by, the recovery sequencer (R684)? -/
def reattachQueued (s : State) (p : Nat) : Bool :=
  s.flt.queue.any (fun e => e.res == resId 1 p) || (match s.flt.running with | some e => e.res == resId 1 p | none => false)

/-- ATTACH_POLL (R555): with AUTO_ATTACH, every ATTACH_POLL_MS; a re-attach that the sequencer holds comes through it (R684). -/
def execAttachPoll (port : Nat) (s : State) : Res :=
  .next (if port < 32 && num s 0x2105 (port + 1) = 1 && mayAttach s port && !reattachQueued s port &&
      due s (getPort s port).pollAt (msT (num s 0x2100 10)) then
    attach (setPort s port { getPort s port with pollAt := s.det.now }) port false
  else s)

/-- DETECT_DONE (R555, R583): `lanes` found a receiver. -/
def execDetectDone (port lanes : Nat) (s : State) : Res :=
  let x := getPort s port
  let half := fld lanes 0 4 == 15 || fld lanes 4 4 == 15
  .next (if 32 ≤ port || x.stage ≠ 2 then s
    else if portState s port = 2 then
      (if half then setPState (setPort s port { x with stage := 3 }) port 3
       else if x.byAttach then fin (portDown s port 1 false)
       else portsStopEnd (setPState (setPort s port { x with stage := 0 }) port x.cameFrom))
    else if portState s port = 8 then
      (if fld lanes 0 8 = 0 then fin (portDown s port 9 false) else setPort s port { x with stage := 3 })
    else s)

/-- POLL_DONE (R555). -/
def execPollDone (port : Nat) (s : State) : Res :=
  .next (if port < 32 && (getPort s port).stage = 3 && (portState s port = 3 || portState s port = 8) then startEq s port else s)

/-- A state's time limit has passed, and the port goes DOWN (R555). -/
def stateTimeout (s : State) (p st limit reason : Nat) : Res :=
  .next (if p < 32 && portState s p = st && due s (getPort s p).since limit then fin (portDown s p reason false) else s)

/-- POLL_TIMEOUT (R555). -/
def execPollTimeout (port : Nat) (s : State) : Res := stateTimeout s port 3 (msT 4) 2

/-- EQ ends without a width: DOWN EQ_FAIL; a training that started from held values is followed by one from the presets (R560). -/
def eqFail (s : State) (p : Nat) : State :=
  let x := getPort s p
  portDown (setPort s p { x with history := x.history && !x.fromHeld }) p 3 false

/-- EQ_PHASE_END (R559, R560): the lanes' values after phases 1 and 2; after phase 3 the lanes good on both sides give the width. -/
def execEqPhaseEnd (port : Nat) (lanes : List EqLane) (good partnerGood : Nat) (s : State) : Res :=
  let x := getPort s port
  let frozen := num s 0x210A (port + 1) == 1
  .next (if 32 ≤ port || x.stage ≠ 4 || !(portState s port == 4 || portState s port == 8) then s
    else if x.phase < 3 then
      let b := eqBlob s port
      let s := setBlob s 0x210B (port + 1) ((upTo 8).flatMap (fun l =>
        match lanes[l]? with
        | some e => eqLane b l x.phase frozen e
        | none => slice b (12 * l) 12))
      setPort s port { x with phase := if x.phase = 1 && portState s port = 8 then 3 else x.phase + 1 }
    else
      let b := eqBlob s port
      let s := setBlob s 0x210B (port + 1) ((upTo 8).flatMap (fun l => if bit good l then slice b (12 * l) 12 else bset (slice b (12 * l) 12) 5 1 3))
      if widthOf (good.land partnerGood) = 0 then fin (eqFail (setPort s port { x with good := good % 256 }) port)
      else fin (enterFit (setPort s port { x with good := good % 256, history := true }) port))

/-- EQ_TIMEOUT (R555, R560). -/
def execEqTimeout (port : Nat) (s : State) : Res :=
  .next (if port < 32 && portState s port = 4 && due s (getPort s port).since (msT 30) then fin (eqFail s port) else s)

/-- FIT (R563). -/
def execFit (port : Nat) (block : Bytes) (s : State) : Res := .next (if port < 32 then fin (takeFit s port block) else s)

/-- FIT_TIMEOUT (R555). -/
def execFitTimeout (port : Nat) (s : State) : Res := stateTimeout s port 5 (msT 1) 7

/-- KEY_PART1 (R618). -/
def execKeyPart1 (port : Nat) (part : Bytes) (s : State) : Res := .next (if port < 32 then fin (takePart1 s port part) else s)

/-- KEY_PART2 (R619). -/
def execKeyPart2 (port : Nat) (part : Bytes) (s : State) : Res := .next (if port < 32 then fin (takePart2 s port part) else s)

/-- KEY_RESEND (R618): every 10 µs until the partner's part 2 arrives. -/
def execKeyResend (port : Nat) (s : State) : Res :=
  .next (match (getPort s port).keyEx with
    | some k =>
      if portState s port = 6 && due s k.sentAt (usT 10) then
        sendLink (setPort s port { getPort s port with keyEx := some { k with sentAt := s.det.now } }) port 2 k.mine
      else s
    | none => s)

/-- KEY_TIMEOUT (R555). -/
def execKeyTimeout (port : Nat) (s : State) : Res := stateTimeout s port 6 (msT 50) 8

/-- One step of a coefficient of the own transmitter on a lane, where R557 admits it. -/
def eqStep (s : State) (p lane : Nat) (post up : Bool) : State :=
  let b := eqBlob s p
  let at_ := fun (k n : Nat) => bfld b (12 * lane + k) n
  let step := fun (v : Nat) => if up then (v + 1) % 256 else (v + 255) % 256
  let pre := if post then at_ 0 1 else step (at_ 0 1)
  let pst := if post then step (at_ 2 1) else at_ 2 1
  if coefOk pre pst then setBlob s 0x210B (p + 1) (bset (bset (bset b (12 * lane) 1 pre) (12 * lane + 1) 1 (cMain pre pst)) (12 * lane + 2) 1 pst)
  else s

/-- EQ_REQ (R561, R562): applied and acknowledged; refused while PORT_EQ_FREEZE. The spec gives the flit no payload form: byte 0 the lane, byte 1 bit 0 POST,
bit 1 up, bit 2 REFUSED (log entry 57). -/
def execEqReq (port : Nat) (l : LinkHdr) (lane : Nat) (post up : Bool) (s : State) : Res :=
  onLink s port l (fun s =>
    let frozen := num s 0x210A (port + 1) == 1
    let s := if frozen || 8 ≤ lane then s else eqStep s port lane post up
    sendLink s port 4 (toLe 1 lane ++ toLe 1 (b2n post + 2 * b2n up + 4 * b2n frozen)))

/-- EQ_ACK (R561): the step asked for on the lane has been answered. -/
def execEqAck (port : Nat) (l : LinkHdr) (_lane : Nat) (_refused : Bool) (s : State) : Res := onLink s port l id

/-- EYE_HEIGHT_LOW (R561, R562): below 20 mV one step is asked for, at most once per 1 ms and lane, and never while PORT_EQ_FREEZE. -/
def execEyeHeightLow (port lane mv : Nat) (post up : Bool) (s : State) : Res :=
  let x := getPort s port
  let last := sfind x.eqAsked lane
  .next (if 32 ≤ port || 8 ≤ lane || 20 ≤ mv || portState s port ≠ 7 || num s 0x210A (port + 1) = 1 ||
        (match last with | some t => !due s t (msT 1) | none => false) then s
    else
      let b := eqBlob s port
      let s := setBlob s 0x210B (port + 1) (bset b (12 * lane + 6) 2 mv)
      sendLink (setPort s port { x with eqAsked := sset x.eqAsked lane s.det.now }) port 3 (toLe 1 lane ++ toLe 1 (b2n post + 2 * b2n up)))

/-- RETRAIN_REQ (R583). -/
def execRetrainReq (port : Nat) (l : LinkHdr) (s : State) : Res := onLink s port l (fun s => startRetrain s port 3)

/-- DOWN_NOTICE (R586, R593). -/
def execDownNotice (port : Nat) (l : LinkHdr) (_reason : Nat) (s : State) : Res := onLink s port l (fun s => portDown s port 14 false)

/-- LOSS_OF_SIGNAL (R583). -/
def execLossOfSignal (port : Nat) (s : State) : Res := .next (if port < 32 then fin (startRetrain s port 2) else s)

/-- RETRAIN_TIMEOUT (R583). -/
def execRetrainTimeout (port : Nat) (s : State) : Res := stateTimeout s port 8 (msT (num s 0x2100 8)) 10

/-- DETACH_TIMEOUT (R592): an own detach not ended within DETACH_MS of the command. -/
def execDetachTimeout (port : Nat) (s : State) : Res :=
  let x := getPort s port
  .next (if port < 32 && ownDetach x && (portState s port = 9 || portState s port = 8) && due s x.detachAt (msT (num s 0x2100 9)) then
      fin (portDown s port 13 (!portCompat s port && portState s port = 9))
    else s)

end Sys2Proof.Machine
end

