-- ==== Sys2Proof/Machine/PortHost.lean ====
section
/-! DEFINITION. Compatibility ports (R595 to R600): the link, configuration space, memory requests of the host, completions for the node's own requests, FLR. -/
namespace Sys2Proof.Machine

/-- Is the port a compatibility port whose link is in L0 or L1? -/
def hostUp (s : State) (p : Nat) : Bool := decide (p < 32) && portCompat s p && portState s p == 12

/-- COMPAT_APERTURE: BASE and SIZE (R596). -/
def apertureBase (s : State) (p : Nat) : Nat := bfld (blob s 0x2110 (p + 1)) 0 8
def apertureSize (s : State) (p : Nat) : Nat := bfld (blob s 0x2110 (p + 1)) 8 8

/-- Must the host's memory requests wait for IDE (R600): on an outer port, PCIe's stream (`need` 1) or CXL's (2)? -/
def ideMissing (s : State) (p need : Nat) : Bool := bit s.sec.hem.portOuter p && decide ((getPort s p).host.ide < need)

/-- FLR (R597). -/
def execFlr (port : Nat) (s : State) : Res := .next (if hostUp s port then functionReset s port else s)

/-- COMPAT_LINK_STATE (R555, R595): `up` in L0 or L1, at a PCIe generation and width, CXL.mem negotiated or not; a link that goes down acts as FLR. -/
def execCompatLinkState (port ltssm : Nat) (up : Bool) (gen width : Nat) (cxl : Bool) (s : State) : Res :=
  .next (if 32 ≤ port || !portCompat s port || !(portState s port = 11 || portState s port = 12) then s
    else
      let mem := cxl && num s 0x2101 (port + 1) == 3
      let b := slice (blob s 0x2111 (port + 1)) 0 32
      let s := setBlob s 0x2111 (port + 1) (bset (bset (bset (bset b 0 1 ltssm) 1 1 gen) 2 1 width) 3 1 (b2n mem))
      if up && portState s port = 11 then
        let l := slice (blob s 0x2109 (port + 1)) 0 48
        let l := bset (bset (bset (bset l 0 1 (if mem then 4 else 3)) 1 1 width) 2 1 (b2n (bit s.sec.hem.portOuter port))) 3 1 gen
        setPState (setBlob s 0x2109 (port + 1) l) port 12
      else if !up && portState s port = 12 then fin (setPState (functionReset s port) port 11)
      else s)

/-- The head of a host's memory request (R126, R292): the port's default CID, under no epoch of its own. -/
def hostHead (s : State) (p tag addr : Nat) : Head :=
  { kind := 0, unit := p, ep := 0, epoch := s.route.epoch, tag := tag, cid := 0, hasCid := false, dst := endpointId s, addr := addr, xlat := false, fwd := false,
    va := 0, cause := 0, ecc := .clean }

/-- Note a request of the host in progress, for its completion. -/
def noteHost (s : State) (p tag kind : Nat) : State :=
  setPort s p { getPort s p with inReqs := (getPort s p).inReqs ++ [(tag, kind)] }

/-- A request of the host that is not served (R600): counted in COMPAT_STATUS. -/
def hostRefused (s : State) (p : Nat) : State := compatCount s p 8 1

/-- The pieces of a range, one for each line: offset and length (fuel bounds them). -/
def linePieces : Nat → Nat → Nat → List (Nat × Nat)
  | 0, _, _ => []
  | n + 1, a, len =>
    if len = 0 then []
    else
      let k := min len (64 - a % 64)
      (a, k) :: linePieces n (a + k) (len - k)

/-- Where a BAR's offset lies: a local offset, nothing (reserved), or no such BAR (Table 13.18, R596). -/
inductive BarPlace where
  | local_ (a : Nat)
  | reserved
  | absent

/-- BAR0: the control window of the default partition; BAR2, PCIE mode: the aperture; BAR4, CXL mode: component and device registers, which the spec does not
lay out. -/
def barPlace (s : State) (p bar off : Nat) : BarPlace :=
  match bar with
  | 0 => if off < 0x4000000 then .local_ (0xF80000000000 + cidPart (num s 0x2205 (p + 1)) * 0x4000000 + off) else .reserved
  | 2 => if num s 0x2101 (p + 1) ≠ 2 then .absent else if off < apertureSize s p then .local_ (apertureBase s p + off) else .reserved
  | 4 => if num s 0x2101 (p + 1) = 3 then .reserved else .absent
  | _ => .absent

/-- A PCIe memory read: at BAR0 one access, elsewhere one for each line; reserved space reads zero. -/
def hostRead (s : State) (p tag bar off len : Nat) : State :=
  let pieces := if bar = 0 then [(off, len)] else linePieces (len / 64 + 2) off len
  forS pieces s (fun s e =>
    match barPlace s p bar e.1 with
    | .absent => hostComplete (hostRefused s p) p tag 16 6 e.1 []
    | .reserved => hostComplete s p tag 16 0 e.1 (zeros e.2)
    | .local_ a => arrive (noteHost s p tag 16) (hostHead s p tag a) (.load e.2))

/-- PCIE_MEM_READ (R292, R600): up to the 4,096 B of Max Read Request Size. -/
def execPcieMemRead (port tag bar off len : Nat) (s : State) : Res :=
  .next (if !hostUp s port || len = 0 || 4096 < len then s
    else if ideMissing s port 1 then hostComplete (hostRefused s port) port tag 16 6 off []
    else fin (hostRead s port tag bar off len))

/-- PCIE_MEM_WRITE (R292, R600): posted; an ORD store for each line, or an ungrouped BLK write with Relaxed Ordering. Up to Max Payload Size. -/
def execPcieMemWrite (port bar off : Nat) (data : Bytes) (relaxed : Bool) (s : State) : Res :=
  .next (if !hostUp s port || data.isEmpty || 512 < data.length then s
    else if ideMissing s port 1 then hostRefused s port
    else
      let pieces := if bar = 0 then [(off, data.length)] else linePieces (data.length / 64 + 2) off data.length
      fin (forS pieces s (fun s e =>
        let d := slice data (e.1 - off) e.2
        match barPlace s port bar e.1 with
        | .absent => hostRefused s port
        | .reserved => s
        | .local_ a =>
          arrive (noteHost s port 65536 17) (hostHead s port 65536 a) (if relaxed && bar ≠ 0 then .blk 0 false false 0 d false else .store d false))))

/-- CXL_MEM_RD (R292, R596, R600): of the line at a device physical address that the HDM decoders give; beyond SIZE no capacity is decoded, and the line reads
zero (log entry 58). -/
def execCxlMemRd (port tag addr : Nat) (s : State) : Res :=
  let a := alignDown addr 64
  .next (if !hostUp s port || num s 0x2101 (port + 1) ≠ 3 then s
    else if ideMissing s port 2 then hostComplete (hostRefused s port) port tag 18 6 a (zeros 64)
    else if apertureSize s port ≤ a then hostComplete s port tag 18 0 a (zeros 64)
    else fin (arrive (noteHost s port tag 18) (hostHead s port tag (apertureBase s port + a)) (.load 64)))

/-- The runs of enabled bytes of a line: offset and length. -/
def runsOf (enables : Nat) : List (Nat × Nat) :=
  ((upTo 64).filter (fun i => bit enables i && (i == 0 || !bit enables (i - 1)))).map (fun i =>
    (i, ((upTo (64 - i)).takeWhile (fun k => bit enables (i + k))).length))

/-- CXL_MEM_WR (R292, R599, R600): MemWr, or MemWrPtl with its byte enables, as ungrouped BLK writes; one Cmp when all have been performed. -/
def execCxlMemWr (port tag addr : Nat) (data : Bytes) (enables : Nat) (s : State) : Res :=
  let a := alignDown addr 64
  let runs := runsOf enables
  .next (if !hostUp s port || num s 0x2101 (port + 1) ≠ 3 then s
    else if ideMissing s port 2 then hostComplete (hostRefused s port) port tag 19 0 a []
    else if apertureSize s port ≤ a || runs.isEmpty then hostComplete s port tag 19 0 a []
    else
      let n := runs.length
      let s := forS (upTo n) s (fun s k => noteHost s port tag (if k + 1 = n then 19 else 17))
      fin (forS runs s (fun s e =>
        arrive s (hostHead s port tag (apertureBase s port + a + e.1)) (.blk 0 false false 0 (slice data e.1 e.2) false))))

/-- PCIE_COMPLETION (R147) for a request forwarded through a window: `cpl` 0 successful, 1 Unsupported Request or 2 Completer Abort (DEAD with all-ones
data), poisoned POISON. -/
def execPcieCompletion (port tag cpl : Nat) (poison : Bool) (data : Bytes) (s : State) : Res :=
  .next (if 32 ≤ port || !portCompat s port || !(portState s port = 12 || portState s port = 9) then s
    else
      match s.acc.issued.find? (fun i => i.sent && i.port == port && i.wire == some (port * 4096 + tag % 4096)) with
      | none => s
      | some i =>
        let n := opLen i.req.op
        let d := if opReads i.req.op then (if cpl = 0 then slice data 0 n else ones n) else []
        let s := meterPort s 0x4D0A (cidPart i.req.head.cid) (16 + data.length)
        fin (detachStep (finishIssued s i (if cpl ≠ 0 then 1 else if poison then 2 else 0) d) port))

/-- The least power of two at or above `n` (BAR2, Table 13.18). -/
def powAbove (n : Nat) : Nat := if n ≤ 1 then n else 2 ^ (Nat.log2 (n - 1) + 1)

/-- A BAR of 64 bits as its dwords read: the address bits that its size leaves, and its low attribute bits; a BAR without a size reads zero. -/
def barRead (s : State) (p off size attr : Nat) : Nat :=
  let reg := fun (o : Nat) => sget (fun _ => 0) (getPort s p).host.regs o
  let base := off / 8 * 8
  let v := reg base + reg (base + 4) * 2 ^ 32
  if size = 0 then 0 else fld ((v / size * size + attr) / (if off = base then 1 else 2 ^ 32)) 0 32

/-- A register of configuration space (space 0), the MSI-X table (1) or the HDM decoders (2), as 4 bytes. The identity of Table 13.18 stands at the places
that PCIe gives it (log entry 59). -/
def cfgRead (s : State) (p space off : Nat) : Nat :=
  let x := getPort s p
  let v := sget (fun _ => 0) x.host.regs (space * 65536 + off)
  let cxl := num s 0x2101 (p + 1) == 3
  if space ≠ 0 then v
  else
    match off with
    | 0x00 => 0x59C5 + 0x0840 * 65536
    | 0x08 => 0xB1 + (if cxl then 0x050210 else 0x058000) * 256
    | 0x0C => 0
    | 0x10 => barRead s p off 0x4000000 4
    | 0x14 => barRead s p off 0x4000000 4
    | 0x18 => barRead s p off (if cxl then 0 else powAbove (apertureSize s p)) 12
    | 0x1C => barRead s p off (if cxl then 0 else powAbove (apertureSize s p)) 12
    | 0x20 => barRead s p off (if cxl then 0x20000 else 0) 4
    | 0x24 => barRead s p off (if cxl then 0x20000 else 0) 4
    | _ => v

/-- PCIE_CONFIG_REQUEST (R595, R598, R600): served throughout; what is written is read back, but for the identity and the size bits of the BARs. -/
def execPcieConfigRequest (port : Nat) (write : Bool) (space off value : Nat) (s : State) : Res :=
  let o := alignDown (off % 65536) 4
  .next (if !hostUp s port then s
    else if write then
      let x := getPort s port
      setPort s port { x with host := { x.host with regs := sput (fun _ => 0) x.host.regs (space % 3 * 65536 + o) (value % 2 ^ 32) } }
    else { s with out := .hostAnswer port (space % 3 * 65536 + o) (toLe 4 (cfgRead s port (space % 3) o)) :: s.out })

/-- QUEUE_CFG_WRITE (R376): a store to a queue's QCFG. -/
def execQueueCfgWrite (h : Head) (q : QueueId) (v : Nat) (s : State) : Res :=
  .next (fin (cwStore s h (blkWindow q.blk + q.q % 8 * 0x40 + 0x08) v))

end Sys2Proof.Machine
end

