-- ==== Sys2Proof/Machine/Partition.lean ====
section
/-! DEFINITION. Partitions, removal of a tenant, the Hem procedures and the Thimble's health (ch. 14). -/
namespace Sys2Proof.Machine

/-- A byte of the configuration flash; an erased byte reads 0xFF. -/
def flashGet (s : State) (a : Nat) : Byte := sget (fun _ => (255 : Byte)) s.pwr.flash a

/-- `n` bytes of the flash. -/
def flashRead (s : State) (a n : Nat) : Bytes := (upTo n).map (fun k => flashGet s (a + k))

/-- The offset of a firmware image: 1 A, 2 B; and of a loader copy 1 or 2 (Table 18.11: copies 0 and 1). -/
def imageOff (i : Nat) : Nat := if i = 2 then 0x1100000 else 0x100000
def loaderOff (c : Nat) : Nat := if c = 2 then 0x40000 else 0

/-- SECURITY_VERSION of a stored image, 0 where there is none (Table 18.12). -/
def imageSecurity (s : State) (off : Nat) : Nat :=
  if bfld (flashRead s off 12) 0 4 = 0x4E495951 then bfld (flashRead s off 12) 8 4 else 0

/-- A state change of a partition asserts source 4 (R628). -/
def setPartState (s : State) (p : Nat) (x : Partition) : State := latch (setPart s p x) 4

/-- A core stops: it issues nothing until it is started again (R608). -/
def stopCore (s : State) (c : Nat) : State :=
  emit { s with sec := { s.sec with idleCores := ninsert s.sec.idleCores c } } (.coreStop c)

/-- A core starts at an address with its number in a0 (R608). -/
def startCore (s : State) (c pc : Nat) : State :=
  emit { s with sec := { s.sec with idleCores := s.sec.idleCores.filter (fun x => x != c) } } (.coreStart c pc c)

/-- The sweep at a return of the incarnation to 0 (R607): every on-die entry that carries the number is invalidated. -/
def sweepPart (s : State) (p : Nat) : State :=
  let mine := fun (t : Nat) => t != 0 && (t - 1) / 4096 == p
  let cells := fun (m : Sparse TdCell) => m.filter (fun e => !mine e.2.tag)
  { s with
    sec := { s.sec with landTags := s.sec.landTags.filter (fun e => !mine e.2) }
    tier := { s.tier with mapCache := s.tier.mapCache.filter (fun e => !mine e.2) }
    coh := { s.coh with l2 := s.coh.l2.filter (fun e => !mine e.2.tag) }
    eng := { s.eng with
      rowLines := s.eng.rowLines.filter (fun e => !mine e.2.2.1)
      dirLines := s.eng.dirLines.filter (fun e => !mine e.2.2.1)
      td := { s.eng.td with arrays := s.eng.td.arrays.map (fun e =>
        let a := e.2
        (e.1, { a with slots := cells a.slots, scales := cells a.scales, banks := cells a.banks, vregs := cells a.vregs
                       code := match a.code with | some c => if mine c.tag then none else some c | none => none })) } } }

/-- A partition is created (R604, R643, R702): a new incarnation, a key, its objects and control window at their defaults. A compatibility port whose default it is sends the vectors of sources
already asserted (R598): none is, at their reset state, but kinds 4 to 7, whose queues are reset too. -/
def createPart (s : State) (p : Nat) : State :=
  let x := getPart s p
  let inc := (x.incarnation + 1) % 4096
  let s := if inc = 0 then sweepPart s p else s
  let s := setPart s p { Partition.free with incarnation := inc, key := 1 }
  let s := { s with
    obj := s.obj.filter (fun e => !(decide (okey 0x4000 0 ≤ e.1) && decide (e.1 < okey 0x5000 0) && e.1 % 256 == p + 1))
    acc := { s.acc with cw := s.acc.cw.filter (fun e => e.1 != p), xlat := s.acc.xlat.filter (fun e => cidPart e.cid != p) }
    eng := { s.eng with queues := s.eng.queues.filter (fun e => e.1 / 16 % 64 != p) }
    ver := { s.ver with slots := s.ver.slots.filter (fun e => e.1 / 256 != p), expiries := s.ver.expiries.filter (fun e => e.1 != p) } }
  let s := bellCreate (keysMade s 1) p
  setPartState s p { getPart s p with st := 1 }

/-- A write of PART_CREATE (R604). -/
def writePartCreate (s : State) (b : Bytes) : WriteOut :=
  let p := leNat b
  if b.length ≠ 1 then refuse s abTYPE
  else if s.sec.hem.maxPartitions ≤ p || (getPart s p).st ≠ 0 || num s 0x2A21 1 ≠ 0 then refuse s abINCONS
  else applied (createPart s p)

/-- PART_CREATE. -/
def execPartCreate (w : Writer) (value : Bytes) (s : State) : Res := endWrite w (writePartCreate s value)

/-- What is bound to a region is stopped and unbound, whatever its state (R624). -/
def unbindRegion (s : State) (r : Nat) : State :=
  let s := forS (upTo 256) s (fun s t =>
    if tabRegion s t = r then setArrBlob (setArrNum (tabUnbind s t) 0x2616 t 0) 0x2610 t (bset (arrBlob s 0x2610 t) 0 2 0xFFFF) else s)
  let s := forS (upTo 16) s (fun s x =>
    let d := blob s 0x2710 (x + 1)
    if bfld d 0 2 = r || bfld d 0x10 2 = r then setBlob (vecUnbind s x) 0x2710 (x + 1) (bset d 0 2 0xFFFF) else s)
  forS (upTo 64) s (fun s w =>
    if strRegion s w = r then
      let s := setStream (unpinBolts s w (fun _ => false)) w StreamRun.reset
      setBlob s 0x2320 (w + 1) (bset (strDesc s w) 0 2 0xFFFF)
    else s)

/-- A round without the queries of a partition (R463, R624). -/
def roundWithout (r : Round) (p : Nat) : Round :=
  let keep := (r.queries.zip (upTo r.queries.length)).filter (fun (e : RoundQuery × Nat) => e.1.d.q.part != p)
  let pos := keep.map (·.2)
  let at_ := fun (n : Nat) => (pos.takeWhile (fun k => k != n)).length
  { r with queries := keep.map (·.1), passes := r.passes.map (fun y => (y.1, (y.2.filter (fun n => pos.contains n)).map at_)) }

/-- Step 2 of Table 14.6: what runs for the partition is cancelled. -/
def cancelPart (s : State) (p : Nat) : State :=
  let s := { s with eng := { s.eng with
    queues := s.eng.queues.map (fun e => if e.1 / 16 % 64 == p then (e.1, { e.2 with accepted := [], waiting := [], en := false }) else e) } }
  let t := s.eng.tape
  let s := setTape s { t with rounds := t.rounds.map (fun r => roundWithout r p)
                              merges := t.merges.filter (fun m => match m.load with | some d => d.q.part != p | none => true) }
  let s := forS (s.eng.bob.steps.filter (fun y => y.part == p)) s (fun s y => dropStep s y.table y.step)
  let s := fenceBarriers (fenceLaunches s p) p
  let s := forS (s.acc.faults.filter (fun f => f.part == p)) s (fun s f => resolveRec s p f.n 2)
  forS (s.ver.leases.filter (fun e => e.2.part == p && (e.2.st == 1 || e.2.st == 2))) s (fun s e => expireLease s e.1 false)

/-- At the fence of a partition a cluster drops the lines that it holds for it in the partition's own regions and of versioned ones, and writes back the dirty lines of other partitions' regions
(R624 step 3). -/
def fenceL2Line (s : State) (p c ln : Nat) (l : L2Line) : State :=
  let own := match regionAt s (ln * 64) with | some r => (getRegion s r).owner == p | none => true
  if l.wbPending then s
  else if own || !l.coh then l2Drop s c ln
  else if l.st ≠ 4 then s
  else
    fromCluster (l2Set (l2Drop s c ln) c ln { L2Line.none with wbPending := true }) 4 4 c
      { clusterMsg s c ln 0 l.cid with data := l.data, status := if l.mark then 2 else 0 }

/-- The on-die copies of a fenced partition's data: those of the clusters, and the lines of its own regions in the row and directory caches (R624 step 3). -/
def fenceCaches (s : State) (p : Nat) : State :=
  let s := forS (s.coh.l2.filter (fun e => cidPart e.2.cid == p)) s (fun s e => fenceL2Line s p (e.1 / 2 ^ 48) (e.1 % 2 ^ 48) e.2)
  let own := fun (e : Nat × Nat × Nat × Nat) => e.2.2.1 == partTag s p && (match regionAt s (e.2.1 * 64) with | some r => (getRegion s r).owner == p | none => true)
  { s with eng := { s.eng with rowLines := s.eng.rowLines.filter (fun e => !own e), dirLines := s.eng.dirLines.filter (fun e => !own e) } }

/-- The fence (R624 step 1), with the cancelling that it starts (step 2) and what the drain begins with (step 3): moves of the partition's bolts are abandoned, its agents detached. -/
def fencePart (s : State) (p : Nat) : State :=
  let s := setPartState s p { getPart s p with
    st := 2, fencedAt := s.det.count, fencedT := s.det.now, drainedAt := 0, timedOut := false, lateWrites := 0 }
  let s := bellFence s p
  let s := forS ((upTo 16).filter (coreOfPart s p)) s stopCore
  let s := fenceCaches (cancelPart s p) p
  let mine := (s.regions.filter (fun e => e.2.valid && e.2.owner == p)).map (·.1)
  let s := forS mine s (fun s r => releaseRegion (unbindRegion s r) r)
  let s := forS (s.tier.moves.filter (fun m => (getBolt s m.bolt).part == p)) s (fun s m => abandonMove s m.bolt)
  forS (s.coh.agents.filter (fun e => e.2.v && e.2.part == p && (e.2.st == 1 || e.2.st == 2))) s (fun s e => beginDetach s e.1)

/-- A write of PART_REMOVE (R624). -/
def writePartRemove (s : State) (b : Bytes) : WriteOut :=
  let p := leNat b
  if b.length ≠ 1 then refuse s abTYPE
  else if p = 0 then refuse s abINCONS
  else if (getPart s p).st ≠ 1 then applied s
  else applied (fencePart s p)

/-- PART_REMOVE. -/
def execPartRemove (w : Writer) (value : Bytes) (s : State) : Res := endWrite w (writePartRemove s value)

/-- Nothing that the drain waits for is left: checked requests, knots held for their spans, and agents (R624 step 3). -/
def partDrained (s : State) (p : Nat) : Bool :=
  !s.acc.held.any (fun h => h.checked && cidPart h.req.head.cid == p) && !s.ord.knots.any (fun k => cidPart k.cid == p && (k.knot0.isSome || k.knot1.isSome)) && !s.coh.agents.any (fun e => e.2.v && e.2.part == p)

/-- May the debug port open (R613)? -/
def openDebug (s : State) : State :=
  if s.sec.debugUnlocked && !s.sec.parts.any (fun e => e.1 != 0 && (e.2.st == 1 || e.2.st == 2)) then { s with sec := { s.sec with debugOpen := true } } else s

/-- The end of the drain (R624 step 4). -/
def endDrain (s : State) (p : Nat) : State :=
  let timed := !partDrained s p
  let s := forS (s.coh.agents.filter (fun e => e.2.v && e.2.part == p)) s (fun s e => expelAgent s e.1)
  let s := { s with
    regions := s.regions.map (fun e => (e.1, { e.2 with shareRd := clrBit e.2.shareRd p, shareWr := clrBit e.2.shareWr p })) }
  let s := forS (s.obj.filter (fun e => decide (okey 0x2920 0 ≤ e.1) && decide (e.1 < okey 0x2928 0))) s (fun s e => match e.2 with
    | .bytes b => if b.length = 144 then setObj s (e.1 / 256) (e.1 % 256) (.bytes (bset b 0 8 (clrBit (bfld b 0 8) p))) else s
    | .num _ => s)
  let s := setPartState (keysGone s 1) p { getPart s p with st := 3, key := 2, drainedAt := s.det.count, timedOut := timed }
  let rs := (s.regions.filter (fun e => e.2.releasing && e.2.owner == p)).map (·.1)
  openDebug (forS rs s (fun s r => if releaseDone s r then endRelease s r else s))

/-- PART_DRAIN_END (R624 step 4): the drain is done, or DRAIN_MS has passed since the fence. -/
def execPartDrainEnd (part : Nat) (s : State) : Res :=
  if (getPart s part).st = 2 && (partDrained s part || due s (getPart s part).fencedT (msT (num s 0x2A00 3))) then .next (fin (endDrain s part))
  else .next s

/-- PART_SCRUB_END (R624 step 6): its last slot has been scrubbed, and the partition is FREE. -/
def execPartScrubEnd (part : Nat) (s : State) : Res :=
  let left := s.tier.freed.any (fun f => f.part == part) || s.regions.any (fun e => e.2.releasing && e.2.owner == part)
  if (getPart s part).st = 3 && !left then .next (setPartState s part { getPart s part with st := 0 }) else .next s

/-- SLOT_SCRUBBED (R624 step 6): a slot's zero-fill or erase ends; scrubbing pauses outside N0 (R626). -/
def execSlotScrubbed (tier slot : Nat) (s : State) : Res :=
  if num s 0x2000 1 ≠ 0 then .next s else .next (fin (scrubSlot s tier slot))

/-- Cores of a mask. -/
def maskCores (m : Nat) : List Nat := (upTo 16).filter (bit m)

/-- A write of PART_HEARTH (R608, R643). -/
def writePartHearth (s : State) (p : Nat) (b : Bytes) : WriteOut :=
  let m := leNat b
  let taken := s.sec.parts.any (fun e => e.1 != p && (e.2.st == 1 || e.2.st == 2) && m.land (pnum s 0x4A01 e.1) != 0)
  if b.length ≠ 2 then refuse s abTYPE
  else if bit m 0 || bit m 1 || m.land s.sec.hem.hearthDisabled ≠ 0 || taken || (getPart s p).st ≠ 1 then refuse s abINCONS
  else
    let old := pnum s 0x4A01 p
    let out := (maskCores old).filter (fun c => !bit m c)
    let in_ := (maskCores m).filter (fun c => !bit old c)
    let s := forS out s (fun s c => stopCore (bellRemoveCore s p c) c)
    let s := setPnum s 0x4A01 p m
    applied (forS in_ s (fun s c => startCore s c (pnum s 0x4A02 p)))

/-- PART_HEARTH. -/
def execPartHearth (w : Writer) (part : Nat) (value : Bytes) (s : State) : Res := endWrite w (writePartHearth s part value)

/-- A write of VIOL_STICKY (R609): false clears it and VIOL_FIRST. -/
def writeViolSticky (s : State) (b : Bytes) : WriteOut :=
  if b.length ≠ 1 then refuse s abTYPE
  else match leNat b with
    | 0 => applied (setBlob (setNum s 0x2A20 1 0) 0x2A20 3 (zeros 48))
    | 1 => applied s
    | _ => refuse s abRANGE

/-- VIOL_STICKY. -/
def execViolSticky (w : Writer) (value : Bytes) (s : State) : Res := endWrite w (writeViolSticky s value)

/-- Is a port outer, by its link or by the fuse that it offers (R564, R613)? -/
def portOuter (s : State) (p : Nat) : Bool := bit s.sec.hem.portOuter p || portOuterLink s p

/-- A write of DEBUG_UNLOCK (R613). The port is open from reset under DEBUG_LOCK 00. -/
def writeDebugUnlock (s : State) (b : Bytes) : WriteOut :=
  if b.length ≠ 4 then refuse s abTYPE
  else if leNat b ≠ num s 0x1003 8 then refuse s abRANGE
  else if s.sec.hem.debugLock = 3 then refuse s abINCONS
  else if s.sec.hem.debugLock ≠ 1 then applied s
  else
    let ps := (s.sec.parts.filter (fun e => e.1 != 0 && e.2.st == 1)).map (·.1)
    let s := forS ps s fencePart
    let s := if (getPart s 0).key = 1 then setPart (keysGone s 1) 0 { getPart s 0 with key := 2 } else s
    let s := forS ((upTo 32).filter (fun p => portOuter s p && decide (2 ≤ portState s p) && portState s p != 10)) s
      (fun s p => portDown s p 15 (!portCompat s p && decide (7 ≤ portState s p)))
    let s := forS (upTo 32) s (fun s p =>
      let x := getPort s p
      if keysHeld x = 0 then s else setPort (keysGone s (keysHeld x)) p { x with txKey := none, txOld := none, rxKey := none, rxOld := none, updateKey := none, linkSecret := [] })
    applied (openDebug { s with sec := { s.sec with debugUnlocked := true } })

/-- DEBUG_UNLOCK. -/
def execDebugUnlock (w : Writer) (value : Bytes) (s : State) : Res := endWrite w (writeDebugUnlock s value)

/-- The image that does not run: 1 A, 2 B. -/
def otherImage (s : State) : Nat := if num s 0x1003 4 = 1 then 2 else 1

/-- A write of ARB_ADVANCE_FW (R614). -/
def writeArbFw (s : State) (b : Bytes) : WriteOut :=
  let v := leNat b
  if b.length ≠ 4 then refuse s abTYPE
  else if v ≤ s.sec.hem.arbFirmwareFuse || 64 < v || num s 0x1003 3 < v || imageSecurity s (imageOff (otherImage s)) < v then refuse s abINCONS
  else applied { s with sec := { s.sec with hem := { s.sec.hem with arbFirmwareFuse := v } } }

/-- ARB_ADVANCE_FW. -/
def execArbAdvanceFw (w : Writer) (value : Bytes) (s : State) : Res := endWrite w (writeArbFw s value)

/-- A write of ARB_ADVANCE_LOADER (R614). -/
def writeArbLoader (s : State) (b : Bytes) : WriteOut :=
  let v := leNat b
  if b.length ≠ 4 then refuse s abTYPE
  else if v ≤ s.sec.hem.arbLoaderFuse || 64 < v || num s 0x2A22 3 < v then refuse s abINCONS
  else applied { s with sec := { s.sec with hem := { s.sec.hem with arbLoaderFuse := v } } }

/-- ARB_ADVANCE_LOADER. -/
def execArbAdvanceLoader (w : Writer) (value : Bytes) (s : State) : Res := endWrite w (writeArbLoader s value)

/-- THIMBLE_HEALTH_FAIL (R615): TRNG_FAIL, or SELFTEST_FAIL; keys already made stay in use. -/
def execThimbleHealthFail (selfTest : Bool) (s : State) : Res :=
  let v := if selfTest then 2 else 1
  .next (noteFault (setNum s 0x2A21 1 v) 0x38 0 0xFF 0xFF 0 (toLe 1 v))

/-- PART_REMOVAL of a partition as read (Table 14.9). -/
def removalView (s : State) (p : Nat) : Bytes :=
  let x := getPart s p
  let left := fun (l : List Nat) =>
    65536 * ((s.tier.freed.filter (fun f => f.part == p && l.contains f.tier)).length +
      (if x.st = 2 || x.st = 3 then (s.tier.map.filter (fun e => e.2.part == p && l.contains e.2.home)).length else 0))
  let live := x.st = 2 || x.st = 3
  toLe 8 x.fencedAt ++ toLe 8 x.drainedAt ++ toLe 1 (b2n x.timedOut) ++ zeros 7 ++ toLe 8 x.lateWrites ++
    toLe 8 (if live then left [1, 2] else 0) ++ toLe 8 (if live then left [3] else 0)

/-- PARTS_ACTIVE and PARTS_REMOVING as read. -/
def partsMask (s : State) (f : Nat → Bool) : Nat := (s.sec.parts.map (fun e => if f e.2.st then 2 ^ e.1 else 0)).sum

end Sys2Proof.Machine
end

