-- ==== Sys2Proof/Machine/Determinism.lean ====
section
/-! DEFINITION. Determinism, step boundaries, the run record and the sync counter (ch. 16). -/
namespace Sys2Proof.Machine

/-- DET_RUN, derived from the four engine blocks (R651). -/
def detRun (s : State) : Nat :=
  let r := [blkRun s .bobbin, blkRun s .tape, blkRun s .treadle, blkRun s .shuttle]
  if r.all (fun x => x == 0) then 0
  else if r.all (fun x => decide (x ≤ 1)) then 1
  else if !r.contains 3 then 2
  else 3

/-- A write of DET_MODE (R651, R652): leaving FORBID releases the queued placement decisions; a change is noted in the run record. -/
def writeDetMode (s : State) (b : Bytes) : WriteOut :=
  let v := leNat b
  let old := detMode s
  if b.length ≠ 2 then refuse s abTYPE
  else if 2 < v then refuse s abRANGE
  else if 2 ≤ detRun s then refuse s abSTATE
  else
    let s := setNum s 0x2C00 0 v
    let s := if v = old then s else runFlag s 0
    applied (if old = 2 && v ≠ 2 then releaseDecisions s else s)

/-- A write of DET_STEP (R657, R658): a boundary of every table, and then of the placement loop. -/
def writeDetStep (s : State) (b : Bytes) : WriteOut :=
  if b.length ≠ 1 then refuse s abTYPE
  else if leNat b ≠ 1 then refuse s abRANGE
  else applied (placeBoundary (forS ((upTo 256).filter (tableBound s)) s tableBoundary))

/-- DET_STEP. -/
def execDetStep (w : Writer) (value : Bytes) (s : State) : Res := endWrite w (writeDetStep s value)

/-- An image as stored: its header and BODY_LENGTH bytes of body; nothing where there is none (R623, Table 18.12). -/
def imageBytes (s : State) (off : Nat) : Bytes :=
  let h := flashRead s off 512
  if bfld h 0 4 = 0x4E495951 then h ++ flashRead s (off + 512) (min (bfld h 12 4) (2 ^ 24)) else []

/-- The measurement of the running firmware image (R623). -/
def firmwareMeasure (s : State) : Bytes := sha384 (if s.pwr.runImage = 0 then [] else imageBytes s (imageOff s.pwr.runImage))

/-- LAYOUT_DIGEST (Table 16.2). -/
def layoutDigest (s : State) : Bytes :=
  slice (sha384 (((upTo 256).filter (tableBound s)).flatMap (fun t => arrBlob s 0x2610 t ++ arrBlob s 0x2612 t) ++
    ((upTo 16).filter (fun x => vecRunRaw s x != 0)).flatMap (fun x => blob s 0x2710 (x + 1) ++ blob s 0x2711 (x + 1)))) 0 8

/-- The run record right after RUN_RESET (R660, Table 16.2). -/
def freshRecord (s : State) : Bytes :=
  toLe 8 s.det.count ++ toLe 1 s.sec.hem.grade ++ toLe 1 (detMode s) ++ toLe 1 0 ++ toLe 1 (255 - s.sec.hem.treadleDisabled % 256) ++
    toLe 2 (65535 - s.sec.hem.hearthDisabled % 65536) ++ zeros 2 ++ slice (firmwareMeasure s) 0 8 ++ layoutDigest s ++ zeros 64

/-- A write of RUN_RESET (R660): true resets the record. -/
def writeRunReset (s : State) (b : Bytes) : WriteOut :=
  if b.length ≠ 1 then refuse s abTYPE
  else match leNat b with
    | 0 => applied s
    | 1 => applied (setBlob s 0x2C02 0 (freshRecord s))
    | _ => refuse s abRANGE

/-- RUN_RESET. -/
def execRunReset (w : Writer) (value : Bytes) (s : State) : Res := endWrite w (writeRunReset s value)

/-- SYNC_STATE (Table 16.3): 0 LOCAL, 1 ACQUIRING, 2 LOCKED, 3 HOLDOVER. -/
def syncState (s : State) : Nat := num s 0x2C10 5

/-- SYNC_RATE_PPB. -/
def syncRate (s : State) : Int := toSigned 32 (num s 0x2C10 7)

/-- A write of SYNC_ROLE (R664, Table 16.3): LOCAL is never adjusted; FOLLOWER acquires. -/
def writeSyncRole (s : State) (b : Bytes) : WriteOut :=
  let v := leNat b
  let clear := fun (s : State) => { s with det := { s.det with slewLeft := 0, rateAcc := 0, samples := [], lastOffset := none, within := 0, beyond := 0, missed := 0, intervalAt := s.det.now, sampleN := 0 } }
  if b.length ≠ 2 then refuse s abTYPE
  else if 1 < v then refuse s abRANGE
  else if v = 0 then applied (clear (setNum (setNum (setNum s 0x2C10 1 0) 0x2C10 5 0) 0x2C10 7 0))
  else applied (if num s 0x2C10 1 = 1 then s else clear (setNum (setNum s 0x2C10 1 1) 0x2C10 5 1))

/-- Launches that wait for a START_COUNT that a step has passed start at once, late (R668). -/
def startPassed (s : State) : State :=
  forS s.eng.td.launches s (fun s l =>
    match findDesc s l.d with
    | some x => if x.phase = 2 && !l.started && lnSync x.bytes && decide (lnStart x.bytes < s.det.count) then startLaunch s l true else s
    | none => s)

/-- A step of the counter by some sixteenths (R666); it never goes below zero. -/
def syncStep (s : State) (z : Int) : State :=
  let t := ((syncStamp s : Int) + z).toNat
  startPassed (bump { s with det := { s.det with count := t / 16 % 2 ^ 64, frac := t % 16, slewLeft := 0 } } 0x2C10 0x0A)

/-- The offset of an interval (R665): the mean over the 16 samples with the smallest round trip; none of fewer than 16. -/
def syncOffset (s : State) : Option Int :=
  let l := (s.det.samples.mergeSort (fun a b => decide (a.rtt ≤ b.rtt))).take 16
  if l.length < 16 then none else some ((l.map (fun x => x.twice)).sum / 32)

/-- Apply an offset (Table 16.3): a step beyond SYNC_STEP_LIMIT, else a slew; the rate trims by a quarter of the offset's change per interval, within 500 ppm. -/
def applyOffset (s : State) (z : Int) : State :=
  let stepped := decide ((16 * num s 0x2C10 4 : Nat) < z.natAbs)
  let ticks := (max 1 (msT (num s 0x2C10 3)) : Nat)
  let change := match s.det.lastOffset with | some y => z - y | none => 0
  let rate := syncRate s + change * 10 ^ 9 / (4 * 16 * (ticks : Int))
  let rate := if 500000 < rate then 500000 else if rate < -500000 then -500000 else rate
  let s := setNum (setNum s 0x2C10 6 (ofSigned 32 z)) 0x2C10 7 (ofSigned 32 rate)
  let s := if stepped then syncStep s z else { s with det := { s.det with slewLeft := z } }
  let in_ := decide (z.natAbs ≤ 32)
  let d := s.det
  let s := { s with det := { d with lastOffset := some z, missed := 0, within := if in_ then d.within + 1 else 0, beyond := if in_ then 0 else d.beyond + 1 } }
  let to_ := fun (s : State) (k : Nat) => { setNum s 0x2C10 5 k with det := { s.det with within := 0, beyond := 0 } }
  match syncState s with
  | 2 =>
    if stepped then to_ s 1
    else if 2 ≤ s.det.beyond then bump (to_ s 1) 0x2C10 9
    else s
  | 3 => { setNum s 0x2C10 5 1 with det := { s.det with within := b2n in_, beyond := 0 } }
  | _ => if 3 ≤ s.det.within then to_ s 2 else s

/-- SYNC_INTERVAL (R665, R666): an interval of a follower, SYNC_INTERVAL_MS long, ends with the offset of its samples, or with none. -/
def execSyncInterval (s : State) : Res :=
  if num s 0x2C10 1 ≠ 1 || !due s s.det.intervalAt (msT (num s 0x2C10 3)) then .next s
  else
    let z := syncOffset s
    let s := { s with det := { s.det with samples := [], intervalAt := s.det.now, sampleN := 0 } }
    .next (match z with
      | some z => fin (applyOffset s z)
      | none =>
        let n := s.det.missed + 1
        let s := { s with det := { s.det with missed := n } }
        if syncState s = 2 && 3 ≤ n then { setNum s 0x2C10 5 3 with det := { s.det with within := 0, beyond := 0 } } else s)

/-- SYNC_SAMPLE (R665): an ORD load of 8 B of the master's CW_SYNC, with CID 0: 64 in an interval, 10 µs apart. -/
def execSyncSample (s : State) : Res :=
  if num s 0x2C10 1 ≠ 1 || 64 ≤ s.det.sampleN || (s.det.sampleN != 0 && !due s s.det.sampleAt (usT 10)) then .next s
  else .next (fin (issueReq { s with det := { s.det with sampleAt := s.det.now, sampleN := s.det.sampleN + 1 } } { head := ownHead s 6 0 0 (num s 0x2C10 2 * 2 ^ 48 + 0xF80000000010), op := .load 8 } (.sync (syncStamp s) (replayMark s)) none))

/-- One tick of 10 ns of the counter (R663, R666): sixteen CLK_F cycles of one sixteenth each, with at most one cycle in 1,000 that adds 0 or 2. The rate trim
and the slew take such a cycle in turn, the slew first. -/
def syncAdvance (s : State) : State :=
  let d := s.det
  let acc := d.rateAcc + 16 * syncRate s
  let wait := d.slewIn - 16
  let adj : Int := if wait ≠ 0 then 0 else if 0 < d.slewLeft then 1 else if d.slewLeft < 0 then -1
    else if 10 ^ 9 ≤ acc then 1 else if acc ≤ -(10 ^ 9) then -1 else 0
  let bySlew := wait = 0 && d.slewLeft ≠ 0
  let t := ((syncStamp s : Int) + 16 + adj).toNat
  { s with det := { d with count := t / 16 % 2 ^ 64, frac := t % 16
                           slewLeft := if bySlew then d.slewLeft - adj else d.slewLeft
                           rateAcc := if bySlew then acc else acc - adj * 10 ^ 9
                           slewIn := if adj = 0 then wait else 1000 } }

end Sys2Proof.Machine
end

