-- ==== Sys2Proof/Machine/Recovery.lean ====
section
/-! DEFINITION. Sticky records, the recovery sequencer with the levels of Table 17.4, tracker banks, engine faults, and limp (ch. 17). -/
namespace Sys2Proof.Machine

/-- A write of STICKY of a fault code (R672): false clears it and FIRST. -/
def writeSticky (s : State) (code : Nat) (b : Bytes) : WriteOut :=
  if b.length ≠ 1 then refuse s abTYPE
  else match leNat b with
    | 0 => applied (setBlob (setNum s (0x3100 + code) 1 0) (0x3100 + code) 3 (zeros 160))
    | 1 => applied s
    | _ => refuse s abRANGE

/-- STICKY_WRITE. -/
def execStickyWrite (w : Writer) (code : Nat) (value : Bytes) (s : State) : Res :=
  endWrite w (if 1 ≤ code && code ≤ 0xFF then writeSticky s code value else refuse s 1)

/-- A write of STICKY_CLEAR_ALL (R672): true clears every STICKY and FIRST in one step. -/
def writeStickyClear (s : State) (b : Bytes) : WriteOut :=
  if b.length ≠ 1 then refuse s abTYPE
  else match leNat b with
    | 0 => applied s
    | 1 => applied { s with obj := s.obj.filter (fun e =>
        !(decide (okey 0x3101 0 ≤ e.1) && decide (e.1 < okey 0x3200 0) && (e.1 % 256 == 1 || e.1 % 256 == 3))) }
    | _ => refuse s abRANGE

/-- STICKY_CLEAR_ALL. -/
def execStickyClearAll (w : Writer) (value : Bytes) (s : State) : Res := endWrite w (writeStickyClear s value)

/-- STICKY_MAP as read (R672). -/
def stickyMap (s : State) : Bytes := toLe 32 (((upTo 255).map (fun k => if num s (0x3101 + k) 1 = 1 then 2 ^ (k + 1) else 0)).sum)

/-- The domain of an engine (Table 18.2), by kind and unit of its resource ID. -/
def engDomain (kind unit : Nat) : Nat :=
  match kind with
  | 1 => 44 + unit % 8
  | 2 => 28 + unit % 16
  | 3 => 52 + unit % 32
  | 4 => 20 + unit % 8
  | 5 => unit % 16
  | _ => 16 + unit % 4

/-- Is the domain that of a unit disabled in the Hem (R7, R711)? -/
def domDisabled (s : State) (d : Nat) : Bool :=
  let h := s.sec.hem
  (decide (d < 16) && bit h.hearthDisabled d) || (decide (20 ≤ d) && decide (d ≤ 27) && bit h.treadleDisabled (d - 20)) ||
    (decide (52 ≤ d) && decide (d ≤ 83) && bit h.tapeDisabled (d - 52))

/-- What a domain's unit holds is lost when its supply falls, or its unit is reset (Table 18.3): tiles and instruction memory, row caches, reservations, the
L2's lines, lines of mappable Landing. -/
def domLost (s : State) (d : Nat) : State :=
  if d < 16 then { s with coh := { s.coh with reserve := s.coh.reserve.filter (fun x => x.1 != d) } }
  else if d < 20 then { s with coh := { s.coh with l2 := s.coh.l2.filter (fun e => e.1 / 2 ^ 48 != d - 16), reserve := s.coh.reserve.filter (fun x => x.1 / 4 != d - 16) } }
  else if d < 28 then setArray s (d - 20) TdArray.reset
  else if d < 44 then { s with eng := { s.eng with rowLines := s.eng.rowLines.filter (fun e => e.1 != d - 28), dirLines := s.eng.dirLines.filter (fun e => e.1 != d - 28) } }
  else if 144 ≤ d && d < 160 then
    let mine := fun (ln : Nat) => inLanding (ln * 64) && Config.landBank ln % 16 == d - 144
    { s with mem := s.mem.filter (fun c => !mine (c.1 / 64)), poison := s.poison.filter (fun l => !mine l) }
  else s

/-- A lost tracker bank (R686): its requests that have not committed complete ABORTED without effect. -/
def loseTrackers (s : State) (bank : Nat) : Nat × State :=
  let hs := s.acc.held.filter (fun h => holdsTracker h && bankOf s h.req.head.addr == bank &&
    (match h.why with | .away .. => false | .forwarded => false | .ready (some _) => false | _ => true))
  let ws := s.coh.waits.filter (fun w => bankOf s (w.line * 64) == bank && decide (w.agent < 0xFFF))
  let s := forS hs s (fun s h => finishReq s h 7 (failData h.req.op 7))
  let s := { s with coh := { s.coh with waits := s.coh.waits.filter (fun w => !ws.contains w) } }
  (hs.length + ws.length, forS ws s (fun s w => sendCmp s w.agent w.line w.tag w.cid 0 7))

/-- TRACKER_BANK_LOSS (R686): level 1 ends at once, and the bank serves again. -/
def execTrackerBankLoss (bank : Nat) (s : State) : Res :=
  if 16 ≤ bank || !bit s.acc.banksOk bank then .next s
  else
    let x := loseTrackers s bank
    .next (fin (detectFault x.2 0x0B (resId 6 bank) 1 0xFF 7 0 (toLe 4 x.1)))

/-- The units of a tier that a resource of class 2 to 4 covers: a quarantined Larder channel takes its quadrant's unit out of placement. -/
def tierUnitOf (res : Nat) : Nat × Nat :=
  match res / 4096 with
  | 2 => (1, res % 4096)
  | 3 => (2, res % 4096 / 4)
  | _ => (3, res % 4096)

/-- Key of a channel's values in the read-eye loop: Larder channels 0 to 15, Parlour stacks 16 to 21. -/
def eyeChannel (res : Nat) : Nat := if res / 4096 = 2 then 16 + res % 4096 else res % 4096

/-- A channel retrain (Table 17.4 level 2): the read eye from its bring-up values, or the Cellar's thresholds from the factory values. -/
def retrainChannel (s : State) (res : Nat) : State :=
  if res / 4096 = 4 then { s with pwr := { s.pwr with flashVt := s.pwr.flashVt.filter (fun e => e.1 / 2 ^ 32 != res % 4096) } }
  else { s with pwr := { s.pwr with eye := s.pwr.eye.filter (fun e => e.1 / 256 != eyeChannel res) } }

/-- What a recovery does as it starts (Table 17.4). -/
def recoveryEffect (s : State) (e : RecEntry) : State :=
  let u := e.res % 4096
  match e.res / 4096 with
  | 1 => if mayAttach s u then attach s u false else s
  | 2 | 3 | 4 =>
    if e.level = 2 then retrainChannel s e.res
    else
      let x := tierUnitOf e.res
      let s := holdOut { s with tier := { s.tier with quarantined := s.tier.quarantined ++ [x] } } e.res
      forS (unitBolts s x.1 x.2) s (fun s b => moveOut s b .retire)
  | 5 =>
    forS ((s.coh.dir.map (·.1)).filter (fun ln => sliceOf (ln * 64) == u)) s (fun s ln =>
      submitTxn s (homeTxn s ln .eccRecall 0))
  | 6 => holdOut { s with acc := { s.acc with banksOk := clrBit s.acc.banksOk u } } e.res
  | 7 => holdOut (setNum s 0x2604 3 (clrBit (num s 0x2604 3) u)) e.res
  | 8 => holdOut s e.res
  | 9 =>
    let d := engDomain (u / 256) (u % 256)
    let s := setDom (domLost s d) d 0
    if e.level = 3 then holdOut s e.res else s
  | _ => s

/-- RECOVERY_START (R684): one at a time, in order of detection; the window opens as the recovery starts (R682). -/
def execRecoveryStart (s : State) : Res :=
  match s.flt.running, s.flt.queue with
  | none, e :: rest =>
    let e := { e with startedAt := s.det.now }
    let s := setNum { s with flt := { s.flt with running := some e, queue := rest } } 0x3200 6 rest.length
    let s := if e.res / 4096 = 1 then s else openWindow s e.res e.level e.code none
    .next (fin (recoveryEffect s e))
  | _, _ => .next s

/-- Has the recovery in progress ended: a port no longer trains, a slice holds no entry? The others end when the command says so. -/
def recoveryOver (s : State) (e : RecEntry) : Bool :=
  match e.res / 4096 with
  | 1 => !(decide (2 ≤ portState s (e.res % 4096)) && decide (portState s (e.res % 4096) ≤ 6))
  | 5 => !s.coh.dir.any (fun x => sliceOf (x.1 * 64) == e.res % 4096)
  | _ => true

/-- RECOVERY_END (R682, R684): the window closes after the time of the recovery's level; a unit reset ends with its domain ON, if it is not disabled (R7). -/
def execRecoveryEnd (s : State) : Res :=
  match s.flt.running with
  | none => .next s
  | some e =>
    if !recoveryOver s e then .next s
    else
      let s := logRecovery { s with flt := { s.flt with running := none } } { e with endedAt := s.det.now }
      let s := if e.res / 4096 = 1 then s
        else setWindow s e.res { getWindow s e.res with closes := some (s.det.now + windowTicks s e.level) }
      let d := engDomain (e.res % 4096 / 256) (e.res % 256)
      .next (if e.res / 4096 = 9 && e.level = 2 && !domDisabled s d then setDom s d 4 else s)

/-- WINDOW_CLOSE (R682): a window whose time has passed is closed. -/
def execWindowClose (res : Nat) (s : State) : Res :=
  .next (match (getWindow s res).closes with
  | some t => if t ≤ s.det.now then setWindow s res { getWindow s res with level := 0, closes := none } else s
  | none => s)

/-- A write of RESOURCE_RELEASE (R682, R704): a resource held out of service returns; one in service is untouched. -/
def writeRelease (s : State) (b : Bytes) : WriteOut :=
  let res := leNat b
  let u := res % 4096
  if b.length ≠ 2 then refuse s abTYPE
  else if !outOfService s res then applied s
  else
    let s := setWindow s res { getWindow s res with out := false, level := 0, closes := none }
    applied (match res / 4096 with
      | 2 | 3 | 4 => { s with tier := { s.tier with quarantined := s.tier.quarantined.filter (fun x => x != tierUnitOf res) } }
      | 6 => { s with acc := { s.acc with banksOk := setBit s.acc.banksOk u } }
      | 7 => setNum s 0x2604 3 (setBit (num s 0x2604 3) u)
      | 9 =>
        let d := engDomain (u / 256) (u % 256)
        let s := if u / 256 = 2 || u / 256 = 4 then runFlag s 2 else s
        if domState s d = 0 && num s 0x2011 (d + 1) ≠ 2 && !domDisabled s d then setDom s d 4 else s
      | _ => s)

/-- RESOURCE_RELEASE. -/
def execResourceRelease (w : Writer) (value : Bytes) (s : State) : Res := endWrite w (writeRelease s value)

/-- A write of RESOURCE_QUERY, held for the session (R704). -/
def writeResourceQuery (s : State) (w : Writer) (b : Bytes) : WriteOut :=
  if b.length ≠ 2 then refuse s abTYPE else applied (setSess s w.slot { getSess s w.slot with resourceQuery := leNat b })

/-- RESOURCE_QUERY. -/
def execResourceQuery (w : Writer) (value : Bytes) (s : State) : Res := endWrite w (writeResourceQuery s w value)

/-- The sync count that stands for a time of the model's clock. -/
def asCount (s : State) (t : Nat) : Nat := if t ≤ s.det.now then s.det.count - (s.det.now - t) else s.det.count + (t - s.det.now)

/-- RESOURCE_INFO as a session reads it (Table 17.7). -/
def resourceInfo (s : State) (res : Nat) : Bytes :=
  let w := getWindow s res
  toLe 1 (openLevel s res) ++ toLe 1 (b2n w.out) ++ zeros 2 ++ toLe 8 (match w.closes with | some t => asCount s t | none => 0) ++ toLe 4 w.count

/-- RECOVERY_LOG as read: 32 entries of 24 bytes, newest first. -/
def recoveryLog (s : State) : Bytes :=
  slice (s.flt.log.flatMap (fun e => toLe 8 (asCount s e.startedAt) ++ toLe 2 e.res ++ toLe 1 e.fromLevel ++ toLe 1 e.level ++ toLe 2 e.code ++
    toLe 4 ((e.startedAt - e.queuedAt) / 100) ++ toLe 4 ((e.endedAt - e.startedAt) / 100) ++ zeros 2)) 0 768

/-- A write of LIMP_CMD (R688, R689): ENTER, or EXIT, which restarts what was RUNNING at entry. -/
def writeLimpCmd (s : State) (b : Bytes) : WriteOut :=
  if b.length ≠ 1 then refuse s abTYPE
  else match leNat b with
    | 1 => applied (if inLimp s then s else enterLimp s 0 0)
    | 2 =>
      if !inLimp s then applied s
      else
        let s := forS s.flt.limpBlocks s (fun s k => if num s (k / 256) (k % 256) = 0 then s else setNum s (k / 256) (k % 256) 3)
        applied (setNum { s with flt := { s.flt with limpBlocks := [] } } 0x3300 1 0)
    | _ => refuse s abRANGE

/-- LIMP_ENTER. -/
def execLimpEnter (w : Writer) (s : State) : Res := endWrite w (writeLimpCmd s [1])

/-- LIMP_EXIT. -/
def execLimpExit (w : Writer) (s : State) : Res := endWrite w (writeLimpCmd s [2])

/-- A descriptor waits in its fault record no more; a record without a request closes. -/
def quitRec (s : State) (x : Desc) : State :=
  match x.fault with
  | none => s
  | some (p, n) =>
    match findRec s p n with
    | none => s
    | some f =>
      if f.attached ≤ 1 then dropRec s p n
      else { s with acc := { s.acc with faults := s.acc.faults.map (fun y => if y.part == p && y.n == n then { y with attached := y.attached - 1 } else y) } }

/-- The operation of an engine ends with accesses not yet issued ABORTED, what was performed stays (Table 17.4, class engine, level 1): an update of a step
taints it (R422), a launch ends. -/
def abortDesc (s : State) (d : DescRef) : State :=
  match findDesc s d with
  | none => s
  | some y =>
    let x := { y with fault := none, trap := none, stalledAt := none }
    let s := setDesc (quitRec s y) d.q x
    let s := if d.q.blk == .bobbin && descOp x == 0x21 then
        (match getStep s (bfld x.bytes 4 2) (bfld x.bytes 0x28 8) with | some y => taintStep s y | none => s) else s
    if d.q.blk == .treadle && (findLaunch s d).isSome then denyLaunch s d (ranCode 7 0)
    else
      let s := setDesc s d.q { x with knots := [], members := [], arr := [] }
      endDesc s d 7 x.rcode x.result x.missing

/-- ENGINE_FAULT (R676, Table 17.4): an engine (kind and unit of class 9) is hung, or its control logic found an uncorrectable error; `d`: what it ran. -/
def execEngineFault (kind unit : Nat) (d : Option DescRef) (s : State) : Res :=
  if kind = 0 || 6 < kind then .next s
  else
    let x := d.bind (findDesc s)
    let part := match d, x with | some d, some _ => d.q.part | _, _ => 0xFF
    let tag := match x with | some x => bfld x.bytes 0x3C 4 | none => 0
    let s := detectFault s 0x40 (engRes kind unit) 1 part 7 0 (toLe 4 tag)
    .next (fin (match d with | some d => abortDesc s d | none => s))

end Sys2Proof.Machine
end

