-- ==== Sys2Proof/Machine/Power.lean ====
section
/-! DEFINITION. Power domains, pad hold, regulators and the adaptive loops (ch. 18). -/
namespace Sys2Proof.Machine

/-- The states of Table 18.2 that a domain may take: CG, RET, OFF. -/
def mayCg (d : Nat) : Bool := decide (d < 196) && !(decide (106 ≤ d) && decide (d ≤ 143)) && !(decide (176 ≤ d) && decide (d ≤ 179))
def mayRet (d : Nat) : Bool := decide (d < 196) && !(decide (106 ≤ d) && decide (d ≤ 111)) && !(decide (176 ≤ d) && decide (d ≤ 179))

/-- Has a domain a regulator of its own (R718)? -/
def regulated (d : Nat) : Bool := decide (d < 196) && !(decide (106 ≤ d) && decide (d ≤ 111))

/-- The clock of a domain whose divisor the loops may change (Table 18.1): 1 CLK_T, 2 CLK_C, 0 neither. -/
def domClock (d : Nat) : Nat :=
  if (decide (20 ≤ d) && decide (d ≤ 27)) || (decide (52 ≤ d) && decide (d ≤ 83)) then 1
  else if d < 20 || (decide (28 ≤ d) && decide (d ≤ 51)) || (decide (144 ≤ d) && decide (d ≤ 175)) || (decide (180 ≤ d) && decide (d ≤ 195)) then 2
  else 0

/-- The divisors in force (R707). -/
def divT (s : State) : Nat := num s 0x2001 1
def divC (s : State) : Nat := num s 0x2001 2

/-- The divisor of a domain's clock; 0 for a fixed clock. -/
def domDiv (s : State) (d : Nat) : Nat := match domClock d with | 1 => divT s | 2 => divC s | _ => 0

/-- The fused safe voltage and the fused floor, in mV: within the range of a buck regulator (R718), the floor not above the safe voltage. -/
def safeMv (d div : Nat) : Nat := 600 + 5 * (Config.safeStep d div % 81)
def floorMv (d div : Nat) : Nat := min (600 + 5 * (Config.floorStep d % 81)) (safeMv d div)

/-- The target of a domain's regulator in BUCK mode. -/
def voltOf (s : State) (d : Nat) : Nat := sget (fun _ => 0) s.pwr.volts d

/-- Set it. -/
def setVolt (s : State) (d v : Nat) : State := { s with pwr := { s.pwr with volts := sput (fun _ => 0) s.pwr.volts d v } }

/-- The learned voltage of a domain at a divisor, or the safe one where there is none or AVS is frozen (R721, R722). -/
def learnedMv (s : State) (d div : Nat) : Nat :=
  match sfind s.pwr.learned (d * 16 + div) with
  | some v => if num s 0x2003 1 = 1 then safeMv d div else v
  | none => safeMv d div

/-- Bring-up demands the lowest clocks until stage CONFIG (R708). -/
def bringUpDemand (s : State) : Bool := decide (num s 0x2000 4 < 6) || num s 0x2000 4 == 8

/-- The demands on CLK_T's divisor, or CLK_C's, in the order of DIV_CAUSE (R708): floor, power, thermal, margin, limp, bring-up. -/
def demands (s : State) (c : Bool) : List Nat :=
  let p := s.pwr
  let low := if c then 6 else 8
  [if c then num s 0x2001 4 else num s 0x2001 3, if c then p.powerC else p.powerT, if c then p.thermalC else p.thermalT,
   (p.marginPos.filter (fun e => domClock e.1 == (if c then 2 else 1))).foldl (fun m e => max m e.2) 0,
   if inLimp s then low else 0, if bringUpDemand s then low else 0]

/-- The divisor that the demands ask for: the largest. -/
def wantDiv (s : State) (c : Bool) : Nat := (demands s c).foldl max (if c then 4 else 5)

/-- DIV_CAUSE as read: the demands that set the present divisors. -/
def divCause (s : State) : Nat :=
  let f := fun (c : Bool) (k : Nat) => decide ((demands s c).getD k 0 = (if c then divC s else divT s))
  ((upTo 6).map (fun k => if f false k || f true k then 2 ^ k else 0)).sum

/-- A power transition's memory: learned voltages, level, margin episode and demand of a domain go as it goes OFF (R721). -/
def forgetDom (s : State) (d : Nat) : State :=
  let p := s.pwr
  let z := fun (m : Sparse Nat) => m.filter (fun e => e.1 != d)
  { s with pwr := { p with learned := p.learned.filter (fun e => e.1 / 16 != d), level := z p.level, marginLow := z p.marginLow, marginOk := z p.marginOk,
                           marginPos := z p.marginPos, volts := z p.volts } }

/-- The supply of a domain falls: what its unit holds is lost, its pads are latched (R715). -/
def switchOff (s : State) (d : Nat) : State :=
  let s := if 52 ≤ d && d ≤ 83 then { s with pwr := { s.pwr with flashVt := s.pwr.flashVt.filter (fun e => e.1 / 2 ^ 32 != d - 52) } } else s
  setDom (forgetDom (domLost s d) d) d 0

/-- The partition that has a core in its PART_HEARTH. -/
def corePart (s : State) (c : Nat) : Option Nat := (upTo 64).find? (fun p => partExists s p && coreOfPart s p c)

/-- A domain reaches HELD with its regulator at the safe voltage; one with no lands is released at once (R716). A core of a partition restarts at PART_ENTRY (R719, R731). -/
def powerUp (s : State) (d : Nat) : State :=
  let s := setDom (if regulated d then setVolt s d (safeMv d (domDiv s d)) else s) d 1
  if domLands d then s
  else
    let s := setDom s d 4
    match (if d < 16 then corePart s d else none) with
    | some p => startCore s d (pnum s 0x4A02 p)
    | none => s

/-- Requests of an on-die unit that have not completed. -/
def unitBusy (s : State) (kind unit : Nat) : Bool :=
  s.acc.held.any (fun h => h.req.head.kind == kind && h.req.head.unit == unit) || s.acc.issued.any (fun i => i.req.head.kind == kind && i.req.head.unit == unit)

/-- The quadrant of a domain's unit (Table 1.1), where the Hall attaches it; 4 for the Parlour stacks that lie between two (R713's exception) and for no unit of a quadrant. -/
def domQuad (d : Nat) : Nat :=
  if d < 16 then d / 4
  else if d < 20 then d - 16
  else if d < 28 then (d - 20) / 2
  else if d < 44 then (d - 28) / 4
  else if d < 52 then (d - 44) / 2
  else if d < 84 then (d - 52) / 8
  else if d < 100 then (d - 84) / 4
  else if d < 112 then [0, 4, 2, 1, 4, 3].getD ((d - 100) % 6) 4
  else if d < 144 then (d - 112) / 8
  else if d < 160 then (d - 144) / 4
  else if d < 176 then (d - 160) / 4
  else if d < 180 then 4
  else if d < 196 then (d - 180) / 4
  else 4

/-- Is switching a domain OFF refused (Table 18.4)? The directory slices, to which Tables 18.2 and 18.4 give no OFF, count among the other domains of a Hall quadrant (DESIGN CHOICE, log entry 76). -/
def offRefused (s : State) (d : Nat) : Bool :=
  if d < 16 then decide (d ≤ 1) || (corePart s d).isSome
  else if d < 20 then d == 16 || (upTo 4).any (fun k => domState s (4 * (d - 16) + k) != 0)
  else if d < 84 then false
  else if d < 100 then !(unitBolts s 2 ((d - 84) / 4)).isEmpty
  else if d < 106 then !(unitBolts s 1 (d - 100)).isEmpty
  else if d < 112 then domState s (d - 6) != 0
  else if d < 144 then ! [0, 1, 10].contains (portState s (d - 112))
  else if d < 160 then s.regions.any (fun e => e.2.valid && decide (landBase ≤ e.2.base)) || s.eng.bob.steps.any (fun y => y.res.getD (d - 144) 0 != 0)
  else if d < 176 then true
  else if d < 180 then
    d == 176 || (upTo 4).any (fun q => 176 + q != d && domState s (176 + q) != 4) ||
      (upTo 196).any (fun k => domQuad k == d - 176 && domState s k != 0)
  else false

/-- Has a domain's unit work outstanding: requests, a launch, flash operations? -/
def domBusy (s : State) (d : Nat) : Bool :=
  if d < 16 then unitBusy s 5 d || s.coh.l2pend.any (fun p => p.core == d)
  else if d < 20 then agentBusy s (d - 16)
  else if d < 28 then (heldArrays s).contains (d - 20)
  else if d < 44 then unitBusy s 2 (d - 28)
  else if d < 52 then (upTo 4).any (fun k => unitBusy s 1 (4 * (d - 44) + k))
  else if d < 84 then
    unitBusy s 3 (d - 52) || s.tier.moves.any (fun m => (m.tier == 3 && unitOfSlot s 3 m.slot == d - 52) ||
      ((getBolt s m.bolt).home == 3 && unitOfSlot s 3 (getBolt s m.bolt).slot == d - 52))
  else false

/-- Is what Table 18.4 asks for done before the supply falls: no work left, and of a cluster no line held? -/
def offReady (s : State) (d : Nat) : Bool :=
  !domBusy s d && !(decide (16 ≤ d) && decide (d < 20) && !(agentLines s (d - 16)).isEmpty)

/-- The domains that a domain's return needs ON first (R710): a core's cluster, a controller's supply switch, and the Hall quadrant. -/
def upReady (s : State) (d : Nat) : Bool :=
  (!(d < 16) || decide (2 ≤ domState s (16 + d / 4))) && (domQuad d = 4 || domState s (176 + domQuad d) == 4)

/-- A write that a transition answers at its end. -/
def startMoveDom (s : State) (w : Writer) (d to_ : Nat) : State :=
  { s with pwr := { s.pwr with moves := s.pwr.moves ++ [{ dom := d, to_ := to_, write := some (waiting s w (d + 1)) }] } }

/-- A transition in progress gives way to a later target; the write that waits for it is answered. -/
def dropMove (s : State) (d : Nat) : State :=
  let mine := s.pwr.moves.filter (fun m => m.dom == d)
  let s := { s with pwr := { s.pwr with moves := s.pwr.moves.filter (fun m => m.dom != d) } }
  forS mine s (fun s m => match m.write with | some w => answerWaiting s w 0 | none => s)

/-- A write of DOM_TARGET (R711). -/
def writeDomTarget (s : State) (w : Writer) (d : Nat) (b : Bytes) : WriteOut :=
  let v := leNat b
  if domDisabled s d then refuse s 8
  else if b.length ≠ 2 then refuse s abTYPE
  else if 2 < v then refuse s abRANGE
  else if v = 2 && offRefused s d then refuse s abINCONS
  else
    let s := setNum (dropMove s d) 0x2011 (d + 1) v
    if v = 2 then
      if domState s d = 0 then applied s
      else
        let s := if 16 ≤ d && d < 20 then detachLines (unsweep s (fun x => x.1 == d - 16)) (d - 16) else s
        .wait (startMoveDom s w d 0)
    else if domState s d = 0 then .wait (startMoveDom s w d 1)
    else if v = 1 && (domState s d = 2 || domState s d = 3) then .wait (startMoveDom s w d 4)
    else applied s

/-- DOM_TARGET. -/
def execDomTarget (w : Writer) (dom : Nat) (value : Bytes) (s : State) : Res :=
  endWrite w (if dom < 196 then writeDomTarget s w dom value else refuse s 2)

/-- DOM_TRANSITION_END (R711): the transition ends once what it waits for has happened, and its write is answered. -/
def execDomTransitionEnd (dom : Nat) (s : State) : Res :=
  match s.pwr.moves.find? (fun m => m.dom == dom) with
  | none => .next s
  | some m =>
    if (if m.to_ = 0 then !offReady s dom else !upReady s dom) then .next s
    else
      let s := { s with pwr := { s.pwr with moves := s.pwr.moves.filter (fun x => x.dom != dom) } }
      let s := match m.to_ with
        | 0 => switchOff s dom
        | 1 => powerUp s dom
        | _ => setDom s dom 4
      .next (bellScan (fin (match m.write with | some x => answerWaiting s x 0 | none => s)))

/-- DOM_IDLE_CG (R712): a domain without work. -/
def execDomIdleCg (dom : Nat) (s : State) : Res :=
  .next (if mayCg dom && !domBusy s dom && domState s dom = 4 && num s 0x2011 (dom + 1) = 0 then bellScan (setDom s dom 3) else s)

/-- May a domain enter RET under AUTO in N0 (R712)? A core's WFI is the sender's to know. -/
def retEligible (s : State) (d : Nat) : Bool :=
  if d < 16 then !domBusy s d
  else if d < 20 then !domBusy s d && (upTo 4).all (fun k => domState s (4 * (d - 16) + k) == 0 || domState s (4 * (d - 16) + k) == 2)
  else if d < 84 then offReady s d
  else decide (180 ≤ d) && decide (d < 196)

/-- RET_MAX_C (R713). -/
def aboveRet (s : State) (tempC : Int) : Bool := decide (toSigned 8 (num s 0x2004 3) < tempC)

/-- DOM_IDLE_RET (R712, R713): a domain above RET_MAX_C goes to CG. -/
def execDomIdleRet (dom : Nat) (tempC : Int) (s : State) : Res :=
  .next (if retEligible s dom && (domState s dom = 4 || domState s dom = 3) && num s 0x2011 (dom + 1) = 0 then
      bellScan (setDom s dom (if aboveRet s tempC then 3 else 2))
    else s)

/-- DOM_WAKE (R712): a core's cluster returns first (R710). -/
def execDomWake (dom : Nat) (s : State) : Res :=
  .next (if (domState s dom = 2 || domState s dom = 3) && num s 0x2000 1 ≤ 1 then
      bellScan (setDom (if dom < 16 then wakeCluster s (dom / 4) else s) dom 4)
    else s)

/-- RET_OVER_TEMPERATURE (R713). -/
def execRetOverTemperature (dom : Nat) (tempC : Int) (s : State) : Res :=
  .next (if domState s dom = 2 && mayCg dom && aboveRet s tempC then bellScan (setDom s dom 3) else s)

/-- A write of PAD_RELEASE (R716): the bits of a 25 B mask, supply switches before the controllers. -/
def writePadRelease (s : State) (b : Bytes) : WriteOut :=
  if b.length ≠ 25 then refuse s abTYPE
  else applied (forS (((upTo 6).map (106 + ·) ++ upTo 196).filter (bit (leNat b))) s releasePad)

/-- PAD_RELEASE. -/
def execPadRelease (w : Writer) (value : Bytes) (s : State) : Res := endWrite w (writePadRelease s value)

/-- CW_PAD_RELEASE (R716, R717). -/
def execCwPadRelease (h : Head) (dom : Nat) (s : State) : Res := .next (fin (cwStore s h 0x080 (dom % 256)))

/-- CW_PAD_RELEASE_ALL (R717). -/
def execCwPadReleaseAll (h : Head) (s : State) : Res := .next (fin (cwStore s h 0x080 256))

/-- PAD_HELD as read. -/
def padHeld (s : State) : Bytes := toLe 25 (((upTo 196).map (fun d => if domState s d = 1 then 2 ^ d else 0)).sum)

/-- Level of bias and assist of a domain (R720). -/
def biasOf (s : State) (d : Nat) : Nat := sget (fun _ => 0) s.pwr.level d

/-- DOM_INFO as read (Table 18.15); currents and temperatures are telemetry. -/
def domInfo (s : State) (d : Nat) : Bytes :=
  let st := if d = 196 then 4 else domState s d
  let on := regulated d && st != 0
  toLe 2 (if !on then 0 else if st = 2 then 600 else voltOf s d) ++ toLe 2 (if regulated d then safeMv d (domDiv s d) else 0) ++ toLe 1 (Config.sensorC d s.det.now) ++
    toLe 1 (biasOf s d) ++ toLe 1 (biasOf s d) ++ toLe 1 (if !on then 0 else if st = 2 then 2 else 1) ++ toLe 4 (Config.currentMa d s.det.now) ++ zeros 4

/-- The loss of a domain's contents by a brown-out (Table 18.7). -/
def brownoutLoss (s : State) (d : Nat) : State :=
  let restart := fun (s : State) (c : Nat) =>
    match corePart s c with
    | some p => latch (startCore s c (pnum s 0x4A02 p)) (partSource p 8)
    | none => s
  if d < 16 then (match corePart s d with | some p => latch s (partSource p 8) | none => s)
  else if d < 20 then forS ((upTo 4).map (4 * (d - 16) + ·)) (recoverAgent s (d - 16)) restart
  else if d < 28 then (enterLadder s (engRes 4 (d - 20)) 1 0x3C).2
  else if d < 44 then (enterLadder s (engRes 2 (d - 28)) 1 0x3C).2
  else if d < 52 then (enterLadder s (engRes 1 (d - 44)) 1 0x3C).2
  else if d < 84 then (enterLadder s (engRes 3 (d - 52)) 1 0x3C).2
  else if d < 106 then { s with pwr := { s.pwr with eye := s.pwr.eye.filter (fun e => e.1 / 256 != (if d < 100 then d - 84 else 16 + d - 100)) } }
  else if d < 144 then s
  else if d < 160 then
    let mine := ((s.regions.filter (fun e => e.2.valid && decide (landBase ≤ e.2.base))).flatMap (fun e =>
      (upTo (e.2.size / 64)).map (e.2.base / 64 + ·))).filter (fun ln => Config.landBank ln % 16 == d - 144)
    loseBank { s with poison := mine.foldl ninsert s.poison } (d - 144)
  else if d < 176 then
    let s := (loseTrackers s (d - 160)).2
    forS ((s.coh.dir.map (·.1)).filter (fun ln => sliceOf (ln * 64) == d - 160)) s (fun s ln =>
      submitTxn (detectFault s 0x14 (resId 5 (d - 160)) 1 0xFF 0xFF (ln * 64) []) (homeTxn s ln .eccRecall 0))
  else s

/-- POWER_BROWNOUT (R719): a domain in LINEAR mode is reset and taken OFF; under AUTO or ON it is then powered to HELD. -/
def execPowerBrownout (dom : Nat) (s : State) : Res :=
  if domState s dom ≠ 2 || !mayRet dom then .next s
  else
    let s := latch (noteFault s 0x3C (resId 14 dom) 0xFF 0xFF 0 []) 8
    if dom ≤ 1 || dom = 16 then .next (deviceReset s 4)
    else
      let s := switchOff (brownoutLoss s dom) dom
      .next (bellScan (fin (if num s 0x2011 (dom + 1) = 2 then s
        else { s with pwr := { s.pwr with moves := s.pwr.moves.filter (fun m => m.dom != dom) ++ [{ dom := dom, to_ := 1, write := none }] } })))

/-- Raise bias and assist by one level, or, at level 3, add the margin demand of one further position (R720). -/
def raiseLevel (s : State) (d : Nat) : State :=
  let p := s.pwr
  let p := { p with marginLow := sput (fun _ => 0) p.marginLow d (s.det.now + 1) }
  if biasOf s d < 3 then { s with pwr := { p with level := sput (fun _ => 0) p.level d (biasOf s d + 1) } }
  else if domClock d = 0 || (sfind p.marginPos d).isSome then { s with pwr := p }
  else { s with pwr := { p with marginPos := sput (fun _ => 0) p.marginPos d (min (domDiv s d + 1) (if domClock d = 1 then 8 else 6)) } }

/-- POWER_MARGIN (R720): margin is low; the first raise of an episode is recorded. -/
def execPowerMargin (dom : Nat) (s : State) : Res :=
  if !regulated dom || domState s dom = 0 || (sfind s.pwr.marginLow dom).isSome then .next s
  else
    let s := if biasOf s dom = 0 then latch (noteFault s 0x3D (resId 14 dom) 0xFF 0xFF 0 []) 8 else s
    .next (raiseLevel { s with pwr := { s.pwr with marginOk := s.pwr.marginOk.filter (fun e => e.1 != dom) } } dom)

/-- MARGIN_STEP (R720): margin is still low 10 µs after the last raise. -/
def execMarginStep (dom : Nat) (s : State) : Res :=
  .next (match sfind s.pwr.marginLow dom with
  | some t => if t + 999 ≤ s.det.now then raiseLevel s dom else s
  | none => s)

/-- The levels of one domain at an AVS period (R720): they fall once margin has held for 1 ms; the margin demand goes 100 ms after they reach 0. -/
def levelPeriod (s : State) (low : List Nat) (d : Nat) : State :=
  let p := s.pwr
  let stamp := fun (m : Sparse Nat) => sput (fun _ => 0) m d (s.det.now + 1)
  if low.contains d then s
  else if (sfind p.marginLow d).isSome then { s with pwr := { p with marginLow := p.marginLow.filter (fun e => e.1 != d), marginOk := stamp p.marginOk } }
  else
    match sfind p.marginOk d with
    | none => s
    | some t =>
      if biasOf s d ≠ 0 then
        (if s.det.now + 1 < t + msT 1 then s
         else { s with pwr := { p with level := sput (fun _ => 0) p.level d (biasOf s d - 1), marginOk := if biasOf s d = 1 then stamp p.marginOk else p.marginOk } })
      else if s.det.now + 1 < t + msT 100 then s
      else { s with pwr := { p with marginOk := p.marginOk.filter (fun e => e.1 != d), marginPos := p.marginPos.filter (fun e => e.1 != d) } }

/-- AVS at one domain (R721): its margin in stages. At zero margin it acts even when frozen (R728). -/
def avsDom (s : State) (d margin : Nat) : State :=
  let div := domDiv s d
  let v := voltOf s d
  let frozen := num s 0x2003 1 == 1
  let go := fun (n learn : Nat) =>
    let s' := { s with pwr := { s.pwr with learned := sset s.pwr.learned (d * 16 + div) learn } }
    if n = v then s' else bump (setVolt s' d n) 0x2003 3
  if margin = 0 then go (min (v + 20) (safeMv d div)) (safeMv d div)
  else if frozen then s
  else if margin = 1 then go (min (v + 5) (safeMv d div)) (min (v + 5) (safeMv d div))
  else if 3 ≤ margin && biasOf s d = 0 then go (max (v - 5) (floorMv d div)) (max (v - 5) (floorMv d div))
  else s

/-- AVS_PERIOD (R720, R721): margins read by domain, and the domains whose regulators report low margin. AVS starts at stage CONFIG, and acts every AVS_PERIOD_US. -/
def execAvsPeriod (margins : List (Nat × Nat)) (low : List Nat) (s : State) : Res :=
  if bringUpDemand s || !due s s.pwr.avsAt (usT (num s 0x2003 2)) then .next s
  else
    let s := { s with pwr := { s.pwr with avsAt := s.det.now } }
    let s := forS (margins.filter (fun e => regulated e.1 && domState s e.1 == 4)) s (fun s e => avsDom s e.1 e.2)
    .next (forS ((s.pwr.marginLow.map (·.1)) ++ (s.pwr.marginOk.map (·.1))).eraseDups s (fun s d => levelPeriod s low d))

/-- The voltages of a clock's domains at a divisor (R722). -/
def clockVolts (s : State) (c : Bool) (div : Nat) : State :=
  forS ((upTo 196).filter (fun d => domClock d == (if c then 2 else 1) && decide (3 ≤ domState s d))) s (fun s d => setVolt s d (learnedMv s d div))

/-- DIVISOR_STEP (R707, R708, R722, R728): one clock moves one position towards its demands, at least 10 µs after the last step. To a higher frequency, voltages go first, and not
while the loop is frozen; to a lower one, the step goes first. CLK_T goes first when PL2 has taken both to their lowest (R723). -/
def execDivisorStep (clockC : Bool) (s : State) : Res :=
  let cur := if clockC then divC s else divT s
  let want := wantDiv s clockC
  let frozen := num s 0x2001 5 == 1
  let forced := [1, 2, 3, 4].any (fun k => decide (cur < (demands s clockC).getD k 0))
  let soon := match s.pwr.stepAt with | some t => decide (s.det.now < t + usT 10) | none => false
  let waits := clockC && s.pwr.powerT == 8 && decide (divT s < 8)
  let set := fun (s : State) (n : Nat) => bump { setNum s 0x2001 (if clockC then 2 else 1) n with pwr := { s.pwr with stepAt := some s.det.now } } 0x2001 7
  .next (if soon || want = cur then s
    else if cur < want then
      (if waits || (frozen && !forced) then s
       else
        let s := set s (cur + 1)
        if num s 0x2003 1 = 1 then s else clockVolts s clockC (cur + 1))
    else if frozen then s
    else set (clockVolts s clockC (cur - 1)) (cur - 1))

/-- One position down for a loop: CLK_T, and CLK_C once CLK_T is at ÷8 (R723, R724). `none` at the lowest. -/
def stepDown (s : State) (t c : Nat) : Option (Nat × Nat) :=
  let nt := max t (divT s)
  let nc := max c (divC s)
  if nt < 8 then some (nt + 1, c) else if nc < 6 then some (t, nc + 1) else none

/-- One position up: CLK_C before CLK_T; a demand that reaches the highest frequency is gone. `none` where nothing is demanded. -/
def stepUp (t c : Nat) : Option (Nat × Nat) :=
  if c ≠ 0 then some (t, if c ≤ 5 then 0 else c - 1) else if t ≠ 0 then some (if t ≤ 6 then 0 else t - 1, c) else none

/-- Set the power demand. -/
def setPowerDemand (s : State) (x : Nat × Nat) : State := { s with pwr := { s.pwr with powerT := x.1, powerC := x.2 } }

/-- PL2_EVAL (R723): every 1 ms, the mean of the last 1 ms in mW. -/
def execPl2Eval (meanMw : Nat) (s : State) : Res :=
  let early := !due s s.pwr.pl2At (msT 1)
  let s := if early then s else setNum { s with pwr := { s.pwr with pl2At := s.det.now } } 0x2002 1 meanMw
  .next (if early || meanMw ≤ 480000 then s
    else match stepDown s s.pwr.powerT s.pwr.powerC with
      | some x => latch (bump (setPowerDemand s x) 0x2002 5) 8
      | none => s)

/-- PL2_SUSTAINED (R723): both clocks to their lowest positions, each step counted. -/
def execPl2Sustained (s : State) : Res :=
  let n := (8 - max (divT s) s.pwr.powerT) + (6 - max (divC s) s.pwr.powerC)
  .next (if n = 0 then setPowerDemand s (8, 6) else latch (bumpBy (setPowerDemand s (8, 6)) 0x2002 5 n) 8)

/-- PL1_W: the part's TDP unless a lower limit has been written (R5, R723, R758). -/
def pl1W (s : State) : Nat := min (num s 0x2002 2) (tdpW s)

/-- PL1_EVAL (R723): every 10 ms, the PL1_TAU_MS mean and the mean of the last 10 ms, in mW. The loop holds while FREQ_FREEZE is set. -/
def execPl1Eval (tauMw last10Mw : Nat) (s : State) : Res :=
  let lim := pl1W s * 1000
  let early := !due s s.pwr.pl1At (msT 10)
  let s := if early then s else { s with pwr := { s.pwr with pl1At := s.det.now } }
  let act := fun (x : Option (Nat × Nat)) => match x with | some y => bump (setPowerDemand s y) 0x2002 4 | none => s
  .next (if early || num s 0x2001 5 = 1 then s
    else if lim < tauMw && 98 * lim < 100 * last10Mw then act (stepDown s s.pwr.powerT s.pwr.powerC)
    else if 100 * tauMw < 95 * lim && 100 * last10Mw < 95 * lim then act (stepUp s.pwr.powerT s.pwr.powerC)
    else s)

/-- THROTTLE_C (R724). -/
def throttleC (s : State) : Int := toSigned 8 (num s 0x2004 2)

/-- Has the thermal loop last acted at least some ticks ago? -/
def throttleDue (s : State) (n : Nat) : Bool := match s.pwr.throttleAt with | some t => due s t n | none => true

/-- THROTTLE_STEP (R724): once per 1 ms. -/
def execThrottleStep (dom : Nat) (tempC : Int) (s : State) : Res :=
  .next (if tempC < throttleC s || 196 < dom || !throttleDue s (msT 1) then s
    else
      let s := { s with pwr := { s.pwr with throttleAt := some s.det.now } }
      match stepDown s s.pwr.thermalT s.pwr.thermalC with
      | some x => bump { s with pwr := { s.pwr with thermalT := x.1, thermalC := x.2 } } 0x2004 5
      | none => s)

/-- THROTTLE_STEP_UP (R724): every sensor has read below THROTTLE_C − 5 °C for 10 ms; one position per 10 ms. -/
def execThrottleStepUp (hottestC : Int) (s : State) : Res :=
  .next (if throttleC s - 5 ≤ hottestC || !throttleDue s (msT 10) then s
    else match stepUp s.pwr.thermalT s.pwr.thermalC with
      | some x => { s with pwr := { s.pwr with thermalT := x.1, thermalC := x.2, throttleAt := some s.det.now } }
      | none => s)

/-- THERMAL_TRIP (R725): a sensor at 105 °C. -/
def execThermalTrip (dom : Nat) (tempC : Int) (s : State) : Res :=
  .next (if tempC < 105 || 196 < dom || s.pwr.hot105 then s
    else
      let s := noteFault s 0x3E (resId 14 dom) 0xFF 0xFF 0 []
      { s with pwr := { s.pwr with hot105 := true, thermalT := 8, thermalC := 6, throttleAt := some s.det.now } })

/-- THERMAL_TRIP_CLEAR (R725): every sensor reads below 100 °C. -/
def execThermalTripClear (hottestC : Int) (s : State) : Res :=
  .next (if 100 ≤ hottestC then s else { s with pwr := { s.pwr with hot105 := false } })

/-- HARD_TRIP (R725): at 120 °C THERM_TRIP_L is asserted, and every switched domain is taken OFF. -/
def execHardTrip (dom : Nat) (tempC : Int) (s : State) : Res :=
  .next (if tempC < 120 || 196 < dom || s.pwr.tripped then s
    else
      let c := num s 0x1003 9
      let s := setNum (wipe (recordFault s 0x3E (resId 14 dom) 0xFF 4 0xFF 0 []) true) 0x1003 9 c
      { s with pwr := { s.pwr with tripped := true, perst := true } })

/-- TJ_MAX_C as read: the hottest sensor, telemetry. -/
def tjMax (s : State) : Nat := ofSigned 8 (((upTo 197).map (fun d => toSigned 8 (Config.sensorC d s.det.now % 256))).foldl max (-128))

/-- DRAM_EYE_PASS (R726): a pass at a Larder channel (0 to 15) or Parlour stack (16 to 21), due by its period or a change of 5 °C; each lane's delay and reference move by
at most one step. A lane at ±16 steps has its channel retrained at level 2. -/
def execDramEyePass (channel : Nat) (tempC : Int) (steps : List (Nat × Int × Int)) (s : State) : Res :=
  let last := sfind s.pwr.eyeAt channel
  let dueNow := match last with
    | some x => due s x.1 (secT (num s 0x2005 2)) || decide (5 ≤ (tempC - x.2).natAbs)
    | none => true
  if 22 ≤ channel || num s 0x2005 1 = 1 || num s 0x2000 1 ≠ 0 || !s.tier.up || !dueNow then .next s
  else
    let one := fun (z : Int) => if 0 < z then (1 : Int) else if z < 0 then -1 else 0
    let s := { s with pwr := { s.pwr with eyeAt := sset s.pwr.eyeAt channel (s.det.now, tempC) } }
    let s := forS (steps.filter (fun x => decide (x.1 < 256))) s (fun s x =>
      let k := channel * 256 + x.1
      let o := sget (fun _ => ((0 : Int), (0 : Int))) s.pwr.eye k
      let n := (o.1 + one x.2.1, o.2 + one x.2.2)
      if n = o then s else bump { s with pwr := { s.pwr with eye := sput (fun _ => ((0 : Int), (0 : Int))) s.pwr.eye k n } } 0x2005 4)
    let full := s.pwr.eye.any (fun e => e.1 / 256 == channel && (decide (16 ≤ e.2.1.natAbs) || decide (16 ≤ e.2.2.natAbs)))
    .next (if full then fin (enterLadder s (if channel < 16 then resId 3 channel else resId 2 (channel - 16)) 2 0).2 else s)

end Sys2Proof.Machine
end

