-- ==== Sys2Proof/Machine/Boot.lean ====
section
/-! DEFINITION. Device states, resets, supplies and sideband pins, boot from the flash, and the firmware update (ch. 18, 19). -/
namespace Sys2Proof.Machine

/-- Is a partition DRAINING (R626, R730)? -/
def anyDraining (s : State) : Bool := s.sec.parts.any (fun e => e.2.st == 2)

/-- May the device be sent to N2 or N3 (R730, R732)? -/
def lowAllowed (s : State) (v : Nat) : Bool :=
  decide (portsRun s ≤ 1) && (upTo 32).all (fun p => !portCompat s p || [0, 1, 10].contains (portState s p)) &&
  [Blk.bobbin, .tape, .treadle, .shuttle].all (fun b => decide (blkRun s b ≤ 1)) && s.tier.streams.all (fun e => e.2.run == 1) &&
  !s.coh.agents.any (fun e => e.2.v) && (v != 3 || decide (3072 ≤ tierFree s 2))

/-- A change of DEV_STATE (R729, R744). -/
def setDevState (s : State) (st : Nat) : State :=
  if num s 0x2000 1 = st then s else latch (bump (setNum s 0x2000 1 st) 0x2000 6) 8

/-- Return to N0: domains asleep return to ON; after N2 and N3 every lease's deadline moves by the time spent outside N0 (R731). -/
def wakeDevice (s : State) : State :=
  let old := num s 0x2000 1
  let s := forS ((upTo 196).filter (fun d => domState s d == 2 || domState s d == 3)) s (fun s d => setDom s d 4)
  let gone := s.det.now - s.pwr.leftN0
  let s := if 2 ≤ old then
      { s with ver := { s.ver with leases := s.ver.leases.map (fun e => (e.1, if e.2.st = 1 || e.2.st = 2 then { e.2 with deadline := e.2.deadline + gone } else e.2)) } }
    else s
  bellScan (setDevState s 0)

/-- Enter N2 (Table 18.9), when it is sought and nothing stands against it. -/
def enterN2 (s : State) : State :=
  if num s 0x2000 2 ≠ 2 || 2 ≤ num s 0x2000 1 || anyDraining s || !lowAllowed s 2 then s
  else
    let s := forS ((upTo 196).filter (fun d => mayRet d && (domState s d == 3 || domState s d == 4))) s (fun s d => setDom s d 2)
    bellScan (setDevState { s with pwr := { s.pwr with leftN0 := s.det.now } } 2)

/-- A write of DEV_TARGET (R729, R730): from N2 another target is the wake; from N3 the wake follows. -/
def writeDevTarget (s : State) (b : Bytes) : WriteOut :=
  let v := leNat b
  if b.length ≠ 2 then refuse s abTYPE
  else if 3 < v then refuse s abRANGE
  else if 2 ≤ v && num s 0x2000 1 ≠ v && !lowAllowed s v then refuse s abINCONS
  else
    let s := setNum s 0x2000 2 v
    let st := num s 0x2000 1
    applied (enterN2 (if (st = 2 && v ≠ 2) || (st = 1 && v = 0) then wakeDevice s else s))

/-- DEV_TARGET. -/
def execDevTarget (w : Writer) (value : Bytes) (s : State) : Res := endWrite w (writeDevTarget s value)

/-- Does the node have work: requests, descriptors, coherent transactions? -/
def hasWork (s : State) : Bool :=
  !s.acc.held.isEmpty || !s.acc.issued.isEmpty || !s.coh.txns.isEmpty || s.eng.queues.any (fun e => !e.2.accepted.isEmpty) ||
    (upTo 32).any (fun t => winner s t != 0)

/-- N1_IDLE (R729): domains under AUTO go to CG. -/
def execN1Idle (s : State) : Res :=
  .next (if num s 0x2000 2 ≠ 1 || num s 0x2000 1 ≠ 0 || num s 0x2000 4 ≠ 7 || hasWork s then s
    else
      let s := forS ((upTo 196).filter (fun d => mayCg d && domState s d == 4 && num s 0x2011 (d + 1) == 0)) s (fun s d => setDom s d 3)
      bellScan (setDevState { s with pwr := { s.pwr with leftN0 := s.det.now } } 1))

/-- WAKE_EVENT (R729, R744): WAKE_L asserted, or work that arrives in N1. From N3 the return to N0 ends with the restore. -/
def execWakeEvent (wakeL : Bool) (s : State) : Res :=
  let st := num s 0x2000 1
  let s := if wakeL then latch s 9 else s
  .next (if st = 1 then wakeDevice s
    else if wakeL && st = 2 then wakeDevice (setNum s 0x2000 2 0)
    else if wakeL && st = 3 then setNum s 0x2000 2 0
    else s)

/-- Every line of the L2 clusters is recalled (R732): dirty data to memory, no line left. -/
def flushClusters (s : State) : State :=
  let s := forS s.coh.l2 s (fun s e =>
    let ln := e.1 % 2 ^ 48
    if e.2.coh && e.2.st == 4 then lineWrite s (e.1 / 2 ^ 48) ln e.2.data e.2.mark else s)
  let s := forS (s.coh.dir.map (·.1)) s (fun s ln => forS [0, 1, 2, 3] s (fun s a => dropHolder s ln a))
  { s with coh := { s.coh with l2 := [], reserve := [] } }

/-- The domains that N3 leaves powered, by state (Table 18.9): the NW quadrant and the supply switches ON; cores 0 and 1, cluster 0 and the slices in RET. -/
def n3Kept (d : Nat) : Bool := d == 176 || (decide (106 ≤ d) && decide (d ≤ 111))
def n3Ret (d : Nat) : Bool := decide (d ≤ 1) || d == 16 || (decide (160 ≤ d) && decide (d ≤ 175))

/-- N3_ENTRY (R732): sessions end; lines are recalled; the save image stands for the state that comes back; what starts from first use after N3 is dropped. -/
def execN3Entry (s : State) : Res :=
  .next (if num s 0x2000 2 ≠ 3 || 2 ≤ num s 0x2000 1 || anyDraining s || !lowAllowed s 3 then s
    else
      let s := forS (upTo 18) s (fun s k => endSession s k 4)
      let s := flushClusters s
      let on := (upTo 196).filter (fun d => decide (2 ≤ domState s d))
      let s := keysMade { s with pwr := { s.pwr with wasOn := on, saved := true, saveKey := true, leftN0 := s.det.now, flashVt := [] } } 1
      let s := forS (on.filter (fun d => !n3Kept d)) s (fun s d =>
        if n3Ret d then setDom s d 2
        else setDom (forgetDom (if 20 ≤ d && d ≤ 43 then domLost s d else s) d) d 0)
      bellScan (setDevState s 3))

/-- N3_WAKE (R731, R732): the image is restored and its key destroyed; lines of Landing whose restore fails are poisoned; any other failure resets the device. -/
def execN3Wake (landingBad : List Nat) (otherBad : Bool) (s : State) : Res :=
  .next (if num s 0x2000 1 ≠ 3 || num s 0x2000 2 = 3 then s
    else if otherBad then deviceReset s 4
    else
      let s := keysGone { s with poison := (landingBad.filter (fun ln => inLanding (ln * 64))).foldl ninsert s.poison
                                 pwr := { s.pwr with saved := false, saveKey := false, wasOn := [] } } 1
      let was := (upTo 4).map (176 + ·) ++ (upTo 4).map (16 + ·) ++ upTo 196
      let s := forS was s (fun s d => if domState s d = 0 && num s 0x2011 (d + 1) ≠ 2 && !domDisabled s d then powerUp s d else s)
      let s := forS ((upTo 6).map (106 + ·) ++ (upTo 60).map (52 + ·)) s releasePad
      enterN2 (wakeDevice s))

/-- A write of RESET_CMD (R733). -/
def writeResetCmd (s : State) (b : Bytes) : WriteOut :=
  if b.length ≠ 1 then refuse s abTYPE
  else if leNat b ≠ 1 then refuse s abRANGE
  else applied (deviceReset s 3)

/-- RESET_CMD. -/
def execResetCmd (w : Writer) (value : Bytes) (s : State) : Res := endWrite w (writeResetCmd s value)

/-- The main rails (MAIN_PWRGD). -/
def mainGood (s : State) : Bool := num s 0x2020 2 == 1

/-- PERST_L asserted (R733, R752): no effect while the main rails are bad. A hard trip ends once every sensor reads below 100 °C (R725). -/
def execPerst (hottestC : Int) (s : State) : Res :=
  .next (if !mainGood s then s
    else
      let t := s.pwr.tripped && decide (100 ≤ hottestC)
      let s := deviceReset s 2
      { s with pwr := { s.pwr with perst := true, tripped := t } })

/-- PERST_L released (R740, R752). -/
def execPerstRelease (s : State) : Res :=
  .next (if mainGood s && s.pwr.refclk && s.pwr.vstby then { s with pwr := { s.pwr with perst := false } } else s)

/-- WATCHDOG_RESET (R733): firmware that runs has not serviced its watchdog for 2 s. -/
def execWatchdogReset (s : State) : Res := .next (if 4 ≤ num s 0x2000 4 && num s 0x2000 4 ≤ 7 then deviceReset s 4 else s)

/-- REFCLK_LOSS (R706): every switched domain is held in reset. -/
def execRefclkLoss (s : State) : Res :=
  .next (if !s.pwr.refclk then s
    else
      let held := (upTo 196).filter (fun d => domState s d != 0)
      let s := setNum (wipe s true) 0x1003 9 (num s 0x1003 9)
      let s := { s with pwr := { s.pwr with refclk := false } }
      forS held s (fun s d => setDom s d 1))

/-- REFCLK_RETURN (R706). -/
def execRefclkReturn (s : State) : Res :=
  .next (if s.pwr.refclk then s else deviceReset { s with pwr := { s.pwr with refclk := true } } 1)

/-- VSTBY_APPLY (R741, R663, R674): a power-on reset, with every pad held. -/
def execVstbyApply (s : State) : Res :=
  .next (if s.pwr.vstby then s
    else
      let s := deviceReset { s with pwr := { s.pwr with vstby := true } } 1
      { s with pwr := { s.pwr with perst := true, tripped := false } })

/-- VSTBY_LOSS (R729, R752): N4. The flash and the fuses are all that is left. -/
def execVstbyLoss (s : State) : Res :=
  let s := setNum (setNum (deviceReset s 1) 0x2020 1 0) 0x2020 2 0
  .next { s with pwr := { s.pwr with vstby := false, perst := true, tripped := false } }

/-- Loss of the main rails (R752): a power-on reset of the always-on domain, which waits for MAIN_PWRGD and then a release of PERST_L. -/
def mainLost (s : State) : State :=
  let s := deviceReset s 1
  { s with pwr := { s.pwr with perst := true, tripped := false } }

/-- MAIN_PWRGD_FALL (R752, R744). -/
def execMainPwrgdFall (s : State) : Res := .next (if mainGood s then latch (setNum (mainLost s) 0x2020 2 0) 9 else s)

/-- VIN_CORE_LOW (R752): while MAIN_PWRGD is high. -/
def execVinCoreLow (s : State) : Res := .next (if mainGood s then mainLost s else s)

/-- MAIN_PWRGD_RISE (R752, R744). -/
def execMainPwrgdRise (s : State) : Res := .next (if s.pwr.vstby && !mainGood s then latch (setNum s 0x2020 2 1) 9 else s)

/-- SLED_PRSNT_L asserted (R741, R744): a return restarts nothing (R742). -/
def execSledPrsntAsserted (s : State) : Res := .next (if num s 0x2020 1 = 1 then s else latch (setNum s 0x2020 1 1) 9)

/-- SLED_PRSNT_L deasserted (R742): every TRF port DOWN FORCED with DOWN_NOTICE, the port block stopped, no new flash program or erase. -/
def execSledPrsnt (s : State) : Res :=
  .next (if num s 0x2020 1 = 0 then s
    else
      let s := latch (setNum s 0x2020 1 0) 9
      if 3 ≤ num s 0x2000 1 then s
      else
        let s := { s with pwr := { s.pwr with sledGone := true } }
        let s := if num s 0x2100 1 = 3 then setNum s 0x2100 1 2 else s
        let up := (trfPorts s).filter (fun p => decide (2 ≤ portState s p) && decide (portState s p ≤ 9))
        fin (portsStopEnd (forS up s (fun s p => portDown s p 15 (portState s p == 7 || portState s p == 9)))))

/-- Is an image's header signed by a key of the Yeryn root (Table 18.12, R736)? -/
def imageSigned (h : Bytes) : Bool :=
  sha384 (slice h 0x68 97) == (upTo 48).map Config.rootByte && ecdsaOk (slice h 0x68 97) (slice h 0 0xD0) (slice h 0xD0 96)

/-- Is what the flash holds at an offset a valid image of a kind (R736)? -/
def imageValid (s : State) (off room kind floor : Nat) : Bool :=
  let h := flashRead s off 512
  let n := bfld h 0x0C 4
  bfld h 0 4 == 0x4E495951 && bfld h 4 1 == 1 && bfld h 5 1 == kind && decide (n + 512 ≤ room) && imageSigned h &&
    slice h 0x30 48 == sha384 (flashRead s (off + 512) n) && decide (floor ≤ bfld h 8 4) && decide (1 ≤ bfld h 8 4) && decide (bfld h 8 4 ≤ 64)

/-- A firmware image, 1 A or 2 B; a loader copy 1 or 2. -/
def firmwareValid (s : State) (i : Nat) : Bool := imageValid s (imageOff i) 0x1000000 2 s.sec.hem.arbFirmware
def loaderValid (s : State) (c : Nat) : Bool := imageValid s (loaderOff c) 0x40000 1 s.sec.hem.arbLoader

/-- BOOT_ROM (R736): loader copy 0, then copy 1, in stage ROM. Without a valid one the device is in RECOVERY (R738). -/
def execBootRom (s : State) : Res :=
  if num s 0x2000 4 ≠ 2 || s.pwr.runLoader ≠ 0 then .next s
  else
    let c := if loaderValid s 1 then 1 else if loaderValid s 2 then 2 else 0
    .next (if c = 0 then setNum s 0x2000 4 8
      else
        let s := { s with pwr := { s.pwr with runLoader := c }, sec := { s.sec with idleCores := s.sec.idleCores.filter (fun x => decide (2 ≤ x)) } }
        setNum s 0x2A22 3 (imageSecurity s (loaderOff c)))

/-- A boot record of the flash (R737): SEQ, ACTIVE, TRIAL of copy 0 or 1, when it is valid. -/
def bootRecord (s : State) (copy : Nat) : Option (Nat × Nat × Nat) :=
  let b := flashRead s (0x80000 + 0x10000 * copy) 96
  let a := bfld b 8 1
  if bfld b 0 4 = 0x52425951 && slice b 0x30 48 = sha384 (slice b 0 0x30) && (a = 1 || a = 2) && bfld b 9 1 ≤ 2 then some (bfld b 4 4, a, bfld b 9 1) else none

/-- The record in force: its copy, and itself. -/
def bestRecord (s : State) : Option (Nat × Nat × Nat × Nat) :=
  match bootRecord s 0, bootRecord s 1 with
  | some x, some y => if x.1 < y.1 then some (1, y) else some (0, x)
  | some x, none => some (0, x)
  | none, some y => some (1, y)
  | none, none => none

/-- Write bytes to the flash; erase a range. -/
def flashWrite (s : State) (a : Nat) (d : Bytes) : State :=
  { s with pwr := { s.pwr with flash := (d.foldl (fun (m : Nat × Sparse Byte) x => (m.1 + 1, sput (fun _ => (255 : Byte)) m.2 m.1 x)) (a, s.pwr.flash)).2 } }
def flashErase (s : State) (a n : Nat) : State :=
  { s with pwr := { s.pwr with flash := s.pwr.flash.filter (fun e => decide (e.1 < a) || decide (a + n ≤ e.1)) } }

/-- Put a record into a copy. -/
def putRecord (s : State) (copy seq active trial : Nat) : State :=
  let b := toLe 4 0x52425951 ++ toLe 4 seq ++ toLe 1 active ++ toLe 1 trial ++ zeros 38
  flashWrite s (0x80000 + 0x10000 * copy) (b ++ sha384 b)

/-- A change is a new record in the other copy with SEQ one higher (R737). -/
def newBootRecord (s : State) (active trial : Nat) : State :=
  match bestRecord s with
  | some x => putRecord s (1 - x.1) (x.2.1 + 1) active trial
  | none => putRecord s 0 1 active trial

/-- VERSION of a stored image. -/
def imageVersion (s : State) (i : Nat) : Bytes :=
  let h := flashRead s (imageOff i) 0x30
  if bfld h 0 4 = 0x4E495951 then (slice h 0x10 32).takeWhile (fun b => b != 0) else []

/-- A firmware image boots (R737, R98): identity objects of the running image and the other one; FW_TRIAL. -/
def bootImage (s : State) (i : Nat) : State :=
  let s := { s with pwr := { s.pwr with runImage := i } }
  let s := setBlob (setNum (setNum s 0x1003 4 i) 0x1003 3 (imageSecurity s (imageOff i))) 0x1003 1 (imageVersion s i)
  let s := setNum (setBlob s 0x1003 5 (imageVersion s (3 - i))) 0x1003 8 ((num s 0x1003 8 + 1) % 2 ^ 32)
  let trial := match bestRecord s with | some x => x.2.2.2 | none => 0
  setNum { s with pb := { s.pb with atBoot := sput (fun _ => 0) s.pb.atBoot (okey 0x2006 6) trial } } 0x2006 6 trial

/-- LOADER_BOOT (R737, R738): in stage LOADER. -/
def execLoaderBoot (s : State) : Res :=
  if num s 0x2000 4 ≠ 3 || s.pwr.runImage ≠ 0 then .next s
  else
    let ok := firmwareValid s
    .next (match bestRecord s with
    | some x =>
      let a := x.2.2.1
      let s := if x.2.2.2 = 2 then setNum (newBootRecord s (3 - a) 0) 0x2006 4 5 else if x.2.2.2 = 1 then newBootRecord s a 2 else s
      let a := if x.2.2.2 = 2 then 3 - a else a
      if ok a then bootImage s a else if ok (3 - a) then bootImage s (3 - a) else setNum s 0x2000 4 8
    | none =>
      if ok 1 then bootImage (putRecord (putRecord s 0 1 1 0) 1 2 1 0) 1
      else if ok 2 then bootImage (putRecord (putRecord s 0 1 2 0) 1 2 2 0) 2
      else setNum s 0x2000 4 8)

/-- FW_UPDATE_CMD 1 (R739): the slot of the image not running is erased. -/
def fwBegin (s : State) : WriteOut :=
  if num s 0x2006 6 ≠ 0 then refuse s abINCONS
  else
    let s := flashErase s (imageOff (otherImage s)) 0x1000000
    applied (setNum (setNum { s with pwr := { s.pwr with received := 0 } } 0x2006 2 0) 0x2006 4 1)

/-- FW_UPDATE_CMD 2: the image is checked under R736. -/
def fwCommit (s : State) : WriteOut :=
  if num s 0x2006 4 ≠ 1 then refuse s abINCONS
  else if firmwareValid s (otherImage s) then applied (setBlob (setNum s 0x2006 4 2) 0x1003 5 (imageVersion s (otherImage s)))
  else applied (setNum s 0x2006 4 3)

/-- FW_UPDATE_CMD 3: an embedded loader goes to copy 1, and, once it verifies there, to copy 0; the new image is ACTIVE for trial. One that does not verify leaves copy 0 and the
boot record, and the state reads FAILED (log entry 140). -/
def fwActivate (s : State) : WriteOut :=
  let off := imageOff (otherImage s)
  let h := flashRead s off 512
  if num s 0x2006 4 ≠ 2 then refuse s abINCONS
  else
    let ld := flashRead s (off + 512 + bfld h 0x60 4) (min (bfld h 0x64 4) 0x40000)
    let put := fun (s : State) (c : Nat) => flashWrite (flashErase s (loaderOff c) 0x40000) (loaderOff c) ld
    let carries := bit (bfld h 7 1) 0
    let s := if carries then put s 2 else s
    if carries && !loaderValid s 2 then applied (setNum s 0x2006 4 3)
    else
    let s := if carries then put s 1 else s
    applied (setNum (setNum (newBootRecord s (otherImage s) 1) 0x2006 6 1) 0x2006 4 4)

/-- FW_UPDATE_CMD 4. -/
def fwAbort (s : State) : WriteOut := applied (setNum s 0x2006 4 0)

/-- A write of FW_UPDATE_CMD. -/
def writeFwCmd (s : State) (b : Bytes) : WriteOut :=
  if b.length ≠ 1 then refuse s abTYPE
  else match leNat b with
    | 1 => fwBegin s
    | 2 => fwCommit s
    | 3 => fwActivate s
    | 4 => fwAbort s
    | _ => refuse s abRANGE

/-- A write of FW_UPDATE_CHUNK (R739). -/
def writeFwChunk (s : State) (b : Bytes) : WriteOut :=
  let o := num s 0x2006 2
  if 65536 < b.length then refuse s abTYPE
  else if o ≠ s.pwr.received || 0x1000000 < o + b.length then refuse s abRANGE
  else if num s 0x2006 4 ≠ 1 then refuse s abINCONS
  else
    let s := flashWrite s (imageOff (otherImage s) + o) b
    applied (setNum { s with pwr := { s.pwr with received := o + b.length } } 0x2006 2 (o + b.length))

/-- A write of FW_CONFIRM (R737). -/
def writeFwConfirm (s : State) (b : Bytes) : WriteOut :=
  boolWrite s b (fun v =>
    applied (match v, bestRecord s with
    | true, some x => if x.2.2.2 = 0 then s else setNum (newBootRecord s x.2.2.1 0) 0x2006 6 0
    | _, _ => s))

/-- FW_UPDATE_BEGIN (R739). -/
def execFwUpdateBegin (w : Writer) (s : State) : Res := endWrite w (fwBegin s)

/-- FW_UPDATE_CHUNK (R739). -/
def execFwUpdateChunk (w : Writer) (value : Bytes) (s : State) : Res := endWrite w (writeFwChunk s value)

/-- FW_UPDATE_COMMIT (R739). -/
def execFwUpdateCommit (w : Writer) (s : State) : Res := endWrite w (fwCommit s)

/-- FW_UPDATE_ACTIVATE (R739). -/
def execFwUpdateActivate (w : Writer) (s : State) : Res := endWrite w (fwActivate s)

/-- FW_UPDATE_ABORT (R739). -/
def execFwUpdateAbort (w : Writer) (s : State) : Res := endWrite w (fwAbort s)

/-- FW_CONFIRM (R737). -/
def execFwConfirm (w : Writer) (value : Bytes) (s : State) : Res := endWrite w (writeFwConfirm s value)

end Sys2Proof.Machine
end

