-- ==== Sys2Proof/Machine/HostSecurity.lean ====
section
/-! DEFINITION. The SPDM responder and IDE_KM of a compatibility port (R623), and the CXL mailbox (R595). What an answer holds is the spec's; how its bytes lie is the SPDM and CXL
specifications' (PRESUMED, log entry 60). -/
namespace Sys2Proof.Machine

/-- Answer over DOE or from the mailbox. -/
def hostSays (s : State) (p code : Nat) (d : Bytes) : State := { s with out := .hostAnswer p code d :: s.out }

/-- Codes of an answer: SPDM responses, IDE_KM objects, mailbox commands. -/
def doeCode (c : Nat) : Nat := 0x100000 + c
def kmCode (c : Nat) : Nat := 0x110000 + c
def mailCode (c : Nat) : Nat := 0x200000 + c

/-- ERROR: 4 UnexpectedRequest, 1 InvalidRequest. -/
def spdmError (s : State) (p why : Nat) : State := hostSays s p (doeCode 0x7F) (toLe 1 why)

/-- Change a port's function. -/
def setHost (s : State) (p : Nat) (f : HostFn → HostFn) : State := setPort s p { getPort s p with host := f (getPort s p).host }

/-- A request of a port that is up; nothing otherwise. -/
def onDoe (s : State) (p : Nat) (f : State) : Res := .next (if hostUp s p then f else s)

/-- A request that needs the negotiated algorithms. -/
def onSpdm (s : State) (p : Nat) (f : State) : Res := onDoe s p (if (getPort s p).host.spdm = 3 then f else spdmError s p 4)

/-- DEVICE_CERT as read (Table 14.4, R613). -/
def deviceCert (s : State) : Bytes := (upTo 2048).map (Config.certByte s.sec.debugUnlocked)

/-- The certificate chain of slot 0, ending in DEVICE_CERT. -/
def certChain (s : State) : Bytes := (upTo (Config.chainLength % 65536)).map Config.chainByte ++ deviceCert s

/-- SPDM_GET_VERSION: 1.2; it begins the connection. -/
def execSpdmGetVersion (port : Nat) (s : State) : Res :=
  onDoe s port (hostSays (setHost s port (fun h => { h with spdm := 1 })) port (doeCode 0x04) (toLe 1 0x12))

/-- SPDM_GET_CAPABILITIES: the requests that R623 lists, by code. -/
def execSpdmGetCapabilities (port : Nat) (s : State) : Res :=
  onDoe s port (if (getPort s port).host.spdm ≠ 1 then spdmError s port 4
    else hostSays (setHost s port (fun h => { h with spdm := 2 })) port (doeCode 0x61) ([0x84, 0xE1, 0xE3, 0x81, 0x82, 0x83, 0xE0, 0xE4, 0xE5, 0xEC].flatMap (toLe 1)))

/-- SPDM_NEGOTIATE_ALGORITHMS: ECDSA P-384, SHA-384, ECDHE P-384 and AES-256-GCM, when the request offers all of them. -/
def execSpdmNegotiateAlgorithms (port : Nat) (offered : Bool) (s : State) : Res :=
  onDoe s port (if (getPort s port).host.spdm ≠ 2 then spdmError s port 4
    else if !offered then spdmError s port 1
    else hostSays (setHost s port (fun h => { h with spdm := 3 })) port (doeCode 0x63) (toLe 4 0x80 ++ toLe 4 2 ++ toLe 2 0x10 ++ toLe 2 2))

/-- SPDM_GET_DIGESTS: one chain, in slot 0. -/
def execSpdmGetDigests (port : Nat) (s : State) : Res :=
  onSpdm s port (hostSays s port (doeCode 0x01) (toLe 1 1 ++ sha384 (certChain s)))

/-- SPDM_GET_CERTIFICATE: a part of the chain. -/
def execSpdmGetCertificate (port slot off len : Nat) (s : State) : Res :=
  onSpdm s port (if slot ≠ 0 then spdmError s port 1
    else
      let c := certChain s
      let n := min len (c.length - off)
      hostSays s port (doeCode 0x02) (toLe 2 n ++ toLe 2 (c.length - off - n) ++ slice c off n))

/-- SPDM_CHALLENGE: the chain's digest, a nonce, and a signature of the identity key. -/
def execSpdmChallenge (port slot : Nat) (s : State) : Res :=
  onSpdm s port (if slot ≠ 0 then spdmError s port 1
    else
      let d := drawBytes s 128
      hostSays d.2 port (doeCode 0x03) (sha384 (certChain s) ++ d.1))

/-- The Hem mirror objects (Table 2.13), in order of their indices. -/
def hemMirror (s : State) : Bytes :=
  let h := s.sec.hem
  toLe 1 (b2n h.readOk) ++ toLe 1 (b2n h.factoryOff) ++ toLe 1 h.debugLock ++ toLe 1 h.maxPartitions ++ toLe 4 h.portOuter ++ slice h.ownerKeyHash 0 48 ++
    toLe 1 h.treadleDisabled ++ toLe 2 h.hearthDisabled ++ toLe 4 h.tapeDisabled ++ toLe 4 h.arbFirmware ++ toLe 4 h.arbLoader ++ toLe 8 h.macBase

/-- A measurement (R623): 1 the running loader, 2 the running firmware image, 3 the Hem mirror objects. -/
def measurement (s : State) (k : Nat) : Bytes :=
  match k with
  | 1 => sha384 (if s.pwr.runLoader = 0 then [] else imageBytes s (loaderOff s.pwr.runLoader))
  | 2 => firmwareMeasure s
  | _ => sha384 (hemMirror s)

/-- SPDM_GET_MEASUREMENTS: the number of measurements (0), one, or all (0xFF); a signature on request. -/
def execSpdmGetMeasurements (port index : Nat) (signed : Bool) (s : State) : Res :=
  onSpdm s port (
    let d := drawBytes s 128
    let say := fun (b : Bytes) => if signed then hostSays d.2 port (doeCode 0x60) (b ++ d.1) else hostSays s port (doeCode 0x60) b
    if index = 0 then say (toLe 1 3)
    else if index ≤ 3 then say (measurement s index)
    else if index = 0xFF then say (measurement s 1 ++ measurement s 2 ++ measurement s 3)
    else spdmError s port 1)

/-- SPDM_KEY_EXCHANGE: the session's keys are made (Table 14.4), unless the Thimble makes none (R615). -/
def execSpdmKeyExchange (port slot : Nat) (s : State) : Res :=
  onSpdm s port (
    let h := (getPort s port).host
    if slot ≠ 0 || h.handshake || h.session || num s 0x2A21 1 ≠ 0 then spdmError s port 1
    else
      let d := drawBytes s 224
      hostSays (keysMade (setHost d.2 port (fun h => { h with handshake := true })) 1) port (doeCode 0x64) d.1)

/-- SPDM_FINISH: the session is established when the requester's proof verifies. -/
def execSpdmFinish (port : Nat) (ok : Bool) (s : State) : Res :=
  onSpdm s port (
    if !(getPort s port).host.handshake then spdmError s port 4
    else if ok then hostSays (setHost s port (fun h => { h with handshake := false, session := true })) port (doeCode 0x65) []
    else spdmError (keysGone (setHost s port (fun h => { h with handshake := false })) 1) port 1)

/-- SPDM_END_SESSION: its keys are destroyed. -/
def execSpdmEndSession (port : Nat) (s : State) : Res :=
  onSpdm s port (
    if !(getPort s port).host.session then spdmError s port 4
    else hostSays (keysGone (setHost s port (fun h => { h with session := false })) 1) port (doeCode 0x6C) [])

/-- An IDE_KM request: within a secure session only; a CXL stream only on a CXL port. -/
def onKm (s : State) (p : Nat) (cxl : Bool) (f : State) : Res :=
  onDoe s p (if !(getPort s p).host.session then spdmError s p 4
    else if cxl && num s 0x2101 (p + 1) ≠ 3 then spdmError s p 1
    else f)

/-- The IDE keys' code: stream × 2 + direction. -/
def ideKey (cxl tx : Bool) : Nat := 2 * b2n cxl + b2n tx

/-- The streams in use set what is established (R600), shown in COMPAT_STATUS. -/
def ideSettle (s : State) (p : Nat) : State :=
  let g := (getPort s p).host.ideGo
  let pcie := g.contains 0 && g.contains 1
  let v := if pcie && g.contains 2 && g.contains 3 then 2 else b2n pcie
  setBlob (setHost s p (fun h => { h with ide := v })) 0x2111 (p + 1) (bset (slice (blob s 0x2111 (p + 1)) 0 32) 4 1 v)

/-- IDE_KM_QUERY: one PCIe link stream, and a CXL stream on a CXL port, per direction (Table 13.18). -/
def execIdeKmQuery (port : Nat) (s : State) : Res :=
  onKm s port false (hostSays s port (kmCode 1) (toLe 1 port ++ toLe 1 1 ++ toLe 1 (b2n (num s 0x2101 (port + 1) == 3))))

/-- IDE_KM_KEY_PROG: a key from the host goes into the Thimble; one that it replaces is destroyed. -/
def execIdeKmKeyProg (port : Nat) (cxl tx : Bool) (s : State) : Res :=
  onKm s port cxl (
    let k := ideKey cxl tx
    let s := if (getPort s port).host.ideKeys.contains k then keysGone s 1 else s
    hostSays (setHost s port (fun h => { h with ideKeys := ninsert h.ideKeys k })) port (kmCode 3) (toLe 1 0))

/-- IDE_KM_K_SET_GO: a programmed key set comes into use. -/
def execIdeKmKSetGo (port : Nat) (cxl tx : Bool) (s : State) : Res :=
  onKm s port cxl (
    let k := ideKey cxl tx
    let s := if (getPort s port).host.ideKeys.contains k then ideSettle (setHost s port (fun h => { h with ideGo := ninsert h.ideGo k })) port else s
    hostSays s port (kmCode 6) (toLe 1 k))

/-- IDE_KM_K_SET_STOP: the key set is in use no more. -/
def execIdeKmKSetStop (port : Nat) (cxl tx : Bool) (s : State) : Res :=
  onKm s port cxl (
    let k := ideKey cxl tx
    hostSays (ideSettle (setHost s port (fun h => { h with ideGo := h.ideGo.filter (fun x => x != k) })) port) port (kmCode 6) (toLe 1 k))

/-- A mailbox command: of a CXL port that is up. -/
def onMail (s : State) (p : Nat) (f : State) : Res := .next (if hostUp s p && num s 0x2101 (p + 1) == 3 then f else s)

/-- Bytes that neither the spec nor the CXL commands' layout settles. -/
def mailFree (s : State) (n : Nat) : Bytes × State :=
  let f := freshFree s
  ((upTo n).map (fun k => Config.freeByte (f.1 + 1000003 * k)), f.2)

/-- The capacity in units of 256 MiB: volatile only, the aperture's SIZE. -/
def capacity256 (s : State) (p : Nat) : Nat := apertureSize s p / 2 ^ 28

/-- IDENTIFY_MEMORY_DEVICE: firmware version, and capacity. -/
def execIdentifyMemoryDevice (port : Nat) (s : State) : Res :=
  onMail s port (
    let f := mailFree s 19
    hostSays f.2 port (mailCode 0x4000) (slice (blob s 0x1003 1) 0 16 ++ toLe 8 (capacity256 s port) ++ toLe 8 (capacity256 s port) ++ zeros 16 ++ f.1))

/-- The Command Effects Log: the commands of Table 13.18, none with an effect on the configuration. -/
def effectsLog : Bytes := [0x4000, 0x0400, 0x0401, 0x0100, 0x0101, 0x4200, 0x4100].flatMap (fun c => toLe 2 c ++ toLe 2 0)

/-- GET_SUPPORTED_LOGS: one log, by the identifier of a Command Effects Log, with its size. -/
def execGetSupportedLogs (port : Nat) (s : State) : Res :=
  onMail s port (hostSays s port (mailCode 0x0400)
    (toLe 2 1 ++ zeros 6 ++ ([0x0d, 0xa9, 0xc0, 0xb5, 0xbf, 0x41, 0x4b, 0x78, 0x8f, 0x79, 0x96, 0xb1, 0x62, 0x3b, 0x3f, 0x17].flatMap (toLe 1)) ++ toLe 4 effectsLog.length))

/-- GET_LOG: a part of the Command Effects Log. -/
def execGetLog (port off len : Nat) (s : State) : Res :=
  onMail s port (hostSays s port (mailCode 0x0401) (slice effectsLog off (min len (effectsLog.length - off))))

/-- GET_EVENT_RECORDS (Table 13.19): records of writes that failed, oldest first: their status and address. -/
def execGetEventRecords (port : Nat) (s : State) : Res :=
  onMail s port (
    let l := (getPort s port).host.events
    hostSays s port (mailCode 0x0100) (toLe 2 l.length ++ l.flatMap (fun e => toLe 1 e.status ++ toLe 8 e.addr)))

/-- CLEAR_EVENT_RECORDS: the oldest ones. -/
def execClearEventRecords (port count : Nat) (s : State) : Res :=
  onMail s port (hostSays (setHost s port (fun h => { h with events := h.events.drop count })) port (mailCode 0x0101) [])

/-- GET_HEALTH_INFO: its contents are not given. -/
def execGetHealthInfo (port : Nat) (s : State) : Res :=
  onMail s port (
    let f := mailFree s 18
    hostSays f.2 port (mailCode 0x4200) f.1)

/-- GET_PARTITION_INFO: volatile capacity only, with no change pending. -/
def execGetPartitionInfo (port : Nat) (s : State) : Res :=
  onMail s port (hostSays s port (mailCode 0x4100) (toLe 8 (capacity256 s port) ++ zeros 24))

end Sys2Proof.Machine
end

