-- ==== Sys2Proof/Machine/PbRead.lean ====
section
/-! DEFINITION. The Pattern Book as it is read (ch. 2): which objects exist, the rights of a role, sub-index 0, the values that are views of other state, the stored set, and
what is served in each device state. -/
namespace Sys2Proof.Machine

/-- The highest sub-index of a row: the fused partition count for a per-partition array (R49). -/
def rowTop (s : State) (r : ORow) : Nat := if r.perPart then min r.s1 s.sec.hem.maxPartitions else r.s1

/-- Rows of an index. -/
def rowsAt (i : Nat) : List ORow := (dictPage (i / 256)).filter (fun r => decide (r.i0 ≤ i) && decide (i ≤ r.i1))

/-- The highest sub-index of an index (R48). -/
def topSub (s : State) (i : Nat) : Nat := (rowsAt i).foldl (fun m r => max m (rowTop s r)) 0

/-- Sub-index 0 of an array or record (R48): a U8 that no role can write. -/
def subZero : ORow :=
  { i0 := 0, i1 := 0, s0 := 0, s1 := 0, ty := .u8, acc := 21, dflt := .num 0, rng := .any, cls := .ro, status := true, cmd := false, perPart := false }

/-- Step 1 of R60: the object, or NO_OBJECT (1) or NO_SUBINDEX (2). -/
def findObject (s : State) (i k : Nat) : Nat × ORow :=
  match (rowsAt i).find? (fun r => decide (r.s0 ≤ k) && decide (k ≤ rowTop s r)) with
  | some r => (0, r)
  | none => if (rowsAt i).isEmpty then (1, subZero) else if k = 0 then (0, subZero) else (2, subZero)

/-- Does a role hold the read or the write right (R56)? Roles: 0 none, 1 Observer, 2 Operator, 3 Owner. -/
def mayRead (role : Nat) (r : ORow) : Bool := decide (1 ≤ role) && bit r.acc (2 * role - 2)
def mayWrite (role : Nat) (r : ORow) : Bool := decide (1 ≤ role) && bit r.acc (2 * role - 1)

/-- Does an object belong to a unit that the Hem disables (R54)? -/
def disabledUnit (s : State) (i k : Nat) : Bool :=
  if i = 0x2802 || i = 0x2803 then bit s.sec.hem.treadleDisabled (k - 1) && decide (1 ≤ k)
  else if i = 0x2010 || i = 0x2011 || i = 0x2012 then decide (1 ≤ k) && decide (k ≤ 196) && domDisabled s (k - 1)
  else if i = 0x2B01 then decide (1 ≤ k) && !coreEnabled s (targetCore (k - 1))
  else false

/-- Is the block of an object OFF (R67): one of the four engine blocks, the port block, or, for an object of one port, that port? -/
def blockIsOff (s : State) (i k : Nat) : Bool :=
  match i / 256 with
  | 0x26 | 0x46 => blkRun s .bobbin == 0
  | 0x27 | 0x47 => blkRun s .tape == 0
  | 0x28 | 0x48 => blkRun s .treadle == 0
  | 0x29 | 0x34 | 0x49 => blkRun s .shuttle == 0
  | 0x21 => if i = 0x2100 then portsRun s == 0 else decide (1 ≤ k) && decide (k ≤ 32) && decide (domState s (111 + k) ≤ 1)
  | _ => false

/-- Is it the standby responder that serves: in N2 and N3 (R88, R729), and until firmware runs (Table 18.13, R738)? -/
def standby (s : State) : Bool := decide (2 ≤ num s 0x2000 1) || decide (num s 0x2000 4 ≤ 3) || num s 0x2000 4 == 8

/-- Is an object served? The standby responder serves the identity objects, the power-state objects and the sticky records (R45, R729), in RECOVERY the objects of
the firmware update too (R738), and TJ_MAX_C after a hard trip (R725). -/
def served (s : State) (i k : Nat) : Bool :=
  !standby s || i / 256 == 0x10 || i == 0x2000 || (decide (0x2010 ≤ i) && decide (i ≤ 0x2014)) || i == 0x2020 || i == 0x3000 || i / 256 == 0x31 ||
    (i == 0x2006 && num s 0x2000 4 == 8) || (i == 0x2004 && k == 1 && s.pwr.tripped)

/-- The objects of a dictionary row by INDEX and SUB, within a range of indices. -/
def rowKeys (s : State) (r : ORow) (first last : Nat) : List (Nat × Nat) :=
  let lo := max r.i0 first
  (upTo (min r.i1 last + 1 - lo)).flatMap (fun a => (upTo (rowTop s r + 1 - r.s0)).map (fun c => (lo + a, r.s0 + c)))

/-- The BOOT-class objects. -/
def bootRows : List ORow := dictPages.flatMap (fun g => (dictPage g).filter (fun r => r.cls == .boot))

/-- The stored BOOT value (R66): the entry, or the default that the next reset gives. -/
def storedBoot (s : State) (i k : Nat) : Val :=
  match sfind (storeBank s).2.entries (okey i k) with
  | some v => v
  | none => objDefault (okey i k)

/-- PENDING_BOOT (R66). -/
def pendingBoot (s : State) : Nat :=
  ((bootRows.flatMap (fun r => rowKeys s r 0 0xFFFF)).filter (fun x => storedBoot s x.1 x.2 != getObj s x.1 x.2)).length

/-- An element of SESSIONS (R100) as a role sees it. -/
def sessionView (s : State) (role slot : Nat) : Nat :=
  let x := getSess s slot
  if !x.inUse || (x.role = 0 && role ≠ 3) then 0
  else x.role + 8 + 16 * b2n x.halfOpen + 2 ^ 16 * (x.sid % 2 ^ 32) + 2 ^ 48 * min 65535 ((s.det.now - x.lastFrame) / secT 1)

/-- The masks of a routing bank as bytes (R150). -/
def routeBytes (m : Sparse Nat) : Bytes := (upTo 65536).flatMap (fun e => toLe 4 (sget (fun _ => 0) m e))

/-- A Hem field as read: zero when the Hem could not be read (R102). -/
def hemNum (s : State) (v : Nat) : Val := .num (if s.sec.hem.readOk then v else 0)

/-- The capacity fitted in a list of units. -/
def totalOf (l : List Nat) : Nat := l.sum

/-- Number of listed entries that hold a property. -/
def countIf {α : Type} (l : List α) (f : α → Bool) : Nat := (l.filter f).length

/-- AGENT_STATE (Table 5.10). -/
def agentState (s : State) (a : Nat) : Nat :=
  if a < 4 then (if s.coh.unresponsive.contains a then 2 else if clusterAdmitted s a then 1 else 0) else (getAgent s a).st

/-- AGENT_HELD: directory entries that name the agent exactly: as owner, sharer or lead. -/
def agentHeld (s : State) (a : Nat) : Nat :=
  countIf s.coh.dir (fun e => ((e.2.st == 1 || e.2.st == 4) && e.2.owner == a) || (e.2.st == 2 && e.2.sharers.contains a) || ((e.2.st == 2 || e.2.st == 3) && e.2.leadV && e.2.lead == a))

/-- Identity, sessions and the Hem mirror as read (Tables 2.11 to 2.13). -/
def viewId (s : State) (role i k : Nat) : Val :=
  let h := s.sec.hem
  match i, k with
  | 0x1001, 4 => .num h.grade
  | 0x1001, 5 => .bytes h.orderingCode
  | 0x1001, 6 => .bytes h.serial
  | 0x1002, 1 => .num (0xFF - (if h.readOk then h.treadleDisabled % 256 else 0))
  | 0x1002, 2 => .num (0xFFFF - (if h.readOk then h.hearthDisabled % 65536 else 0))
  | 0x1002, 3 => .num (0xFFFFFFFF - (if h.readOk then h.tapeDisabled % 2 ^ 32 else 0))
  | 0x1004, 0 => .bytes (deviceCert s)
  | 0x1006, 0 => .num ((s.det.now - s.pwr.resetAt) / msT 1)
  | 0x1007, 0 => .num (pendingBoot s)
  | 0x1008, 1 => .num (storeBank s).2.seq
  | 0x1008, 2 => .num (storeBank s).1
  | 0x1008, 4 => .num ((storeBank s).2.entries.length % 65536)
  | 0x1008, 5 => .num s.pb.rejected
  | 0x1103, k => .num (sessionView s role (k - 1))
  | 0x1200, 1 => .num (b2n h.readOk)
  | 0x1200, 2 => hemNum s (b2n h.factoryOff)
  | 0x1200, 3 => hemNum s (if h.debugLock = 3 then 2 else h.debugLock)
  | 0x1201, 0 => hemNum s h.maxPartitions
  | 0x1202, 0 => hemNum s h.portOuter
  | 0x1203, 0 => .bytes (if h.readOk then h.ownerKeyHash else zeros 48)
  | 0x1204, 1 => hemNum s h.treadleDisabled
  | 0x1204, 2 => hemNum s h.hearthDisabled
  | 0x1204, 3 => hemNum s h.tapeDisabled
  | 0x1205, 1 => hemNum s h.arbFirmware
  | 0x1205, 2 => hemNum s h.arbLoader
  | 0x1206, 0 => hemNum s h.macBase
  | _, _ => getObj s i k

/-- Power, ports and the address map as read (Tables 18.15, 13.20, 3.11, 6.6). -/
def viewMap (s : State) (i k : Nat) : Val :=
  match i, k with
  | 0x2001, 6 => .num (divCause s)
  | 0x2004, 1 => .num (tjMax s)
  | 0x2002, 2 => .num (pl1W s)
  | 0x2012, k => .bytes (domInfo s (k - 1))
  | 0x2013, 0 => .bytes (padHeld s)
  | 0x2100, 1 => .num (portsRun s)
  | 0x2100, 4 => .num s.route.epoch
  | 0x2100, 5 => .num (portsActive s)
  | 0x2200, 3 => .num s.tier.unifiedSize
  | 0x2200, 5 => .num (countIf s.regions (fun e => e.2.valid))
  | 0x2200, 6 => .num (countIf s.regions (fun e => e.2.releasing))
  | 0x2200, 7 => .num (countIf s.windows (fun e => e.2.valid))
  | 0x2201, 1 => .num s.route.epoch
  | 0x2201, 3 => .num s.route.epoch
  | 0x2202, 2 => .bytes (sha384 (routeBytes s.route.active))
  | 0x2202, 3 => .bytes (sha384 (routeBytes s.route.staging))
  | 0x2206, 2 => .num s.acc.faults.length
  | 0x2208, 4 => .num s.ord.knots.length
  | 0x2208, 5 => .num ((s.ord.knots.map (fun e => b2n e.knot0.isSome + b2n e.knot1.isSome)).sum)
  | i, k =>
    if i = 0x2010 && k = 197 then .num 4
    else if 0x2240 ≤ i && i < 0x2260 then .bytes (regionBytes (getRegion s ((i - 0x2240) * 128 + k - 1)))
    else if 0x2260 ≤ i && i < 0x2280 then .bytes (windowBytes (sget (fun _ => Window.none) s.windows ((i - 0x2260) * 128 + k - 1)))
    else getObj s i k

/-- Tiers, coherence, versions and leases as read (Tables 4.6 to 4.8, 5.11, 5.12, 7.8, 7.9); `x` is the session that reads, for the objects held per session (R219). -/
def viewMem (s : State) (x : Session) (i k : Nat) : Val :=
  let t := s.tier
  match i, k with
  | 0x2300, 1 => .num t.parlourSlots
  | 0x2300, 2 => .num t.larderSlots
  | 0x2300, 3 => .num t.cellarSlots
  | 0x2300, 4 => .num t.mapReserve
  | 0x2300, 5 => .num (totalOf t.larderFitted)
  | 0x2300, 6 => .num t.cellarRaw
  | 0x2300, 7 => .num (tierFree s 1)
  | 0x2300, 8 => .num (tierFree s 2)
  | 0x2300, 9 => .num (tierFree s 3)
  | 0x2300, 10 => .num t.spareP
  | 0x2300, 11 => .num t.spareL
  | 0x2300, 12 => .num t.spareC
  | 0x2301, 14 => .num (((upTo 4).filter (fun q => bit (num s 0x2301 13) q && [1, 2, 3].all (fun n => (quadUnits n q).all (fun u =>
      (unitBolts s n u).isEmpty)))).foldl setBit 0)
  | 0x2303, 1 => .num (b2n t.learning)
  | 0x2303, 2 => .num t.learnAccesses
  | 0x2303, 3 => .num (min (2 ^ 32 - 1) ((s.det.now - t.learnStart) / msT 1))
  | 0x2304, k => .num (sget (fun _ => { state := 0, changedAt := none : TierHeat }) t.stackHeat (k - 1)).state
  | 0x2305, k => .num (sget (fun _ => { state := 0, changedAt := none : TierHeat }) t.larderHeat (k - 1)).state
  | 0x2308, 1 => .num x.boltQuery
  | 0x2308, 2 => .bytes (if x.boltQuery < s.tier.unifiedSize then boltEntry s (x.boltQuery / 65536) else zeros 16)
  | 0x230A, 13 => .num (Config.cellarWear s.det.now % 101)
  | 0x2324, k => .num (getStream s (k - 1)).run
  | 0x2325, k => .num (getStream s (k - 1)).pos
  | 0x2326, k => .num (getStream s (k - 1)).ready
  | 0x2400, 2 => .num s.coh.dir.length
  | 0x2400, 4 => .num (countIf s.coh.dir (fun e => e.2.st == 3))
  | 0x2400, 5 => .num (countIf s.coh.dir (fun e => e.2.st == 4))
  | 0x2402, 1 => .num (match s.coh.recalls with | r :: _ => r.region | [] => 0xFFFF)
  | 0x2403, 1 => .num x.dirQuery
  | 0x2403, 2 => .bytes (dirInfo s x.dirQuery)
  | 0x2410, k => .bytes (agentBytes s (k - 1))
  | 0x2411, k => .bytes (agentBytes s (127 + k))
  | 0x2412, k => .num (agentState s (k - 1))
  | 0x2413, k => .num (agentState s (127 + k))
  | 0x2414, k => .num (agentHeld s (k - 1))
  | 0x2415, k => .num (agentHeld s (127 + k))
  | 0x2500, 2 => .num (allHandles s).length
  | 0x2503, 1 => .num x.verQuery
  | 0x2503, 2 => .bytes (verInfo s x.verQuery)
  | 0x2510, 3 => .num (countIf s.ver.leases (fun e => e.2.st != 0))
  | 0x2512, 1 => .num x.leaseQuery
  | 0x2512, 2 => .bytes (leaseInfo s x.leaseQuery)
  | i, k => if 0x2540 ≤ i && i < 0x2560 then .num (verViewOf s ((i - 0x2540) * 128 + k - 1)) else getObj s i k

/-- The engine blocks as read (Tables 8.15 to 8.17, 9.10, 10.11, 11.9, 12.8). -/
def viewEng (s : State) (i k : Nat) : Val :=
  let n := (i % 2) * 128 + k - 1
  match i, k with
  | 0x2600, 1 => .num (blkRun s .bobbin)
  | 0x2600, 3 => .num (((upTo 16).filter (bobbinOn s)).foldl setBit 0)
  | 0x2604, 2 => .num (cellsFree s)
  | 0x2604, 3 => .num (((upTo 16).filter (bankWorks s)).foldl setBit 0)
  | 0x2616, _ | 0x2617, _ => .num (tabRun s n)
  | 0x2618, _ | 0x2619, _ => .bytes (tabStats s n)
  | 0x261A, _ | 0x261B, _ => .bytes (stepInfo s n)
  | 0x2700, 1 => .num (blkRun s .tape)
  | 0x2700, 3 => .num (((upTo 32).filter (tapeOn s)).foldl setBit 0)
  | 0x2713, k => .num (vecRun s (k - 1))
  | 0x2714, k => .bytes (vecStats s (k - 1))
  | 0x2800, 1 => .num (blkRun s .treadle)
  | 0x2800, 3 => .num (tdArraysOn s)
  | 0x2802, k => .num (arrayState s (k - 1))
  | 0x2900, 1 => .num (blkRun s .shuttle)
  | 0x2900, 3 => .num (shEnginesOn s)
  | 0x2938, _ | 0x2939, _ => .bytes (barStatusObj s n)
  | 0x3400, _ | 0x3401, _ => .bytes (barLate s n)
  | 0x3402, _ | 0x3403, _ => .bytes (barSuspect s n)
  | 0x3404, _ | 0x3405, _ => .num (barWindow s n)
  | _, _ => getObj s i k

/-- Security, the Bell Board, determinism, faults and the per-partition arrays as read (Tables 14.8, 14.9, 15.8, 16.4, 17.7 to 17.9). -/
def viewRest (s : State) (x : Session) (i k : Nat) : Val :=
  match i, k with
  | 0x2A00, 6 => .num (partsMask s (fun st => st == 1))
  | 0x2A00, 7 => .num (partsMask s (fun st => st == 2 || st == 3))
  | 0x2A12, k => .bytes (linkKeyState s (k - 1))
  | 0x2A23, 1 => .num (b2n s.sec.debugOpen)
  | 0x2B01, k => .num (targetView s (k - 1))
  | 0x2B02, 0 => .bytes (pendAllView s)
  | 0x2C01, 1 => .num (detRun s)
  | 0x2C10, 8 => .num s.det.count
  | 0x3000, 1 => .bytes (stickyMap s)
  | 0x3200, 6 => .num s.flt.queue.length
  | 0x3200, 7 => .bytes (recoveryLog s)
  | 0x3200, 8 => .num x.resourceQuery
  | 0x3200, 9 => .bytes (resourceInfo s x.resourceQuery)
  | 0x4306, k => .num (homed s (k - 1) 1)
  | 0x4307, k => .num (homed s (k - 1) 2)
  | 0x4308, k => .num (homed s (k - 1) 3)
  | 0x4309, k => .num (committed s (k - 1) (fun _ => true))
  | 0x4503, k => .num (leasesHeld s (k - 1))
  | 0x4504, k => .num (handlesHeld s (k - 1))
  | 0x4603, k => .num (accHeld s (k - 1))
  | 0x4A00, k => .num (getPart s (k - 1)).st
  | 0x4A03, k => .num (getPart s (k - 1)).incarnation
  | 0x4A04, k => .num (getPart s (k - 1)).key
  | 0x4A06, k => .bytes (removalView s (k - 1))
  | 0x4D10, k => .bytes ((upTo 13).flatMap (fun j => toLe 8 (num s (0x4D00 + j) k)))
  | _, _ => getObj s i k

/-- The value in effect of an object, as a session with a role reads it. -/
def viewOf (s : State) (x : Session) (role i k : Nat) : Val :=
  if i < 0x1300 then viewId s role i k
  else if i < 0x2300 then viewMap s i k
  else if i < 0x2600 then viewMem s x i k
  else if i < 0x2A00 || (0x3400 ≤ i && i < 0x3600) then viewEng s i k
  else viewRest s x i k

/-- The value zero of a type (R58). -/
def zeroBytes (r : ORow) : Bytes := zeros r.ty.size

/-- What a READ of an object gives: an abort code, whether the stored BOOT value was returned, and the bytes. The object exists, and the session may read it (R54, R66, R67, R45). -/
def readObject (s : State) (slot i k : Nat) (r : ORow) (pending : Bool) : Nat × Bool × Bytes :=
  let x := getSess s slot
  if k = 0 && r.cls == .ro && r.s0 == 0 && r.i0 == 0 then
    (if served s i k then (0, false, toLe 1 (topSub s i)) else (abOFF, false, []))
  else if disabledUnit s i k then (0, false, encodeVal r.ty r.dflt)
  else if !served s i k || (r.status && blockIsOff s i k) then (abOFF, false, [])
  else if pending && r.cls == .boot then (0, true, encodeVal r.ty (storedBoot s i k))
  else (0, false, encodeVal r.ty (viewOf s x x.role i k))

end Sys2Proof.Machine
end

