-- ==== Sys2Proof/Machine/PbWrite.lean ====
section
/-! DEFINITION. Writes of the Pattern Book (ch. 2): the checks of R60 on a value, what a write of each object does, the change classes (R61 to R66), WRITE_GROUP (R92), the end
of a drain (R764), and the stored set (R66, R70 to R73). -/
namespace Sys2Proof.Machine

/-- A write of SESSION_CLOSE (R87, R101): a value that names no session has no effect. -/
def writeSessionClose (s : State) (b : Bytes) : WriteOut :=
  if b.length ≠ 4 then refuse s abTYPE
  else applied (forS (upTo 18) s (fun s k => if (getSess s k).inUse && (getSess s k).sid = leNat b then endSession s k 2 else s))

/-- A write of an element of ROLE_KEYS (R101); the sessions of the slot end with reason 5 (R87). -/
def writeRoleKey (s : State) (k : Nat) (b : Bytes) : WriteOut :=
  let role := bfld b 0 1
  if !b.isEmpty && b.length ≠ 98 then refuse s abTYPE
  else if 2 < role || (role ≠ 0 && (ecDecode (b.drop 1)).isNone) then refuse s abRANGE
  else
    let s := setBlob s 0x1110 k (if role = 0 then [] else b)
    applied (forS (upTo 18) s (fun s j => if (getSess s j).inUse && (getSess s j).keySlot = k then endSession s j 5 else s))

/-- ENDPOINT_ID is written (R104). -/
def writeEndpoint (s : State) (b : Bytes) : WriteOut :=
  if 2 ≤ portsRun s then refuse s abSTATE else applied (setNum (setNum s 0x2200 1 (leNat b)) 0x2200 2 1)

/-- PORT_DEFAULT_CID is written (R598): vectors of asserted sources of the partition are sent at once. -/
def writeDefaultCid (s : State) (p : Nat) (v : Nat) : State :=
  let s := setNum s 0x2205 (p + 1) v
  let q := cidPart (v % 2 ^ 20)
  if portCompat s p && bit v 31 && partExists s q then
    forS ((upTo 12).filter (fun k => asserted s (partSource q k))) s (fun s k => { s with out := .msix p k :: s.out })
  else s

/-- A command of a stream window. -/
def writeStrCmd (s : State) (w v : Nat) : WriteOut := if v = 1 then strStart s w else strStop s w

/-- Is a COMPAT_APERTURE value consistent (R596)? -/
def apertureOk (s : State) (b : Bytes) : Bool :=
  bfld b 8 8 != 0 && bfld b 8 8 % 2 ^ 28 == 0 && bfld b 0 8 % 65536 == 0 && decide (bfld b 0 8 + bfld b 8 8 ≤ s.tier.unifiedSize)

/-- Step 6 of R60 for an object without a command of its own, in a state that holds the value already: R183, R386, R507, R540, R596, R692, R697. -/
def consistent (s : State) (i k : Nat) : Bool :=
  if 0x4300 ≤ i && i ≤ 0x4305 then
    let t := (i - 0x4300) / 2 + 1
    let sum := ((upTo 64).map (fun p => reserve s p t)).sum
    decide (reserve s (k - 1) t ≤ quota s (k - 1) t) && (i % 2 == 0 || decide (sum ≤ tierSlots s t))
  else if i = 0x2602 && 4 ≤ k && k ≤ 6 then decide (num s 0x2602 5 ≤ num s 0x2602 4) && decide (num s 0x2602 6 ≤ num s 0x2602 5)
  else if i = 0x2800 && k = 4 then (enabledArrays s).any (fun a => bit (num s 0x2800 4) a)
  else if i = 0x2908 && k = 2 then decide (2 * num s 0x2908 2 ≤ num s 0x2908 1)
  else if i = 0x3600 && k = 2 then decide (2 * num s 0x3600 2 ≤ num s 0x2908 1)
  else if i = 0x2110 then apertureOk s (blob s i k)
  else if 0x3640 ≤ i && i < 0x3660 then !(getRegion s ((i - 0x3640) * 128 + k - 1)).valid
  else true

/-- The run state of the block of a STOPPED-class object (R65). -/
def stoppedRun (s : State) (b : OBlk) (i k : Nat) : Nat :=
  match b with
  | .portBlock => portsRun s
  | .port => if [0, 1, 10].contains (portState s (k - 1)) then 1 else 3
  | .table => tabRun s (i % 2 * 128 + k - 1)
  | .index => vecRun s (k - 1)
  | .window => (getStream s (k - 1)).run
  | .barrier => if barRunning s (i % 2 * 128 + k - 1) then 3 else 1
  | .det => detRun s

/-- The block of a DRAIN-class object. -/
def drainBlock (i : Nat) : DrainBlock := if i / 256 = 0x28 then .treadle else .bobbin

/-- The same as an engine block. -/
def drainBlk : DrainBlock → Blk
  | .bobbin => .bobbin
  | .treadle => .treadle

/-- Put a value that a generic write sets into effect, with what follows from it. -/
def putValue (s : State) (i k : Nat) (v : Val) : State :=
  match i, v with
  | 0x2205, .num n => writeDefaultCid s (k - 1) n
  | 0x210D, .num n => if n = 1 then setBlob s 0x210C k (zeros 64) else s
  | _, _ => setObj s i k v

/-- A new bank of the stored set (R70): the bank not in use, one sequence number up, with the digest of its contents. -/
def putBank (s : State) (entries : Sparse Val) : State :=
  let c := storeBank s
  let n := (c.2.seq + 1) % 2 ^ 32
  let b : StoreBank := { seq := n, digest := sha384 (bankBytes n entries), entries := entries }
  { s with pb := if c.1 = 1 then { s.pb with bank2 := b } else { s.pb with bank1 := b } }

/-- The configuration flash reports a program error (Table 2.10, code 0x0C of Table 17.1): the previous bank stays in use. -/
def storeFault (s : State) : State := noteFault s 0x0C 0 0xFF 0xFF 0 (toLe 1 (if (storeBank s).1 = 1 then 2 else 1))

/-- A DRAIN value becomes pending (R63, R64): it replaces one that is pending for the same object, whose session is told. -/
def pendValue (s : State) (w : Writer) (i k : Nat) (v : Val) (group : Nat) (isGroup : Bool) : State :=
  let key := okey i k
  let old := s.pb.drains.filter (fun d => d.key == key)
  let d : DrainValue := { block := drainBlock i, key := key, value := v, slot := w.slot, sid := (getSess s w.slot).sid, tag := w.tag, group := group, isGroup := isGroup }
  let s := { s with pb := { s.pb with drains := s.pb.drains.filter (fun d => d.key != key) ++ [d] } }
  forS (old.filter (fun o => o.group != group)) s (fun s o => changeEvent s o.slot o.sid 3 i k o.tag [])

/-- A write under its change class (R61 to R67), its value checked to step 5 of R60, of an object without a command of its own. `group`: the number of the write;
`joint`: step 6 has been checked with the other values of its WRITE_GROUP. A BOOT write makes a new bank, as a STORE does (DESIGN CHOICE, log entry 67). -/
def classWrite (s : State) (w : Writer) (r : ORow) (i k : Nat) (v : Val) (group : Nat) (isGroup joint flashOk : Bool) : WriteOut :=
  if !joint && !consistent (setObj s i k v) i k then refuse s abINCONS
  else match r.cls with
    | .ro => applied s
    | .live => applied (putValue s i k v)
    | .drain => if blockIsOff s i k then applied (putValue s i k v) else .done 0 1 (pendValue s w i k v group isGroup)
    | .stopped b => if 2 ≤ stoppedRun s b i k then refuse s abSTATE else applied (putValue s i k v)
    | .boot => if flashOk then .done 0 2 (putBank s (sset (storeBank s).2.entries (okey i k) v)) else .done 0x0D 0 (storeFault s)

/-- A write of an object whose write is a command, or has a rule of its own. `none`: the object has no such rule. -/
def commandWrite (s : State) (w : Writer) (i k : Nat) (b : Bytes) : Option WriteOut :=
  let n := (i % 2) * 128 + k - 1
  let far := fun (base : Nat) => (i - base) * 128 + k - 1
  if i == 0x1104 && k == 0 then some (writeSessionClose s b)
  else if i == 0x1110 then some (writeRoleKey s k b)
  else if i == 0x2000 && k == 2 then some (writeDevTarget s b)
  else if i == 0x2000 && k == 5 then some (writeResetCmd s b)
  else if i == 0x2006 && k == 1 then some (writeFwCmd s b)
  else if i == 0x2006 && k == 3 then some (writeFwChunk s b)
  else if i == 0x2006 && k == 5 then some (writeFwConfirm s b)
  else if i == 0x2011 then some (writeDomTarget s w (k - 1) b)
  else if i == 0x2014 && k == 0 then some (writePadRelease s b)
  else if i == 0x2100 && k == 2 then some (writePortsCmd s (leNat b))
  else if i == 0x2100 && k == 4 then some (writeJoin s b)
  else if i == 0x2106 then some (writePortCmd s (k - 1) (leNat b))
  else if i == 0x2200 && k == 1 then some (writeEndpoint s b)
  else if i == 0x2201 && k == 3 then some (writeCommit s b)
  else if i == 0x2202 && k == 1 then some (writeStage s w b)
  else if i == 0x2301 && k == 1 then some (writePlaceFreeze s b)
  else if i == 0x2301 && k == 13 then some (writeEvacuate s b)
  else if i == 0x2303 && k == 6 then some (writePlaceReset s b)
  else if i == 0x2307 && k == 0 then some (writeHint s b)
  else if i == 0x2308 && k == 1 then some (writeBoltQuery s w b)
  else if i == 0x2323 then some (writeStrCmd s (k - 1) (leNat b))
  else if i == 0x2402 && k == 1 then some (writeRecall s w b)
  else if i == 0x2403 && k == 1 then some (writeDirQuery s w b)
  else if i == 0x2404 && k == 0 then some (writeExpel s b)
  else if i == 0x2410 then some (writeAgent s w (k - 1) b)
  else if i == 0x2411 then some (writeAgent s w (127 + k) b)
  else if i == 0x2503 && k == 1 then some (writeVerQuery s w b)
  else if i == 0x2510 && k == 6 then some (writeLeaseExpire s b)
  else if i == 0x2512 && k == 1 then some (writeLeaseQuery s w b)
  else if i == 0x2600 && k == 2 then some (writeBlkCmd s .bobbin b)
  else if i == 0x2610 || i == 0x2611 then some (writeTabDesc s n b)
  else if i == 0x2614 || i == 0x2615 then some (writeTabCmd s n b)
  else if i == 0x2700 && k == 2 then some (writeBlkCmd s .tape b)
  else if i == 0x2710 then some (writeVecDesc s (k - 1) b)
  else if i == 0x2712 then some (writeVecCmd s (k - 1) b)
  else if i == 0x2800 && k == 2 then some (writeBlkCmd s .treadle b)
  else if i == 0x2900 && k == 2 then some (writeBlkCmd s .shuttle b)
  else if i == 0x2920 || i == 0x2921 then some (writeMcastGroup s n b)
  else if i == 0x2930 || i == 0x2931 then some (writeBarBlob s 0x2930 n b)
  else if i == 0x2932 || i == 0x2933 then some (writeBarBlob s 0x2932 n b)
  else if i == 0x2934 || i == 0x2935 then some (writeBarCmd s n b)
  else if i == 0x2A00 && k == 1 then some (writePartCreate s b)
  else if i == 0x2A00 && k == 2 then some (writePartRemove s b)
  else if i == 0x2A20 && k == 1 then some (writeViolSticky s b)
  else if i == 0x2A22 && k == 1 then some (writeArbFw s b)
  else if i == 0x2A22 && k == 2 then some (writeArbLoader s b)
  else if i == 0x2A23 && k == 0 then some (writeDebugUnlock s b)
  else if i == 0x2C00 && k == 0 then some (writeDetMode s b)
  else if i == 0x2C01 && k == 2 then some (writeDetStep s b)
  else if i == 0x2C03 && k == 0 then some (writeRunReset s b)
  else if i == 0x2C10 && k == 1 then some (writeSyncRole s b)
  else if i == 0x3000 && k == 2 then some (writeStickyClear s b)
  else if i == 0x3200 && k == 8 then some (writeResourceQuery s w b)
  else if i == 0x3200 && k == 10 then some (writeRelease s b)
  else if i == 0x3300 && k == 2 then some (writeLimpCmd s b)
  else if i == 0x3600 && k == 6 then some (writeTakeover s b)
  else if i == 0x4A01 then some (writePartHearth s (k - 1) b)
  else if 0x2240 ≤ i && i < 0x2260 then some (writeRegion s w (far 0x2240) b)
  else if 0x2260 ≤ i && i < 0x2280 then some (writeWindow s (far 0x2260) b)
  else if 0x2540 ≤ i && i < 0x2560 then some (writeVerView s (far 0x2540) b)
  else if 0x3101 ≤ i && i ≤ 0x31FF && k = 1 then some (writeSticky s (i - 0x3100) b)
  else none

/-- A write to a device state or block that does not serve it is refused with BLOCK_OFF, at step 7: after a refusal of an earlier step. -/
def offLast (s : State) (i k : Nat) (o : WriteOut) : WriteOut :=
  if served s i k then o
  else match o with
    | .done a r t => if 3 ≤ a && a ≤ 5 then .done a r t else refuse s abOFF
    | .wait _ => refuse s abOFF

/-- Steps 3 to 7 of R60, and the effect, of a write of one value. -/
def writeOne (s : State) (w : Writer) (r : ORow) (i k : Nat) (b : Bytes) (group : Nat) (isGroup joint flashOk : Bool) : WriteOut :=
  if disabledUnit s i k then refuse s 8
  else
    let c := checkValue s r b
    if c.1 ≠ 0 then refuse s c.1
    else offLast s i k (match commandWrite s w i k b with
      | some o => o
      | none => classWrite s w r i k c.2 group isGroup joint flashOk)

/-- Number a write that may be pending (R64). -/
def newGroup (s : State) : Nat × State := (s.pb.nextGroup, { s with pb := { s.pb with nextGroup := s.pb.nextGroup + 1 } })

/-- The whole write of one object. -/
def writeWhole (s : State) (w : Writer) (r : ORow) (i k : Nat) (b : Bytes) (flashOk : Bool) : WriteOut :=
  let g := newGroup s
  writeOne g.2 w r i k b g.1 false false flashOk

/-- An entry of a WRITE_GROUP with its row. -/
structure GroupItem where
  row : ORow
  sub : Nat
  data : Bytes

/-- The entries are written one after the other; `waits` counts those answered later. -/
def groupSeq (w : Writer) (i group : Nat) (joint flashOk : Bool) : List GroupItem → State → Nat → Nat → Nat × Nat × Nat × Nat × State
  | [], s, res, waits => (0, 0, res, waits, s)
  | e :: t, s, res, waits =>
    match writeOne s w e.row i e.sub e.data group true joint flashOk with
    | .done a r s => if a ≠ 0 then (a, e.sub, 0, 0, s) else groupSeq w i group joint flashOk t s (max res r) waits
    | .wait s => groupSeq w i group joint flashOk t s res (waits + 1)

/-- The first entry that a check refuses, with the abort code. -/
def firstBad (l : List GroupItem) (f : GroupItem → Nat) : Option (Nat × Nat) :=
  (l.find? (fun e => f e != 0)).map (fun e => (f e, e.sub))

/-- Steps 3 to 7 of R60 and the effect of a WRITE_GROUP (R92), each step over every entry before the next; values are checked for consistency together. Abort code,
FAIL_SUB, RESULT, entries answered later, and the state. CLASS_MIX is judged before the entries' lengths (DESIGN CHOICE, log entry 70). A group of BOOT objects is one write of
the stored set. -/
def groupWrite (s : State) (w : Writer) (i : Nat) (l : List GroupItem) (flashOk : Bool) : Nat × Nat × Nat × Nat × State :=
  let g := newGroup s
  let class_ := fun (e : GroupItem) => e.row.cls.code
  let plain := l.all (fun e => (commandWrite s w i e.sub e.data).isNone)
  let put := fun (s : State) => forS l s (fun s e => setObj s i e.sub (checkValue s e.row e.data).2)
  match firstBad l (fun e => if disabledUnit s i e.sub then 8 else 0) with
  | some x => (x.1, x.2, 0, 0, s)
  | none =>
    if l.any (fun e => class_ e != (l.map class_).headD 0) then (0x0F, 0, 0, 0, s)
    else match firstBad l (fun e => if lengthOk e.row e.data then 0 else abTYPE), firstBad l (fun e => (checkValue s e.row e.data).1),
        (if plain then firstBad l (fun e => if consistent (put s) i e.sub then 0 else abINCONS) else none) with
      | some x, _, _ => (x.1, x.2, 0, 0, s)
      | none, some x, _ => (x.1, x.2, 0, 0, s)
      | none, none, some x => (x.1, x.2, 0, 0, s)
      | none, none, none =>
        if plain && (l.map class_).headD 0 = 4 then
          (if flashOk then (0, 0, 2, 0, putBank s (l.foldl (fun m e => sset m (okey i e.sub) (checkValue s e.row e.data).2) (storeBank s).2.entries)) else (0x0D, 0, 0, 0, s))
        else
        let r := groupSeq w i g.1 plain flashOk l g.2 0 0
        if r.1 = 0 then r else (r.1, r.2.1, 0, 0, s)

/-- The check again of a pending value at the end of a drain (R764), in a state that holds every pending value of the block. -/
def drainCheck (trial : State) (d : DrainValue) : Nat :=
  match dictFind (d.key / 256) (d.key % 256) with
  | none => 1
  | some r =>
    if !rangeOk trial r d.value then abRANGE else if !consistent trial (d.key / 256) (d.key % 256) then abINCONS else 0

/-- The end of a drain (R63, R64, R764): a write one of whose values fails is dropped as a whole; the others are applied together; their sessions are told. -/
def drainEnd (s : State) (b : DrainBlock) : State :=
  let all := s.pb.drains.filter (fun d => d.block == b)
  let trial := forS all s (fun s d => setObj s (d.key / 256) (d.key % 256) d.value)
  let code := fun (g : Nat) => match all.find? (fun d => d.group == g && drainCheck trial d != 0) with | some d => drainCheck trial d | none => 0
  let s := { s with pb := { s.pb with drains := s.pb.drains.filter (fun d => d.block != b) } }
  let s := forS (all.filter (fun d => code d.group == 0)) s (fun s d => putValue s (d.key / 256) (d.key % 256) d.value)
  let s := acceptHeldShares s (drainBlk b)
  forS ((all.map (fun d => d.group)).eraseDups) s (fun s g =>
    match all.find? (fun d => d.group == g) with
    | none => s
    | some d =>
      let sub := if d.isGroup then 0xFF else d.key % 256
      if code g = 0 then changeEvent s d.slot d.sid 2 (d.key / 256) sub d.tag []
      else changeEvent s d.slot d.sid 5 (d.key / 256) sub d.tag (toLe 4 (code g)))

/-- May the drain of a block end: a value is pending, and no accepted operation of the block is left (R63)? -/
def drainReady (s : State) (b : DrainBlock) : Bool :=
  s.pb.drains.any (fun d => d.block == b) && blkAccepted s (drainBlk b) == 0

/-- A drain that finds no accepted operation ends at once, after the response (R63). -/
def drainAtOnce (s : State) : State :=
  let s := if drainReady s .bobbin then drainEnd s .bobbin else s
  if drainReady s .treadle then drainEnd s .treadle else s

/-- The configuration objects of a range of indices that a role can write and that are no commands (R72), by INDEX and SUB, with their class. -/
def storable (s : State) (role first last : Nat) : List (Nat × Nat × OClass) :=
  dictPages.flatMap (fun g => (dictPage g).flatMap (fun r =>
    if r.status || r.cmd || r.cls == .ro || !mayWrite role r then [] else (rowKeys s r first last).map (fun x => (x.1, x.2, r.cls))))

/-- The stored set after a STORE (R72): the value in effect, or for BOOT the stored value. -/
def storedSet (s : State) (role first last : Nat) : Sparse Val :=
  (storable s role first last).foldl (fun m x =>
    let key := okey x.1 x.2.1
    sset m key (if x.2.2 == .boot then storedBoot s x.1 x.2.1 else viewOf s Session.free role x.1 x.2.1)) (storeBank s).2.entries

/-- The stored set after a RESTORE_DEFAULTS (R72). -/
def restoredSet (s : State) (role first last : Nat) : Sparse Val :=
  let out := (storable s role first last).map (fun x => okey x.1 x.2.1)
  (storeBank s).2.entries.filter (fun e => !out.contains e.1)

end Sys2Proof.Machine
end

