-- ==== Sys2Proof/Machine/PbRows.lean ====
section
/-! DEFINITION. The commands of the Pattern Book (ch. 2): sessions, requests, events, drains, I3C. -/
namespace Sys2Proof.Machine

/-- Does a transport work: VSTBY and REFCLK present, and the transport enabled (Table 2.12)? -/
def transportOn (s : State) (tr : Transport) : Bool :=
  s.pwr.vstby && s.pwr.refclk && (match tr with | .eth => num s 0x1100 1 == 1 | .i3c => num s 0x1101 1 == 1)

/-- Does a frame that has arrived reach the Pattern Book (R74, R76)? On Ethernet over a link in the selected mode, at the UDP port, and at the IPv6 link-local address or the
static IPv4 address; on I3C at the dynamic address. -/
def pbpUp (s : State) (tr : Transport) (via : Arrival) : Bool :=
  transportOn s tr && (match tr with
  | .eth => (num s 0x1100 8 == 0 || num s 0x1100 8 == via.phy) && via.port == num s 0x1100 7 &&
      (if via.v6 then num s 0x1100 6 == 1 && via.dst == linkLocal (if s.sec.hem.readOk then s.sec.hem.macBase else 0)
       else num s 0x1100 2 == 1 && via.dst == num s 0x1100 3)
  | .i3c => s.pb.i3cDynamic != 0 && via.dst == s.pb.i3cDynamic)

/-- Slots of a transport, and how many it may use (R86, R88). -/
def slotsOf : Transport → List Nat
  | .eth => upTo 16
  | .i3c => [16, 17]
def slotLimit (s : State) : Transport → Nat
  | .eth => if standby s then min 2 (num s 0x1102 3) else num s 0x1102 3
  | .i3c => if standby s then 1 else 2

/-- Is a frame malformed (R79)? I3C frames carry no VERSION. -/
def badFrame (f : Frame) : Bool := (f.tr == .eth && f.version != 1) || f.ftype == 0 || decide (10 < f.ftype)

/-- Discard a frame and count it: 1 bad tag, 2 replayed, 3 malformed (R79, R80). -/
def discardFrame (s : State) (k : Nat) : State := setNum s 0x1111 k ((num s 0x1111 k + 1) % 2 ^ 32)

/-- The slot of a session that a frame names (R75): from the address of its HELLO on Ethernet; by HANDLE on I3C. -/
def slotOf (s : State) (f : Frame) : Option Nat :=
  (slotsOf f.tr).find? (fun k =>
    let x := getSess s k
    x.inUse && (match f.tr with | .eth => x.sid == f.sid && x.addr == f.addr | .i3c => f.sid == k - 15))

/-- A tagged client frame of a type (R78 to R80, R75): discarded, or taken for its session. A half-open session takes no tagged frame but CLOSE. Frames that are discarded
without a count: log entry 74. -/
def takeFrame (s : State) (f : Frame) (ftype : Nat) (g : State → Nat → State) : State :=
  if !pbpUp s f.tr f.via then s
  else if badFrame f then discardFrame s 3
  else if f.ftype ≠ ftype || bodyMax f.tr < f.body.length then s
  else match slotOf s f with
    | none => s
    | some k =>
      let x := getSess s k
      if !tagVerifies f x.c2d then discardFrame s 1
      else if f.seq ≤ x.clientSeq then discardFrame s 2
      else if x.halfOpen && ftype ≠ 9 then s
      else g (setSess s k { x with clientSeq := f.seq, lastFrame := s.det.now, framesIn := x.framesIn + 1 }) k

/-- A REQUEST of an operation (R89, R93): a kept TAG is answered again; beyond the limit the answer is BUSY; an undefined opcode is BAD_OPCODE; then the operation runs. A frame
with another operation's opcode is that operation's command. -/
def takeRequest (s : State) (f : Frame) (opcode : Nat) (g : State → Nat → State) : State :=
  if pbOpcode f ≠ opcode && decide (1 ≤ pbOpcode f) && decide (pbOpcode f ≤ 10) then s
  else takeFrame s f 5 (fun s k =>
    let x := getSess s k
    match x.kept.find? (fun r => r.tag == pbTag f) with
    | some r => sendFrame s k (.response r)
    | none =>
      if (if isI3c k then 1 else 8) ≤ x.outstanding then
        sendFrame (bump s 0x1111 4) k (.response { opcode := pbOpcode f, tag := pbTag f, abort := 0x0C, body := [] })
      else
        let s := setSess s k { x with outstanding := x.outstanding + 1 }
        if pbOpcode f ≠ opcode then respond s k (pbTag f) (pbOpcode f) 0x0A [] else g s k)

/-- The violation record of a session's operation (R59, Table 14.2): transport 1 Ethernet, 2 I3C. -/
def pbViolation (s : State) (k opcode i sub : Nat) : State :=
  let x := getSess s k
  violation s none (violPb opcode x.claimed (if isI3c k then 2 else 1) x.sid (okey i sub))

/-- The answer to a HELLO that finds no room (R86): BUSY, to the address that it came from. -/
def sendBusy (s : State) (f : Frame) : State :=
  let s := bump s 0x1111 4
  match f.tr with
  | .eth => emit s (.pbp 255 f.addr 0 .busy [])
  | .i3c => emit { s with pb := { s.pb with i3cBusy := s.pb.i3cBusy + 1 } } (.i3cInterrupt 255 1)

/-- The oldest session of a transport with no role (R86): IDs rise. -/
def oldestNoRole (s : State) (tr : Transport) : Option Nat :=
  ((slotsOf tr).filter (fun k => (getSess s k).inUse && (getSess s k).role == 0)).foldl (fun b k =>
    match b with | none => some k | some j => if (getSess s k).sid < (getSess s j).sid then some k else b) none

/-- Open a half-open session in a free slot: HELLO_REPLY, with the Thimble's nonce, ephemeral key and signature, and the two session keys (R81, R82, Table 14.4). What the
Thimble draws is free (R615); the keys follow from it. -/
def openSession (s : State) (f : Frame) (k : Nat) : State :=
  let d := drawBytes s 176
  let s := d.2
  let sid := s.pb.nextSid
  let nonce := slice d.1 0 32
  let secret := beNat (slice d.1 32 48) % (ecN - 1) + 1
  let reply := toLe 4 sid ++ zeros 4 ++ nonce ++ ecEncode (ecMul 384 secret ecG) ++ slice d.1 80 96
  let shared := match ecDecode (slice f.body 36 97) with | some q => ecdh secret q | none => zeros 48
  let key := fun (info : String) => hkdf384 (slice f.body 4 32 ++ nonce) shared (ascii info)
  let x := { Session.free with inUse := true, halfOpen := true, sid := sid, claimed := bfld f.body 0 1, keySlot := bfld f.body 1 1, addr := f.addr,
                               openedAt := s.det.now, lastFrame := s.det.now, hello := f.body, reply := reply, c2d := key "PBP1 c2d", d2c := key "PBP1 d2c" }
  let s := setSess { s with pb := { s.pb with nextSid := sid % (2 ^ 32 - 1) + 1, lastHandshake := s.det.now + 1 } } k x
  sendFrame (keysMade s 2) k (.helloReply reply)

/-- Is a HELLO one that the device can answer: 133 bytes, with an ephemeral key on the curve (Table 2.8)? -/
def helloForm (f : Frame) : Bool := f.body.length == 133 && (ecDecode (slice f.body 36 97)).isSome

/-- PBP_HELLO (R81, R86, R88, R615): no answer while the Thimble is not OK, nor, of the standby responder, within 2 s of a handshake. A limit lowered below the sessions in
use ends none of them (log entry 72). -/
def execPbpHello (f : Frame) (s : State) : Res :=
  .next (if !pbpUp s f.tr f.via then s
    else if badFrame f then discardFrame s 3
    else if f.ftype ≠ 1 || !helloForm f || num s 0x2A21 1 ≠ 0 then s
    else if standby s && s.pb.lastHandshake ≠ 0 && !due s (s.pb.lastHandshake - 1) (secT 2) then s
    else
      let used := (slotsOf f.tr).filter (fun k => (getSess s k).inUse)
      let free := fun (s : State) => (slotsOf f.tr).find? (fun k => !(getSess s k).inUse)
      if used.length < slotLimit s f.tr then (match free s with | some k => openSession s f k | none => s)
      else match oldestNoRole s f.tr with
        | none => sendBusy s f
        | some j =>
          let s := endSession s j 8
          match free s with | some k => openSession s f k | none => s)

/-- ROLE_PK and ROLE_SIG of a PROVE (Table 2.8), and whether the signature verifies under a key: over both handshake bodies and ROLE_PK. -/
def rolePk (f : Frame) : Bytes := slice f.body 0 97
def roleSigOk (x : Session) (f : Frame) (key : Bytes) : Bool := ecdsaOk key (x.hello ++ x.reply ++ rolePk f) (slice f.body 97 96)

/-- The role that a proof gives (R84, R611): 0 is no role. -/
def provenRole (s : State) (x : Session) (f : Frame) : Nat :=
  let hash := s.sec.hem.ownerKeyHash
  if x.claimed = 3 then (if s.sec.hem.readOk && hash.any (fun b => b != 0) && sha384 (rolePk f) == hash && roleSigOk x f (rolePk f) then 3 else 0)
  else if x.claimed = 1 && x.keySlot = 0 then (if num s 0x1102 2 = 1 then 1 else 0)
  else if (x.claimed = 1 || x.claimed = 2) && 1 ≤ x.keySlot && x.keySlot ≤ 16 then
    (let e := blob s 0x1110 x.keySlot
     if e.length = 98 && bfld e 0 1 = x.claimed && roleSigOk x f (e.drop 1) then x.claimed else 0)
  else 0

/-- PBP_PROVE (R84, R85). -/
def execPbpProve (f : Frame) (s : State) : Res :=
  .next (if !pbpUp s f.tr f.via then s
    else if badFrame f then discardFrame s 3
    else if f.ftype ≠ 3 || f.body.length ≠ 193 then s
    else match slotOf s f with
      | none => s
      | some k =>
        let x := getSess s k
        if !x.halfOpen then s
        else if due s x.openedAt (secT 5 + 1) then endSession s k 0
        else
          let s := setSess s k { x with halfOpen := false, role := provenRole s x f, openedAt := s.det.now, lastFrame := s.det.now }
          sendFrame s k (.accept x.claimed (num s 0x1102 1)))

/-- PBP_PROVE_TIMEOUT (R85). -/
def execPbpProveTimeout (slot : Nat) (s : State) : Res :=
  let x := getSess s slot
  .next (if x.inUse && x.halfOpen && due s x.openedAt (secT 5) then endSession s slot 0 else s)

/-- The RESPONSE of a READ (Table 2.9). -/
def readBody (ty rflags : Nat) (v : Bytes) (off max : Nat) : Bytes :=
  let d := (v.drop off).take max
  toLe 1 ty ++ toLe 1 rflags ++ toLe 4 v.length ++ toLe 2 d.length ++ d

/-- PBP_READ (R90, R58, R60). -/
def execPbpRead (f : Frame) (s : State) : Res :=
  .next (takeRequest s f 1 (fun s k =>
    let say := respond s k (pbTag f) 1
    let o := readOps f
    if f.body.length ≠ 14 || (if isI3c k then 472 else 1344) < o.maxLen then say 0x0B []
    else
      let x := findObject s o.index o.sub
      if x.1 ≠ 0 then say x.1 []
      else if !mayRead (getSess s k).role x.2 then
        respond (pbViolation s k 1 o.index o.sub) k (pbTag f) 1 0 (readBody x.2.ty.code 0 (zeroBytes x.2) o.offset o.maxLen)
      else
        let v := readObject s k o.index o.sub x.2 (bit o.flags 0)
        if v.1 ≠ 0 then say v.1 [] else say 0 (readBody x.2.ty.code (b2n v.2.1) v.2.2 o.offset o.maxLen)))

/-- Answer a write of a request, then end a drain that has nothing to wait for (R63). -/
def answerWrite (s0 : State) (k tag : Nat) : WriteOut → State
  | .done a r s => drainAtOnce (respondWrite (if a = 0 then s else if a = 0x0D then s else s0) k tag a r)
  | .wait s => drainAtOnce s

/-- What a segment makes of the staged value (R91): refused, or the bytes staged so far. -/
def stageSegment (x : Session) (o : WriteOps) : Option Staged :=
  let fits := decide (o.offset + o.dataLen ≤ o.totalLen) && (!bit o.flags 0 || o.offset + o.dataLen == o.totalLen)
  match x.staged with
  | none => if o.offset = 0 && fits then some { index := o.index, sub := o.sub, totalLen := o.totalLen, data := o.data } else none
  | some t =>
    if o.index = t.index && o.sub = t.sub && o.totalLen = t.totalLen && o.offset = t.data.length && fits then some { t with data := t.data ++ o.data } else none

/-- A WRITE that has its right and its unit (R91): the whole value, or a segment of it. -/
def writeRequest (s : State) (k tag : Nat) (r : ORow) (o : WriteOps) (v : Verdicts) : State :=
  let w : Writer := { slot := k, tag := tag }
  let x := getSess s k
  if o.offset = 0 && bit o.flags 0 then
    (if o.dataLen ≠ o.totalLen then respondWrite s k tag 9 0 else answerWrite s k tag (writeWhole s w r o.index o.sub o.data v.flashOk))
  else match stageSegment x o with
    | none => respondWrite (setSess s k { x with staged := none }) k tag 9 0
    | some t =>
      if bit o.flags 0 then
        let s := setSess s k { x with staged := none }
        answerWrite s k tag (writeWhole s w r o.index o.sub t.data v.flashOk)
      else respondWrite (setSess s k { x with staged := some t }) k tag 0 3

/-- PBP_WRITE (R90, R91, R58, R60). -/
def execPbpWrite (f : Frame) (v : Verdicts) (s : State) : Res :=
  .next (fin (takeRequest s f 2 (fun s k =>
    let say := fun (a : Nat) => respondWrite s k (pbTag f) a 0
    let o := writeOps f
    if f.body.length ≠ 18 + o.dataLen || (if isI3c k then 470 else 1342) < o.dataLen then say 0x0B
    else
      let x := findObject s o.index o.sub
      if x.1 ≠ 0 then say x.1
      else if !mayWrite (getSess s k).role x.2 then respondWrite (pbViolation s k 2 o.index o.sub) k (pbTag f) 0 0
      else if disabledUnit s o.index o.sub then say 8
      else writeRequest s k (pbTag f) x.2 o v)))

/-- MIN and MAX of DESCRIBE (R90): the object's range, or its type's. -/
def describeRange (s : State) (r : ORow) : Int × Int :=
  let w := 8 * r.ty.size
  let full : Int × Int := if r.ty.signed then (-(2 ^ (w - 1) : Nat), ((2 ^ (w - 1) : Nat) : Int) - 1) else (0, ((2 ^ w : Nat) : Int) - 1)
  if r.ty.isBytes then (0, 0)
  else match r.rng with
    | .span lo hi => (lo, hi)
    | .codes l => (((l.min?.getD 0 : Nat) : Int), ((l.foldl max 0 : Nat) : Int))
    | .mask m => (0, (m : Int))
    | .within m => (0, (m : Int))
    | .i3cAddr => (8, 0x77)
    | .tdp => (100, (tdpW s : Int))
    | .ipv4 => (1, ((2 ^ 32 : Nat) : Int) - 1)
    | _ => if r.ty == .bool then (0, 1) else full

/-- DEFAULT of DESCRIBE (R50, R90): of a status object, its value after reset, which the fuses, the flash, the running image or bring-up give; a value that reads another. -/
def describeDefault (s : State) (r : ORow) (i k : Nat) : Nat :=
  let now := match viewOf s Session.free 3 i k with | .num n => n | .bytes _ => 0
  if r.i0 = 0 then topSub s i
  else if i = 0x1008 && (k = 1 || k = 2 || k = 4) || i = 0x2006 && k = 6 then sget (fun _ => 0) s.pb.atBoot (okey i k)
  else if i = 0x1001 || i = 0x1002 || i = 0x1003 || i = 0x1008 || i / 256 = 0x12 || i = 0x2A22 && k = 3 then now
  else if i = 0x2200 && k = 3 || i = 0x2300 && k ≤ 6 || i = 0x230A && k = 13 then now
  else if i = 0x2201 && k = 3 || i = 0x2100 && k = 4 then s.route.epoch
  else if i = 0x2002 && k = 2 then tdpW s
  else if i = 0x2300 && 7 ≤ k && k ≤ 9 then [s.tier.parlourSlots, s.tier.larderSlots, s.tier.cellarSlots].getD (k - 7) 0
  else match r.dflt with
    | .num n => if r.ty.signed then ofSigned 64 (toSigned (8 * r.ty.size) n) else n
    | .bytes _ => 0

/-- PBP_DESCRIBE (R57, R90). -/
def execPbpDescribe (f : Frame) (s : State) : Res :=
  .next (takeRequest s f 3 (fun s k =>
    let index := opIndex f
    let sub := opSub f
    let x := findObject s index sub
    let r := x.2
    if f.body.length ≠ 8 then respond s k (pbTag f) 3 0x0B []
    else if x.1 ≠ 0 then respond s k (pbTag f) 3 x.1 []
    else
      let m := describeRange s r
      respond s k (pbTag f) 3 0 (toLe 1 r.ty.code ++ toLe 1 r.cls.code ++ toLe 1 r.acc ++ toLe 1 (b2n r.status) ++ toLe 4 r.ty.maxSize ++
        toLe 8 (if r.ty.isBytes then 0 else describeDefault s r index sub) ++ toLe 8 (ofSigned 64 m.1) ++ toLe 8 (ofSigned 64 m.2))))

/-- The first object of a row after INDEX:SUB, as a key. Sub-index 0 of an array or record exists. -/
def nextInRow (s : State) (r : ORow) (i k : Nat) : Option Nat :=
  if i < r.i0 then some (okey r.i0 0)
  else if r.i1 < i then none
  else if k < rowTop s r then some (okey i (max (k + 1) r.s0))
  else if i < r.i1 then some (okey (i + 1) 0)
  else none

/-- PBP_ENUM_NEXT (R57, R90): 0xFFFF:FF at the end of the dictionary. -/
def execPbpEnumNext (f : Frame) (s : State) : Res :=
  .next (takeRequest s f 4 (fun s k =>
    let next := (dictPages.flatMap dictPage).foldl (fun m r => match nextInRow s r (opIndex f) (opSub f) with | some y => min m y | none => m) 0xFFFFFF
    if f.body.length ≠ 8 then respond s k (pbTag f) 4 0x0B []
    else respond s k (pbTag f) 4 0 (toLe 2 (next / 256) ++ toLe 1 next ++ toLe 1 0)))

/-- STORE and RESTORE_DEFAULTS (R57, R58, R70, R72) of the indices FIRST to LAST: a new bank, or STORE_FAILED. A violation is recorded at FIRST:00 (DESIGN CHOICE, log entry 68). -/
def storeRequest (s : State) (f : Frame) (opcode : Nat) (flashOk : Bool) (set : State → Nat → Nat → Nat → Sparse Val) : State :=
  takeRequest s f opcode (fun s k =>
    let role := (getSess s k).role
    let first := bfld f.body 4 2
    let say := fun (s : State) (a : Nat) => respond s k (pbTag f) opcode a []
    if f.body.length ≠ 8 then say s 0x0B
    else if role < 2 then say (pbViolation s k opcode first 0) 0
    else if standby s then say s abOFF
    else if !flashOk then say (storeFault s) 0x0D
    else say (putBank s (set s role first (bfld f.body 6 2))) 0)

/-- PBP_STORE (R70, R72, R73). -/
def execPbpStore (f : Frame) (flashOk : Bool) (s : State) : Res := .next (storeRequest s f 5 flashOk storedSet)

/-- PBP_RESTORE_DEFAULTS (R72). -/
def execPbpRestoreDefaults (f : Frame) (flashOk : Bool) (s : State) : Res := .next (storeRequest s f 6 flashOk restoredSet)

/-- The sub-indices that a subscription covers: SUB 0xFF is every one of the index (R90). -/
def subsOf (s : State) (i sub : Nat) : List Nat :=
  if sub = 0xFF then (upTo (topSub s i + 1)).filter (fun k => (findObject s i k).1 == 0) else [sub]

/-- A free subscription ID, from `n` on. -/
def freeSub (s : State) (n : Nat) : Nat :=
  ((upTo 257).map (fun a => (n - 1 + a) % 65535 + 1)).find? (fun c => !s.pb.subs.any (fun y => y.id == c)) |>.getD 1

/-- What a subscriber may be told of an object: zero without the right (R58); nothing while a READ is refused. -/
def subValue (s : State) (slot i k : Nat) : Option (Nat × Bytes) :=
  let x := findObject s i k
  if x.1 ≠ 0 then none
  else if !mayRead (getSess s slot).role x.2 then some (x.2.ty.code, zeroBytes x.2)
  else
    let v := readObject s slot i k x.2 false
    if v.1 = 0 then some (x.2.ty.code, v.2.2) else none

/-- The values of a subscription's objects now. -/
def subNow (s : State) (slot i sub : Nat) : Sparse Val :=
  (subsOf s i sub).filterMap (fun k => (subValue s slot i k).map (fun v => (k, .bytes v.2)))

/-- PBP_SUBSCRIBE (R90, R58, Table 2.10). Its ranges hold whatever MODE is; SUBSCRIPTION_LIMIT is judged last, and of a violation too; no value is sent at first
(DESIGN CHOICE, log entry 69). -/
def execPbpSubscribe (f : Frame) (s : State) : Res :=
  .next (takeRequest s f 7 (fun s k =>
    let say := fun (a : Nat) => respond s k (pbTag f) 7 a []
    let o := subscribeOps f
    let all := subsOf s o.index o.sub
    let x := if o.sub = 0xFF && !(rowsAt o.index).isEmpty then (0, subZero) else findObject s o.index o.sub
    if f.body.length ≠ 14 then say 0x0B
    else if x.1 ≠ 0 then say x.1
    else
      let allowed := all.all (fun c => mayRead (getSess s k).role (findObject s o.index c).2)
      if allowed && !(1 ≤ o.mode && o.mode ≤ 3 && 10 ≤ o.periodMs && o.periodMs ≤ 3600000 && o.minIntervalMs ≤ 60000) then say abRANGE
      else if allowed && all.any (fun c => !served s o.index c) then say abOFF
      else if 32 ≤ countIf s.pb.subs (fun y => y.slot == k) || 256 ≤ s.pb.subs.length then say 0x0E
      else
        let s := if allowed then s else pbViolation s k 7 o.index o.sub
        let id := freeSub s s.pb.nextSub
        let y : Subscription := { id := id, slot := k, index := o.index, sub := o.sub, mode := o.mode, periodMs := o.periodMs, minIntervalMs := o.minIntervalMs,
                                  last := subNow s k o.index o.sub, held := false, sentAt := 0, dueAt := s.det.now + msT o.periodMs }
        respond { s with pb := { s.pb with subs := s.pb.subs ++ [y], nextSub := id % 65535 + 1 } } k (pbTag f) 7 0 (toLe 2 id)))

/-- A subscription ends: its unsent events go with it. -/
def dropSub (s : State) (slot id : Nat) : State :=
  let s := { s with pb := { s.pb with subs := s.pb.subs.filter (fun y => y.id != id) } }
  let x := getSess s slot
  setSess s slot { x with waiting := x.waiting.filter (fun e => e.subId != id) }

/-- PBP_UNSUBSCRIBE (R89, Table 2.10). -/
def execPbpUnsubscribe (f : Frame) (s : State) : Res :=
  .next (takeRequest s f 8 (fun s k =>
    let id := bfld f.body 4 2
    let say := fun (s : State) (a : Nat) => respond s k (pbTag f) 8 a []
    if f.body.length ≠ 6 then say s 0x0B
    else if s.pb.subs.any (fun y => y.id == id && y.slot == k) then say (dropSub s k id) 0
    else say s 0x10))

/-- PBP_PING. -/
def execPbpPing (f : Frame) (s : State) : Res :=
  .next (takeRequest s f 9 (fun s k => respond s k (pbTag f) 9 (if f.body.length = 4 then 0 else 0x0B) []))

/-- The RESPONSE of a WRITE_GROUP: RESULT, FAIL_SUB. -/
def respondGroup (s : State) (k tag abort result failSub : Nat) : State := respond s k tag 0x0A abort (toLe 1 result ++ toLe 1 failSub ++ toLe 2 0)

/-- PBP_WRITE_GROUP (R92, R58, R60). A group with entries that are answered later is answered when the last has been. -/
def execPbpWriteGroup (f : Frame) (v : Verdicts) (s : State) : Res :=
  .next (fin (takeRequest s f 0x0A (fun s k =>
    let index := opIndex f
    let count := opSub f
    let say := respondGroup s k (pbTag f)
    match (if count = 0 || 16 < count || f.body.length < 8 then none else groupEntries count (f.body.drop 8)) with
    | none => say 0x0B 0 0
    | some entries =>
      let rows := entries.map (fun e => (findObject s index e.sub, e))
      match rows.find? (fun x => x.1.1 != 0), rows.find? (fun x => !mayWrite (getSess s k).role x.1.2) with
      | some x, _ => say x.1.1 0 x.2.sub
      | none, some x => respondGroup (pbViolation s k 0x0A index x.2.sub) k (pbTag f) 0 0 0
      | none, none =>
        let r := groupWrite s { slot := k, tag := pbTag f } index (rows.map (fun x => { row := x.1.2, sub := x.2.sub, data := x.2.data })) v.flashOk
        let t := r.2.2.2.2
        if r.1 ≠ 0 then respondGroup (if r.1 = 0x0D then storeFault s else s) k (pbTag f) r.1 0 r.2.1
        else if r.2.2.2.1 = 0 then drainAtOnce (respondGroup t k (pbTag f) 0 r.2.2.1 0)
        else setSess t k { getSess t k with groups := (getSess t k).groups ++ [{ tag := pbTag f, left := r.2.2.2.1, abort := 0, failSub := 0 }] })))

/-- PBP_EVENT_ACK (R96, R97): a body of four bytes. -/
def execPbpEventAck (f : Frame) (s : State) : Res :=
  .next (takeFrame s f 8 (fun s k =>
    let x := getSess s k
    if f.body.length ≠ 4 then s else flushEvents (setSess s k { x with unacked := x.unacked.filter (fun u => u.ev.seq != leNat f.body) }) k))

/-- PBP_CLOSE (R87): the client ends its session, whatever code it gives. -/
def execPbpClose (f : Frame) (s : State) : Res := .next (takeFrame s f 9 (fun s k => endSession s k 0))

/-- SESSION_IDLE_TIMEOUT (R87). -/
def execSessionIdleTimeout (slot : Nat) (s : State) : Res :=
  let x := getSess s slot
  .next (if x.inUse && !x.halfOpen && due s x.lastFrame (secT (num s 0x1102 1)) then endSession s slot 1 else s)

/-- SESSION_LIMIT_REACHED (R87): 2^31 frames in either direction, or 24 h since ACCEPT. -/
def execSessionLimitReached (slot : Nat) (s : State) : Res :=
  let x := getSess s slot
  .next (if x.inUse && !x.halfOpen && (2 ^ 31 ≤ x.framesIn || 2 ^ 31 ≤ x.framesOut || due s x.openedAt (secT 86400)) then endSession s slot 3 else s)

/-- EVENT_RETRY_TIMEOUT (R96): sent again every EVENT_RETRY_MS, up to EVENT_RETRIES times; then the subscription is dropped, which is told once. Kinds 2, 3 and 5 go on. -/
def execEventRetryTimeout (slot eventSeq : Nat) (s : State) : Res :=
  let x := getSess s slot
  .next (match x.unacked.find? (fun u => u.ev.seq == eventSeq) with
    | none => s
    | some u =>
      if !due s u.sentAt (msT (num s 0x1112 1)) then s
      else if u.ev.kind = 4 then flushEvents (setSess s slot { x with unacked := x.unacked.filter (fun y => y.ev.seq != eventSeq) }) slot
      else if u.attempts < num s 0x1112 2 || u.ev.kind ≠ 1 then
        let again := x.unacked.map (fun y => if y.ev.seq = eventSeq then { y with attempts := y.attempts + 1, sentAt := s.det.now } else y)
        sendFrame (setSess s slot { x with unacked := again }) slot (.event u.ev)
      else
        let s := dropSub (setSess s slot { x with unacked := x.unacked.filter (fun y => y.ev.subId != u.ev.subId) }) slot u.ev.subId
        let s := sendEvent s slot { subId := u.ev.subId, kind := 4, seq := 0, index := u.ev.index, sub := u.ev.sub, type := 0, data := [] }
        flushEvents s slot)

/-- A VALUE event of a subscription; it replaces an unsent one of the same object (R97). DATA is what one frame holds of the value (R75; DESIGN CHOICE, log entry 73). -/
def valueEvent (s : State) (y : Subscription) (k : Nat) : State :=
  match subValue s y.slot y.index k with
  | none => s
  | some v =>
    let x := getSess s y.slot
    let s := setSess s y.slot { x with waiting := x.waiting.filter (fun e => !(e.subId == y.id && e.sub == k)) }
    sendEvent s y.slot { subId := y.id, kind := 1, seq := 0, index := y.index, sub := k, type := v.1, data := v.2.take (eventMax (slotTr y.slot)) }

/-- Change a subscription. -/
def setSub (s : State) (y : Subscription) : State := { s with pb := { s.pb with subs := s.pb.subs.map (fun z => if z.id = y.id then y else z) } }

/-- SUBSCRIPTION_PERIOD (R90): a periodic subscription's VALUE events. -/
def execSubscriptionPeriod (subId : Nat) (s : State) : Res :=
  .next (match s.pb.subs.find? (fun y => y.id == subId) with
    | none => s
    | some y =>
      if y.mode < 2 || s.det.now < y.dueAt then s
      else
        let s := setSub s { y with dueAt := y.dueAt + msT y.periodMs, sentAt := s.det.now, last := subNow s y.slot y.index y.sub }
        forS (subsOf s y.index y.sub) s (fun s k => valueEvent s y k))

/-- EVENT_SEND (R97): an object of an on-change subscription has changed since it was last told; MIN_INTERVAL_MS has passed, its previous event is acknowledged, and
fewer than four events are unacknowledged. The latest value is sent. -/
def execEventSend (subId : Nat) (s : State) : Res :=
  .next (match s.pb.subs.find? (fun y => y.id == subId) with
    | none => s
    | some y =>
      let x := getSess s y.slot
      let changed := (subNow s y.slot y.index y.sub).find? (fun e => sfind y.last e.1 != some e.2)
      match changed with
      | none => s
      | some e =>
        if y.mode = 2 || 4 ≤ x.unacked.length || x.unacked.any (fun u => u.ev.subId == y.id) || (y.sentAt ≠ 0 && !due s y.sentAt (msT y.minIntervalMs)) then
          setSub s { y with held := true }
        else valueEvent (setSub s { y with last := sset y.last e.1 e.2, held := false, sentAt := s.det.now }) y e.1)

/-- DRAIN_END (R63, R64, R764): the block then takes operations again. -/
def execDrainEnd (block : DrainBlock) (s : State) : Res := .next (if drainReady s block then fin (drainEnd s block) else s)

/-- I3C_PRIVATE_READ (R77): the next ready frame of HANDLE 1 or 2, those of an ended session first, or a BUSY frame (handle 0); a NACK (code 0) when there is none. -/
def execI3cPrivateRead (handle : Nat) (s : State) : Res :=
  let slot := handle + 15
  let give := fun (s : State) (f : ReadyFrame) => emit s (.pbp slot 0 f.seq f.frame f.auth)
  .next (if !transportOn s .i3c || s.pb.i3cDynamic = 0 then s
    else if handle = 0 then
      (if s.pb.i3cBusy = 0 then emit s (.i3cInterrupt 255 0) else emit { s with pb := { s.pb with i3cBusy := s.pb.i3cBusy - 1 } } (.pbp 255 0 0 .busy []))
    else if 2 < handle then s
    else
      let x := getSess s slot
      match s.pb.i3cTail.find? (fun e => e.1 == slot), x.ready with
      | some e, _ => give { s with pb := { s.pb with i3cTail := s.pb.i3cTail.erase e } } e.2
      | none, [] => emit s (.i3cInterrupt slot 0)
      | none, f :: t => give (setSess s slot { x with ready := t }) f)

/-- I3C_ENTDAA (R76): SETDASA, at the static address `named`, or ENTDAA, which the provisioned ID `named` has won, gives the dynamic address. -/
def execI3cEntdaa (byId : Bool) (named addr : Nat) (s : State) : Res :=
  let mine := named == (if byId then s.sec.hem.i3cId else num s 0x1101 2)
  .next (if transportOn s .i3c && mine && 8 ≤ addr && addr ≤ 0x7D then { s with pb := { s.pb with i3cDynamic := addr } } else s)

/-- SESSION_CLOSE (R87, R101). -/
def execSessionClose (w : Writer) (value : Bytes) (s : State) : Res := endWrite w (writeSessionClose s value)

/-- ROLE_KEYS (R101). -/
def execRoleKeys (w : Writer) (element : Nat) (value : Bytes) (s : State) : Res :=
  if element = 0 || 16 < element then .next s else endWrite w (writeRoleKey s element value)

/-- OBJECT_WRITE (R61): the write of an object by a session that may write it. -/
def execObjectWrite (w : Writer) (index sub : Nat) (value : Bytes) (s : State) : Res :=
  let x := findObject s index sub
  .next (fin (if x.1 ≠ 0 || x.2.cls == .ro then s
    else answerWrite s w.slot w.tag (writeWhole s w x.2 index sub value true)))

end Sys2Proof.Machine
end

