-- ==== Sys2Proof/Machine/Bringup.lean ====
section
/-! DEFINITION. From reset to ready (R740): the stages of Table 18.13, the sizing of the tiers, and the stored set as it is applied. -/
namespace Sys2Proof.Machine

/-- Does the Hem hold valid patterns (R612)? A thermometer is held as its count, and UDS stays in the Thimble (log entry 4). -/
def hemValid (h : Hem) : Bool :=
  h.readOk && h.debugLock != 2 && decide (h.debugLock ≤ 3) &&
  (match h.grade with
   | 1 => h.treadleDisabled == 0 && h.hearthDisabled == 0 && h.tapeDisabled == 0
   | 2 => countIf (upTo 8) (bit h.treadleDisabled) == 1 && countIf (upTo 16) (bit h.hearthDisabled) == 2 && h.hearthDisabled % 4 == 0
   | _ => false)

/-- Stage FUSES ends (R102, R613): a Hem read that fails leaves the device there. Else quadrant NW, cluster 0 and cores 0 and 1 are powered for the boot ROM. -/
def endFuses (s : State) : State :=
  if !hemValid s.sec.hem then { s with sec := { s.sec with hem := { s.sec.hem with readOk := false } } }
  else
    let s := { s with sec := { s.sec with debugOpen := s.sec.hem.debugLock == 0 } }
    forS [176, 16, 0, 1] (setNum s 0x2000 4 2) powerUp

/-- Fitted Larder bytes of a channel. -/
def foundChan (f : MemoryFound) (c : Nat) : Nat := let d := f.dimms.getD c (0, 0); d.1 + d.2

/-- Why the tiers are not brought up (R164, Table 17.1): the resource, and the reason; `none` where nothing stands against it. The spec gives no order of the reasons
(log entry 62). -/
def tierFault (f : MemoryFound) : Option (Nat × Nat) :=
  let uneq := fun (c : Nat) => let d := f.dimms.getD c (0, 0); d.1 != 0 && d.2 != 0 && d.1 != d.2
  match (upTo 16).find? uneq, (upTo 16).find? (fun c => f.failed.contains c && foundChan f c != 0),
      (upTo 16).find? (fun c => foundChan f c != foundChan f (c / 4 * 4)) with
  | some c, _, _ => some (resId 3 c, 2)
  | none, some c, _ => some (resId 3 c, 3)
  | none, none, some c => some (resId 3 c, 4)
  | none, none, none => if ((upTo 16).map (foundChan f)).sum < 64 * 2 ^ 30 then some (0, 1) else none

/-- Size the tiers (R163). -/
def sizeTiers (s : State) (f : MemoryFound) : State :=
  let larder := ((upTo 16).map (foundChan f)).sum
  let cells := (upTo 32).map (fun c => f.cellar.getD c 0)
  let raw := cells.sum
  let fitted := { s.tier with larderFitted := (upTo 16).map (foundChan f), cellarRaw := raw, cellarFitted := cells }
  match tierFault f with
  | some x => noteFault { s with tier := fitted } 0x08 x.1 0xFF 0xFF 0 (toLe 1 x.2)
  | none =>
    let parl := 384 * 2 ^ 30
    let e := alignDown (raw * 7 / 8) 65536
    let g := parl + larder + e
    let up64 := fun (n : Nat) => divUp n 65536 * 65536
    let m := up64 (divUp g 4096)
    let sp := up64 (divUp parl 256)
    let sl := up64 (divUp (larder - m) 256)
    let sc := up64 (divUp e 256)
    { s with tier := { fitted with
        up := true
        parlourSlots := (parl - sp) / 65536
        larderSlots := (larder - m - sl) / 65536
        cellarSlots := (e - sc) / 65536
        mapReserve := m
        unifiedSize := g - m - sp - sl - sc
        spareP := sp / 65536
        spareL := sl / 65536
        spareC := sc / 65536
        learning := true
        learnAccesses := 0
        learnStart := s.det.now } }

/-- The writer that stands for the controller's own writes: no session's slot. -/
def bootWriter : Writer := { slot := 31, tag := 0 }

/-- Does an object wait for the regions when the stored set is applied: windows, streams, version views, table and index descriptors, barrier and multicast descriptors? -/
def afterRegions (i : Nat) : Bool :=
  (decide (0x2260 ≤ i) && decide (i < 0x2280)) || (decide (0x2320 ≤ i) && decide (i < 0x2330)) || (decide (0x2540 ≤ i) && decide (i < 0x2560)) ||
    (decide (0x2610 ≤ i) && decide (i < 0x2620)) || (decide (0x2710 ≤ i) && decide (i < 0x2720)) || (decide (0x2920 ≤ i) && decide (i < 0x2940))

/-- Is an object's write one with a rule of its own, whatever its value? -/
def ruledWrite (s : State) (i k : Nat) (b : Bytes) : Bool := (commandWrite s bootWriter i k b).isSome

/-- One entry that has a write rule of its own: applied as such a write, or dropped (R71). -/
def restoreRuled (s : State) (key : Nat) (b : Bytes) : Option State :=
  match commandWrite s bootWriter (key / 256) (key % 256) b with
  | some (.done a _ t) => if a = 0 then some t else none
  | some (.wait t) => some t
  | none => none

/-- Count a dropped entry (CFG_REJECTED). -/
def rejectEntry (s : State) : State := { s with pb := { s.pb with rejected := (s.pb.rejected + 1) % 65536 } }

/-- Apply entries that have rules of their own, in ascending order. -/
def restoreList (s : State) (l : List (Nat × Bytes)) : State :=
  forS l s (fun s e => match restoreRuled s e.1 e.2 with | some t => t | none => rejectEntry s)

/-- The bytes of an entry's value, where its object exists and the value is within range. -/
def storedBytes (s : State) (e : Nat × Val) : Option Bytes :=
  match dictFind (e.1 / 256) (e.1 % 256) with
  | some r =>
    let b := encodeVal r.ty e.2
    if r.status || r.cmd || (r.perPart && decide (s.sec.hem.maxPartitions < e.1 % 256)) then none
    else if (checkValue s r b).1 = 0 then some b else none
  | none => none

/-- The stored set is applied (R71): entries whose values fail a range or consistency check are dropped and counted. First PART_AT_RESET and the partitions (R603), then
the plain values, checked together, then regions (R165), then what lies in regions. -/
def applyStored (s : State) : State :=
  let c := storeBank s
  let s := { s with pb := { s.pb with rejected := 0 } }
  let s := if c.1 = 0 then noteFault s 0x0C 0 0xFF 0xFF 0 (toLe 1 0) else setNum s 0x1008 3 1
  let entries := c.2.entries.filter (fun e => (storedBytes s e).isSome)
  let s := forS (upTo (c.2.entries.length - entries.length)) s (fun s _ => rejectEntry s)
  let vals := entries.filterMap (fun e => match storedBytes s e with
    | some b => (match dictFind (e.1 / 256) (e.1 % 256) with | some r => some (e.1, b, (checkValue s r b).2) | none => none)
    | none => none)
  let s := forS (vals.filter (fun e => e.1 == okey 0x2A00 8)) s (fun s e => setObj s 0x2A00 8 e.2.2)
  let at_ := setBit (num s 0x2A00 8) 0
  let s := forS ((upTo (min 64 s.sec.hem.maxPartitions)).filter (bit at_)) (setNum s 0x2A00 8 at_) createPart
  let ruled := vals.filter (fun e => ruledWrite s (e.1 / 256) (e.1 % 256) e.2.1)
  let plain := vals.filter (fun e => e.1 != okey 0x2A00 8 && !ruledWrite s (e.1 / 256) (e.1 % 256) e.2.1)
  let trial := forS plain s (fun s e => setObj s (e.1 / 256) (e.1 % 256) e.2.2)
  let good := plain.filter (fun e => consistent trial (e.1 / 256) (e.1 % 256))
  let s := forS (upTo (plain.length - good.length)) s (fun s _ => rejectEntry s)
  let s := forS good s (fun s e => putValue s (e.1 / 256) (e.1 % 256) e.2.2)
  let isRegion := fun (e : Nat × Bytes × Val) => decide (0x224000 ≤ e.1) && decide (e.1 < 0x226000)
  let bare := fun (l : List (Nat × Bytes × Val)) => l.map (fun e => (e.1, e.2.1))
  let s := restoreList s (bare (ruled.filter (fun e => !isRegion e && !afterRegions (e.1 / 256))))
  let s := restoreList s (bare (ruled.filter isRegion))
  restoreList s (bare (ruled.filter (fun e => afterRegions (e.1 / 256))))

/-- Stage READY begins (R552): the port block starts when PORTS_AUTOSTART and ENDPOINT_SET are true. -/
def endConfig (s : State) : State :=
  let s := setNum s 0x2000 4 7
  if num s 0x2100 3 = 1 && num s 0x2200 2 = 1 then
    (match portsStart s with
     | .done _ _ t => t
     | .wait t => t)
  else s

/-- Stage FIRMWARE begins: every domain of a unit that is not disabled is powered, quadrants and clusters before what needs them (R710); one with lands stays HELD. -/
def powerAll (s : State) : State :=
  forS ((upTo 4).map (176 + ·) ++ (upTo 4).map (16 + ·) ++ (upTo 6).map (106 + ·) ++ upTo 196) s (fun s d =>
    if domState s d = 0 && !domDisabled s d then powerUp s d else s)

/-- The stage after the present one begins, once what the present one waits for is there. -/
def nextStage (s : State) (found : MemoryFound) : State :=
  match num s 0x2000 4 with
  | 0 => if mainGood s && s.pwr.refclk && s.pwr.vstby && !s.pwr.perst && !s.pwr.tripped then setNum s 0x2000 4 1 else s
  | 1 => endFuses s
  | 2 => if s.pwr.runLoader = 0 then s else setNum s 0x2000 4 3
  | 3 => if s.pwr.runImage = 0 then s else powerAll (setNum s 0x2000 4 4)
  | 4 => forS ((upTo 6).map (106 + ·) ++ (upTo 60).map (52 + ·)) (setNum s 0x2000 4 5) releasePad
  | 5 => applyStored (setNum (sizeTiers s found) 0x2000 4 6)
  | 6 => endConfig s
  | _ => s

/-- BRINGUP_STAGE (R740). -/
def execBringupStage (found : MemoryFound) (s : State) : Res := .next (bellScan (fin (nextStage s found)))

end Sys2Proof.Machine
end

