-- ==== Sys2Proof/Machine/Dispatch.lean ====
section
/-! DEFINITION. The dispatch: one arm per command, each a direct call of its meaning. -/
namespace Sys2Proof.Machine

/-- The effect of one command on everything but the queue. -/
def exec (i : Instr) (s : State) : Host.Outcome State Fault Refusal :=
  match i with
  | .pbpHello f => Sys2Proof.Machine.execPbpHello f s
  | .pbpProve f => Sys2Proof.Machine.execPbpProve f s
  | .pbpProveTimeout slot => Sys2Proof.Machine.execPbpProveTimeout slot s
  | .pbpRead f => Sys2Proof.Machine.execPbpRead f s
  | .pbpWrite f v => Sys2Proof.Machine.execPbpWrite f v s
  | .pbpDescribe f => Sys2Proof.Machine.execPbpDescribe f s
  | .pbpEnumNext f => Sys2Proof.Machine.execPbpEnumNext f s
  | .pbpStore f flashOk => Sys2Proof.Machine.execPbpStore f flashOk s
  | .pbpRestoreDefaults f flashOk => Sys2Proof.Machine.execPbpRestoreDefaults f flashOk s
  | .pbpSubscribe f => Sys2Proof.Machine.execPbpSubscribe f s
  | .pbpUnsubscribe f => Sys2Proof.Machine.execPbpUnsubscribe f s
  | .pbpPing f => Sys2Proof.Machine.execPbpPing f s
  | .pbpWriteGroup f v => Sys2Proof.Machine.execPbpWriteGroup f v s
  | .pbpEventAck f => Sys2Proof.Machine.execPbpEventAck f s
  | .pbpClose f => Sys2Proof.Machine.execPbpClose f s
  | .sessionIdleTimeout slot => Sys2Proof.Machine.execSessionIdleTimeout slot s
  | .sessionLimitReached slot => Sys2Proof.Machine.execSessionLimitReached slot s
  | .eventRetryTimeout slot eventSeq => Sys2Proof.Machine.execEventRetryTimeout slot eventSeq s
  | .subscriptionPeriod subId => Sys2Proof.Machine.execSubscriptionPeriod subId s
  | .eventSend subId => Sys2Proof.Machine.execEventSend subId s
  | .drainEnd block => Sys2Proof.Machine.execDrainEnd block s
  | .i3cPrivateRead handle => Sys2Proof.Machine.execI3cPrivateRead handle s
  | .sessionClose w value => Sys2Proof.Machine.execSessionClose w value s
  | .roleKeys w element value => Sys2Proof.Machine.execRoleKeys w element value s
  | .objectWrite w index sub value => Sys2Proof.Machine.execObjectWrite w index sub value s
  | .regionCreate w region value => Sys2Proof.Machine.execRegionCreate w region value s
  | .regionChange w region value => Sys2Proof.Machine.execRegionChange w region value s
  | .regionRelease w region value => Sys2Proof.Machine.execRegionRelease w region value s
  | .regionReleaseEnd region => Sys2Proof.Machine.execRegionReleaseEnd region s
  | .windowWrite w window value => Sys2Proof.Machine.execWindowWrite w window value s
  | .routeStage w value => Sys2Proof.Machine.execRouteStage w value s
  | .mapCommit w value => Sys2Proof.Machine.execMapCommit w value s
  | .mapStageCopyEnd => Sys2Proof.Machine.execMapStageCopyEnd s
  | .mapGraceEnd => Sys2Proof.Machine.execMapGraceEnd s
  | .cwInvAsid h asid => Sys2Proof.Machine.execCwInvAsid h asid s
  | .cwInvAllAsid h => Sys2Proof.Machine.execCwInvAllAsid h s
  | .cwInvByVa h asid allAsid => Sys2Proof.Machine.execCwInvByVa h asid allAsid s
  | .invComplete => Sys2Proof.Machine.execInvComplete s
  | .cwFrResume h record => Sys2Proof.Machine.execCwFrResume h record s
  | .cwFrTerminate h record => Sys2Proof.Machine.execCwFrTerminate h record s
  | .frRecordFreed => Sys2Proof.Machine.execFrRecordFreed s
  | .trackerAllocate bank => Sys2Proof.Machine.execTrackerAllocate bank s
  | .requestTimeout r => Sys2Proof.Machine.execRequestTimeout r s
  | .holdDiscard seq => Sys2Proof.Machine.execHoldDiscard seq s
  | .retryReceived c => Sys2Proof.Machine.execRetryReceived c s
  | .ordLoad h len => Sys2Proof.Machine.execOrdLoad h len s
  | .ordStore h data => Sys2Proof.Machine.execOrdStore h data s
  | .atomicAdd h atype rsvd operands => Sys2Proof.Machine.execAtomicAdd h atype rsvd operands s
  | .atomicMin h atype rsvd operands => Sys2Proof.Machine.execAtomicMin h atype rsvd operands s
  | .atomicMax h atype rsvd operands => Sys2Proof.Machine.execAtomicMax h atype rsvd operands s
  | .atomicSwap h atype rsvd operands => Sys2Proof.Machine.execAtomicSwap h atype rsvd operands s
  | .atomicCas h atype rsvd compare operands => Sys2Proof.Machine.execAtomicCas h atype rsvd compare operands s
  | .atomicAnd h atype rsvd operands => Sys2Proof.Machine.execAtomicAnd h atype rsvd operands s
  | .atomicOr h atype rsvd operands => Sys2Proof.Machine.execAtomicOr h atype rsvd operands s
  | .atomicXor h atype rsvd operands => Sys2Proof.Machine.execAtomicXor h atype rsvd operands s
  | .reduceSum h rtype data => Sys2Proof.Machine.execReduceSum h rtype data s
  | .reduceMin h rtype data => Sys2Proof.Machine.execReduceMin h rtype data s
  | .reduceMax h rtype data => Sys2Proof.Machine.execReduceMax h rtype data s
  | .blkWrite h group span data poison => Sys2Proof.Machine.execBlkWrite h group span data poison s
  | .blkKnot h group span count data => Sys2Proof.Machine.execBlkKnot h group span count data s
  | .knotPerform ep cid group span => Sys2Proof.Machine.execKnotPerform ep cid group span s
  | .knotHoldTimeout ep cid group span => Sys2Proof.Machine.execKnotHoldTimeout ep cid group span s
  | .ordCmp c => Sys2Proof.Machine.execOrdCmp c s
  | .blkCmp c => Sys2Proof.Machine.execBlkCmp c s
  | .ordData c => Sys2Proof.Machine.execOrdData c s
  | .rdS m => Sys2Proof.Machine.execRdS m s
  | .rdOwn m => Sys2Proof.Machine.execRdOwn m s
  | .upgrade m => Sys2Proof.Machine.execUpgrade m s
  | .rdPeek m => Sys2Proof.Machine.execRdPeek m s
  | .sliceTxnStart line => Sys2Proof.Machine.execSliceTxnStart line s
  | .snpAck m => Sys2Proof.Machine.execSnpAck m s
  | .snpData m => Sys2Proof.Machine.execSnpData m s
  | .cmpAck m => Sys2Proof.Machine.execCmpAck m s
  | .wbDirty m => Sys2Proof.Machine.execWbDirty m s
  | .evictClean m => Sys2Proof.Machine.execEvictClean m s
  | .snpFwdS cluster m => Sys2Proof.Machine.execSnpFwdS cluster m s
  | .snpFwdOwn cluster m => Sys2Proof.Machine.execSnpFwdOwn cluster m s
  | .snpRecall cluster m => Sys2Proof.Machine.execSnpRecall cluster m s
  | .snpPeek cluster m => Sys2Proof.Machine.execSnpPeek cluster m s
  | .dataHome cluster m => Sys2Proof.Machine.execDataHome cluster m s
  | .dataFwd cluster m => Sys2Proof.Machine.execDataFwd cluster m s
  | .cmp cluster m => Sys2Proof.Machine.execCmp cluster m s
  | .wbAck cluster m => Sys2Proof.Machine.execWbAck cluster m s
  | .regionRecall w value => Sys2Proof.Machine.execRegionRecall w value s
  | .regionRecallEnd => Sys2Proof.Machine.execRegionRecallEnd s
  | .snpTimeout line agent => Sys2Proof.Machine.execSnpTimeout line agent s
  | .agentExpel w value => Sys2Proof.Machine.execAgentExpel w value s
  | .agentAdmit w agent value => Sys2Proof.Machine.execAgentAdmit w agent value s
  | .agentDetach w agent value => Sys2Proof.Machine.execAgentDetach w agent value s
  | .agentDetachEnd agent => Sys2Proof.Machine.execAgentDetachEnd agent s
  | .dirEccError line => Sys2Proof.Machine.execDirEccError line s
  | .dirQuery w value => Sys2Proof.Machine.execDirQuery w value s
  | .cboFlush core h => Sys2Proof.Machine.execCboFlush core h s
  | .cboClean core h => Sys2Proof.Machine.execCboClean core h s
  | .cboInval core h => Sys2Proof.Machine.execCboInval core h s
  | .cboZero core h => Sys2Proof.Machine.execCboZero core h s
  | .hearthAmo core h op unsigned wide operand => Sys2Proof.Machine.execHearthAmo core h op unsigned wide operand s
  | .hearthLr core h wide => Sys2Proof.Machine.execHearthLr core h wide s
  | .hearthSc core h wide operand => Sys2Proof.Machine.execHearthSc core h wide operand s
  | .hearthFence core predIO succIO predRW succRW => Sys2Proof.Machine.execHearthFence core predIO succIO predRW succRW s
  | .fenceAcquire d => Sys2Proof.Machine.execFenceAcquire d s
  | .fenceRelease d => Sys2Proof.Machine.execFenceRelease d s
  | .fenceFull d => Sys2Proof.Machine.execFenceFull d s
  | .fenceComplete q => Sys2Proof.Machine.execFenceComplete q s
  | .flushRange d => Sys2Proof.Machine.execFlushRange d s
  | .vcOpenRead h slot region asid => Sys2Proof.Machine.execVcOpenRead h slot region asid s
  | .vcCloseRead h slot region asid => Sys2Proof.Machine.execVcCloseRead h slot region asid s
  | .vcOpenWork h slot region asid => Sys2Proof.Machine.execVcOpenWork h slot region asid s
  | .vcPublish h slot region asid => Sys2Proof.Machine.execVcPublish h slot region asid s
  | .vcRebase h slot region asid => Sys2Proof.Machine.execVcRebase h slot region asid s
  | .vcDiscardWork h slot region asid => Sys2Proof.Machine.execVcDiscardWork h slot region asid s
  | .vcQuery h slot region asid => Sys2Proof.Machine.execVcQuery h slot region asid s
  | .verFold region page => Sys2Proof.Machine.execVerFold region page s
  | .bastePageFreed region => Sys2Proof.Machine.execBastePageFreed region s
  | .verView w region value => Sys2Proof.Machine.execVerView w region value s
  | .verQuery w value => Sys2Proof.Machine.execVerQuery w value s
  | .leaseQuery w value => Sys2Proof.Machine.execLeaseQuery w value s
  | .leaseRenew h duration => Sys2Proof.Machine.execLeaseRenew h duration s
  | .leaseAckExpired h => Sys2Proof.Machine.execLeaseAckExpired h s
  | .leaseDeadline lease => Sys2Proof.Machine.execLeaseDeadline lease s
  | .leaseExpiry lease => Sys2Proof.Machine.execLeaseExpiry lease s
  | .staleHoldEnd lease => Sys2Proof.Machine.execStaleHoldEnd lease s
  | .leaseExpire w value => Sys2Proof.Machine.execLeaseExpire w value s
  | .queueTailWrite h q tail => Sys2Proof.Machine.execQueueTailWrite h q tail s
  | .slotReadComplete q env => Sys2Proof.Machine.execSlotReadComplete q env s
  | .completionRingSpace q => Sys2Proof.Machine.execCompletionRingSpace q s
  | .bnStart w => Sys2Proof.Machine.execBnStart w s
  | .bnStop w => Sys2Proof.Machine.execBnStop w s
  | .bnStopEnd => Sys2Proof.Machine.execBnStopEnd s
  | .tabStart w table => Sys2Proof.Machine.execTabStart w table s
  | .tabStop w table => Sys2Proof.Machine.execTabStop w table s
  | .tabStopEnd table => Sys2Proof.Machine.execTabStopEnd table s
  | .lookup d env => Sys2Proof.Machine.execLookup d env s
  | .fanoutReceive m env => Sys2Proof.Machine.execFanoutReceive m env s
  | .chunkDeal d engine => Sys2Proof.Machine.execChunkDeal d engine s
  | .memberReport d m => Sys2Proof.Machine.execMemberReport d m s
  | .memberMissingTimeout d => Sys2Proof.Machine.execMemberMissingTimeout d s
  | .tabLoad d env => Sys2Proof.Machine.execTabLoad d env s
  | .refreshHot d env => Sys2Proof.Machine.execRefreshHot d env s
  | .versionOpenRead d => Sys2Proof.Machine.execVersionOpenRead d s
  | .versionCloseRead d => Sys2Proof.Machine.execVersionCloseRead d s
  | .versionQuery d => Sys2Proof.Machine.execVersionQuery d s
  | .versionOpenWork d => Sys2Proof.Machine.execVersionOpenWork d s
  | .versionPublish d => Sys2Proof.Machine.execVersionPublish d s
  | .versionRebase d => Sys2Proof.Machine.execVersionRebase d s
  | .versionDiscardWork d => Sys2Proof.Machine.execVersionDiscardWork d s
  | .reencSweep => Sys2Proof.Machine.execReencSweep s
  | .rowReencode table row => Sys2Proof.Machine.execRowReencode table row s
  | .recordCutover table row => Sys2Proof.Machine.execRecordCutover table row s
  | .oldRecordFree table bolt slot => Sys2Proof.Machine.execOldRecordFree table bolt slot s
  | .stepOpen d => Sys2Proof.Machine.execStepOpen d s
  | .accumulate d env => Sys2Proof.Machine.execAccumulate d env s
  | .seal d => Sys2Proof.Machine.execSeal d s
  | .sealApply d => Sys2Proof.Machine.execSealApply d s
  | .stepDiscard d => Sys2Proof.Machine.execStepDiscard d s
  | .accBankFail bank power => Sys2Proof.Machine.execAccBankFail bank power s
  | .tpStart w => Sys2Proof.Machine.execTpStart w s
  | .tpStop w => Sys2Proof.Machine.execTpStop w s
  | .tpStopEnd => Sys2Proof.Machine.execTpStopEnd s
  | .vecStart w index => Sys2Proof.Machine.execVecStart w index s
  | .vecStop w index => Sys2Proof.Machine.execVecStop w index s
  | .search d env => Sys2Proof.Machine.execSearch d env s
  | .roundOpen index => Sys2Proof.Machine.execRoundOpen index s
  | .passStart index engine => Sys2Proof.Machine.execPassStart index engine s
  | .roundEnd index env => Sys2Proof.Machine.execRoundEnd index env s
  | .tapeMemberTimeout d => Sys2Proof.Machine.execTapeMemberTimeout d s
  | .insert d env => Sys2Proof.Machine.execInsert d env s
  | .delete d env => Sys2Proof.Machine.execDelete d env s
  | .listLoad d env => Sys2Proof.Machine.execListLoad d env s
  | .areaLoad d env => Sys2Proof.Machine.execAreaLoad d env s
  | .merge d => Sys2Proof.Machine.execMerge d s
  | .mergeStart engine => Sys2Proof.Machine.execMergeStart engine s
  | .mergeSwap index list => Sys2Proof.Machine.execMergeSwap index list s
  | .mergeFree index list => Sys2Proof.Machine.execMergeFree index list s
  | .graphRetire d => Sys2Proof.Machine.execGraphRetire d s
  | .graphAdd d env => Sys2Proof.Machine.execGraphAdd d env s
  | .graphLink d env => Sys2Proof.Machine.execGraphLink d env s
  | .tdStart w => Sys2Proof.Machine.execTdStart w s
  | .tdStop w => Sys2Proof.Machine.execTdStop w s
  | .tdStopEnd => Sys2Proof.Machine.execTdStopEnd s
  | .launch d env => Sys2Proof.Machine.execLaunch d env s
  | .launchPick d env => Sys2Proof.Machine.execLaunchPick d env s
  | .syncStartReached d => Sys2Proof.Machine.execSyncStartReached d s
  | .tdLoadTile array env => Sys2Proof.Machine.execTdLoadTile array env s
  | .tdLoadScale array env => Sys2Proof.Machine.execTdLoadScale array env s
  | .tdMma array => Sys2Proof.Machine.execTdMma array s
  | .tdMmaZero array => Sys2Proof.Machine.execTdMmaZero array s
  | .tdAccZero array => Sys2Proof.Machine.execTdAccZero array s
  | .tdAccCopy array => Sys2Proof.Machine.execTdAccCopy array s
  | .tdAccAdd array => Sys2Proof.Machine.execTdAccAdd array s
  | .tdAccLoad array => Sys2Proof.Machine.execTdAccLoad array s
  | .tdPull array => Sys2Proof.Machine.execTdPull array s
  | .tdPullAny array arrivals => Sys2Proof.Machine.execTdPullAny array arrivals s
  | .tdCvt array => Sys2Proof.Machine.execTdCvt array s
  | .tdMuls array => Sys2Proof.Machine.execTdMuls array s
  | .tdAdds array => Sys2Proof.Machine.execTdAdds array s
  | .tdRelu array => Sys2Proof.Machine.execTdRelu array s
  | .tdGelu array => Sys2Proof.Machine.execTdGelu array s
  | .tdExp array => Sys2Proof.Machine.execTdExp array s
  | .tdRmax array => Sys2Proof.Machine.execTdRmax array s
  | .tdRsum array => Sys2Proof.Machine.execTdRsum array s
  | .tdSubr array => Sys2Proof.Machine.execTdSubr array s
  | .tdDivr array => Sys2Proof.Machine.execTdDivr array s
  | .tdAddv array => Sys2Proof.Machine.execTdAddv array s
  | .tdMulv array => Sys2Proof.Machine.execTdMulv array s
  | .tdVload array => Sys2Proof.Machine.execTdVload array s
  | .tdItof array => Sys2Proof.Machine.execTdItof array s
  | .tdStoreTile array => Sys2Proof.Machine.execTdStoreTile array s
  | .tdStoreScale array => Sys2Proof.Machine.execTdStoreScale array s
  | .tdWaitLocal array => Sys2Proof.Machine.execTdWaitLocal array s
  | .tdWaitLaunch array => Sys2Proof.Machine.execTdWaitLaunch array s
  | .tdWaitMem array env => Sys2Proof.Machine.execTdWaitMem array env s
  | .tdSignalLaunch array => Sys2Proof.Machine.execTdSignalLaunch array s
  | .tdSignalStore array => Sys2Proof.Machine.execTdSignalStore array s
  | .tdSignalAdd array => Sys2Proof.Machine.execTdSignalAdd array s
  | .tdEnd array => Sys2Proof.Machine.execTdEnd array s
  | .launchEnd d => Sys2Proof.Machine.execLaunchEnd d s
  | .watchdogExpire d => Sys2Proof.Machine.execWatchdogExpire d s
  | .shStart w => Sys2Proof.Machine.execShStart w s
  | .shStop w => Sys2Proof.Machine.execShStop w s
  | .shStopEnd => Sys2Proof.Machine.execShStopEnd s
  | .pieceDeal d engine => Sys2Proof.Machine.execPieceDeal d engine s
  | .copy d piece env => Sys2Proof.Machine.execCopy d piece env s
  | .mcast d piece env => Sys2Proof.Machine.execMcast d piece env s
  | .shReduce d piece env => Sys2Proof.Machine.execShReduce d piece env s
  | .shReduceTree d env => Sys2Proof.Machine.execShReduceTree d env s
  | .stageCounterReached d env => Sys2Proof.Machine.execStageCounterReached d env s
  | .stageWaitTimeout d => Sys2Proof.Machine.execStageWaitTimeout d s
  | .shWait d env => Sys2Proof.Machine.execShWait d env s
  | .waitTimeout d => Sys2Proof.Machine.execWaitTimeout d s
  | .arrivalAdd d dest => Sys2Proof.Machine.execArrivalAdd d dest s
  | .mcastGroup w group v => Sys2Proof.Machine.execMcastGroup w group v s
  | .barStart w barrier => Sys2Proof.Machine.execBarStart w barrier s
  | .barStop w barrier => Sys2Proof.Machine.execBarStop w barrier s
  | .barAbort w barrier => Sys2Proof.Machine.execBarAbort w barrier s
  | .barArrive h barrier v => Sys2Proof.Machine.execBarArrive h barrier v s
  | .barTimeout barrier => Sys2Proof.Machine.execBarTimeout barrier s
  | .portsStart w => Sys2Proof.Machine.execPortsStart w s
  | .portsStop w => Sys2Proof.Machine.execPortsStop w s
  | .joinEpoch w value => Sys2Proof.Machine.execJoinEpoch w value s
  | .portAttach w port => Sys2Proof.Machine.execPortAttach w port s
  | .portDetach w port => Sys2Proof.Machine.execPortDetach w port s
  | .portRetrainCmd w port => Sys2Proof.Machine.execPortRetrainCmd w port s
  | .portForceDown w port => Sys2Proof.Machine.execPortForceDown w port s
  | .attachPoll port => Sys2Proof.Machine.execAttachPoll port s
  | .detectDone port lanes => Sys2Proof.Machine.execDetectDone port lanes s
  | .pollDone port => Sys2Proof.Machine.execPollDone port s
  | .pollTimeout port => Sys2Proof.Machine.execPollTimeout port s
  | .eqPhaseEnd port lanes good partnerGood => Sys2Proof.Machine.execEqPhaseEnd port lanes good partnerGood s
  | .eqTimeout port => Sys2Proof.Machine.execEqTimeout port s
  | .fit port block => Sys2Proof.Machine.execFit port block s
  | .fitTimeout port => Sys2Proof.Machine.execFitTimeout port s
  | .keyPart1 port part => Sys2Proof.Machine.execKeyPart1 port part s
  | .keyPart2 port part => Sys2Proof.Machine.execKeyPart2 port part s
  | .keyResend port => Sys2Proof.Machine.execKeyResend port s
  | .keyTimeout port => Sys2Proof.Machine.execKeyTimeout port s
  | .dataFlit port f => Sys2Proof.Machine.execDataFlit port f s
  | .idleFlit port f => Sys2Proof.Machine.execIdleFlit port f s
  | .ackTimeout port => Sys2Proof.Machine.execAckTimeout port s
  | .eqReq port l lane post up => Sys2Proof.Machine.execEqReq port l lane post up s
  | .eqAck port l lane refused => Sys2Proof.Machine.execEqAck port l lane refused s
  | .retrainReq port l => Sys2Proof.Machine.execRetrainReq port l s
  | .downNotice port l reason => Sys2Proof.Machine.execDownNotice port l reason s
  | .lossOfSignal port => Sys2Proof.Machine.execLossOfSignal port s
  | .retrainTimeout port => Sys2Proof.Machine.execRetrainTimeout port s
  | .detachTimeout port => Sys2Proof.Machine.execDetachTimeout port s
  | .ping port src tag loc => Sys2Proof.Machine.execPing port src tag loc s
  | .pong port tag => Sys2Proof.Machine.execPong port tag s
  | .quiesce port mask => Sys2Proof.Machine.execQuiesce port mask s
  | .resume port => Sys2Proof.Machine.execResume port s
  | .detachReq port => Sys2Proof.Machine.execDetachReq port s
  | .detachAck port => Sys2Proof.Machine.execDetachAck port s
  | .keyUpdate port nonce gen => Sys2Proof.Machine.execKeyUpdate port nonce gen s
  | .rekeyDue port => Sys2Proof.Machine.execRekeyDue port s
  | .counterExhausted port => Sys2Proof.Machine.execCounterExhausted port s
  | .notice port ep code unit data => Sys2Proof.Machine.execNotice port ep code unit data s
  | .pcieMemRead port tag bar off len => Sys2Proof.Machine.execPcieMemRead port tag bar off len s
  | .pcieMemWrite port bar off data relaxed => Sys2Proof.Machine.execPcieMemWrite port bar off data relaxed s
  | .cxlMemRd port tag addr => Sys2Proof.Machine.execCxlMemRd port tag addr s
  | .cxlMemWr port tag addr data enables => Sys2Proof.Machine.execCxlMemWr port tag addr data enables s
  | .flr port => Sys2Proof.Machine.execFlr port s
  | .spdmGetVersion port => Sys2Proof.Machine.execSpdmGetVersion port s
  | .spdmGetCapabilities port => Sys2Proof.Machine.execSpdmGetCapabilities port s
  | .spdmNegotiateAlgorithms port offered => Sys2Proof.Machine.execSpdmNegotiateAlgorithms port offered s
  | .spdmGetDigests port => Sys2Proof.Machine.execSpdmGetDigests port s
  | .spdmGetCertificate port slot off len => Sys2Proof.Machine.execSpdmGetCertificate port slot off len s
  | .spdmChallenge port slot => Sys2Proof.Machine.execSpdmChallenge port slot s
  | .spdmGetMeasurements port index signed => Sys2Proof.Machine.execSpdmGetMeasurements port index signed s
  | .spdmKeyExchange port slot => Sys2Proof.Machine.execSpdmKeyExchange port slot s
  | .spdmFinish port ok => Sys2Proof.Machine.execSpdmFinish port ok s
  | .spdmEndSession port => Sys2Proof.Machine.execSpdmEndSession port s
  | .ideKmQuery port => Sys2Proof.Machine.execIdeKmQuery port s
  | .ideKmKeyProg port cxl tx => Sys2Proof.Machine.execIdeKmKeyProg port cxl tx s
  | .ideKmKSetGo port cxl tx => Sys2Proof.Machine.execIdeKmKSetGo port cxl tx s
  | .ideKmKSetStop port cxl tx => Sys2Proof.Machine.execIdeKmKSetStop port cxl tx s
  | .identifyMemoryDevice port => Sys2Proof.Machine.execIdentifyMemoryDevice port s
  | .getSupportedLogs port => Sys2Proof.Machine.execGetSupportedLogs port s
  | .getLog port off len => Sys2Proof.Machine.execGetLog port off len s
  | .getEventRecords port => Sys2Proof.Machine.execGetEventRecords port s
  | .clearEventRecords port count => Sys2Proof.Machine.execClearEventRecords port count s
  | .getHealthInfo port => Sys2Proof.Machine.execGetHealthInfo port s
  | .getPartitionInfo port => Sys2Proof.Machine.execGetPartitionInfo port s
  | .partCreate w value => Sys2Proof.Machine.execPartCreate w value s
  | .partRemove w value => Sys2Proof.Machine.execPartRemove w value s
  | .partDrainEnd part => Sys2Proof.Machine.execPartDrainEnd part s
  | .partScrubEnd part => Sys2Proof.Machine.execPartScrubEnd part s
  | .partHearth w part value => Sys2Proof.Machine.execPartHearth w part value s
  | .violSticky w value => Sys2Proof.Machine.execViolSticky w value s
  | .debugUnlock w value => Sys2Proof.Machine.execDebugUnlock w value s
  | .arbAdvanceFw w value => Sys2Proof.Machine.execArbAdvanceFw w value s
  | .arbAdvanceLoader w value => Sys2Proof.Machine.execArbAdvanceLoader w value s
  | .thimbleHealthFail selfTest => Sys2Proof.Machine.execThimbleHealthFail selfTest s
  | .bbDeliver target => Sys2Proof.Machine.execBbDeliver target s
  | .bbComplete core mmode target value => Sys2Proof.Machine.execBbComplete core mmode target value s
  | .bbRoute core viaPage source value => Sys2Proof.Machine.execBbRoute core viaPage source value s
  | .bbCauseSet core value => Sys2Proof.Machine.execBbCauseSet core value s
  | .bbPSoftSet core part value => Sys2Proof.Machine.execBbPSoftSet core part value s
  | .bbWakeTimeout target => Sys2Proof.Machine.execBbWakeTimeout target s
  | .detStep w value => Sys2Proof.Machine.execDetStep w value s
  | .runReset w value => Sys2Proof.Machine.execRunReset w value s
  | .syncInterval => Sys2Proof.Machine.execSyncInterval s
  | .syncSample => Sys2Proof.Machine.execSyncSample s
  | .stickyWrite w code value => Sys2Proof.Machine.execStickyWrite w code value s
  | .stickyClearAll w value => Sys2Proof.Machine.execStickyClearAll w value s
  | .recoveryStart => Sys2Proof.Machine.execRecoveryStart s
  | .recoveryEnd => Sys2Proof.Machine.execRecoveryEnd s
  | .windowClose res => Sys2Proof.Machine.execWindowClose res s
  | .trackerBankLoss bank => Sys2Proof.Machine.execTrackerBankLoss bank s
  | .resourceRelease w value => Sys2Proof.Machine.execResourceRelease w value s
  | .resourceQuery w value => Sys2Proof.Machine.execResourceQuery w value s
  | .limpEnter w => Sys2Proof.Machine.execLimpEnter w s
  | .limpExit w => Sys2Proof.Machine.execLimpExit w s
  | .mirrorBind ep unit data => Sys2Proof.Machine.execMirrorBind ep unit data s
  | .mirrorBound ep unit data => Sys2Proof.Machine.execMirrorBound ep unit data s
  | .mirrorRefused ep unit data => Sys2Proof.Machine.execMirrorRefused ep unit data s
  | .mirrorUnbind ep unit data => Sys2Proof.Machine.execMirrorUnbind ep unit data s
  | .mirrorBindTimeout region => Sys2Proof.Machine.execMirrorBindTimeout region s
  | .mirrorWrite h op => Sys2Proof.Machine.execMirrorWrite h op s
  | .mirrorWriteTimeout tag => Sys2Proof.Machine.execMirrorWriteTimeout tag s
  | .mirrorRebindRetry region => Sys2Proof.Machine.execMirrorRebindRetry region s
  | .rebuildBolt region => Sys2Proof.Machine.execRebuildBolt region s
  | .mirrorTakeover w value => Sys2Proof.Machine.execMirrorTakeover w value s
  | .ageSweep bolt => Sys2Proof.Machine.execAgeSweep bolt s
  | .evict tier => Sys2Proof.Machine.execEvict tier s
  | .promote bolt => Sys2Proof.Machine.execPromote bolt s
  | .demotePolicy bolt => Sys2Proof.Machine.execDemotePolicy bolt s
  | .demoteQuota part tier => Sys2Proof.Machine.execDemoteQuota part tier s
  | .demandMoveUp bolt => Sys2Proof.Machine.execDemandMoveUp bolt s
  | .moveCutover bolt badUnits retries => Sys2Proof.Machine.execMoveCutover bolt badUnits retries s
  | .moveSourceFree tier slot => Sys2Proof.Machine.execMoveSourceFree tier slot s
  | .learnEnd => Sys2Proof.Machine.execLearnEnd s
  | .allocSlotFreed => Sys2Proof.Machine.execAllocSlotFreed s
  | .placeHint w value => Sys2Proof.Machine.execPlaceHint w value s
  | .placeReset w value => Sys2Proof.Machine.execPlaceReset w value s
  | .placeFreeze w value => Sys2Proof.Machine.execPlaceFreeze w value s
  | .evacuate w value => Sys2Proof.Machine.execEvacuate w value s
  | .boltQuery w value => Sys2Proof.Machine.execBoltQuery w value s
  | .patrolScrub bolt found => Sys2Proof.Machine.execPatrolScrub bolt found s
  | .tierThermal larder unit tempC => Sys2Proof.Machine.execTierThermal larder unit tempC s
  | .strStart w window => Sys2Proof.Machine.execStrStart w window s
  | .strStop w window => Sys2Proof.Machine.execStrStop w window s
  | .strStopEnd window => Sys2Proof.Machine.execStrStopEnd window s
  | .strAdvance window => Sys2Proof.Machine.execStrAdvance window s
  | .strLayerFetched window => Sys2Proof.Machine.execStrLayerFetched window s
  | .domTarget w dom value => Sys2Proof.Machine.execDomTarget w dom value s
  | .domTransitionEnd dom => Sys2Proof.Machine.execDomTransitionEnd dom s
  | .domIdleCg dom => Sys2Proof.Machine.execDomIdleCg dom s
  | .domIdleRet dom tempC => Sys2Proof.Machine.execDomIdleRet dom tempC s
  | .domWake dom => Sys2Proof.Machine.execDomWake dom s
  | .padRelease w value => Sys2Proof.Machine.execPadRelease w value s
  | .cwPadRelease h dom => Sys2Proof.Machine.execCwPadRelease h dom s
  | .cwPadReleaseAll h => Sys2Proof.Machine.execCwPadReleaseAll h s
  | .powerBrownout dom => Sys2Proof.Machine.execPowerBrownout dom s
  | .powerMargin dom => Sys2Proof.Machine.execPowerMargin dom s
  | .marginStep dom => Sys2Proof.Machine.execMarginStep dom s
  | .avsPeriod margins low => Sys2Proof.Machine.execAvsPeriod margins low s
  | .divisorStep clockC => Sys2Proof.Machine.execDivisorStep clockC s
  | .pl2Eval meanMw => Sys2Proof.Machine.execPl2Eval meanMw s
  | .pl2Sustained => Sys2Proof.Machine.execPl2Sustained s
  | .pl1Eval tauMw last10Mw => Sys2Proof.Machine.execPl1Eval tauMw last10Mw s
  | .throttleStep dom tempC => Sys2Proof.Machine.execThrottleStep dom tempC s
  | .thermalTrip dom tempC => Sys2Proof.Machine.execThermalTrip dom tempC s
  | .hardTrip dom tempC => Sys2Proof.Machine.execHardTrip dom tempC s
  | .dramEyePass channel tempC steps => Sys2Proof.Machine.execDramEyePass channel tempC steps s
  | .devTarget w value => Sys2Proof.Machine.execDevTarget w value s
  | .n1Idle => Sys2Proof.Machine.execN1Idle s
  | .wakeEvent wakeL => Sys2Proof.Machine.execWakeEvent wakeL s
  | .n3Entry => Sys2Proof.Machine.execN3Entry s
  | .n3Wake landingBad otherBad => Sys2Proof.Machine.execN3Wake landingBad otherBad s
  | .resetCmd w value => Sys2Proof.Machine.execResetCmd w value s
  | .perst hottestC => Sys2Proof.Machine.execPerst hottestC s
  | .watchdogReset => Sys2Proof.Machine.execWatchdogReset s
  | .refclkLoss => Sys2Proof.Machine.execRefclkLoss s
  | .refclkReturn => Sys2Proof.Machine.execRefclkReturn s
  | .vstbyApply => Sys2Proof.Machine.execVstbyApply s
  | .bootRom => Sys2Proof.Machine.execBootRom s
  | .loaderBoot => Sys2Proof.Machine.execLoaderBoot s
  | .bringupStage found => Sys2Proof.Machine.execBringupStage found s
  | .fwUpdateBegin w => Sys2Proof.Machine.execFwUpdateBegin w s
  | .fwUpdateChunk w value => Sys2Proof.Machine.execFwUpdateChunk w value s
  | .fwUpdateCommit w => Sys2Proof.Machine.execFwUpdateCommit w s
  | .fwUpdateActivate w => Sys2Proof.Machine.execFwUpdateActivate w s
  | .fwUpdateAbort w => Sys2Proof.Machine.execFwUpdateAbort w s
  | .fwConfirm w value => Sys2Proof.Machine.execFwConfirm w value s
  | .sledPrsnt => Sys2Proof.Machine.execSledPrsnt s
  | .mainPwrgdFall => Sys2Proof.Machine.execMainPwrgdFall s
  | .vinCoreLow => Sys2Proof.Machine.execVinCoreLow s
  | .mainPwrgdRise => Sys2Proof.Machine.execMainPwrgdRise s
  | .hearthLoadStore core h a => Sys2Proof.Machine.execHearthLoadStore core h a s
  | .flitBoundary port => Sys2Proof.Machine.execFlitBoundary port s
  | .eyeHeightLow port lane mv post up => Sys2Proof.Machine.execEyeHeightLow port lane mv post up s
  | .compatLinkState port ltssm up gen width cxl => Sys2Proof.Machine.execCompatLinkState port ltssm up gen width cxl s
  | .pcieConfigRequest port write space off value => Sys2Proof.Machine.execPcieConfigRequest port write space off value s
  | .pcieCompletion port tag cpl poison data => Sys2Proof.Machine.execPcieCompletion port tag cpl poison data s
  | .queueCfgWrite h q v => Sys2Proof.Machine.execQueueCfgWrite h q v s
  | .i3cEntdaa byId named addr => Sys2Proof.Machine.execI3cEntdaa byId named addr s
  | .engineFault kind unit d => Sys2Proof.Machine.execEngineFault kind unit d s
  | .slotScrubbed tier slot => Sys2Proof.Machine.execSlotScrubbed tier slot s
  | .throttleStepUp hottestC => Sys2Proof.Machine.execThrottleStepUp hottestC s
  | .thermalTripClear hottestC => Sys2Proof.Machine.execThermalTripClear hottestC s
  | .retOverTemperature dom tempC => Sys2Proof.Machine.execRetOverTemperature dom tempC s
  | .perstRelease => Sys2Proof.Machine.execPerstRelease s
  | .sledPrsntAsserted => Sys2Proof.Machine.execSledPrsntAsserted s
  | .vstbyLoss => Sys2Proof.Machine.execVstbyLoss s

end Sys2Proof.Machine
end

