-- ==== Sys2Proof/Machine/Tick.lean ====
section
/-! DEFINITION. What time alone does: one tick of 10 ns (log entry 1). -/
namespace Sys2Proof.Machine

/-- CLK_C cycles that end in the tick that begins at a time: 4.8 GHz through the divisor (R663, R704). -/
def coreCycles (s : State) (now : Nat) : Nat := if divC s = 0 then 0 else 48 * (now + 1) / divC s - 48 * now / divC s

/-- METER_HEARTH_CYCLES (R704): each core of a PART_HEARTH that is ON and not in WFI. -/
def meterCores (s : State) : State :=
  forS ((upTo 16).filter (fun c => domState s c == 4 && !s.sec.idleCores.contains c && !Config.coreWaits c s.det.now)) s (fun s c =>
    match corePart s c with
    | some p => pbumpBy s 0x4D0C p (coreCycles s s.det.now)
    | none => s)

/-- One tick: cores are metered and the sync counter counts while CLK_F runs; time goes on; what was waiting for time alone follows: lines of the moves in progress, within
their budgets (R171, R195), wake timers of the Bell Board (R642), the reset that a limp escalation asks for (R690), and N2 once nothing stands against it (R730). -/
def tick (s : State) : State :=
  let s := if s.pwr.refclk && s.pwr.vstby then syncAdvance (meterCores s) else s
  let s := { s with det := { s.det with now := s.det.now + 1 } }
  enterN2 (limpReset (bellScan (copyTick s)))

end Sys2Proof.Machine
end

