-- ==== Sys2Proof/Safety.lean ====
section
/-! DEFINITION. What counts as a safe run, the invariant that every step keeps, and the terms in which the statements speak of a command that completes. -/
namespace Sys2Proof

open Machine

/-- The step of a state answers a next state: no fault, no refusal. -/
def Runs (s : State) : Prop := ∃ t, step s = .next t

/-- No run of any length from a state stops. -/
def NeverStops (s : State) : Prop := ∀ k, ∃ t, core.run k s = .next t

/-- The invariant: memory and the object store are in their canonical forms. -/
def Invariant (s : State) : Prop := Memory.wf s.mem = true ∧ Objects.wf s.obj = true

namespace Machine

/-- What the fuses hold that no command may change: all of the Hem but whether its last read was good and the anti-rollback counters. -/
def Hem.fused (h : Hem) : Hem := { h with readOk := true, arbFirmware := 0, arbLoader := 0, arbFirmwareFuse := 0, arbLoaderFuse := 0 }

/-- A state has the queue and the fuse values `k`, and meets the invariant. -/
def Sound (k : List Instr × Hem) (s : State) : Prop :=
  s.pending = k.1 ∧ s.sec.hem.fused = k.2 ∧ Memory.wf s.mem = true ∧ Objects.wf s.obj = true

/-- The state after a write of the Pattern Book whose effect is `t` has been answered RESULT APPLIED
(R91): the response is sent and what the effect released goes on. -/
def written (w : Writer) (t : State) : State := fin (respondWrite t w.slot w.tag 0 0)

/-- The state after a write of the Pattern Book has been refused: the response carries the abort code, and nothing else changes but
what the block does by itself next. -/
def refused (w : Writer) (abort : Nat) (s : State) : State := fin (respondWrite s w.slot w.tag abort 0)

/-- A frame that arrives is taken by the established session in slot `k` (R75, R78 to R80, R86): it reaches the device, its header and its length are right, it
names the session, its tag verifies under the session's key and its SEQ is new. -/
def frameTaken (s : State) (f : Frame) (ftype k : Nat) : Bool :=
  pbpUp s f.tr f.via && !badFrame f && f.ftype == ftype && decide (f.body.length ≤ bodyMax f.tr) && (slotOf s f == some k) &&
    !(getSess s k).halfOpen && tagVerifies f (getSess s k).c2d && decide ((getSess s k).clientSeq < f.seq)

/-- The session in slot `k` after a taken frame. -/
def afterFrame (s : State) (f : Frame) (k : Nat) : State :=
  setSess s k { getSess s k with clientSeq := f.seq, lastFrame := s.det.now, framesIn := (getSess s k).framesIn + 1 }

/-- A REQUEST is taken and executed by the session in slot `k` (R89, R93): its frame is taken, its TAG has no kept response, the
session has room for it, and OPCODE is `op`. -/
def requestTaken (s : State) (f : Frame) (op k : Nat) : Bool :=
  frameTaken s f 5 k && !(getSess s k).kept.any (fun r => r.tag == pbTag f) &&
    decide ((getSess s k).outstanding < (if isI3c k then 1 else 8)) && pbOpcode f == op && decide (1 ≤ op) && decide (op ≤ 10)

/-- The state in which a taken REQUEST executes: the frame is counted and one more request is outstanding. -/
def requested (s : State) (f : Frame) (k : Nat) : State :=
  setSess (afterFrame s f k) k { getSess (afterFrame s f k) k with outstanding := (getSess (afterFrame s f k) k).outstanding + 1 }

/-- The head under which a request of a unit goes: a Hearth core's own (R110), another unit's as it is. -/
def unitHead (s : State) (h : Head) : Head := if h.kind = 5 then coreOwn s h.unit h else h

/-- A request of the node to its own addresses has been taken and is ready to be served. -/
def heldReady (s : State) (h : Head) (op : MemOp) : State := holdNew s (newHeld s (.ready none) { head := h, op := op } false .none none)

/-- A descriptor of Tape is taken for execution (R433, R443): it is of Tape, ready, of operation `op`, its index serves it, its form is right and its index's areas are
in the Larder or above (R444). -/
abbrev tapeTaken (s : State) (d : DescRef) (op : Nat) (form : Nat → Bytes → Bool) (y : Desc) : Prop :=
  d.q.blk = .tape ∧ readyDesc s d op = some y ∧ vecDeny s (bfld y.bytes 4 2) y.ord = none ∧ form (bfld y.bytes 4 2) y.bytes = true ∧
    (areasBelow s (bfld y.bytes 4 2)).isEmpty = true

/-- The next instruction of the named class and operation on a Treadle array (R480 to R485), with the state in which it executes: its part's earlier stores settled. -/
def tdNext (s : State) (array cls op : Nat) : Option (State × TdJob) :=
  match arrayPart s array with
  | none => none
  | some (l, p, _) => (nextJob (settleStores s l.d p) array cls op).map (fun j => (settleStores s l.d p, j))

/-- An instruction of a Treadle array executes: it is the next of its unit, and its launch's descriptor is there. -/
abbrev tdIssues (s : State) (array cls op : Nat) (u : State) (j : TdJob) : Prop :=
  tdNext s array cls op = some (u, j) ∧ (findDesc u j.l.d).isSome = true

/-- A bolt after the sweeper has visited it (R189): HEAT keeps all but its 2^K-th part and gains the accesses since the last visit, AGE returns to 0 or counts on, the quadrant
is the lowest of those with the most accesses, and a hint that waited for this visit has been seen (R199). -/
def swept (s : State) (x : Bolt) : Bolt :=
  { x with heat := min 255 (x.heat - x.heat / 2 ^ num s 0x2301 2 + x.pendingN)
           age := if 0 < x.pendingN then 0 else min 255 (x.age + 1)
           quad := [0, 1, 2, 3].foldl (fun k j => if x.tally.getD k 0 < x.tally.getD j 0 then j else k) 0
           hinted := if x.hinted = 1 then 2 else 0, sweptAt := some s.det.now
           pendingN := 0, tally := [] }

/-- The thermal state of a Larder channel or a Parlour stack (R201). -/
def heatOf (s : State) (larder : Bool) (u : Nat) : TierHeat :=
  sget (fun _ => { state := 0, changedAt := none }) (if larder then s.tier.larderHeat else s.tier.stackHeat) u

/-- The state after a unit's thermal state has become `x` now. -/
def withHeat (s : State) (larder : Bool) (u x : Nat) : State :=
  let put := fun (m : Sparse TierHeat) => sput (fun _ => { state := 0, changedAt := none }) m u { state := x, changedAt := some s.det.now }
  { s with tier := { s.tier with larderHeat := if larder then put s.tier.larderHeat else s.tier.larderHeat
                                 stackHeat := if larder then s.tier.stackHeat else put s.tier.stackHeat } }

/-- The commands of the SPDM, IDE_KM and CXL mailbox exchanges (ch. 14). -/
def hostExchange : Instr → Bool
  | .spdmGetVersion .. => true | .spdmGetCapabilities .. => true | .spdmNegotiateAlgorithms .. => true | .spdmGetDigests .. => true
  | .spdmGetCertificate .. => true | .spdmChallenge .. => true | .spdmGetMeasurements .. => true | .spdmKeyExchange .. => true
  | .spdmFinish .. => true | .spdmEndSession .. => true | .ideKmQuery .. => true | .ideKmKeyProg .. => true | .ideKmKSetGo .. => true
  | .ideKmKSetStop .. => true | .identifyMemoryDevice .. => true | .getSupportedLogs .. => true | .getLog .. => true
  | .getEventRecords .. => true | .clearEventRecords .. => true | .getHealthInfo .. => true | .getPartitionInfo .. => true
  | _ => false

/-- The commands of the voltage, frequency, power and thermal loops (ch. 18). -/
def loopCommand : Instr → Bool
  | .avsPeriod .. => true | .divisorStep .. => true | .pl2Eval .. => true | .pl2Sustained => true | .pl1Eval .. => true | .throttleStep .. => true
  | .throttleStepUp .. => true | .thermalTrip .. => true | .thermalTripClear .. => true | .powerMargin .. => true | .marginStep .. => true
  | _ => false

/-- The contents of memory, the address map, the tiers, coherence, ordering, versions, sessions and engines are the same in two states. -/
def SameContents (s t : State) : Prop :=
  t.mem = s.mem ∧ t.poison = s.poison ∧ t.regions = s.regions ∧ t.windows = s.windows ∧ t.route = s.route ∧ t.acc = s.acc ∧ t.tier = s.tier ∧
    t.coh = s.coh ∧ t.ord = s.ord ∧ t.ver = s.ver ∧ t.pb = s.pb ∧ t.sec = s.sec ∧ t.eng = s.eng ∧ t.flt = s.flt ∧ t.det = s.det ∧ t.pending = s.pending

end Machine

end Sys2Proof
end

