-- ==== Sys2Proof/Certificates/Slice0/Obligations.lean ====
section
/-! DEFINITION. The statements for the provers: what each command does where the spec lets it complete, the rules that hold of the whole block, and the invariant of every step. -/
open Sys2Proof Sys2Proof.Machine

/-- A step runs the command at the front of the queue, on the state with the queue's rest. -/
def Obligations.StepRunsFront : Prop :=
  ∀ (c : Instr) (rest : List Instr) (s : State), s.pending = c :: rest → step s = exec c { s with pending := rest }

/-- On an empty queue a step lets 10 ns pass (the model's choice, log entry 1): time goes on by one tick, the running moves copy on, and without REFCLK or VSTBY nothing else counts. -/
def Obligations.IdleStepIsATick : Prop :=
  (∀ s, s.pending = [] → step s = .next (tick s)) ∧
  (∀ s, s.pending = [] → s.pwr.refclk = false → step s = .next (enterN2 (limpReset (bellScan (copyTick { s with det := { s.det with now := s.det.now + 1 } })))))

/-- The machine right after reset: no command waits, no byte of memory is listed and no object but RESET_CAUSE, which says power-on, no session, region, window, agent or partition exists, ports and engines hold nothing. -/
def Obligations.ResetLeaves : Prop :=
  State.reset.pending = [] ∧ State.reset.mem = [] ∧ State.reset.obj = [(okey 0x1003 9, .num 1)] ∧ State.reset.regions = [] ∧ State.reset.windows = [] ∧ State.reset.poison = [] ∧
  State.reset.sec.parts = [] ∧ State.reset.coh.agents = [] ∧ State.reset.route.epoch = 0 ∧ State.reset.tier.up = false ∧ State.reset.det.count = 0 ∧
  (∀ k, (getSess State.reset k).inUse = false) ∧ (∀ r, (getRegion State.reset r).valid = false) ∧ (∀ a, memGet State.reset.mem a = 0) ∧ num State.reset 0x2000 4 = 0

/-- The invariant holds at reset. -/
def Obligations.ResetMeetsInvariant : Prop := Invariant State.reset

/-- Every step keeps the invariant (memory and the object store in canonical form), from every state that meets it; it changes no fuse but the two anti-rollback counters (R611), and takes
exactly the command at the front of the queue. -/
def Obligations.EveryStepKeepsInvariant : Prop :=
  ∀ s t, Invariant s → step s = .next t → Invariant t ∧ t.sec.hem.fused = s.sec.hem.fused ∧ t.pending = s.pending.tail

/-- Every command answers a next state, in every state and with all operands: none faults, none is refused. -/
def Obligations.EveryCommandAnswers : Prop := ∀ c s, ∃ t, exec c s = .next t

/-- No run of any length stops, from any state. -/
def Obligations.RunsNeverStop : Prop := ∀ s, NeverStops s

/-- Memory reads what was written to it: in a memory of canonical form, the bytes written at an address are read there, every other byte reads as before, and the form is kept. -/
def Obligations.MemoryReadsWhatWasWritten : Prop :=
  (∀ m a d, Memory.wf m = true → memRead (memWrite m a d) a d.length = d) ∧
  (∀ m a d x, x < a ∨ a + d.length ≤ x → memGet (memWrite m a d) x = memGet m x) ∧
  (∀ m a d, Memory.wf m = true → Memory.wf (memWrite m a d) = true) ∧
  (∀ m a n x, Memory.wf m = true → a ≤ x → x < a + n → memGet (memZero m a n) x = 0) ∧
  (∀ m a n x, x < a ∨ a + n ≤ x → memGet (memZero m a n) x = memGet m x)

/-- A register of the Pattern Book reads what was written to it, and no other register changes; the store keeps its form. -/
def Obligations.RegistersReadWhatWasWritten : Prop :=
  (∀ s i k n, Objects.wf s.obj = true → num (setNum s i k n) i k = n) ∧
  (∀ s i k b, Objects.wf s.obj = true → blob (setBlob s i k b) i k = b) ∧
  (∀ s i k v j l, k < 256 → l < 256 → (j ≠ i ∨ l ≠ k) → getObj (setObj s i k v) j l = getObj s j l) ∧
  (∀ s i k v, Objects.wf s.obj = true → Objects.wf (setObj s i k v).obj = true)

/-- Each command that opens, proves or ends a Pattern Book session, or works its I3C side, completes where the spec lets it: HELLO opens the first free slot, or displaces the oldest session
with no role; PROVE establishes with the role that it proves; the limits and CLOSE end the session; a private read gives the frames of an ended session first. -/
def Obligations.SessionsOpenAndEnd : Prop :=
  (∀ f k s, pbpUp s f.tr f.via = true → badFrame f = false → f.ftype = 1 → helloForm f = true → num s 0x2A21 1 = 0 → standby s = false →
    ((slotsOf f.tr).filter (fun k => (getSess s k).inUse)).length < slotLimit s f.tr → (slotsOf f.tr).find? (fun k => !(getSess s k).inUse) = some k →
    exec (.pbpHello f) s = .next (openSession s f k)) ∧
  (∀ f j k s, pbpUp s f.tr f.via = true → badFrame f = false → f.ftype = 1 → helloForm f = true → num s 0x2A21 1 = 0 → standby s = false →
    slotLimit s f.tr ≤ ((slotsOf f.tr).filter (fun k => (getSess s k).inUse)).length → oldestNoRole s f.tr = some j →
    (slotsOf f.tr).find? (fun k => !(getSess (endSession s j 8) k).inUse) = some k →
    exec (.pbpHello f) s = .next (openSession (endSession s j 8) f k)) ∧
  (∀ f k s, pbpUp s f.tr f.via = true → badFrame f = false → f.ftype = 3 → f.body.length = 193 → slotOf s f = some k → (getSess s k).halfOpen = true →
    s.det.now ≤ (getSess s k).openedAt + secT 5 →
    exec (.pbpProve f) s = .next (sendFrame (setSess s k { getSess s k with
      halfOpen := false, role := provenRole s (getSess s k) f, openedAt := s.det.now, lastFrame := s.det.now }) k
      (.accept (getSess s k).claimed (num s 0x1102 1)))) ∧
  (∀ slot s, (getSess s slot).inUse = true → (getSess s slot).halfOpen = true → (getSess s slot).openedAt + secT 5 ≤ s.det.now →
    exec (.pbpProveTimeout slot) s = .next (endSession s slot 0)) ∧
  (∀ f k s, frameTaken s f 9 k = true → exec (.pbpClose f) s = .next (endSession (afterFrame s f k) k 0)) ∧
  (∀ slot s, (getSess s slot).inUse = true → (getSess s slot).halfOpen = false → (getSess s slot).lastFrame + secT (num s 0x1102 1) ≤ s.det.now →
    exec (.sessionIdleTimeout slot) s = .next (endSession s slot 1)) ∧
  (∀ slot s, (getSess s slot).inUse = true → (getSess s slot).halfOpen = false →
    (2 ^ 31 ≤ (getSess s slot).framesIn ∨ 2 ^ 31 ≤ (getSess s slot).framesOut ∨ (getSess s slot).openedAt + secT 86400 ≤ s.det.now) →
    exec (.sessionLimitReached slot) s = .next (endSession s slot 3)) ∧
  (∀ w v s, v.length = 4 → exec (.sessionClose w v) s = .next (written w
    (forS (upTo 18) s (fun s k => if (getSess s k).inUse && (getSess s k).sid = leNat v then endSession s k 2 else s)))) ∧
  (∀ w e v s, 1 ≤ e → e ≤ 16 → v.length = 98 → (bfld v 0 1 = 1 ∨ bfld v 0 1 = 2) → (ecDecode (v.drop 1)).isSome = true →
    exec (.roleKeys w e v) s = .next (written w (forS (upTo 18) (setBlob s 0x1110 e v)
      (fun s j => if (getSess s j).inUse && (getSess s j).keySlot = e then endSession s j 5 else s)))) ∧
  (∀ w e s, 1 ≤ e → e ≤ 16 → exec (.roleKeys w e []) s = .next (written w (forS (upTo 18) (setBlob s 0x1110 e [])
      (fun s j => if (getSess s j).inUse && (getSess s j).keySlot = e then endSession s j 5 else s)))) ∧
  (∀ handle f t s, transportOn s .i3c = true → s.pb.i3cDynamic ≠ 0 → 1 ≤ handle → handle ≤ 2 → s.pb.i3cTail.find? (fun e => e.1 == handle + 15) = none →
    (getSess s (handle + 15)).ready = f :: t →
    exec (.i3cPrivateRead handle) s = .next (emit (setSess s (handle + 15) { getSess s (handle + 15) with ready := t })
      (.pbp (handle + 15) 0 f.seq f.frame f.auth))) ∧
  (∀ handle e s, transportOn s .i3c = true → s.pb.i3cDynamic ≠ 0 → 1 ≤ handle → handle ≤ 2 → s.pb.i3cTail.find? (fun e => e.1 == handle + 15) = some e →
    exec (.i3cPrivateRead handle) s = .next (emit { s with pb := { s.pb with i3cTail := s.pb.i3cTail.erase e } } (.pbp (handle + 15) 0 e.2.seq e.2.frame e.2.auth))) ∧
  (∀ byId named addr s, transportOn s .i3c = true → named = (if byId then s.sec.hem.i3cId else num s 0x1101 2) → 8 ≤ addr → addr ≤ 0x7D →
    exec (.i3cEntdaa byId named addr) s = .next { s with pb := { s.pb with i3cDynamic := addr } })

/-- Each request of an established session completes where its frame is taken and the device's checks in R60's order let it: the response goes out with RESULT 0, and what it asks for has
its effect. -/
def Obligations.RequestsComplete : Prop :=
  (∀ f k s, requestTaken s f 1 k = true → f.body.length = 14 → (readOps f).maxLen ≤ (if isI3c k then 472 else 1344) →
    (findObject (requested s f k) (opIndex f) (opSub f)).1 = 0 →
    mayRead (getSess (requested s f k) k).role (findObject (requested s f k) (opIndex f) (opSub f)).2 = true →
    (readObject (requested s f k) k (opIndex f) (opSub f) (findObject (requested s f k) (opIndex f) (opSub f)).2 (bit (readOps f).flags 0)).1 = 0 →
    exec (.pbpRead f) s = .next (
      let r := (findObject (requested s f k) (opIndex f) (opSub f)).2
      let v := readObject (requested s f k) k (opIndex f) (opSub f) r (bit (readOps f).flags 0)
      respond (requested s f k) k (pbTag f) 1 0 (readBody r.ty.code (b2n v.2.1) v.2.2 (readOps f).offset (readOps f).maxLen))) ∧
  (∀ f v k r t s, requestTaken s f 2 k = true → f.body.length = 18 + (writeOps f).dataLen → (writeOps f).dataLen ≤ (if isI3c k then 470 else 1342) →
    (findObject (requested s f k) (opIndex f) (opSub f)).1 = 0 →
    mayWrite (getSess (requested s f k) k).role (findObject (requested s f k) (opIndex f) (opSub f)).2 = true →
    disabledUnit (requested s f k) (opIndex f) (opSub f) = false → (writeOps f).offset = 0 → bit (writeOps f).flags 0 = true →
    (writeOps f).dataLen = (writeOps f).totalLen →
    writeWhole (requested s f k) { slot := k, tag := pbTag f } (findObject (requested s f k) (opIndex f) (opSub f)).2 (opIndex f) (opSub f) (writeOps f).data v.flashOk
      = .done 0 r t →
    exec (.pbpWrite f v) s = .next (fin (drainAtOnce (respondWrite t k (pbTag f) 0 r)))) ∧
  (∀ f k s, requestTaken s f 3 k = true → f.body.length = 8 → (findObject (requested s f k) (opIndex f) (opSub f)).1 = 0 →
    exec (.pbpDescribe f) s = .next (
      let u := requested s f k
      let r := (findObject u (opIndex f) (opSub f)).2
      respond u k (pbTag f) 3 0 (toLe 1 r.ty.code ++ toLe 1 r.cls.code ++ toLe 1 r.acc ++ toLe 1 (b2n r.status) ++ toLe 4 r.ty.maxSize ++
        toLe 8 (if r.ty.isBytes then 0 else describeDefault u r (opIndex f) (opSub f)) ++ toLe 8 (ofSigned 64 (describeRange u r).1) ++
        toLe 8 (ofSigned 64 (describeRange u r).2)))) ∧
  (∀ f k s, requestTaken s f 4 k = true → f.body.length = 8 →
    exec (.pbpEnumNext f) s = .next (
      let next := (dictPages.flatMap dictPage).foldl (fun m r =>
        match nextInRow (requested s f k) r (opIndex f) (opSub f) with | some y => min m y | none => m) 0xFFFFFF
      respond (requested s f k) k (pbTag f) 4 0 (toLe 2 (next / 256) ++ toLe 1 next ++ toLe 1 0))) ∧
  (∀ f k s, requestTaken s f 5 k = true → f.body.length = 8 → 2 ≤ (getSess (requested s f k) k).role → standby (requested s f k) = false →
    exec (.pbpStore f true) s = .next (respond (putBank (requested s f k)
      (storedSet (requested s f k) (getSess (requested s f k) k).role (bfld f.body 4 2) (bfld f.body 6 2))) k (pbTag f) 5 0 [])) ∧
  (∀ f k s, requestTaken s f 6 k = true → f.body.length = 8 → 2 ≤ (getSess (requested s f k) k).role → standby (requested s f k) = false →
    exec (.pbpRestoreDefaults f true) s = .next (respond (putBank (requested s f k)
      (restoredSet (requested s f k) (getSess (requested s f k) k).role (bfld f.body 4 2) (bfld f.body 6 2))) k (pbTag f) 6 0 [])) ∧
  (∀ f k s, requestTaken s f 7 k = true → f.body.length = 14 → opSub f ≠ 0xFF → (findObject (requested s f k) (opIndex f) (opSub f)).1 = 0 →
    mayRead (getSess (requested s f k) k).role (findObject (requested s f k) (opIndex f) (opSub f)).2 = true → served (requested s f k) (opIndex f) (opSub f) = true →
    1 ≤ (subscribeOps f).mode → (subscribeOps f).mode ≤ 3 → 10 ≤ (subscribeOps f).periodMs → (subscribeOps f).periodMs ≤ 3600000 →
    (subscribeOps f).minIntervalMs ≤ 60000 →
    countIf (requested s f k).pb.subs (fun y => y.slot == k) < 32 → (requested s f k).pb.subs.length < 256 →
    exec (.pbpSubscribe f) s = .next (
      let a := requested s f k
      let o := subscribeOps f
      let id := freeSub a a.pb.nextSub
      let y : Subscription := { id := id, slot := k, index := o.index, sub := o.sub, mode := o.mode, periodMs := o.periodMs, minIntervalMs := o.minIntervalMs,
                                last := subNow a k o.index o.sub, held := false, sentAt := 0, dueAt := a.det.now + msT o.periodMs }
      respond { a with pb := { a.pb with subs := a.pb.subs ++ [y], nextSub := id % 65535 + 1 } } k (pbTag f) 7 0 (toLe 2 id))) ∧
  (∀ f k s, requestTaken s f 8 k = true → f.body.length = 6 → (requested s f k).pb.subs.any (fun y => y.id == bfld f.body 4 2 && y.slot == k) = true →
    exec (.pbpUnsubscribe f) s = .next (respond (dropSub (requested s f k) k (bfld f.body 4 2)) k (pbTag f) 8 0 [])) ∧
  (∀ f k s, requestTaken s f 9 k = true → f.body.length = 4 → exec (.pbpPing f) s = .next (respond (requested s f k) k (pbTag f) 9 0 [])) ∧
  (∀ f entries v k s, requestTaken s f 10 k = true → 1 ≤ opSub f → opSub f ≤ 16 → 8 ≤ f.body.length → groupEntries (opSub f) (f.body.drop 8) = some entries →
    entries.all (fun e => (findObject (requested s f k) (opIndex f) e.sub).1 == 0 &&
      mayWrite (getSess (requested s f k) k).role (findObject (requested s f k) (opIndex f) e.sub).2) = true →
    (groupWrite (requested s f k) { slot := k, tag := pbTag f } (opIndex f)
      (entries.map (fun e => { row := (findObject (requested s f k) (opIndex f) e.sub).2, sub := e.sub, data := e.data })) v.flashOk).1 = 0 →
    (groupWrite (requested s f k) { slot := k, tag := pbTag f } (opIndex f)
      (entries.map (fun e => { row := (findObject (requested s f k) (opIndex f) e.sub).2, sub := e.sub, data := e.data })) v.flashOk).2.2.2.1 = 0 →
    exec (.pbpWriteGroup f v) s = .next (fin (
      let r := groupWrite (requested s f k) { slot := k, tag := pbTag f } (opIndex f)
        (entries.map (fun e => { row := (findObject (requested s f k) (opIndex f) e.sub).2, sub := e.sub, data := e.data })) v.flashOk
      drainAtOnce (respondGroup r.2.2.2.2 k (pbTag f) 0 r.2.2.1 0)))) ∧
  (∀ w index sub v r t s, (findObject s index sub).1 = 0 → (findObject s index sub).2.cls ≠ .ro →
    writeWhole s w (findObject s index sub).2 index sub v true = .done 0 r t →
    exec (.objectWrite w index sub v) s = .next (fin (drainAtOnce (respondWrite t w.slot w.tag 0 r))))

/-- Each command of subscriptions, events and drains completes where the spec lets it: an acknowledged event is dropped and a waiting one is sent; an unacknowledged one is sent again; a
period sends every value; a change is sent; a drain that is ready ends. -/
def Obligations.EventsComplete : Prop :=
  (∀ f k s, frameTaken s f 8 k = true → f.body.length = 4 →
    exec (.pbpEventAck f) s = .next (flushEvents (setSess (afterFrame s f k) k { getSess (afterFrame s f k) k with
      unacked := (getSess (afterFrame s f k) k).unacked.filter (fun u => u.ev.seq != leNat f.body) }) k)) ∧
  (∀ slot eventSeq u s, (getSess s slot).unacked.find? (fun u => u.ev.seq == eventSeq) = some u → u.sentAt + msT (num s 0x1112 1) ≤ s.det.now →
    u.ev.kind = 1 → u.attempts < num s 0x1112 2 →
    exec (.eventRetryTimeout slot eventSeq) s = .next (sendFrame (setSess s slot { getSess s slot with
      unacked := (getSess s slot).unacked.map (fun y => if y.ev.seq = eventSeq then { y with attempts := y.attempts + 1, sentAt := s.det.now } else y) })
      slot (.event u.ev))) ∧
  (∀ subId y s, s.pb.subs.find? (fun y => y.id == subId) = some y → 2 ≤ y.mode → y.dueAt ≤ s.det.now →
    exec (.subscriptionPeriod subId) s = .next (
      let t := setSub s { y with dueAt := y.dueAt + msT y.periodMs, sentAt := s.det.now, last := subNow s y.slot y.index y.sub }
      forS (subsOf t y.index y.sub) t (fun s k => valueEvent s y k))) ∧
  (∀ subId y e s, s.pb.subs.find? (fun y => y.id == subId) = some y →
    (subNow s y.slot y.index y.sub).find? (fun e => sfind y.last e.1 != some e.2) = some e → y.mode ≠ 2 → (getSess s y.slot).unacked.length < 4 →
    (getSess s y.slot).unacked.any (fun u => u.ev.subId == y.id) = false → (y.sentAt = 0 ∨ y.sentAt + msT y.minIntervalMs ≤ s.det.now) →
    exec (.eventSend subId) s = .next (valueEvent (setSub s { y with last := sset y.last e.1 e.2, held := false, sentAt := s.det.now }) y e.1)) ∧
  (∀ block s, s.pb.drains.any (fun d => d.block == block) = true → blkAccepted s (drainBlk block) = 0 →
    exec (.drainEnd block) s = .next (fin (drainEnd s block)))

/-- Each write of the address map completes where R116 to R151 let it: a region is created, changed or released, a window is set, the staging map is written, the map is committed. -/
def Obligations.MapWritesComplete : Prop :=
  (∀ w r v s, v.length = 64 → (getRegion s r).releasing = false → s.flt.binds.any (fun x => x.region == r) = false → s.coh.recalls.any (fun c => c.region == r && c.new.isSome) = false → (getRegion s r).valid = false →
    (parseRegion v).valid = true → regionCreatable s r (parseRegion v) = true → ((parseRegion v).mirror = false ∨ arrNum s 0x3640 r ≠ 0) →
    exec (.regionCreate w r v) s = .next (written w (createRegion s r (parseRegion v)))) ∧
  (∀ w r v s, v.length = 64 → (getRegion s r).releasing = false → s.flt.binds.any (fun x => x.region == r) = false → s.coh.recalls.any (fun c => c.region == r && c.new.isSome) = false → (getRegion s r).valid = false →
    (parseRegion v).valid = true → regionCreatable s r (parseRegion v) = true → (parseRegion v).mirror = true → arrNum s 0x3640 r = 0 →
    exec (.regionCreate w r v) s = .next (fin (startBind s r (parseRegion v) true (some (waiting s w (r % 128 + 1)))))) ∧
  (∀ w r v s, v.length = 64 → (getRegion s r).releasing = false → s.flt.binds.any (fun x => x.region == r) = false → s.coh.recalls.any (fun c => c.region == r && c.new.isSome) = false → (getRegion s r).valid = true →
    (parseRegion v).valid = true → regionChangeable s r (getRegion s r) (parseRegion v) = true → (getRegion s r).mirror = false → (parseRegion v).mirror = false →
    exec (.regionChange w r v) s = .next (fin (changeRegion s r (parseRegion v) (some (waiting s w (r % 128 + 1)))))) ∧
  (∀ w r v s, v.length = 64 → (getRegion s r).releasing = false → s.flt.binds.any (fun x => x.region == r) = false → s.coh.recalls.any (fun c => c.region == r && c.new.isSome) = false → (getRegion s r).valid = true →
    (parseRegion v).valid = false → regionBound s r = false →
    exec (.regionRelease w r v) s = .next (written w (releaseRegion s r))) ∧
  (∀ r s, releaseDone s r = true → exec (.regionReleaseEnd r) s = .next (fin (endRelease s r))) ∧
  (∀ w k v s, v.length = 40 → ((parseWindow v).valid = false ∨ windowOk s k (parseWindow v) = true) →
    exec (.windowWrite w k v) s = .next (written w { s with windows := sput (fun _ => Window.none) s.windows k (parseWindow v) })) ∧
  (∀ w v s, v.length ≤ 1024 → s.route.copying = false → (stageWrite s v).1 = 0 →
    exec (.routeStage w v) s = .next (written w (stageWrite s v).2)) ∧
  (∀ w v s, v.length ≤ 1024 → s.route.copying = true →
    exec (.routeStage w v) s = .next (fin { s with route := { s.route with heldStage := s.route.heldStage ++ [(w.slot, w.tag, v)] } })) ∧
  (∀ w v s, v.length = 2 → leNat v = (s.route.epoch + 1) % 65536 → exec (.mapCommit w v) s = .next (written w (commitMap s (leNat v)))) ∧
  (∀ s, s.route.copying = true → s.route.heldStage = [] →
    exec .mapStageCopyEnd s = .next (fin { s with route := { s.route with staging := s.route.active, copying := false, heldStage := [] } })) ∧
  (∀ e t s, s.route.prev = some (e, t) → t + usT (num s 0x2201 2) ≤ s.det.now →
    exec .mapGraceEnd s = .next { s with route := { s.route with prev := none } })

/-- Each store to a control window that a row names, and each event of translation, faults and holds, completes: the store arrives at its register's offset (R156, Tables 3.7 to 3.9), an
invalidation that nothing waits for any more ends, a freed record or tracker takes the first waiting request, and the time limits end what they limit. -/
def Obligations.TranslationCommandsComplete : Prop :=
  (∀ h asid s, exec (.cwInvAsid h asid) s = .next (fin (arrive s { h with addr := alignDown h.addr 0x4000000 + 0x030 } (.store (toLe 8 (asid % 16384)) false)))) ∧
  (∀ h s, exec (.cwInvAllAsid h) s = .next (fin (arrive s { h with addr := alignDown h.addr 0x4000000 + 0x030 } (.store (toLe 8 65536) false)))) ∧
  (∀ h asid all s, exec (.cwInvByVa h asid all) s = .next (fin (arrive s { h with addr := alignDown h.addr 0x4000000 + 0x030 }
    (.store (toLe 8 (asid % 16384 + 65536 * b2n all + 131072)) false)))) ∧
  (∀ h n s, exec (.cwFrResume h n) s = .next (fin (arrive s { h with addr := alignDown h.addr 0x4000000 + 0x050 } (.store (toLe 8 (n % 256 + 256)) false)))) ∧
  (∀ h n s, exec (.cwFrTerminate h n) s = .next (fin (arrive s { h with addr := alignDown h.addr 0x4000000 + 0x050 } (.store (toLe 8 (n % 256 + 512)) false)))) ∧
  (∀ i rest s, s.acc.invals = i :: rest → i.started = true → i.waits.any (inHand s) = false →
    i.descs.all (fun d => (findDesc s d).isNone) = true →
    exec .invComplete s = .next (startInval (setCw { s with acc := { s.acc with invals := rest } } i.part
      { getCw s i.part with done := ((getCw s i.part).done + 1) % 2 ^ 32 }))) ∧
  (∀ x t q n u s, firstFault ((faultsWaiting s).filter (fun e => (attachFault s e.2.1).1.isSome)) = some (q, t, .held x) → attachFault s t = (some n, u) →
    exec .frRecordFreed s = .next (fin (rehold u x (.faultRec (cidPart t.cid) n) false))) ∧
  (∀ d x t q n u s, firstFault ((faultsWaiting s).filter (fun e => (attachFault s e.2.1).1.isSome)) = some (q, t, .desc d x) → attachFault s t = (some n, u) →
    exec .frRecordFreed s = .next (fin (setDesc u d.q { x with fault := some (cidPart t.cid, n) }))) ∧
  (∀ bank x s, nextTracker s bank = some (.inl x) → trackerFree s (portOf x.req.head) x.req.head.addr = true →
    exec (.trackerAllocate bank) s = .next (fin (rehold s x (.ready none) false))) ∧
  (∀ tag i s, s.acc.issued.find? (fun i => i.tag == tag) = some i → i.deadline ≤ s.det.now → i.mirror = none →
    exec (.requestTimeout (.issued tag)) s =
      .next (fin (finishIssued (deadTarget s i.req.head i.req.op) i 1 (failData i.req.op 1)))) ∧
  (∀ seq x p n s, s.acc.held.find? (fun h => h.seq == seq) = some x → x.deadline ≤ s.det.now → x.req.head.kind = 0 → x.why = .faultRec p n →
    exec (.requestTimeout (.held seq)) s = .next (fin (finishReq (leaveWait s x) x 1 (failData x.req.op 1)))) ∧
  (∀ seq x s, s.acc.held.find? (fun h => h.seq == seq) = some x → x.deadline ≤ s.det.now → x.req.head.kind ≠ 0 →
    exec (.requestTimeout (.held seq)) s =
      .next (fin (finishReq (deadTarget (leaveWait s x) x.req.head x.req.op) x 1 (failData x.req.op 1)))) ∧
  (∀ seq x s, s.acc.held.find? (fun h => h.seq == seq) = some x → x.why ≠ .forwarded → (∀ a b, x.why ≠ .away a b) →
    x.discardAt < s.det.now → x.req.head.kind = 0 →
    exec (.holdDiscard seq) s = .next (fin (unhold (leaveWait s x) x))) ∧
  (∀ seq x s, s.acc.held.find? (fun h => h.seq == seq) = some x → x.why ≠ .forwarded → (∀ a b, x.why ≠ .away a b) →
    x.discardAt < s.det.now → x.req.head.kind ≠ 0 →
    exec (.holdDiscard seq) s = .next (fin (rehold (leaveWait s x) x .discarded x.checked))) ∧
  (∀ c i s, findIssued s c.tag = some i → exec (.retryReceived c) s = .next (fin (takeRetry s i c.epoch)))

/-- Each request of a unit of the node to the node's own addresses is taken and held ready to be served (the forms that come from a port or go to another node are in RequestsArrive); the two
knot events and the three completions have their effect when what they name is there. -/
def Obligations.MemoryRequestsComplete : Prop :=
  (∀ h len s, h.kind ≠ 0 → (unitHead s h).dst = endpointId s →
    exec (.ordLoad h len) s = .next (fin (heldReady s (unitHead s h) (.load len)))) ∧
  (∀ h d s, h.kind ≠ 0 → (unitHead s h).dst = endpointId s →
    exec (.ordStore h d) s = .next (fin (heldReady s (unitHead s h) (.store d false)))) ∧
  (∀ h t r x s, h.kind ≠ 0 → (unitHead s h).dst = endpointId s →
    exec (.atomicAdd h t r x) s = .next (fin (heldReady s (unitHead s h) (.atomic .add t r 0 x)))) ∧
  (∀ h t r x s, h.kind ≠ 0 → (unitHead s h).dst = endpointId s →
    exec (.atomicMin h t r x) s = .next (fin (heldReady s (unitHead s h) (.atomic .min t r 0 x)))) ∧
  (∀ h t r x s, h.kind ≠ 0 → (unitHead s h).dst = endpointId s →
    exec (.atomicMax h t r x) s = .next (fin (heldReady s (unitHead s h) (.atomic .max t r 0 x)))) ∧
  (∀ h t r x s, h.kind ≠ 0 → (unitHead s h).dst = endpointId s →
    exec (.atomicSwap h t r x) s = .next (fin (heldReady s (unitHead s h) (.atomic .swap t r 0 x)))) ∧
  (∀ h t r c x s, h.kind ≠ 0 → (unitHead s h).dst = endpointId s →
    exec (.atomicCas h t r c x) s = .next (fin (heldReady s (unitHead s h) (.atomic .cas t r c x)))) ∧
  (∀ h t r x s, h.kind ≠ 0 → (unitHead s h).dst = endpointId s →
    exec (.atomicAnd h t r x) s = .next (fin (heldReady s (unitHead s h) (.atomic .and t r 0 x)))) ∧
  (∀ h t r x s, h.kind ≠ 0 → (unitHead s h).dst = endpointId s →
    exec (.atomicOr h t r x) s = .next (fin (heldReady s (unitHead s h) (.atomic .or t r 0 x)))) ∧
  (∀ h t r x s, h.kind ≠ 0 → (unitHead s h).dst = endpointId s →
    exec (.atomicXor h t r x) s = .next (fin (heldReady s (unitHead s h) (.atomic .xor t r 0 x)))) ∧
  (∀ h t d s, h.kind ≠ 0 → (unitHead s h).dst = endpointId s →
    exec (.reduceSum h t d) s = .next (fin (heldReady s (unitHead s h) (.reduce 0 t d)))) ∧
  (∀ h t d s, h.kind ≠ 0 → (unitHead s h).dst = endpointId s →
    exec (.reduceMin h t d) s = .next (fin (heldReady s (unitHead s h) (.reduce 1 t d)))) ∧
  (∀ h t d s, h.kind ≠ 0 → (unitHead s h).dst = endpointId s →
    exec (.reduceMax h t d) s = .next (fin (heldReady s (unitHead s h) (.reduce 2 t d)))) ∧
  (∀ h g sp d p s, h.kind ≠ 0 → (unitHead s h).dst = endpointId s → exec (.blkWrite h g sp d p) s =
    .next (fin (heldReady s (unitHead s { h with addr := alignDown h.addr 64 }) (.blk (g % 65536) false sp 0 (slice d 0 64) p)))) ∧
  (∀ h g sp n d s, h.kind ≠ 0 → (unitHead s h).dst = endpointId s → exec (.blkKnot h g sp n d) s =
    .next (fin (heldReady s (unitHead s { h with addr := alignDown h.addr 64 }) (.blk (g % 65536) true sp (n % 65536) (slice d 0 64) false)))) ∧
  (∀ ep cid g sp k x c s, findKnot s ep cid g = some k → heldKnot k sp = (some x, c) → x.count ≤ c →
    exec (.knotPerform ep cid g sp) s = .next (freeKnot (fin (rehold (setKnot s (dropKnot k sp (c - x.count)))
      x.held (.cutover (boltOf x.held.req.head.addr)) true)) ep cid g)) ∧
  (∀ ep cid g sp k x c s, findKnot s ep cid g = some k → heldKnot k sp = (some x, c) → x.deadline ≤ s.det.now → c < x.count →
    exec (.knotHoldTimeout ep cid g sp) s = .next (fin (freeKnot (knotFault (bump (finishReq (setKnot s (dropKnot k sp 0)) x.held 7 []) 0x2208 7) ep g 1) ep cid g))) ∧
  (∀ c i s, findIssued s c.tag = some i → cmpKind i.req.op = 0 → c.status = 0 → opReads i.req.op = false →
    exec (.ordCmp c) s = .next (fin (finishIssued (meterPort s 0x4D0A (cidPart i.req.head.cid) 24) i 0 []))) ∧
  (∀ c i s, findIssued s c.tag = some i → cmpKind i.req.op = 1 → c.status = 0 → opReads i.req.op = false →
    exec (.blkCmp c) s = .next (fin (finishIssued (meterPort s 0x4D0A (cidPart i.req.head.cid) 24) i 0 []))) ∧
  (∀ c i s, findIssued s c.tag = some i → cmpKind i.req.op = 2 → c.status = 0 → i.mirror = none → opReads i.req.op = true →
    exec (.ordData c) s = .next (fin (finishIssued (meterPort s 0x4D0A (cidPart i.req.head.cid) 88) i 0 (slice c.data (i.req.head.addr % 64) (opLen i.req.op)))))

/-- Each coherence command that the home takes completes (R240 to R271): an admitted agent's request is counted and submitted to its line; an expected answer is applied; a recall, an
expulsion, an admission and a detachment do what they name. -/
def Obligations.HomeCommandsComplete : Prop :=
  (∀ c k m r s u, (c, k) ∈ ([(.rdS m, .rdS), (.rdOwn m, .rdOwn), (.upgrade m, .upgrade), (.rdPeek m, .peek)] : List (Instr × TxnKind)) →
    reqGate s m k = .pass u → fromAgent u m = true →
    (byPort m = true → (getAgent u m.agent).part = cidPart m.cid ∧ ((getAgent u m.agent).cacheless = false ∨ k = .peek)) →
    placeOf u m.line = .memory → trackerFree u (reqPort m) m.line = true →
    checkMem u m.cid (lineOf m.line * 64) 64 (k == .rdOwn || k == .upgrade) = some r → inBasting u r (lineOf m.line * 64) 64 = false →
    boltDead u r m.cid m.ep (lineOf m.line * 64) = false → (getRegion u r).kind = 0 → isCopy u r = false →
    boltBelow (reachFrom (countReq u k) (agentQuad u m.agent) (lineOf m.line * 64)) r m.cid m.ep (lineOf m.line * 64) = none →
    exec c s = .next (fin (
      let v := reachFrom (countReq u k) (agentQuad u m.agent) (lineOf m.line * 64)
      submitTxn (if readsMemory v m k then readError v (lineOf m.line * 64) m.ecc else v) (reqTxn u m k (getRegion u r).lostPolicy)))) ∧
  (∀ line s, inCellar s (lineOf line) = false → exec (.sliceTxnStart line) s = .next (fin (startWaiting s (lineOf line)))) ∧
  (∀ m t s, admitted s m.agent = true → fromAgent s m = true → txnGet s (lineOf m.line) = some t → t.snoops.any (fun x => x.1 == m.agent) = true →
    exec (.snpAck m) s = .next (fin (snoopAnswer (answers s m.agent) (lineOf m.line) m.agent m.state m.flag none))) ∧
  (∀ m t s, admitted s m.agent = true → fromAgent s m = true → txnGet s (lineOf m.line) = some t → t.snoops.any (fun x => x.1 == m.agent) = true →
    exec (.snpData m) s = .next (fin (snoopAnswer (answers s m.agent) (lineOf m.line) m.agent m.state false (some (slice m.data 0 64, m.status == 2))))) ∧
  (∀ m t s, admitted s m.agent = true → fromAgent s m = true → txnGet s (lineOf m.line) = some t → awaitsAck t m.agent = true →
    exec (.cmpAck m) s = .next (fin (cmpAck s (lineOf m.line) m.agent))) ∧
  (∀ m s, admitted s m.agent = true → fromAgent s m = true →
    exec (.wbDirty m) s = .next (fin (writeback s (lineOf m.line) m.agent true m.flag (slice m.data 0 64) (m.status == 2)))) ∧
  (∀ m s, admitted s m.agent = true → fromAgent s m = true →
    exec (.evictClean m) s = .next (fin (writeback s (lineOf m.line) m.agent false false (slice m.data 0 64) (m.status == 2)))) ∧
  (∀ w v s, v.length = 2 → (getRegion s (leNat v)).valid = true → (getRegion s (leNat v)).base < landBase →
    exec (.regionRecall w v) s = .next (fin (askRecall s { region := leNat v, scope := none, write := some (waiting s w 1), new := none }))) ∧
  (∀ c rest x s, s.coh.recalls = c :: rest → recallEnded s = true → c.write = some x → c.new = none →
    exec .regionRecallEnd s = .next (fin (beginRecall (answerWaiting (bump { s with coh := { s.coh with recalls := rest } } 0x2402 2) x 0)))) ∧
  (∀ c rest x g s, s.coh.recalls = c :: rest → recallEnded s = true → c.write = some x → c.new = some g →
    exec .regionRecallEnd s = .next (fin (beginRecall (answerWaiting (setChanged (bump { s with coh := { s.coh with recalls := rest } } 0x2402 2) c.region g) x 0)))) ∧
  (∀ line agent t op at_ s, txnGet s (lineOf line) = some t → t.snoops.find? (fun x => x.1 == agent) = some (agent, op, at_) →
    at_ + usT (num s 0x2400 3) ≤ s.det.now → agent < 4 → s.coh.unresponsive.contains agent = false →
    exec (.snpTimeout line agent) s = .next (
      let t := bump s 0x2401 0x0E
      latch (noteFault { t with coh := { t.coh with unresponsive := ninsert t.coh.unresponsive agent } } 0x12 (resId 10 agent) 0xFF 0xFF (lineOf line * 64) []) 3)) ∧
  (∀ line agent t op at_ s, txnGet s (lineOf line) = some t → t.snoops.find? (fun x => x.1 == agent) = some (agent, op, at_) →
    at_ + usT (num s 0x2400 3) ≤ s.det.now → 4 ≤ agent → (getAgent s agent).st ≠ 2 →
    exec (.snpTimeout line agent) s = .next (
      let t := setAgent (bump s 0x2401 0x0E) agent { getAgent (bump s 0x2401 0x0E) agent with st := 2 }
      latch (noteFault t 0x12 (resId 10 agent) (getAgent t agent).part 0xFF (lineOf line * 64) []) 3)) ∧
  (∀ w v s, v.length = 1 → 4 ≤ leNat v → exec (.agentExpel w v) s = .next (written w (expelAgent s (leNat v)))) ∧
  (∀ w a v s, v.length = 16 → 4 ≤ a → (getAgent s a).st = 0 → (getAgent s a).v = false →
    let lo := bfld v 0 8
    let n : Agent := { ep := fld lo 0 16, port := fld lo 16 8, v := true, cacheless := bit lo 25, part := fld lo 32 6, credits := fld lo 40 7, st := 0 }
    bit lo 24 = true → innerTrf s n.port = true → partExists s n.part = true → n.credits ≠ 0 → n.credits ≤ 64 →
    s.coh.agents.any (fun e => e.1 != a && e.2.v && e.2.ep == n.ep && e.2.part == n.part) = false → leaseExpired s n.ep n.part = false →
    (leaseOf (setAgent s a { n with st := 1 }) n.ep n.part).isSome = true →
    exec (.agentAdmit w a v) s = .next (written w (setAgent s a { n with st := 1 }))) ∧
  (∀ w a v s, v.length = 16 → 4 ≤ a → (getAgent s a).st = 1 → (getAgent s a).v = true → bit (bfld v 0 8) 24 = false →
    fld (bfld v 0 8) 0 16 = (getAgent s a).ep → fld (bfld v 0 8) 16 8 = (getAgent s a).port → bit (bfld v 0 8) 25 = (getAgent s a).cacheless →
    fld (bfld v 0 8) 32 6 = (getAgent s a).part → fld (bfld v 0 8) 40 7 = (getAgent s a).credits →
    exec (.agentDetach w a v) s = .next (fin (
      let t := beginDetach s a
      { t with coh := { t.coh with detachWrites := t.coh.detachWrites ++ [(a, waiting t w (a % 128 + 1))] } }))) ∧
  (∀ a s, (getAgent s a).st = 3 → (agentLines s a).isEmpty = true →
    agentBusy s a = false →
    exec (.agentDetachEnd a) s =
      .next (fin (answerDetach (endLease (unsweep (setAgent s a Agent.none) (fun y => y.1 == a)) (getAgent s a).ep (getAgent s a).part) a))) ∧
  (∀ line x s, dirGet s (lineOf line) = some x →
    exec (.dirEccError line) s = .next (fin (
      let t := detectFault s 0x14 (resId 5 (sliceOf (lineOf line * 64))) 1 0xFF 0xFF (lineOf line * 64) []
      submitTxn t (homeTxn t (lineOf line) .eccRecall 0)))) ∧
  (∀ w v s, v.length = 8 →
    exec (.dirQuery w v) s = .next (written w (setSess s w.slot { getSess s w.slot with dirQuery := leNat v })))

/-- Each coherence message that an L2 cluster takes completes (R241 to R250): a snoop is answered from what the cluster holds, a grant fills the line it asked for, an acknowledgement ends the
CBO that waits. -/
def Obligations.ClusterCommandsComplete : Prop :=
  (∀ c m s, exec (.snpFwdS c m) s = .next (snoopCluster s c m 1)) ∧
  (∀ c m s, exec (.snpFwdOwn c m) s = .next (snoopCluster s c m 2)) ∧
  (∀ c m s, exec (.snpRecall c m) s = .next (snoopCluster s c m 3)) ∧
  (∀ c m s, exec (.snpPeek c m) s = .next (snoopCluster s c m 4)) ∧
  (∀ c m op s, (l2Get (wakeCluster s c) c (lineOf m.line)).wbPending = true →
    snoopCluster s c m op = sendSnpAck (wakeCluster s c) c m 0 true) ∧
  (∀ c m op s, (l2Get (wakeCluster s c) c (lineOf m.line)).wbPending = false →
    ((l2Get (wakeCluster s c) c (lineOf m.line)).coh = false ∨ (l2Get (wakeCluster s c) c (lineOf m.line)).st = 0) →
    snoopCluster s c m op = sendSnpAck (wakeCluster s c) c m 0 false) ∧
  (∀ c m s, (l2Get (wakeCluster s c) c (lineOf m.line)).wbPending = false → (l2Get (wakeCluster s c) c (lineOf m.line)).coh = true →
    (l2Get (wakeCluster s c) c (lineOf m.line)).st = 4 →
    snoopCluster s c m 3 = l2Drop (sendSnpData (wakeCluster s c) c m (l2Get (wakeCluster s c) c (lineOf m.line))) c (lineOf m.line) ∧
    snoopCluster s c m 4 = sendSnpData (wakeCluster s c) c m (l2Get (wakeCluster s c) c (lineOf m.line))) ∧
  (∀ c m s, exec (.dataHome c m) s = .next (fin (takeGrant s c m (some m.data)))) ∧
  (∀ c m s, exec (.dataFwd c m) s = .next (fin (takeGrant s c m (some m.data)))) ∧
  (∀ c m s, exec (.cmp c m) s = .next (fin (takeGrant s c m none))) ∧
  (∀ c m p s, (pendsOf (wakeCluster s c) c (lineOf m.line)).find? (fun p => p.sent && (match p.op with | .cbo k => k != 4 | _ => false)) = some p →
    p.op = .cbo 2 → p.dead = false →
    exec (.wbAck c m) s = .next (fin (l2Go (dropPend (coreData (wakeCluster s c) p.core 0 []) p) c (lineOf m.line))))

/-- Each access of a Hearth core completes where its core runs (R276, R394, R679): on a COH line it goes to the core's L2 cluster, elsewhere it is issued as a request of the core. -/
def Obligations.HearthCommandsComplete : Prop :=
  (∀ core h n s u o, coreStopped s core = false → u = wakeCluster s (core / 4) → o = coreOwn u core h → inBell o.addr = false → coreWay u o n false = .coherent →
    exec (.hearthLoadStore core h (.load n)) s = .next (coreCoherent u core o (.acc (.load n)))) ∧
  (∀ core h d s u o, coreStopped s core = false → u = wakeCluster s (core / 4) → o = coreOwn u core h → inBell o.addr = false → coreWay u o d.length true = .coherent →
    exec (.hearthLoadStore core h (.store d)) s = .next (coreCoherent u core o (.acc (.store d)))) ∧
  (∀ core h n s u o, coreStopped s core = false → u = wakeCluster s (core / 4) → o = coreOwn u core h → inBell o.addr = false → coreWay u o n false = .uncached →
    exec (.hearthLoadStore core h (.fetch n)) s = .next (fin (arrive u (coreHead u core o 1) (.load n)))) ∧
  (∀ core h op us wide x s u o, coreStopped s core = false → u = wakeCluster s (core / 4) → o = coreOwn u core h → coreWay u o (amoSize wide) true = .coherent →
    exec (.hearthAmo core h op us wide x) s = .next (coreCoherent u core o (.amo op us wide x))) ∧
  (∀ core h op us wide x s u o, coreStopped s core = false → u = wakeCluster s (core / 4) → o = coreOwn u core h → coreWay u o (amoSize wide) true = .uncached →
    exec (.hearthAmo core h op us wide x) s = .next (fin (arrive u (coreHead u core o 7) (.atomic op (amoType us wide) 0 0 (toLe (amoSize wide) x))))) ∧
  (∀ core h wide s u o, coreStopped s core = false → u = wakeCluster s (core / 4) → o = coreOwn u core h → coreWay u o (amoSize wide) false = .coherent →
    exec (.hearthLr core h wide) s = .next (coreCoherent u core o (.lr wide))) ∧
  (∀ core h wide x s u o, coreStopped s core = false → u = wakeCluster s (core / 4) → o = coreOwn u core h → coreWay u o (amoSize wide) true = .coherent →
    exec (.hearthSc core h wide x) s = .next (coreCoherent u core o (.sc wide x))) ∧
  (∀ core h wide x s u o, coreStopped s core = false → u = wakeCluster s (core / 4) → o = coreOwn u core h → coreWay u o (amoSize wide) true ≠ .coherent →
    exec (.hearthSc core h wide x) s = .next (coreData { u with coh := { u.coh with reserve := u.coh.reserve.filter (fun y => y.1 != core) } } core 0 [1])) ∧
  (∀ core h s u o, coreStopped s core = false → u = wakeCluster s (core / 4) → o = { coreOwn u core h with addr := alignDown h.addr 64 } → coreWay u o 64 true = .coherent →
    exec (.cboZero core h) s = .next (coreCoherent u core o (.cbo 4))) ∧
  (∀ core h s u o, coreStopped s core = false → u = wakeCluster s (core / 4) → o = coreOwn u core h → (l2Get u (core / 4) (lineOf o.addr)).coh = true →
    coreWay u o 1 false = .coherent →
    exec (.cboFlush core h) s = .next (coreCoherent u core o (.cbo 1)) ∧
    exec (.cboClean core h) s = .next (coreCoherent u core o (.cbo 2)) ∧
    exec (.cboInval core h) s = .next (coreCoherent u core o (.cbo 3))) ∧
  (∀ core pi si pr sr s, coreStopped s core = false → ((pi && (si || sr)) || (si && pr)) = true → s.ord.coreFences.any (fun x => x.1 == core) = false →
    exec (.hearthFence core pi si pr sr) s = .next { s with ord := { s.ord with coreFences := s.ord.coreFences ++ [(core, s.acc.nextSeq, s.acc.nextTag)] } })

/-- Each fence, FLUSH_RANGE, version and lease command completes where the spec lets it: a fence whose accesses are done completes with status OK, a version command arrives at its slot,
a page folds, a lease runs through its states. -/
def Obligations.FencesAndVersionsComplete : Prop :=
  (∀ d x s, readyDesc s d 0xF0 = some x → fenceForm x.bytes = true → bfld x.bytes 1 1 = 1 → fenceMet s d x.bytes = true →
    exec (.fenceAcquire d) s = .next (denyDesc s d (ranStatus 0))) ∧
  (∀ d x s, readyDesc s d 0xF0 = some x → fenceForm x.bytes = true → bfld x.bytes 1 1 = 2 → fenceMet s d x.bytes = true →
    exec (.fenceRelease d) s = .next (denyDesc s d (ranStatus 0))) ∧
  (∀ d x s, readyDesc s d 0xF0 = some x → fenceForm x.bytes = true → bfld x.bytes 1 1 = 3 → fenceMet s d x.bytes = true →
    exec (.fenceFull d) s = .next (denyDesc s d (ranStatus 0))) ∧
  (∀ q x s, (getQueue s q).accepted.find? (fun x => descOp x == 0xF0 && !x.ran && x.phase == 1) = some x → fenceMet s { q := q, pos := x.pos } x.bytes = true →
    exec (.fenceComplete q) s = .next (denyDesc s { q := q, pos := x.pos } (ranStatus 0))) ∧
  (∀ d x s, readyDesc s d 0xF1 = some x → flushForm x.bytes = true →
    exec (.flushRange d) s = .next (runDesc s d (fun s =>
      (ranStatus 0, flushGo (descCtx s d 0 (bfld x.bytes 4 2) (bit (bfld x.bytes 3 1) 0) []) d.q.part (bfld x.bytes 0x10 8 / 4096 + 2) (bump s 0x2208 9)
        (bfld x.bytes 8 8) (bfld x.bytes 0x10 8))))) ∧
  (∀ h k r a s, exec (.vcOpenRead h k r a) s = .next (fin (cwStore s h (0x500000 + k % 256 * 0x40) (1 + r % 4096 * 256 + a % 16384 * 2 ^ 20)))) ∧
  (∀ h k r a s, exec (.vcCloseRead h k r a) s = .next (fin (cwStore s h (0x500000 + k % 256 * 0x40) (2 + r % 4096 * 256 + a % 16384 * 2 ^ 20)))) ∧
  (∀ h k r a s, exec (.vcOpenWork h k r a) s = .next (fin (cwStore s h (0x500000 + k % 256 * 0x40) (3 + r % 4096 * 256 + a % 16384 * 2 ^ 20)))) ∧
  (∀ h k r a s, exec (.vcPublish h k r a) s = .next (fin (cwStore s h (0x500000 + k % 256 * 0x40) (4 + r % 4096 * 256 + a % 16384 * 2 ^ 20)))) ∧
  (∀ h k r a s, exec (.vcRebase h k r a) s = .next (fin (cwStore s h (0x500000 + k % 256 * 0x40) (5 + r % 4096 * 256 + a % 16384 * 2 ^ 20)))) ∧
  (∀ h k r a s, exec (.vcDiscardWork h k r a) s = .next (fin (cwStore s h (0x500000 + k % 256 * 0x40) (6 + r % 4096 * 256 + a % 16384 * 2 ^ 20)))) ∧
  (∀ h k r a s, exec (.vcQuery h k r a) s = .next (fin (cwStore s h (0x500000 + k % 256 * 0x40) (7 + r % 4096 * 256 + a % 16384 * 2 ^ 20)))) ∧
  (∀ r page s, (getRegion s r).valid = true → exec (.verFold r page) s = .next (fin (foldPage s r page))) ∧
  (∀ r v x s, getVer s r = some v → (basteFree (getRegion s r).size v).isSome = true → s.acc.held.find? (fun h => h.why == .baste r) = some x →
    exec (.bastePageFreed r) s = .next (fin { s with acc := { s.acc with
      held := s.acc.held.map (fun y => if y.seq == x.seq then { y with why := .ready none } else y) } })) ∧
  (∀ w r b v s, b.length = 8 → verViewOk s r (leNat b) = true → getVer s r = some v →
    exec (.verView w r b) s = .next (written w (setVer s r { v with view := leNat b }))) ∧
  (∀ w b s, b.length = 2 → exec (.verQuery w b) s = .next (written w (setSess s w.slot { getSess s w.slot with verQuery := leNat b }))) ∧
  (∀ w b s, b.length = 2 → leNat b ≤ 4095 →
    exec (.leaseQuery w b) s = .next (written w (setSess s w.slot { getSess s w.slot with leaseQuery := leNat b }))) ∧
  (∀ h n s, exec (.leaseRenew h n) s = .next (fin (cwStore s h 0x510000 (n % 8192)))) ∧
  (∀ h s, exec (.leaseAckExpired h) s = .next (fin (cwStore s h 0x510000 8192))) ∧
  (∀ n l s, sfind s.ver.leases n = some l → l.st = 1 → l.deadline < s.det.now → l.ep ≠ endpointId s →
    exec (.leaseDeadline n) s = .next (setLease s n { l with st := 2 })) ∧
  (∀ n l s, sfind s.ver.leases n = some l → (l.st = 1 ∨ l.st = 2) → l.deadline + msT (num s 0x2510 1) < s.det.now → l.ep ≠ endpointId s →
    exec (.leaseExpiry n) s = .next (fin (expireLease s n true))) ∧
  (∀ n l s, sfind s.ver.leases n = some l → l.st = 3 → l.expiredAt + secT (num s 0x2500 4) ≤ s.det.now →
    exec (.staleHoldEnd n) s = .next (freeLease s n)) ∧
  (∀ w b l s, b.length = 2 → leNat b ≤ 4095 → sfind s.ver.leases (leNat b) = some l → (l.st = 1 ∨ l.st = 2) → l.ep ≠ endpointId s →
    exec (.leaseExpire w b) s = .next (written w (expireLease s (leNat b) true)))

/-- Each command of the engine queues completes where the spec lets it (R376 to R388): the registers are stored, a slot is read and its descriptor accepted, a completion that waits goes
out when the ring has space, a member's report is merged, a member that is missing ends DEAD. -/
def Obligations.QueueCommandsComplete : Prop :=
  (∀ h q tail s, exec (.queueTailWrite h q tail) s = .next (fin (cwStore s h (blkWindow q.blk + q.q % 8 * 0x40 + 0x10) (tail % 65536)))) ∧
  (∀ h q v s, exec (.queueCfgWrite h q v) s = .next (fin (cwStore s h (blkWindow q.blk + q.q % 8 * 0x40 + 0x08) v))) ∧
  (∀ q env b u s, (getQueue s q).en = true → (getQueue s q).halted = false → (getQueue s q).head ≠ (getQueue s q).tail → q.q < 8 →
    partExists s q.part = true → blkRun s q.blk = 3 → draining s q.blk = false → blkAccepted s q.blk < acceptMax q.blk →
    engRead s { ownCtx s (blkCode q.blk + 1) (mkCid q.part 0) with inside := false, env := env }
      ((getQueue s q).qbase + (getQueue s q).head % 2 ^ (getQueue s q).log2n * 64) 64 = (0, b, u) →
    stoppedAlone s u = none → knownOp q.blk (bfld b 0 1) (bfld b 1 1) = true →
    exec (.slotReadComplete q env) s = .next (
      let holder := match (getQueue s q).submitters.find? (fun e => e.1 == (getQueue s q).head) with | some e => e.2 | none => endpointId u
      let d := newDesc u (getQueue s q).head holder b
      let t := acceptDesc u q { d with group := acceptGroup u q d }
      setQueue t q { getQueue t q with head := ((getQueue s q).head + 1) % 65536,
                                       submitters := (getQueue t q).submitters.filter (fun e => e.1 != (getQueue s q).head) })) ∧
  (∀ q env st b u s, (getQueue s q).en = true → (getQueue s q).halted = false → (getQueue s q).head ≠ (getQueue s q).tail → q.q < 8 →
    partExists s q.part = true → blkRun s q.blk = 3 → draining s q.blk = false → blkAccepted s q.blk < acceptMax q.blk → st ≠ 0 →
    engRead s { ownCtx s (blkCode q.blk + 1) (mkCid q.part 0) with inside := false, env := env }
      ((getQueue s q).qbase + (getQueue s q).head % 2 ^ (getQueue s q).log2n * 64) 64 = (st, b, u) → stoppedAlone s u = none →
    exec (.slotReadComplete q env) s = .next (setQueue u q { getQueue u q with halted := true })) ∧
  (∀ q e rest s, (getQueue s q).waiting = e :: rest → (getQueue s q).cqEn = true →
    slotDiff (getQueue s q).cqTail (getQueue s q).cqHead < 2 ^ (getQueue s q).cqLog2n →
    exec (.completionRingSpace q) s = .next (fin (writeEntry (setQueue s q { getQueue s q with waiting := rest }) q e))) ∧
  (∀ d m x s, findDesc s d = some x → x.members.contains m.member = true →
    isWide d (mergeCode { x with members := x.members.filter (· ≠ m.member), status := firstStatus x.status m.status } m.member m.rcode) = false →
    isSearch d (mergeCode { x with members := x.members.filter (· ≠ m.member), status := firstStatus x.status m.status } m.member m.rcode) = false →
    exec (.memberReport d m) s = .next (
      let y := mergeCode { x with members := x.members.filter (· ≠ m.member), status := firstStatus x.status m.status } m.member m.rcode
      let y := { y with result := takeResult s y m.result }
      membersIn (setDesc s d.q y) d y [])) ∧
  (∀ d x s, findDesc s d = some x → x.members.isEmpty = false → isSearch d x = false → x.ranAt + x.ctT ≤ s.det.now →
    exec (.memberMissingTimeout d) s = .next (missMembers s d x 0x2601 9)) ∧
  (∀ d x s, findDesc s d = some x → x.members.isEmpty = false → isSearch d x = true → x.phase = 2 → x.ranAt + x.memberT ≤ s.det.now →
    exec (.tapeMemberTimeout d) s = .next (missMembers s d x 0x2701 0x0D)) ∧
  (∀ m env s, m.q.blk = .bobbin → bfld m.bytes 0 1 = 0x10 → draining s .bobbin = false →
    ∃ t, exec (.fanoutReceive m env) s = .next t ∧ exec (.lookup { q := { m.q with q := 8 }, pos := s.acc.nextSeq } env) (acceptShare s m) = .next t) ∧
  (∀ m env s, knownOp m.q.blk (bfld m.bytes 0 1) (bfld m.bytes 1 1) = true → bfld m.bytes 0 1 ≠ 0xF0 → bfld m.bytes 0 1 ≠ 0xF1 → draining s m.q.blk = true →
    exec (.fanoutReceive m env) s = .next { s with eng := { s.eng with heldShares := s.eng.heldShares ++ [m] } })

/-- Each command that starts, stops or loads a Bobbin table, looks rows up in it or commands its versions completes where the spec lets it (R341 to R382, R417). -/
def Obligations.BobbinTablesComplete : Prop :=
  (∀ w s, blkRun s .bobbin ≠ 0 → inLimp s = false → exec (.bnStart w) s = .next (written w (setNum s (blkIndex .bobbin) 1 3))) ∧
  (∀ w s, blkRun s .bobbin = 3 → exec (.bnStop w) s = .next (written w (setNum s (blkIndex .bobbin) 1 2))) ∧
  (∀ s, blkRun s .bobbin = 2 → blkAccepted s .bobbin = 0 → (blkQueues s .bobbin).all (fun q => q.2.waiting.isEmpty) = true →
    exec .bnStopEnd s = .next (setNum s (blkIndex .bobbin) 1 1)) ∧
  (∀ w t s, tabRun s t < 2 → tabStartable s t = true → tabMaster s t = true → tabVersioned s t = false → exec (.tabStart w t) s = .next (written w (
    runFlag (setArrNum { s with ver := { s.ver with forms := sput (fun _ => 0) s.ver.forms (tabRegion s t) 1 },
                                eng := { s.eng with bob := { s.eng.bob with
      sweeps := sput (fun _ => 0) s.eng.bob.sweeps t 0, bounds := sput (fun _ => 0) s.eng.bob.bounds t 0 } } } 0x2616 t 3) 1))) ∧
  (∀ w t s, tabRun s t = 3 → exec (.tabStop w t) s = .next (written w (
    let u := setArrNum s 0x2616 t 2
    { u with eng := { u.eng with bob := { u.eng.bob with stopOrd := sput (fun _ => 0) u.eng.bob.stopOrd t u.acc.nextSeq } } }))) ∧
  (∀ t s, tabRun s t = 2 → tabBusy s t = false → exec (.tabStopEnd t) s = .next (setArrNum s 0x2616 t 1)) ∧
  (∀ d e x s, findDesc s d = some x → d.q.blk = .bobbin → undealt s (d.q.part % 64) (d.q.q % 16) x = true → dealable s d.q.part e = true → dealTurn s d x = true →
    exec (.chunkDeal d e) s = .next (dealTo s d x e)) ∧
  (∀ d env x e y u s, readyDesc s d 0x10 = some x → tabDeny s (bfld x.bytes 4 2) x.ord = none → lookupForm s (bfld x.bytes 4 2) x.bytes = true →
    bobTake s d x = some (e, y, u) → exec (.lookup d env) s = .next (runLookup u d y (bfld x.bytes 4 2) e env)) ∧
  (∀ d env x e y u s, readyDesc s d 0x11 = some x → tabDeny s (bfld x.bytes 4 2) x.ord = none → loadForm s (bfld x.bytes 4 2) x.bytes = true →
    bobTake s d x = some (e, y, u) → exec (.tabLoad d env) s = .next (runTabLoad u d y (bfld x.bytes 4 2) e env)) ∧
  (∀ d env x e y u s, readyDesc s d 0x12 = some x → tabDeny s (bfld x.bytes 4 2) x.ord = none → hotForm x.bytes = true →
    bobTake s d x = some (e, y, u) → hotBefore u (bfld x.bytes 4 2) y.ord = false → exec (.refreshHot d env) s = .next (runRefreshHot u d y (bfld x.bytes 4 2) e env)) ∧
  (∀ d c op x s, (c, op) ∈ [(Instr.versionOpenRead d, 1), (.versionCloseRead d, 2), (.versionOpenWork d, 3), (.versionPublish d, 4), (.versionRebase d, 5),
      (.versionDiscardWork d, 6), (.versionQuery d, 7)] →
    readyDesc s d 0x13 = some x → bfld x.bytes 1 1 = op → tabDeny s (bfld x.bytes 4 2) x.ord = none →
    versionForm x.bytes = true → tabRight s (bfld x.bytes 4 2) (descCtx s d 0 (bfld x.bytes 6 2) false []) (3 ≤ op && op ≤ 6) = true →
    tabVersioned s (bfld x.bytes 4 2) = true → (op = 4 → sealBefore s d.q.part (bfld x.bytes 4 2) x.ord = false) →
    exec c s = .next (
      let r := tabRegion s (bfld x.bytes 4 2)
      let cid := (descCtx s d 0 (bfld x.bytes 6 2) false []).cid
      let arg := bfld x.bytes 8 8
      let a := vcRun s r cid x.holder op arg
      denyDesc a.2 d { status := a.1.status, rcode := a.1.rcode, result := a.1.version, missing := 0 }))

/-- Each command of Bobbin's re-encoding and of its training steps completes where the spec lets it (R363 to R370, R400 to R421). -/
def Obligations.BobbinStepsComplete : Prop :=
  (∀ s, detMode s ≠ 2 → s.eng.bob.sweptAt + msT (num s 0x2602 2) ≤ s.det.now →
    exec .reencSweep s = .next (fin (
      let t := forS (loopTables s) s sweepTable
      setBob t { t.eng.bob with sweptAt := t.det.now, queue := if reencFrozen t then [] else (loopTables s).flatMap (sweepChoices t) }))) ∧
  (∀ t row f u s, s.eng.bob.queue.find? (fun q => q.1 == t) = some (t, row, f) → reencFrozen s = false → detMode s ≠ 2 →
    reencBudget s = (true, u) →
    exec (.rowReencode t row) s = .next (fin (markV (reencodeNow u t row f) 0x48 (getRegion s (tabRegion s t)).owner))) ∧
  (∀ t row m s, findMove s t row = some m → exec (.recordCutover t row) s = .next (fin (cutOver s m))) ∧
  (∀ t b k s, s.eng.bob.oldRecs.contains (t, b, k) = true →
    (let u := dropRows s t (b * 65536 + k * 16) (recSize 1 (tabDim s t))
     (usedRecs (setBob u { u.eng.bob with oldRecs := u.eng.bob.oldRecs.erase (t, b, k) }) t .head).any (fun r => r.1 == b)) = true →
    exec (.oldRecordFree t b k) s = .next (
      let u := dropRows s t (b * 65536 + k * 16) (recSize 1 (tabDim s t))
      setBob u { u.eng.bob with oldRecs := u.eng.bob.oldRecs.erase (t, b, k) })) ∧
  (∀ d x e y u s, readyDesc s d 0x20 = some x → tabDeny s (bfld x.bytes 4 2) x.ord = none → stepForm s (bfld x.bytes 4 2) 0x20 x.bytes = true →
    bobTake s d x = some (e, y, u) → exec (.stepOpen d) s = .next (runStepOpen u d y (bfld x.bytes 4 2) e)) ∧
  (∀ d env x e y u s, readyDesc s d 0x21 = some x → tabDeny s (bfld x.bytes 4 2) x.ord = none → accForm s (bfld x.bytes 4 2) x.bytes = true →
    bobTake s d x = some (e, y, u) → exec (.accumulate d env) s = .next (runAccumulate u d y (bfld x.bytes 4 2) e env)) ∧
  (∀ d x e y u s, readyDesc s d 0x22 = some x → tabDeny s (bfld x.bytes 4 2) x.ord = none → sealForm s (bfld x.bytes 4 2) x.bytes = true →
    bobTake s d x = some (e, y, u) → exec (.seal d) s = .next (runSeal u d y (bfld x.bytes 4 2) e)) ∧
  (∀ d x y e sel s, findDesc s d = some x → d.q.blk = .bobbin → descOp x = 0x22 → x.phase = 1 → x.ran = false → x.trap = none → 2 ≤ blkRun s .bobbin →
    getStep s (bfld x.bytes 4 2) (bfld x.bytes 8 8) = some y → (upTo 16).find? (dealable s d.q.part) = some e →
    sealMay s (bfld x.bytes 4 2) y.step x.ord = true →
    tabSelect s (bfld x.bytes 4 2) (descCtx s d e (bfld x.bytes 6 2) (bit (bfld x.bytes 2 2) 1) []).cid x.holder (bit (bfld x.bytes 2 2) 2) true = (none, sel) →
    exec (.sealApply d) s = .next (runDesc s d (fun u =>
      applySeal u x (descCtx s d e (bfld x.bytes 6 2) (bit (bfld x.bytes 2 2) 1) []) (bfld x.bytes 4 2) sel y))) ∧
  (∀ d x e y u s, readyDesc s d 0x23 = some x → tabDeny s (bfld x.bytes 4 2) x.ord = none → stepForm s (bfld x.bytes 4 2) 0x23 x.bytes = true →
    bobTake s d x = some (e, y, u) → exec (.stepDiscard d) s = .next (runStepDiscard u d y (bfld x.bytes 4 2) e)) ∧
  (∀ bank s, bank < 16 → exec (.accBankFail bank true) s = .next (loseBank s bank))

/-- Each command of Tape completes where the spec lets it (R431 to R464): start and stop, the rounds of a search and its passes, insertion and deletion, loads and merges. -/
def Obligations.TapeCommandsComplete : Prop :=
  (∀ w s, blkRun s .tape ≠ 0 → inLimp s = false → exec (.tpStart w) s = .next (written w (setNum s (blkIndex .tape) 1 3))) ∧
  (∀ w s, blkRun s .tape = 3 → exec (.tpStop w) s = .next (written w (setNum s (blkIndex .tape) 1 2))) ∧
  (∀ s, s.eng.tape.rounds.isEmpty = true → s.eng.tape.merges.isEmpty = true → blkRun s .tape = 2 → blkAccepted s .tape = 0 →
    (blkQueues s .tape).all (fun q => q.2.waiting.isEmpty) = true → exec .tpStopEnd s = .next (setNum s (blkIndex .tape) 1 1)) ∧
  (∀ w x s, vecRun s x < 2 → vecStartable s x = true →
    exec (.vecStart w x) s = .next (written w (startHints (runFlag (setNum s 0x2713 (x + 1) 3) 1) x))) ∧
  (∀ w x s, vecRun s x = 3 → exec (.vecStop w x) s = .next (written w (
    let u := setNum s 0x2713 (x + 1) 2
    setTape u { s.eng.tape with stopOrd := sput (fun _ => 0) s.eng.tape.stopOrd x s.acc.nextSeq }))) ∧
  (∀ d env z s, findDesc s d = some z → z.phase = 2 → z.ran = false → z.trap = none → z.members = [] → d.q.blk = .tape → descOp z = 0x30 →
    exec (.search d env) s = .next (finishSearch s d z env)) ∧
  (∀ index e w s, roundWaiting s index = e :: w → (findRound s index).isSome = false → 2 ≤ blkRun s .tape → serviceOn s = true →
    num s 0x2700 4 ≤ sumQueries (e :: w) → (areasBelow s index).isEmpty = true →
    exec (.roundOpen index) s = .next (
      let t := roundTake s index (e :: w)
      let u := forS t s (fun s e => setDesc s e.1.q { e.2 with phase := 3 })
      let u := if vecGraph u index then u else forS ((listsListed u index).filter (fun l => (vecEnt u index l).state != 0)) u (fun s l =>
        vecTouch s index 0 (vecCentOff + l * vecDim s index * 4) (vecDim s index * 4))
      let q := t.foldl (fun (r : List RoundQuery × State) e =>
        let z := roundQueries r.2 index e
        (r.1 ++ z.1, z.2)) (([] : List RoundQuery), u)
      let u := bump (serviceLaunches q.2 (t.map (fun e => e.1.q.part))) 0x2701 3
      setTape u { u.eng.tape with rounds := u.eng.tape.rounds ++ [{ index := index, queries := q.1, passes := roundPasses u index q.1 }] })) ∧
  (∀ index e r p s, findRound s index = some r → r.passes.find? (fun p => (vecEnt s index p.1).lane == e) = some p → (areasBelow s index).isEmpty = true → tapeOn s e = true →
    exec (.passStart index e) s = .next (
      let sel := p.2.filterMap (fun k => (r.queries[k]?).map (fun q => (k, q)))
      let z := runPass s index p.1 e (sel.map (·.2))
      let upd := (sel.map (·.1)).zip z.1
      setRound z.2 { r with
        passes := r.passes.erase p
        queries := ((upTo r.queries.length).zip r.queries).map (fun q => match upd.find? (fun u => u.1 == q.1) with | some u => u.2 | none => q.2) })) ∧
  (∀ index env r u s, findRound s index = some r → r.passes = [] →
    forS (r.queries.map (·.d)).eraseDups (setTape s { s.eng.tape with rounds := s.eng.tape.rounds.filter (fun q => q.index != index) })
      (fun s d => searchEnd s index r.queries d env) = u → stoppedAlone s u = none →
    exec (.roundEnd index env) s = .next (fin u)) ∧
  (∀ d env y s, tapeTaken s d 0x31 (insertForm s) y → vecRight s (bfld y.bytes 4 2) (searchCtx s d y.bytes env) true = true →
    exec (.insert d env) s = .next (runDesc s d (fun v =>
      let r := insertGo (bfld y.bytes 4 2) (searchCtx s d y.bytes env) y.bytes (upTo (bfld y.bytes 0x10 4)) 0 0 0 v
      ({ status := r.2.2.1, rcode := r.2.2.2.1, result := r.1 + r.2.1 * 2 ^ 32, missing := 0 }, bumpBy r.2.2.2.2 0x2701 6 r.1)))) ∧
  (∀ d env y l u s, tapeTaken s d 0x32 (fun _ b => deleteForm b) y → vecRight s (bfld y.bytes 4 2) (searchCtx s d y.bytes env) true = true →
    deleteRecords s (searchCtx s d y.bytes env) y.bytes = (l, u) → stopped s u d = none →
    l.any (fun q => decide (q.2.1 < vecNlist s (bfld y.bytes 4 2)) && (vecEnt s (bfld y.bytes 4 2) q.2.1).state == 2) = false →
    exec (.delete d env) s = .next (runDesc s d (fun _ =>
      let z := deleteGo (bfld y.bytes 4 2) l 0 0 u
      let off := l.any (fun q => q.2.2 == 0 && decide (q.2.1 < vecNlist s (bfld y.bytes 4 2)) && laneLost s (bfld y.bytes 4 2) q.2.1)
      let st := l.foldl (fun a q => firstStatus a q.2.2) (if off then 1 else 0)
      let rc := if z.2.2.1 ≠ 0 then z.2.2.1 else if off then 0x16 else if z.1 = 0 && z.2.1 ≠ 0 then 0x14 else 0
      ({ status := st, rcode := rc, result := z.1 + z.2.1 * 2 ^ 32, missing := 0 }, bumpBy z.2.2.2 0x2701 7 z.1)))) ∧
  (∀ d env y items u v z s, tapeTaken s d 0x33 (loadListForm s) y → vecRight s (bfld y.bytes 4 2) (searchCtx s d y.bytes env) true = true →
    bfld y.bytes 0x1C 1 ≠ 0xFF → s.eng.tape.merges.any (fun m => m.index == bfld y.bytes 4 2 && m.list == bfld y.bytes 0x10 4) = false →
    (laneIdle s (bfld y.bytes 0x1C 1) = true ∧ tapeOn s (bfld y.bytes 0x1C 1) = true) →
    loadItems s (searchCtx s d y.bytes env) y.bytes (vecCb s (bfld y.bytes 4 2)) = (items, 0, u) → stopped s u d = none →
    beginVersion u (bfld y.bytes 4 2) (bfld y.bytes 0x10 4) (bfld y.bytes 0x1C 1) items (some d) = some v → findDesc v d = some z →
    exec (.listLoad d env) s = .next (fin (setDesc v d.q { z with phase := 1, stalledAt := none }))) ∧
  (∀ d env y s, tapeTaken s d 0x34 (areaForm s) y → vecRight s (bfld y.bytes 4 2) (searchCtx s d y.bytes env) true = true → bfld y.bytes 1 1 = 3 →
    exec (.areaLoad d env) s = .next (runDesc s d (fun v =>
      let c := searchCtx s d y.bytes env
      let r := foldMapS (fun s k => let q := engRead s c (bfld y.bytes 8 8 + k * bfld y.bytes 0x18 4) 4; ((q.2.1, q.1), q.2.2)) v (upTo (bfld y.bytes 0x14 4))
      let st := r.1.foldl (fun m q => firstStatus m q.2) 0
      if st ≠ 0 then (ranStatus st, r.2)
      else ({ status := 0, rcode := 0, result := bfld y.bytes 0x14 4, missing := 0 },
        vecWrite r.2 (bfld y.bytes 4 2) (0 + bfld y.bytes 0x10 4 * 4) (r.1.flatMap (·.1)))))) ∧
  (∀ d y z s, tapeTaken s d 0x35 (mergeForm s) y → vecRight s (bfld y.bytes 4 2) (searchCtx s d y.bytes []) true = true → bfld y.bytes 0x10 4 ≠ 1 →
    s.eng.tape.mergeQ.contains (bfld y.bytes 4 2, bfld y.bytes 8 4) = false →
    findDesc (setTape s { s.eng.tape with mergeQ := s.eng.tape.mergeQ ++ [(bfld y.bytes 4 2, bfld y.bytes 8 4)] }) d = some z →
    exec (.merge d) s = .next (fin (setDesc (setTape s { s.eng.tape with mergeQ := s.eng.tape.mergeQ ++ [(bfld y.bytes 4 2, bfld y.bytes 8 4)] }) d.q
      { z with phase := 1 }))) ∧
  (∀ e x l u s, tapeOn s e = true → laneIdle s e = true → 2 ≤ blkRun s .tape →
    s.eng.tape.mergeQ.find? (fun q => (vecEnt s q.1 q.2).lane == e && vecRunRaw s q.1 != 0 && (vecEnt s q.1 q.2).state != 2) = some (x, l) →
    beginVersion s x l e (mergeItems s x l) none = some u →
    exec (.mergeStart e) s = .next (fin (setTape u { u.eng.tape with mergeQ := u.eng.tape.mergeQ.erase (x, l) }))) ∧
  (∀ x l m s, s.eng.tape.merges.find? (fun m => m.index == x && m.list == l) = some m → m.load = none →
    exec (.mergeSwap x l) s = .next (
      let e := vecEnt s x l
      let v := (e.version + 1) % 2 ^ 32
      let f : VecFree := { index := x, list := l, lane := e.lane, first := e.first, n := e.nbolts, bitmap := e.bitmap, pages := bitmapPages e.count,
                           chain := m.oldChain }
      let u := noteMerge (setVecEnt (setTape s { s.eng.tape with merges := s.eng.tape.merges.erase m, frees := s.eng.tape.frees ++ [f] }) x l
        { version := v, lane := m.lane, state := 1, first := m.first, nbolts := m.n, count := m.count, tombs := 0, chain := e.chain, bitmap := none32 }) x l
      fin (forS (mergesOf u x l m.since) (bump u 0x2701 8) (fun s d => endDesc s d 0 0 v 0)))) ∧
  (∀ x l f s, s.eng.tape.frees.find? (fun f => f.index == x && f.list == l) = some f →
    exec (.mergeFree x l) s = .next (wipePages (freeRun (setTape s { s.eng.tape with frees := s.eng.tape.frees.erase f }) f.index f.lane f.first f.n) f.index
      (chainOf s f.index f.chain ++ (if f.bitmap = none32 then [] else (upTo f.pages).map (f.bitmap + ·))))) ∧
  (∀ d y s, findDesc s d = some y → bfld y.bytes 1 1 = 1 → tapeTaken s d 0x36 (editForm s) y →
    vecRight s (bfld y.bytes 4 2) (searchCtx s d y.bytes []) true = true → bfld y.bytes 8 3 < vecNlist s (bfld y.bytes 4 2) →
    exec (.graphRetire d) s = .next (runDesc s d (fun v =>
      retireNode v (searchCtx s d y.bytes []) (bfld y.bytes 4 2) y.bytes (bfld y.bytes 8 3) (bfld y.bytes 0x0B 1) (vecNode v (bfld y.bytes 4 2) (bfld y.bytes 8 3))))) ∧
  (∀ d env y s, findDesc s d = some y → bfld y.bytes 1 1 = 2 → tapeTaken s d 0x36 (editForm s) y →
    vecRight s (bfld y.bytes 4 2) (searchCtx s d y.bytes env) true = true → bfld y.bytes 8 3 < vecNlist s (bfld y.bytes 4 2) →
    exec (.graphAdd d env) s = .next (runDesc s d (fun v =>
      addNode v (searchCtx s d y.bytes env) (bfld y.bytes 4 2) y.bytes (bfld y.bytes 8 3) (bfld y.bytes 0x0B 1) (vecNode v (bfld y.bytes 4 2) (bfld y.bytes 8 3))))) ∧
  (∀ d env y s, findDesc s d = some y → bfld y.bytes 1 1 = 3 → tapeTaken s d 0x36 (editForm s) y →
    vecRight s (bfld y.bytes 4 2) (searchCtx s d y.bytes env) true = true → bfld y.bytes 8 3 < vecNlist s (bfld y.bytes 4 2) →
    exec (.graphLink d env) s = .next (runDesc s d (fun v =>
      linkNode v (searchCtx s d y.bytes env) (bfld y.bytes 4 2) y.bytes (bfld y.bytes 8 3) (bfld y.bytes 0x0B 1) (vecNode v (bfld y.bytes 4 2) (bfld y.bytes 8 3)))))

/-- Each command of Treadle's block and launches completes where the spec lets it (R497 to R503, R492). -/
def Obligations.TreadleLaunchComplete : Prop :=
  (∀ w s, blkRun s .treadle ≠ 0 → inLimp s = false → exec (.tdStart w) s = .next (written w (setNum s (blkIndex .treadle) 1 3))) ∧
  (∀ w s, blkRun s .treadle = 3 → exec (.tdStop w) s = .next (written w (setNum s (blkIndex .treadle) 1 2))) ∧
  (∀ s, blkRun s .treadle = 2 → blkAccepted s .treadle = 0 → (blkQueues s .treadle).all (fun q => q.2.waiting.isEmpty) = true →
    exec .tdStopEnd s = .next (setNum s (blkIndex .treadle) 1 1)) ∧
  (∀ d env x st b u s, readyDesc s d 0x40 = some x → d.q.blk = .treadle → lnBad x.bytes = false →
    (upTo 8).any (fun a => bit (lnArrays x.bytes) a && bit s.sec.hem.treadleDisabled a) = false → readHeader s d x.bytes env = (st, b, u) → stopped s u d = none →
    (hdrOk b = true → hdrNeed b ≤ (mayUse (unstall u d) d x.bytes).length) →
    exec (.launch d env) s = .next (fin (setDesc (unstall u d) d.q { x with phase := 1, stalledAt := none }))) ∧
  (∀ d env x st b u l s, mayStart s d = some x → d.q.blk = .treadle → 2 ≤ blkRun s .treadle → descOp x = 0x40 → findLaunch s d = none → x.phase = 1 →
    earlierWaits s d x = false → turnOf s.eng.td.dealt (pnum s 0x4801) d.q.part (pickRivals s d.q.part) = true →
    readHeader s d x.bytes env = (st, b, u) → stopped s u d = none → hdrZero b = false → hdrOk b = true →
    l = reserveArrays (launchStatus (unstall u d) d st) (newLaunch d x.bytes) x.bytes (hdrParts b) → hdrNeed b ≤ l.arrays.length →
    exec (.launchPick d env) s = .next (
      let s1 := launchStatus (unstall u d) d st
      loadLaunch s (setTd s1 { s1.eng.td with launches := s1.eng.td.launches ++ [l], dealt := takeTurn s1.eng.td.dealt d.q.part (pickRivals s d.q.part) }) d x l b env)) ∧
  (∀ d l x s, findLaunch s d = some l → findDesc s d = some x → x.phase = 2 → l.started = false → lnSync x.bytes = true → lnStart x.bytes ≤ s.det.count →
    exec (.syncStartReached d) s = .next (startLaunch s l false)) ∧
  (∀ d l x s, findLaunch s d = some l → findDesc s d = some x → l.started = true → l.expired = false → partsEnded l = true → x.ran = false →
    exec (.launchEnd d) s = .next (fin (endDesc (dropLaunch s d) d x.status 0 (launchResult l) 0))) ∧
  (∀ d l x s, findLaunch s d = some l → findDesc s d = some x → l.started = true → x.ran = false → x.fault = none → partsEnded l = false →
    l.startedAt + usT (watchdogUs s x.bytes) + x.pausedT ≤ s.det.now →
    exec (.watchdogExpire d) s = .next (
      let missing := (upTo l.image.length).foldl (fun m p =>
        match sfind l.parts p with | some r => if r.ended then m else setBit m p | none => setBit m p) 0
      let u := forS (l.parts.filter (fun e => !e.2.ended)) s (fun s e => countCycles s d e.2.array)
      fin (endDesc (dropLaunch (bump u 0x2801 7) d) d 1 0x14 (launchResult ((findLaunch u d).getD l)) missing)))

/-- Each instruction of a Treadle program executes on its array when it is its unit's next (R469 to R485): the effect `f` of its class and operation is applied, and where that finishes the
instruction, it is done and counted. An instruction of memory does so when no translation fault holds its launch. -/
def Obligations.TreadleInstructionsComplete : Prop :=
  (∀ a c cls op f u j t s, (c, cls, op, f) ∈ ([(.tdMma a, 1, 0, tdMma false), (.tdMmaZero a, 1, 1, tdMma true), (.tdAccZero a, 2, 0, tdAccZero),
      (.tdAccCopy a, 2, 1, tdAccCopy), (.tdAccAdd a, 2, 2, tdAccAdd), (.tdAccLoad a, 2, 3, tdAccLoad), (.tdPull a, 2, 4, tdAccPull),
      (.tdCvt a, 3, 0, tdCvt), (.tdMuls a, 3, 1, fun s j => tdMapBank (fun _ _ x => f32mul x (tiImm j.w)) s j),
      (.tdAdds a, 3, 2, fun s j => tdMapBank (fun _ _ x => f32add x (tiImm j.w)) s j), (.tdRelu a, 3, 3, tdMapBank (fun _ _ x => reluWord x)),
      (.tdGelu a, 3, 4, tdMapBank (fun _ _ x => tdGelu x)), (.tdExp a, 3, 5, tdMapBank (fun _ _ x => tdExp x)), (.tdRmax a, 3, 6, tdReduce false),
      (.tdRsum a, 3, 7, tdReduce true), (.tdSubr a, 3, 8, tdMapVec (fun i _ x v => f32sub x (v i))), (.tdDivr a, 3, 9, tdMapVec (fun i _ x v => f32div x (v i))),
      (.tdAddv a, 3, 10, tdMapVec (fun _ k x v => f32add x (v k))), (.tdMulv a, 3, 11, tdMapVec (fun _ k x v => f32mul x (v k))), (.tdVload a, 3, 12, tdVload),
      (.tdItof a, 3, 13, tdMapBank (fun _ _ x => f32ofInt (toSigned 32 x))), (.tdWaitLocal a, 5, 0, tdWaitLocal), (.tdWaitLaunch a, 5, 1, tdWaitLaunch),
      (.tdSignalLaunch a, 6, 0, tdSignalLaunch)] : List (Instr × Nat × Nat × (State → TdJob → Bool × State))) →
    tdIssues s a cls op u j → f u j = (true, t) → engStopped t = false → exec c s = .next (fin (unstall (jobDone t j) j.l.d))) ∧
  (∀ a arrivals u j t s, tdIssues s a 2 5 u j → tdAccPullAny arrivals u j = (true, t) → engStopped t = false →
    exec (.tdPullAny a arrivals) s = .next (fin (unstall (jobDone t j) j.l.d))) ∧
  (∀ a env c cls op f x u j t s, (c, cls, op, f) ∈ ([(.tdLoadTile a env, 0, 0, tdLoad env), (.tdLoadScale a env, 0, 1, tdLoad env),
      (.tdStoreTile a, 4, 0, tdStore), (.tdStoreScale a, 4, 1, tdStore), (.tdWaitMem a env, 5, 2, tdWaitMem env),
      (.tdSignalStore a, 6, 1, tdSignalMem false), (.tdSignalAdd a, 6, 2, tdSignalMem true)] : List (Instr × Nat × Nat × (State → TdJob → Bool × State))) →
    tdIssues s a cls op u j → findDesc u j.l.d = some x → x.trap = none → x.heldEnd = none → f u j = (true, t) → engStopped t = false →
    exec c s = .next (fin (unstall (jobDone t j) j.l.d))) ∧
  (∀ a l u v j s, tdIssues s a 7 0 u j → tdEarlierDone u j = true →
    countCycles (setRun u j.l.d j.p { curRun u j with ended := true }) j.l.d a = v → findLaunch v j.l.d = some l →
    engStopped (setLaunch (dealParts v l).2 (dealParts v l).1) = false →
    exec (.tdEnd a) s = .next (fin (unstall (jobDone (setLaunch (dealParts v l).2 (dealParts v l).1) j) j.l.d)))

/-- Each command of Shuttle and of the barriers completes where the spec lets it (R509 to R548): a piece is dealt and runs, a reduction sends its stage, a wait polls, an arrival count is
sent, a group is set, a barrier starts, stops, is aborted and times out. -/
def Obligations.ShuttleCommandsComplete : Prop :=
  (∀ w s, blkRun s .shuttle ≠ 0 → inLimp s = false → exec (.shStart w) s = .next (written w (setNum s (blkIndex .shuttle) 1 3))) ∧
  (∀ w s, blkRun s .shuttle = 3 → exec (.shStop w) s = .next (written w (setNum s (blkIndex .shuttle) 1 2))) ∧
  (∀ s, blkRun s .shuttle = 2 → blkAccepted s .shuttle = 0 → (blkQueues s .shuttle).all (fun q => q.2.waiting.isEmpty) = true →
    exec .shStopEnd s = .next (setNum s (blkIndex .shuttle) 1 1)) ∧
  (∀ d e x s, mayStart s d = some x → d.q.blk = .shuttle → 2 ≤ blkRun s .shuttle → pieceless x = false → x.dealt.length < shPieces x →
    earlierPieces s d.q.part x = false → shEngineOn s e = true → bit (pnum s 0x4900 d.q.part) e = true → shContexts s e < 4096 →
    turnOf s.eng.shDealt (pnum s 0x4901) d.q.part (pieceRivals s d.q.part) = true →
    exec (.pieceDeal d e) s = .next (setDesc { s with eng := { s.eng with shDealt := takeTurn s.eng.shDealt d.q.part (pieceRivals s d.q.part) } } d.q { x with dealt := x.dealt ++ [(x.dealt.length, e)], ranAt := s.det.now })) ∧
  (∀ d p env x e s, shReady s d 0x50 = some x → copyBad x.bytes = false → dealtPiece s x p = some e →
    exec (.copy d p env) s = .next (partDesc s d (fun s => endShuttle (runPiece (if x.doneP.isEmpty then bump s 0x2901 1 else s) d x p e env) d))) ∧
  (∀ d p env x e s, shReady s d 0x51 = some x → copyBad x.bytes = false → x.group.isEmpty = false → dealtPiece s x p = some e →
    exec (.mcast d p env) s = .next (partDesc s d (fun s => endShuttle (runPiece (if x.doneP.isEmpty then bump s 0x2901 2 else s) d x p e env) d))) ∧
  (∀ d p env x e s, shReady s d 0x52 = some x → reduceDescBad x.bytes = false → cpTree x.bytes = false → reduceV x.bytes = false →
    dealtPiece s x p = some e →
    exec (.shReduce d p env) s = .next (partDesc s d (fun s => endShuttle (runReduce (if x.doneP.isEmpty then bump s 0x2901 3 else s) d x p e env) d))) ∧
  (∀ d env x e s, shReady s d 0x52 = some x → reduceDescBad x.bytes = false → cpTree x.bytes = true → x.phase = 0 → dealtPiece s x 0 = some e →
    exec (.shReduceTree d env) s = .next (if (treeChildren x.bytes).isEmpty then partDesc s d (fun s => endShuttle (stageSend (bump s 0x2901 3) d x e env) d)
      else setDesc (bump s 0x2901 3) d.q { x with phase := 1, ranAt := s.det.now })) ∧
  (∀ d env x e s, shReady s d 0x52 = some x → dealtPiece s x 0 = some e → x.phase = 1 →
    exec (.stageCounterReached d env) s = .next (partDesc s d (fun s =>
      let c := shCtx s d x.bytes e false (shDest 0 0 0) env
      let own := peerEntry s c x.bytes (rdRank x.bytes)
      let v := engReadNat own.2.2 c own.2.1 8
      if readGood v.1 && decide (rdExpect x.bytes ≤ v.2.1) then endShuttle (stageSend v.2.2 d x e env) d else v.2.2))) ∧
  (∀ d x s, shReady s d 0x52 = some x → x.phase = 1 → x.doneP.isEmpty = true → x.ranAt + x.stageT ≤ s.det.now →
    exec (.stageWaitTimeout d) s = .next (denyDesc s d (ranCode 1 0x15))) ∧
  (∀ d env x s, shReady s d 0x53 = some x → waitBad x.bytes = false → x.phase = 0 →
    exec (.shWait d env) s = .next (partDesc s d (fun s =>
      let u := setDesc (bump s 0x2901 9) d.q { x with phase := 1, ranAt := s.det.now, polledAt := s.det.now }
      let v := engReadNat u (shCtx u d x.bytes 0 (bit (bfld x.bytes 2 2) 0) 0 env) (bfld x.bytes 8 8) 8
      if !readGood v.1 then v.2.2
      else if bfld x.bytes 0x10 8 ≤ v.2.1 then endDesc v.2.2 d 0 0 v.2.1 0
      else match findDesc v.2.2 d with | some y => setDesc v.2.2 d.q { y with result := v.2.1 } | none => v.2.2))) ∧
  (∀ d x s, shReady s d 0x53 = some x → x.phase = 1 → x.ranAt + waitBound x ≤ s.det.now →
    exec (.waitTimeout d) s = .next (denyDesc (bump s 0x2901 0x0A) d { status := 1, rcode := 0x16, result := x.result, missing := 0 })) ∧
  (∀ d dest x a s, findDesc s d = some x → x.arr.find? (fun a => a.dest == dest) = some a → a.since + usT 2 ≤ s.det.now → 0 < a.due ∧ a.due < 65536 →
    exec (.arrivalAdd d dest) s = .next (
      let arr := x.arr.map (fun y => if y.dest == dest then { y with due := y.due - a.due, since := s.det.now } else y)
      let u := setDesc s d.q { x with arr := arr, waitRemote := x.waitRemote + 1 }
      fin (submitVia (if d.q.blk == .shuttle then bump u 0x2901 5 else u) a.vpn (blkCode d.q.blk + 1) a.unit a.cid a.addr
        (.atomic .add 3 0 0 (toLe 8 a.due)) (.descAdd d.q d.pos dest)))) ∧
  (∀ w g v s, g < 256 → v.length = 144 → 1 ≤ bfld v 8 1 → bfld v 8 1 ≤ 64 → bfld v 9 7 = 0 →
    (((upTo (bfld v 8 1)).map (fun k => bfld v (16 + 2 * k) 2)).eraseDups).length = bfld v 8 1 → (v.drop (16 + 2 * bfld v 8 1)).any (fun y => y != 0) = false →
    exec (.mcastGroup w g v) s = .next (written w (setArrBlob s 0x2920 g v))) ∧
  (∀ w b s, b < 256 → barRunning s b = false → barStartOk s b = true → exec (.barStart w b) s = .next (written w (setArrNum (setBar s b { getBar s b with
    episode := 1, arrived := [], openedAt := s.det.now, timedOut := false, completed := 0, lasts := [], suspects := [] }) 0x2936 b 3))) ∧
  (∀ w b s, b < 256 → barRunning s b = true → exec (.barStop w b) s = .next (written w (setArrNum (barAbort s b) 0x2936 b 1))) ∧
  (∀ w b s, b < 256 → barRunning s b = true → exec (.barAbort w b) s = .next (written w (barAbort s b))) ∧
  (∀ h b v s, exec (.barArrive h b v) s = .next (fin (cwStore s h (0x180000 + b % 256 * 8) (v % 2 ^ 64)))) ∧
  (∀ b s, b < 256 → barRunning s b = true → barTimeout s b ≠ 0 → (getBar s b).timedOut = false → (getBar s b).openedAt + msT (barTimeout s b) ≤ s.det.now →
    exec (.barTimeout b) s = .next (
      let missing := (upTo (barN s b)).filter (fun r => !(getBar s b).arrived.contains r)
      let u := setBar s b { getBar s b with timedOut := true, timeouts := ((getBar s b).timeouts + 1) % 65536 }
      let u := noteFault u 0x24 (resId 13 b) (barOwner u b) 0xFF 0 (toLe 2 missing.length ++ zeros 6 ++ toLe 128 (missing.foldl setBit 0))
      latch u (partSource (barOwner u b) 3)))

/-- Each command that starts and stops the ports, or takes a port through its states to ACTIVE, completes where the spec lets it (R551 to R594, R618, R619). -/
def Obligations.PortBringUpComplete : Prop :=
  (∀ w s, num s 0x2200 2 = 1 → s.pwr.sledGone = false →
    exec (.portsStart w) s = .next (written w (forS (upTo 32) (setNum s 0x2100 1 3) (fun s p => releasePad s (112 + p))))) ∧
  (∀ w s, num s 0x2100 1 = 3 → exec (.portsStop w) s = .next (written w (portsStopEnd (forS (trfPorts s) (setNum s 0x2100 1 2)
    (fun s p => if portState s p = 7 || portState s p = 8 then portDetach s p else s))))) ∧
  (∀ w v s, v.length = 2 → portsRun s < 2 → exec (.joinEpoch w v) s = .next (written w (
    let u := commitMap s (leNat v)
    { u with route := { u.route with prev := none } }))) ∧
  (∀ w p s, p < 32 → mayAttach s p = true → exec (.portAttach w p) s = .next (written w (if portCompat s p then setPState s p 11 else startDetect s p true))) ∧
  (∀ w p s, p < 32 → s.coh.agents.any (fun e => e.2.v && e.2.port == p) = false → portCompat s p = false → (portState s p = 7 ∨ portState s p = 8) →
    exec (.portDetach w p) s = .next (written w (portDetach s p))) ∧
  (∀ w p s, p < 32 → exec (.portRetrainCmd w p) s = .next (written w (startRetrain s p 4))) ∧
  (∀ w p s, p < 32 → portState s p ≠ 0 → portState s p ≠ 1 → portState s p ≠ 10 →
    exec (.portForceDown w p) s = .next (written w (portDown s p 15 (!portCompat s p && (portState s p == 7 || portState s p == 9))))) ∧
  (∀ p s, p < 32 → num s 0x2105 (p + 1) = 1 → mayAttach s p = true → reattachQueued s p = false → (getPort s p).pollAt + msT (num s 0x2100 10) ≤ s.det.now →
    exec (.attachPoll p) s = .next (attach (setPort s p { getPort s p with pollAt := s.det.now }) p false)) ∧
  (∀ p lanes s, p < 32 → (getPort s p).stage = 2 → portState s p = 2 → (fld lanes 0 4 = 15 ∨ fld lanes 4 4 = 15) →
    exec (.detectDone p lanes) s = .next (setPState (setPort s p { getPort s p with stage := 3 }) p 3)) ∧
  (∀ p s, p < 32 → (getPort s p).stage = 3 → (portState s p = 3 ∨ portState s p = 8) → exec (.pollDone p) s = .next (startEq s p)) ∧
  (∀ p s, p < 32 → portState s p = 3 → (getPort s p).since + msT 4 ≤ s.det.now → exec (.pollTimeout p) s = .next (fin (portDown s p 2 false))) ∧
  (∀ p s, p < 32 → portState s p = 4 → (getPort s p).since + msT 30 ≤ s.det.now → exec (.eqTimeout p) s = .next (fin (eqFail s p))) ∧
  (∀ p lanes good pg s, p < 32 → (getPort s p).stage = 4 → portState s p = 4 → (getPort s p).phase < 3 →
    exec (.eqPhaseEnd p lanes good pg) s = .next (setPort (setBlob s 0x210B (p + 1) ((upTo 8).flatMap (fun l =>
        match lanes[l]? with
        | some e => eqLane (eqBlob s p) l (getPort s p).phase (num s 0x210A (p + 1) == 1) e
        | none => slice (eqBlob s p) (12 * l) 12))) p { getPort s p with phase := (getPort s p).phase + 1 })) ∧
  (∀ p lanes good pg s, p < 32 → (getPort s p).stage = 4 → portState s p = 4 → 3 ≤ (getPort s p).phase → widthOf (good.land pg) ≠ 0 →
    exec (.eqPhaseEnd p lanes good pg) s = .next (fin (enterFit (setPort (setBlob s 0x210B (p + 1) ((upTo 8).flatMap (fun l =>
        if bit good l then slice (eqBlob s p) (12 * l) 12 else bset (slice (eqBlob s p) (12 * l) 12) 5 1 3))) p
      { getPort s p with good := good % 256, history := true }) p))) ∧
  (∀ p b s, p < 32 → exec (.fit p b) s = .next (fin (takeFit s p b))) ∧
  (∀ p s, p < 32 → portState s p = 5 → (getPort s p).since + msT 1 ≤ s.det.now → exec (.fitTimeout p) s = .next (fin (portDown s p 7 false))) ∧
  (∀ p b s, p < 32 → exec (.keyPart1 p b) s = .next (fin (takePart1 s p b))) ∧
  (∀ p b s, p < 32 → exec (.keyPart2 p b) s = .next (fin (takePart2 s p b))) ∧
  (∀ p k s, (getPort s p).keyEx = some k → portState s p = 6 → k.sentAt + usT 10 ≤ s.det.now →
    exec (.keyResend p) s = .next (sendLink (setPort s p { getPort s p with keyEx := some { k with sentAt := s.det.now } }) p 2 k.mine)) ∧
  (∀ p s, p < 32 → portState s p = 6 → (getPort s p).since + msT 50 ≤ s.det.now → exec (.keyTimeout p) s = .next (fin (portDown s p 8 false)))

/-- Each LINK flit and each event of an ACTIVE, retraining or detaching port completes where the spec lets it (R561, R583 to R594). -/
def Obligations.PortLinkComplete : Prop :=
  (∀ p l lane post up s, p < 32 → (portState s p = 7 ∨ portState s p = 8 ∨ portState s p = 9) → linkRefused s p l = false →
    exec (.eqReq p l lane post up) s = .next (fin (
      let u := takeLinkHdr (portCount s p 8 1) p l
      let frozen := num u 0x210A (p + 1) == 1
      sendLink (if frozen || 8 ≤ lane then u else eqStep u p lane post up) p 4 (toLe 1 lane ++ toLe 1 (b2n post + 2 * b2n up + 4 * b2n frozen))))) ∧
  (∀ p l lane r s, p < 32 → (portState s p = 7 ∨ portState s p = 8 ∨ portState s p = 9) → linkRefused s p l = false →
    exec (.eqAck p l lane r) s = .next (fin (takeLinkHdr (portCount s p 8 1) p l))) ∧
  (∀ p l s, p < 32 → (portState s p = 7 ∨ portState s p = 8 ∨ portState s p = 9) → linkRefused s p l = false →
    exec (.retrainReq p l) s = .next (fin (startRetrain (takeLinkHdr (portCount s p 8 1) p l) p 3))) ∧
  (∀ p l r s, p < 32 → (portState s p = 7 ∨ portState s p = 8 ∨ portState s p = 9) → linkRefused s p l = false →
    exec (.downNotice p l r) s = .next (fin (portDown (takeLinkHdr (portCount s p 8 1) p l) p 14 false))) ∧
  (∀ p s, p < 32 → exec (.lossOfSignal p) s = .next (fin (startRetrain s p 2))) ∧
  (∀ p lane mv post up s, p < 32 → lane < 8 → mv < 20 → portState s p = 7 → num s 0x210A (p + 1) ≠ 1 → sfind (getPort s p).eqAsked lane = none →
    exec (.eyeHeightLow p lane mv post up) s = .next (sendLink (setPort (setBlob s 0x210B (p + 1) (bset (eqBlob s p) (12 * lane + 6) 2 mv)) p
      { getPort s p with eqAsked := sset (getPort s p).eqAsked lane s.det.now }) p 3 (toLe 1 lane ++ toLe 1 (b2n post + 2 * b2n up)))) ∧
  (∀ p s, p < 32 → portState s p = 8 → (getPort s p).since + msT (num s 0x2100 8) ≤ s.det.now →
    exec (.retrainTimeout p) s = .next (fin (portDown s p 10 false))) ∧
  (∀ p s, p < 32 → ((getPort s p).detach = 1 ∨ (getPort s p).detach = 3) → portState s p = 9 → (getPort s p).detachAt + msT (num s 0x2100 9) ≤ s.det.now →
    exec (.detachTimeout p) s = .next (fin (portDown s p 13 (!portCompat s p && portState s p = 9))))

/-- Each data, idle and control flit, and each event of flit sending, completes on a port that takes flits (R571 to R581, R592, R593, R621, R622). -/
def Obligations.PortFlitsComplete : Prop :=
  (∀ p f s, takesFlits s p = true → exec (.dataFlit p f) s = .next (fin (takeData s p f))) ∧
  (∀ p f s, takesFlits s p = true → exec (.idleFlit p f) s = .next (fin (takeIdle s p f))) ∧
  (∀ p s, takesFlits s p = true → (getPort s p).replay.isEmpty = false → (getPort s p).ackAt + num s 0x2100 6 / 10 ≤ s.det.now →
    exec (.ackTimeout p) s = .next (fin (replayFrom s p))) ∧
  (∀ p s, takesFlits s p = true → exec (.flitBoundary p) s = .next (fin (detachStep (flitBoundary s p) p))) ∧
  (∀ p src tag loc s, takesFlits s p = true → exec (.ping p src tag loc) s = .next (fin (sendCtl s p 2 tag src loc []))) ∧
  (∀ p tag s, takesFlits s p = true →
    exec (.pong p tag) s = .next (fin (setPort s p { getPort s p with pings := (getPort s p).pings.filter (fun t => t != tag) }))) ∧
  (∀ p mask s, takesFlits s p = true → exec (.quiesce p mask) s = .next (fin (takeQuiesce s p mask))) ∧
  (∀ p s, takesFlits s p = true → exec (.resume p) s = .next (fin (takeResume s p))) ∧
  (∀ p s, takesFlits s p = true → portState s p = 7 → exec (.detachReq p) s = .next (fin (detachStep (setPState (setPort s p
    { getPort s p with detach := 2, ackOut := false, quiesce := 0xE2 }) p 9) p))) ∧
  (∀ p s, takesFlits s p = true → ((getPort s p).detach = 1 ∨ (getPort s p).detach = 3) → exec (.detachAck p) s = .next (fin (detachStep (setPort s p { getPort s p with ackIn := true }) p))) ∧
  (∀ p nonce gen k s, takesFlits s p = true → (getPort s p).rxKey = some k → gen % 2 ^ 32 = (k.gen + 1) % 2 ^ 32 →
    exec (.keyUpdate p nonce gen) s = .next (fin (
      let f := freshFree s
      let u := keysGone (keysMade (bump f.2 0x2A10 3) 1) (b2n (getPort s p).rxOld.isSome)
      setPort u p { getPort s p with rxOld := some k, rxKey := some (rekeyed u p (!sideA u p) f.1 nonce (gen % 2 ^ 32)) }))) ∧
  (∀ p k s, takesFlits s p = true → num s 0x2A21 1 = 0 → (getPort s p).txKey = some k → (getPort s p).txOld = none → (getPort s p).updateKey = none → num s 0x2A10 1 ≤ k.count →
    exec (.rekeyDue p) s = .next (
      let n := drawBytes s 28
      let f := freshFree n.2
      let new := rekeyed s p (sideA s p) f.1 n.1 ((k.gen + 1) % 2 ^ 32)
      let u := setPort (keysMade f.2 1) p { getPort s p with updateKey := some new }
      sendCtl u p 7 0 (partnerEp u p) true (n.1 ++ toLe 4 new.gen))) ∧
  (∀ p k s, (getPort s p).txKey = some k → 2 ^ 63 ≤ k.count → exec (.counterExhausted p) s = .next (fin (portDown s p 8 true))) ∧
  (∀ p ep code unit data s, takesFlits s p = true → exec (.notice p ep code unit data) s = .next (fin (takeNotice s p ep code unit data)))

/-- Each request of a host, and each event of a compatibility port, completes where the port is up and its link security allows it (R147, R292, R555, R597, R600). -/
def Obligations.HostTrafficComplete : Prop :=
  (∀ p tag bar off len s, hostUp s p = true → 1 ≤ len → len ≤ 4096 → ideMissing s p 1 = false →
    exec (.pcieMemRead p tag bar off len) s = .next (fin (hostRead s p tag bar off len))) ∧
  (∀ p off d relaxed a s, hostUp s p = true → d ≠ [] → d.length ≤ 512 → ideMissing s p 1 = false → barPlace s p 0 off = .local_ a →
    exec (.pcieMemWrite p 0 off d relaxed) s = .next (fin (arrive (noteHost s p 65536 17) (hostHead s p 65536 a) (.store (slice d 0 d.length) false)))) ∧
  (∀ p tag addr s, hostUp s p = true → num s 0x2101 (p + 1) = 3 → ideMissing s p 2 = false → alignDown addr 64 < apertureSize s p →
    exec (.cxlMemRd p tag addr) s = .next (fin (arrive (noteHost s p tag 18) (hostHead s p tag (apertureBase s p + alignDown addr 64)) (.load 64)))) ∧
  (∀ p tag addr d en s, hostUp s p = true → num s 0x2101 (p + 1) = 3 → ideMissing s p 2 = false → alignDown addr 64 < apertureSize s p → (runsOf en).isEmpty = false →
    exec (.cxlMemWr p tag addr d en) s = .next (fin (
      let n := (runsOf en).length
      let u := forS (upTo n) s (fun s k => noteHost s p tag (if k + 1 = n then 19 else 17))
      forS (runsOf en) u (fun s e => arrive s (hostHead s p tag (apertureBase s p + alignDown addr 64 + e.1)) (.blk 0 false false 0 (slice d e.1 e.2) false))))) ∧
  (∀ p tag cpl poison d i s, p < 32 → portCompat s p = true → portState s p = 12 →
    s.acc.issued.find? (fun i => i.sent && i.port == p && i.wire == some (p * 4096 + tag % 4096)) = some i → cpl = 0 → opReads i.req.op = true →
    exec (.pcieCompletion p tag cpl poison d) s = .next (fin (detachStep
      (finishIssued (meterPort s 0x4D0A (cidPart i.req.head.cid) (16 + d.length)) i (if poison then 2 else 0) (slice d 0 (opLen i.req.op))) p))) ∧
  (∀ p space off v s, hostUp s p = true → exec (.pcieConfigRequest p true space off v) s = .next (setPort s p { getPort s p with host := { (getPort s p).host with
    regs := sput (fun _ => 0) (getPort s p).host.regs (space % 3 * 65536 + alignDown (off % 65536) 4) (v % 2 ^ 32) } })) ∧
  (∀ p space off v s, hostUp s p = true → exec (.pcieConfigRequest p false space off v) s = .next { s with
    out := .hostAnswer p (space % 3 * 65536 + alignDown (off % 65536) 4) (toLe 4 (cfgRead s p (space % 3) (alignDown (off % 65536) 4))) :: s.out }) ∧
  (∀ p s, hostUp s p = true → exec (.flr p) s = .next (functionReset s p)) ∧
  (∀ p ltssm gen width s, p < 32 → portCompat s p = true → portState s p = 11 →
    exec (.compatLinkState p ltssm true gen width false) s = .next (
      let b := slice (blob s 0x2111 (p + 1)) 0 32
      let u := setBlob s 0x2111 (p + 1) (bset (bset (bset (bset b 0 1 ltssm) 1 1 gen) 2 1 width) 3 1 0)
      let l := slice (blob u 0x2109 (p + 1)) 0 48
      setPState (setBlob u 0x2109 (p + 1) (bset (bset (bset (bset l 0 1 3) 1 1 width) 2 1 (b2n (bit u.sec.hem.portOuter p))) 3 1 gen)) p 12))

/-- Each SPDM, IDE_KM and CXL mailbox request of a host is answered where its port is up, in the state of the exchange that the request needs (R595, R623). -/
def Obligations.HostSecurityComplete : Prop :=
  (∀ p s, hostUp s p = true → exec (.spdmGetVersion p) s = .next (hostSays (setHost s p (fun h => { h with spdm := 1 })) p (doeCode 0x04) (toLe 1 0x12))) ∧
  (∀ p s, hostUp s p = true → (getPort s p).host.spdm = 1 → exec (.spdmGetCapabilities p) s = .next (hostSays (setHost s p (fun h => { h with spdm := 2 })) p (doeCode 0x61)
    ([0x84, 0xE1, 0xE3, 0x81, 0x82, 0x83, 0xE0, 0xE4, 0xE5, 0xEC].flatMap (toLe 1)))) ∧
  (∀ p s, hostUp s p = true → (getPort s p).host.spdm = 2 → exec (.spdmNegotiateAlgorithms p true) s = .next (hostSays (setHost s p (fun h => { h with spdm := 3 })) p
    (doeCode 0x63) (toLe 4 0x80 ++ toLe 4 2 ++ toLe 2 0x10 ++ toLe 2 2))) ∧
  (∀ p s, hostUp s p = true → (getPort s p).host.spdm = 3 → exec (.spdmGetDigests p) s = .next (hostSays s p (doeCode 0x01) (toLe 1 1 ++ sha384 (certChain s)))) ∧
  (∀ p off len s, hostUp s p = true → (getPort s p).host.spdm = 3 → exec (.spdmGetCertificate p 0 off len) s = .next (
    let n := min len ((certChain s).length - off)
    hostSays s p (doeCode 0x02) (toLe 2 n ++ toLe 2 ((certChain s).length - off - n) ++ slice (certChain s) off n))) ∧
  (∀ p s, hostUp s p = true → (getPort s p).host.spdm = 3 → exec (.spdmChallenge p 0) s = .next (
    hostSays (drawBytes s 128).2 p (doeCode 0x03) (sha384 (certChain s) ++ (drawBytes s 128).1))) ∧
  (∀ p i s, hostUp s p = true → (getPort s p).host.spdm = 3 → 1 ≤ i → i ≤ 3 →
    exec (.spdmGetMeasurements p i false) s = .next (hostSays s p (doeCode 0x60) (measurement s i)) ∧
    exec (.spdmGetMeasurements p i true) s = .next (hostSays (drawBytes s 128).2 p (doeCode 0x60) (measurement s i ++ (drawBytes s 128).1))) ∧
  (∀ p s, hostUp s p = true → (getPort s p).host.spdm = 3 → (getPort s p).host.handshake = false → (getPort s p).host.session = false → num s 0x2A21 1 = 0 →
    exec (.spdmKeyExchange p 0) s = .next (
      hostSays (keysMade (setHost (drawBytes s 224).2 p (fun h => { h with handshake := true })) 1) p (doeCode 0x64) (drawBytes s 224).1)) ∧
  (∀ p s, hostUp s p = true → (getPort s p).host.spdm = 3 → (getPort s p).host.handshake = true →
    exec (.spdmFinish p true) s = .next (hostSays (setHost s p (fun h => { h with handshake := false, session := true })) p (doeCode 0x65) [])) ∧
  (∀ p s, hostUp s p = true → (getPort s p).host.spdm = 3 → (getPort s p).host.session = true →
    exec (.spdmEndSession p) s = .next (hostSays (keysGone (setHost s p (fun h => { h with session := false })) 1) p (doeCode 0x6C) [])) ∧
  (∀ p s, hostUp s p = true → (getPort s p).host.session = true →
    exec (.ideKmQuery p) s = .next (hostSays s p (kmCode 1) (toLe 1 p ++ toLe 1 1 ++ toLe 1 (b2n (num s 0x2101 (p + 1) == 3))))) ∧
  (∀ p cxl tx s, hostUp s p = true → (getPort s p).host.session = true → (cxl = true → num s 0x2101 (p + 1) = 3) →
    (getPort s p).host.ideKeys.contains (ideKey cxl tx) = false →
    exec (.ideKmKeyProg p cxl tx) s = .next (hostSays (setHost s p (fun h => { h with ideKeys := ninsert h.ideKeys (ideKey cxl tx) })) p (kmCode 3) (toLe 1 0))) ∧
  (∀ p cxl tx s, hostUp s p = true → (getPort s p).host.session = true → (cxl = true → num s 0x2101 (p + 1) = 3) →
    (getPort s p).host.ideKeys.contains (ideKey cxl tx) = true →
    exec (.ideKmKSetGo p cxl tx) s = .next (hostSays (ideSettle (setHost s p (fun h => { h with ideGo := ninsert h.ideGo (ideKey cxl tx) })) p) p (kmCode 6)
      (toLe 1 (ideKey cxl tx)))) ∧
  (∀ p cxl tx s, hostUp s p = true → (getPort s p).host.session = true → (cxl = true → num s 0x2101 (p + 1) = 3) →
    exec (.ideKmKSetStop p cxl tx) s = .next (hostSays (ideSettle (setHost s p (fun h => { h with ideGo := h.ideGo.filter (fun x => x != ideKey cxl tx) })) p) p (kmCode 6)
      (toLe 1 (ideKey cxl tx)))) ∧
  (∀ p s, hostUp s p = true → num s 0x2101 (p + 1) = 3 → exec (.identifyMemoryDevice p) s = .next (hostSays (mailFree s 19).2 p (mailCode 0x4000)
    (slice (blob s 0x1003 1) 0 16 ++ toLe 8 (capacity256 s p) ++ toLe 8 (capacity256 s p) ++ zeros 16 ++ (mailFree s 19).1))) ∧
  (∀ p s, hostUp s p = true → num s 0x2101 (p + 1) = 3 → exec (.getSupportedLogs p) s = .next (hostSays s p (mailCode 0x0400) (toLe 2 1 ++ zeros 6 ++
    ([0x0d, 0xa9, 0xc0, 0xb5, 0xbf, 0x41, 0x4b, 0x78, 0x8f, 0x79, 0x96, 0xb1, 0x62, 0x3b, 0x3f, 0x17].flatMap (toLe 1)) ++ toLe 4 effectsLog.length))) ∧
  (∀ p off len s, hostUp s p = true → num s 0x2101 (p + 1) = 3 →
    exec (.getLog p off len) s = .next (hostSays s p (mailCode 0x0401) (slice effectsLog off (min len (effectsLog.length - off))))) ∧
  (∀ p s, hostUp s p = true → num s 0x2101 (p + 1) = 3 → exec (.getEventRecords p) s = .next (hostSays s p (mailCode 0x0100)
    (toLe 2 (getPort s p).host.events.length ++ (getPort s p).host.events.flatMap (fun e => toLe 1 e.status ++ toLe 8 e.addr)))) ∧
  (∀ p n s, hostUp s p = true → num s 0x2101 (p + 1) = 3 →
    exec (.clearEventRecords p n) s = .next (hostSays (setHost s p (fun h => { h with events := h.events.drop n })) p (mailCode 0x0101) [])) ∧
  (∀ p s, hostUp s p = true → num s 0x2101 (p + 1) = 3 → exec (.getHealthInfo p) s = .next (hostSays (mailFree s 18).2 p (mailCode 0x4200) (mailFree s 18).1)) ∧
  (∀ p s, hostUp s p = true → num s 0x2101 (p + 1) = 3 →
    exec (.getPartitionInfo p) s = .next (hostSays s p (mailCode 0x4100) (toLe 8 (capacity256 s p) ++ zeros 24)))

/-- Each command of partitions, keys and fuses completes where the spec lets it (R604 to R615, R624). -/
def Obligations.PartitionCommandsComplete : Prop :=
  (∀ w v s, v.length = 1 → leNat v < s.sec.hem.maxPartitions → (getPart s (leNat v)).st = 0 → num s 0x2A21 1 = 0 →
    exec (.partCreate w v) s = .next (written w (createPart s (leNat v)))) ∧
  (∀ w v s, v.length = 1 → leNat v ≠ 0 → (getPart s (leNat v)).st = 1 → exec (.partRemove w v) s = .next (written w (fencePart s (leNat v)))) ∧
  (∀ p s, (getPart s p).st = 2 → (partDrained s p = true ∨ (getPart s p).fencedT + msT (num s 0x2A00 3) ≤ s.det.now) →
    exec (.partDrainEnd p) s = .next (fin (endDrain s p))) ∧
  (∀ p s, (getPart s p).st = 3 → s.tier.freed.any (fun f => f.part == p) = false → s.regions.any (fun e => e.2.releasing && e.2.owner == p) = false →
    exec (.partScrubEnd p) s = .next (setPartState s p { getPart s p with st := 0 })) ∧
  (∀ tier slot s, num s 0x2000 1 = 0 → exec (.slotScrubbed tier slot) s = .next (fin (scrubSlot s tier slot))) ∧
  (∀ w p v s, v.length = 2 → bit (leNat v) 0 = false → bit (leNat v) 1 = false → (leNat v).land s.sec.hem.hearthDisabled = 0 →
    s.sec.parts.any (fun e => e.1 != p && (e.2.st == 1 || e.2.st == 2) && (leNat v).land (pnum s 0x4A01 e.1) != 0) = false → (getPart s p).st = 1 →
    exec (.partHearth w p v) s = .next (written w (
      let old := pnum s 0x4A01 p
      let u := forS ((maskCores old).filter (fun c => !bit (leNat v) c)) s (fun s c => stopCore (bellRemoveCore s p c) c)
      let u := setPnum u 0x4A01 p (leNat v)
      forS ((maskCores (leNat v)).filter (fun c => !bit old c)) u (fun s c => startCore s c (pnum s 0x4A02 p))))) ∧
  (∀ w s, exec (.violSticky w [0]) s = .next (written w (setBlob (setNum s 0x2A20 1 0) 0x2A20 3 (zeros 48)))) ∧
  (∀ w v s, v.length = 4 → leNat v = num s 0x1003 8 → s.sec.hem.debugLock = 0 ∨ s.sec.hem.debugLock = 2 →
    exec (.debugUnlock w v) s = .next (written w s)) ∧
  (∀ w v u s, writeDebugUnlock s v = .done 0 0 u → exec (.debugUnlock w v) s = .next (written w u)) ∧
  (∀ w v s, v.length = 4 → s.sec.hem.arbFirmwareFuse < leNat v → leNat v ≤ 64 → leNat v ≤ num s 0x1003 3 → leNat v ≤ imageSecurity s (imageOff (otherImage s)) →
    exec (.arbAdvanceFw w v) s = .next (written w { s with sec := { s.sec with hem := { s.sec.hem with arbFirmwareFuse := leNat v } } })) ∧
  (∀ w v s, v.length = 4 → s.sec.hem.arbLoaderFuse < leNat v → leNat v ≤ 64 → leNat v ≤ num s 0x2A22 3 →
    exec (.arbAdvanceLoader w v) s = .next (written w { s with sec := { s.sec with hem := { s.sec.hem with arbLoaderFuse := leNat v } } })) ∧
  (∀ t s, exec (.thimbleHealthFail t) s = .next (noteFault (setNum s 0x2A21 1 (if t then 2 else 1)) 0x38 0 0xFF 0xFF 0 (toLe 1 (if t then 2 else 1))))

/-- Each doorbell command completes (R632 to R645): the winning source is delivered, and a store to the doorbell block is made by the core. -/
def Obligations.DoorbellsComplete : Prop :=
  (∀ t src red lvl s, t < 32 → winner s t = src → src ≠ 0 → inService s t = 0 → targetOn s t = true → coreEnabled s (targetCore t) = true → routedTo s src = some (lvl, red) →
    exec (.bbDeliver t) s = .next (
      let u := bump (setService s t src) 0x2B00 1
      let u := if red then bump u 0x2B00 3 else u
      let u := match sourcePart src with | some (p, _) => pbumpBy u 0x4B00 p 1 | none => u
      bellScan (emit u (.coreIrq (targetCore t) (targetLevel t) ((sget (fun _ => 0) u.bell.vbase t * 65536 + src * 64) % 2 ^ 64) src)))) ∧
  (∀ core m t v s, t < 32 → exec (.bbComplete core m t v) s = .next (bellScan (bellStore s core m (coreCid s core) (0x200000 + t * 0x1000 + 0x10) v))) ∧
  (∀ core src v s, src < 1024 → exec (.bbRoute core false src v) s = .next (bellScan (bellStore s core false (coreCid s core) (0x10000 + src * 8) v))) ∧
  (∀ core v s, exec (.bbCauseSet core v) s = .next (bellScan (bellStore s core false (coreCid s core) 0x30 v))) ∧
  (∀ core p v s, p < 64 → exec (.bbPSoftSet core p v) s = .next (bellScan (bellStore s core false (coreCid s core) (0x100000 + p * 0x1000 + 0x90) v))) ∧
  (∀ t s, t < 32 → sget (fun _ => 0) s.bell.wakes t ≠ 0 → targetAsleep s t = true → s.bell.expired.contains t = false →
    sget (fun _ => 0) s.bell.wakes t - 1 + usT 50 ≤ s.det.now →
    exec (.bbWakeTimeout t) s = .next (bellScan { s with bell := { s.bell with expired := ninsert s.bell.expired t } }))

/-- Each command of determinism and of node time completes where the spec lets it (R657 to R665). -/
def Obligations.DeterminismComplete : Prop :=
  (∀ w s, exec (.detStep w [1]) s = .next (written w (placeBoundary (forS ((upTo 256).filter (tableBound s)) s tableBoundary)))) ∧
  (∀ w s, exec (.runReset w [1]) s = .next (written w (setBlob s 0x2C02 0 (freshRecord s)))) ∧
  (∀ z s, num s 0x2C10 1 = 1 → s.det.intervalAt + msT (num s 0x2C10 3) ≤ s.det.now → syncOffset s = some z → exec .syncInterval s = .next (fin (
    applyOffset { s with det := { s.det with samples := [], intervalAt := s.det.now, sampleN := 0 } } z))) ∧
  (∀ s, num s 0x2C10 1 = 1 → s.det.intervalAt + msT (num s 0x2C10 3) ≤ s.det.now → syncOffset s = none →
    syncState { s with det := { s.det with samples := [], intervalAt := s.det.now, sampleN := 0, missed := s.det.missed + 1 } } = 2 → 3 ≤ s.det.missed + 1 →
    exec .syncInterval s = .next (
      let u := setNum { s with det := { s.det with samples := [], intervalAt := s.det.now, sampleN := 0, missed := s.det.missed + 1 } } 0x2C10 5 3
      { u with det := { u.det with within := 0, beyond := 0 } })) ∧
  (∀ s, num s 0x2C10 1 = 1 → s.det.sampleN < 64 → (s.det.sampleN = 0 ∨ s.det.sampleAt + usT 10 ≤ s.det.now) → exec .syncSample s = .next (fin (
    issueReq { s with det := { s.det with sampleAt := s.det.now, sampleN := s.det.sampleN + 1 } }
      { head := ownHead s 6 0 0 (num s 0x2C10 2 * 2 ^ 48 + 0xF80000000010), op := .load 8 } (.sync (syncStamp s) (replayMark s)) none)))

/-- Each command of faults, recovery and limp mode completes where the spec lets it (R672 to R704). -/
def Obligations.RecoveryComplete : Prop :=
  (∀ w code s, 1 ≤ code → code ≤ 0xFF →
    exec (.stickyWrite w code [0]) s = .next (written w (setBlob (setNum s (0x3100 + code) 1 0) (0x3100 + code) 3 (zeros 160)))) ∧
  (∀ w s, exec (.stickyClearAll w [1]) s = .next (written w { s with obj := s.obj.filter (fun e =>
    !(decide (okey 0x3101 0 ≤ e.1) && decide (e.1 < okey 0x3200 0) && (e.1 % 256 == 1 || e.1 % 256 == 3))) })) ∧
  (∀ bank s, bank < 16 → bit s.acc.banksOk bank = true → exec (.trackerBankLoss bank) s = .next (fin
    (detectFault (loseTrackers s bank).2 0x0B (resId 6 bank) 1 0xFF 7 0 (toLe 4 (loseTrackers s bank).1)))) ∧
  (∀ e rest s, s.flt.running = none → s.flt.queue = e :: rest → e.res / 4096 ≠ 1 → exec .recoveryStart s = .next (fin (
    let e := { e with startedAt := s.det.now }
    recoveryEffect (openWindow (setNum { s with flt := { s.flt with running := some e, queue := rest } } 0x3200 6 rest.length) e.res e.level e.code none) e))) ∧
  (∀ e s, s.flt.running = some e → recoveryOver s e = true → e.res / 4096 ≠ 1 → e.res / 4096 ≠ 9 → exec .recoveryEnd s = .next (
    let u := logRecovery { s with flt := { s.flt with running := none } } { e with endedAt := s.det.now }
    setWindow u e.res { getWindow u e.res with closes := some (u.det.now + windowTicks u e.level) })) ∧
  (∀ res t s, (getWindow s res).closes = some t → t ≤ s.det.now →
    exec (.windowClose res) s = .next (setWindow s res { getWindow s res with level := 0, closes := none })) ∧
  (∀ w v s, v.length = 2 → outOfService s (leNat v) = true → leNat v / 4096 = 6 → exec (.resourceRelease w v) s = .next (written w (
    let u := setWindow s (leNat v) { getWindow s (leNat v) with out := false, level := 0, closes := none }
    { u with acc := { u.acc with banksOk := setBit u.acc.banksOk (leNat v % 4096) } }))) ∧
  (∀ w v s, v.length = 2 → exec (.resourceQuery w v) s = .next (written w (setSess s w.slot { getSess s w.slot with resourceQuery := leNat v }))) ∧
  (∀ w s, inLimp s = false → exec (.limpEnter w) s = .next (written w (enterLimp s 0 0))) ∧
  (∀ w s, inLimp s = true → exec (.limpExit w) s = .next (written w (
    let u := forS s.flt.limpBlocks s (fun s k => if num s (k / 256) (k % 256) = 0 then s else setNum s (k / 256) (k % 256) 3)
    setNum { u with flt := { u.flt with limpBlocks := [] } } 0x3300 1 0))) ∧
  (∀ kind unit d x s, 1 ≤ kind → kind ≤ 6 → findDesc s d = some x → exec (.engineFault kind unit (some d)) s = .next (fin (abortDesc
    (detectFault s 0x40 (engRes kind unit) 1 d.q.part 7 0 (toLe 4 (bfld x.bytes 0x3C 4))) d))) ∧
  (∀ kind unit s, 1 ≤ kind → kind ≤ 6 → exec (.engineFault kind unit none) s = .next (fin
    (detectFault s 0x40 (engRes kind unit) 1 0xFF 7 0 (toLe 4 0))))

/-- Each command of mirrored regions completes where the spec lets it (R693 to R700). -/
def Obligations.MirrorComplete : Prop :=
  (∀ ep unit data r s, copyOf s ep (noticeBase data) = some r → bindReason s ep unit data = 0 → exec (.mirrorBind ep unit data) s = .next (fin (
    let g := getRegion s r
    let u := releaseBolts s (g.base / 65536) (g.size / 65536)
    let u := { u with poison := u.poison.filter (fun l => !(decide (g.base ≤ l * 64) && decide (l * 64 < g.base + g.size))) }
    let f := freshFree u
    let st := if Config.freeNat f.1 % 2 = 0 then 6 else 5
    let u := setArrNum f.2 0x3660 r st
    let u := setArrBlob u 0x3680 r (toLe 2 ep ++ toLe 1 st ++ zeros 5 ++ toLe 8 u.det.count ++ zeros 32)
    noticeTo u ep 0x0101 r (num u 0x3600 1 % 2 ^ 32 + g.size / 65536 % 2 ^ 32 * 2 ^ 32)))) ∧
  (∀ ep unit data b s, boundTo s ep = some b → data % 2 ^ 32 ≠ num s 0x3600 1 → data % 2 ^ 32 ≠ 0 → num s 0x3600 1 ≠ 0 →
    data / 2 ^ 32 % 2 ^ 32 = b.new.size / 65536 → exec (.mirrorBound ep unit data) s = .next (fin (acceptBind s b))) ∧
  (∀ ep unit data b s, boundTo s ep = some b → b.new.base = noticeBase data → exec (.mirrorRefused ep unit data) s = .next (fin (refuseBind s b))) ∧
  (∀ ep unit data r s, copyOf s ep (noticeBase data) = some r → 5 ≤ mirrorState s r → exec (.mirrorUnbind ep unit data) s = .next (fin (setArrNum s 0x3660 r 4))) ∧
  (∀ r b s, s.flt.binds.find? (fun b => b.region == r) = some b → b.sent = true → b.sentAt + msT (num s 0x3600 4) ≤ s.det.now →
    exec (.mirrorBindTimeout r) s = .next (fin (refuseBind s b))) ∧
  (∀ h d p s, exec (.mirrorWrite h (.store d p)) s = .next (fin (arrive s h (.store d p)))) ∧
  (∀ h g k sp n d p s, exec (.mirrorWrite h (.blk g k sp n d p)) s = .next (fin (arrive s h (.blk g k sp n d p)))) ∧
  (∀ tag i r s, s.acc.issued.find? (fun i => i.tag == tag) = some i → i.mirror = some r → i.at_ + usT (num s 0x3600 2) ≤ s.det.now →
    exec (.mirrorWriteTimeout tag) s = .next (fin (mirrorFail s i r))) ∧
  (∀ r s, (getRegion s r).valid = true → (getRegion s r).mirror = true → arrNum s 0x3640 r = 0 → mirrorState s r = 3 → num s 0x3600 5 = 1 →
    s.flt.binds.any (fun b => b.region == r) = false → sget (fun _ => 0) s.flt.rebindAt r + secT 1 ≤ s.det.now →
    exec (.mirrorRebindRetry r) s = .next (fin (startBind { s with flt := { s.flt with rebindAt := sput (fun _ => 0) s.flt.rebindAt r s.det.now } } r (getRegion s r) false none))) ∧
  (∀ r s, (getRegion s r).valid = true → (getRegion s r).mirror = true → mirrorState s r = 2 → watermark s r * 65536 < (getRegion s r).size →
    s.acc.issued.any (fun i => i.target == .rebuild r (watermark s r)) = false → (effPorts s (getRegion s r).mirrorEp 6).isEmpty = false →
    exec (.rebuildBolt r) s = .next (fin (sendBolt s r (watermark s r)))) ∧
  (∀ w v s, v.length = 2 → (getRegion s (leNat v)).valid = true → isCopy s (leNat v) = true → mirrorState s (leNat v) = 6 →
    (effPorts s (getRegion s (leNat v)).mirrorEp 5).isEmpty = true → exec (.mirrorTakeover w v) s = .next (written w (
    let r := leNat v
    let g := getRegion s r
    let u := setArrNum (setArrNum s 0x3640 r 0) 0x3660 r 3
    let u := takeVersions (noteFault u 0x31 (resId 11 r) g.owner 0xFF 0 (toLe 2 g.mirrorEp ++ toLe 4 (g.size / 65536))) r
    setArrBlob u 0x3680 r (bset (bset (slice (arrBlob u 0x3680 r) 0 48) 2 1 3) 16 8 u.det.count))))

/-- Each command of the placement loop completes where it is due (R171 to R201, R204, R214 to R219): the sweeper ages the bolt it visits, a victim is evicted, a queued bolt is
promoted, a bolt is demoted, a move cuts over and its source is freed, a write of a placement object takes effect. -/
def Obligations.PlacementComplete : Prop :=
  (∀ b s, (getBolt s b).home ≠ 0 → (∀ t, (getBolt s b).sweptAt = some t → t + agePeriod s (getBolt s b).home ≤ s.det.now) →
    evacuated s (getBolt s b).home (unitOfSlot s (getBolt s b).home (getBolt s b).slot) = false →
    exec (.ageSweep b) s = .next (
      let u := setBolt s b (swept s (getBolt s b))
      if promotable u (swept s (getBolt s b)) && !u.tier.learning then queueDecision u b 0 else unqueue u b 0)) ∧
  (∀ t v s, t = 1 ∨ t = 2 → 0 < tierFree s t → belowTarget s t 1 = true → s.tier.learning = false → oldestOf s (eligible s t none) = some v → 0 < tierFree s (t + 1) →
    exec (.evict t) s = .next (demoteOne s v.1 .evict)) ∧
  (∀ t p v s, t = 1 ∨ t = 2 → tierFree s t = 0 → needer s = some p → s.tier.learning = false → oldestOf s (eligible s t (some p)) = some v → 0 < tierFree s (t + 1) →
    exec (.evict t) s = .next (demoteOne s v.1 .need)) ∧
  (∀ b slot u s, s.tier.queued.contains (b, 0) = true → placeFrozen s = false → s.tier.learning = false → detMode s ≠ 2 → victimOf s b = none →
    promotable s (getBolt s b) = true → num s 0x2301 10 * tierSlots s 1 < tierFree s 1 * 1024 → pickCool s 1 (getBolt s b).quad 1 (fun _ => true) = (some slot, u) →
    exec (.promote b) s = .next (unqueue (startMove u b 1 slot .promote) b 0)) ∧
  (∀ b s, placeFrozen s = false → s.tier.learning = false → detMode s ≠ 2 → (getBolt s b).home = 1 → num s 0x2301 5 ≤ (getBolt s b).age → belowTarget s 1 1 = true →
    (getBolt s b).pins = 0 → (getBolt s b).moving = false → 1 < boltFloor s (getBolt s b) → ((getBolt s b).promoted = false ∨ resident s (getBolt s b) = true) →
    exec (.demotePolicy b) s = .next (demoteOne s b .demote)) ∧
  (∀ p t v s, placeFrozen s = false → s.tier.learning = false → detMode s ≠ 2 → t = 1 ∨ t = 2 → quota s p t < homed s p t →
    oldestOf s (quotaVictim s p t) = some v →
    exec (.demoteQuota p t) s = .next (demoteOne s v.1 .demote)) ∧
  (∀ b s, s.tier.upQueue.contains b = true → exec (.demandMoveUp b) s = .next (openMoveUp s b)) ∧
  (∀ b bad rs m s, s.tier.moves.find? (fun m => m.bolt == b) = some m → partExists s (getBolt s b).part = true → (getRegion s (getBolt s b).region).valid = true →
    m.cause ≠ .demand → (m.cause = .retire ∨ m.copied = true) → (getBolt s b).home ≠ 3 → exec (.moveCutover b bad rs) s = .next (fin (cutover s b))) ∧
  (∀ b bad rs m s, s.tier.moves.find? (fun m => m.bolt == b) = some m → partExists s (getBolt s b).part = true → (getRegion s (getBolt s b).region).valid = true →
    m.cause = .demand → (getBolt s b).home = 3 → exec (.moveCutover b bad rs) s = .next (fin (
      let u := setAllowance s true (allowance s true - 12800 * 1024)
      cutover (cellarUnits (flashRetries u b rs) b (bitsOf bad 16)) b))) ∧
  (∀ t slot f s, s.tier.freed.find? (fun f => f.tier == t && f.slot == slot && !f.ready) = some f → f.waits.any (inHand s) = false →
    exec (.moveSourceFree t slot) s = .next (freeSlot { s with tier := { s.tier with freed := s.tier.freed.filter (fun g => g != f) } } t slot f.part)) ∧
  (∀ s, s.tier.learning = true → num s 0x2303 4 ≤ s.tier.learnAccesses → s.tier.learnStart + msT (num s 0x2303 5) ≤ s.det.now →
    exec .learnEnd s = .next { s with tier := { s.tier with learning := false } }) ∧
  (∀ h s, s.acc.held.find? (fun h => h.why == .slot &&
      (match regionOf s h.req.head.addr with
       | some r => (ensureBolt s r h.req.head.addr h.req.head.kind h.req.head.unit).isSome
       | none => true)) = some h → exec .allocSlotFreed s = .next (fin (advance s h))) ∧
  (∀ w v s, v.length = 24 → bfld v 0 8 % 65536 = 0 → bfld v 8 8 % 65536 = 0 → bfld v 0 8 + bfld v 8 8 ≤ s.tier.unifiedSize → bfld v 16 1 = 1 ∨ bfld v 16 1 = 2 →
    exec (.placeHint w v) s = .next (written w (
      let u := { s with tier := { s.tier with hints := s.tier.hints ++ [{ first := bfld v 0 8 / 65536, count := bfld v 8 8 / 65536, tier := bfld v 16 1 }] } }
      if placeFrozen u || detMode u = 2 then u else doHints u))) ∧
  (∀ w s, exec (.placeReset w [0]) s = .next (written w s)) ∧
  (∀ w s, exec (.placeReset w [1]) s = .next (written w (
      let u := forS (s.tier.map.map (·.1)) s (fun s k => setBolt s k { getBolt s k with heat := 0, age := 0 })
      { u with tier := { u.tier with learning := true, learnAccesses := 0, learnStart := u.det.now } }))) ∧
  (∀ w s, exec (.placeFreeze w [1]) s = .next (written w (setNum s 0x2301 1 1))) ∧
  (∀ w s, exec (.placeFreeze w [0]) s = .next (written w (
      let u := setNum s 0x2301 1 0
      if placeFrozen u || detMode u = 2 then u else doHints u))) ∧
  (∀ w v s, v.length = 1 →
    let u := setNum s 0x2301 0x0D (leNat v % 16)
    let out := [1, 2, 3].foldl (fun l t => l ++ ((upTo (tierUnits t)).filter (fun n => evacuated u t n && !evacuated s t n)).foldl (fun l n => l ++ unitBolts s t n) []) []
    out.length ≤ tierFree u 1 + tierFree u 2 + tierFree u 3 →
    exec (.evacuate w v) s = .next (written w (forS out u (fun s b => moveOut s b .retire)))) ∧
  (∀ w v s, v.length = 8 → exec (.boltQuery w v) s = .next (written w (setSess s w.slot { getSess s w.slot with boltQuery := leNat v }))) ∧
  (∀ b found s, (getBolt s b).home = 1 ∨ (getBolt s b).home = 2 → sget (fun _ => 0) s.tier.scrubs ((getBolt s b).home * 2 ^ 32 + (getBolt s b).slot) = 0 →
    exec (.patrolScrub b found) s = .next (lineErrors
      { s with tier := { s.tier with scrubs := sput (fun _ => 0) s.tier.scrubs ((getBolt s b).home * 2 ^ 32 + (getBolt s b).slot) (s.det.now + 1) } } b
      (found.corrected.filter (fun k => decide (k < 1024))) (found.badLines.filter (fun k => decide (k < 1024))))) ∧
  (∀ larder u c s, u < (if larder then 16 else 6) → nextHeat s (heatOf s larder u).state c ≠ (heatOf s larder u).state →
    (∀ t, (heatOf s larder u).changedAt = some t → t + msT 100 ≤ s.det.now) →
    exec (.tierThermal larder u c) s = .next (latch (withHeat s larder u (nextHeat s (heatOf s larder u).state c)) 7))

/-- Each command of a stream window completes (R208 to R211): a window whose description holds starts with its first layer's fetch, a running one stops, a stopping one
releases its pins, the advance word moves the position, and a layer whose bolts are all in the Parlour is fetched. -/
def Obligations.StreamsComplete : Prop :=
  (∀ w n s, n < 64 → strStartable s n = true → exec (.strStart w n) s = .next (written w (
    startFetch (setStream (unpinBolts s n (fun _ => false)) n { run := 3, pos := 0, ready := 0, fetched := [], fetching := none, pinned := [], writes := [] }) n))) ∧
  (∀ w n s, (getStream s n).run = 3 → exec (.strStop w n) s = .next (written w (setStream s n { getStream s n with run := 2, fetching := none }))) ∧
  (∀ n s, (getStream s n).run = 2 → exec (.strStopEnd n) s = .next (
    setStream (unpinBolts s n (fun _ => false)) n { getStream (unpinBolts s n (fun _ => false)) n with run := 1 })) ∧
  (∀ n s, (getStream s n).writes ≠ [] → exec (.strAdvance n) s = .next (fin (
    forS (getStream s n).writes (setStream s n { getStream s n with writes := [] }) (fun s v => advanceTo s n v)))) ∧
  (∀ n v s, n < 64 → (getStream s n).run = 3 → (getStream s n).pos < v → v ≤ (getStream s n).pos + strW s n → strCycle s n = true → (getStream s n).writes = [v] →
    exec (.strAdvance n) s = .next (fin (
      let s := setStream s n { getStream s n with writes := [] }
      let kept := (windowPos s n v).map (layerAt s n)
      let u := unpinBolts s n (fun b => kept.any (fun k => (layerBolts s n k).contains b))
      let x := getStream u n
      storeReady (startFetch (setStream u n { x with pos := v, fetched := x.fetched.filter kept.contains, fetching := x.fetching.filter kept.contains }) n) n))) ∧
  (∀ n k s, (getStream s n).fetching = some k → layerResident s n k = true → exec (.strLayerFetched n) s = .next (
    fin (startFetch (storeReady (setStream s n { getStream s n with fetching := none, fetched := (getStream s n).fetched ++ [k] }) n) n))) ∧
  (∀ n k s, (getStream s n).fetching = some k → layerResident s n k = false → exec (.strLayerFetched n) s = .next (fetchBolts s n k))

/-- Each command of power domains and pads completes where the spec lets it (R710 to R720): a target is taken at once or its transition begins, a transition that waits for
nothing ends, a domain idles and wakes, pads are released, and a brown-out and low margin have their effect. -/
def Obligations.PowerDomainsComplete : Prop :=
  (∀ w d s, d < 196 → domDisabled s d = false → s.pwr.moves.any (fun m => m.dom == d) = false → domState s d = 4 → 
    exec (.domTarget w d [0, 0]) s = .next (written w (setNum s 0x2011 (d + 1) 0)) ∧ exec (.domTarget w d [1, 0]) s = .next (written w (setNum s 0x2011 (d + 1) 1))) ∧
  (∀ w d s, d < 196 → d < 16 ∨ 20 ≤ d → domDisabled s d = false → s.pwr.moves.any (fun m => m.dom == d) = false → domState s d ≠ 0 → offRefused s d = false →
    exec (.domTarget w d [2, 0]) s = .next (fin (startMoveDom (setNum s 0x2011 (d + 1) 2) w d 0))) ∧
  (∀ w d s, d < 196 → domDisabled s d = false → s.pwr.moves.any (fun m => m.dom == d) = false → domState s d = 0 →
    exec (.domTarget w d [1, 0]) s = .next (fin (startMoveDom (setNum s 0x2011 (d + 1) 1) w d 1))) ∧
  (∀ d x s, s.pwr.moves.find? (fun m => m.dom == d) = some { dom := d, to_ := 0, write := some x } → offReady s d = true →
    exec (.domTransitionEnd d) s = .next (bellScan (fin (answerWaiting (switchOff
      { s with pwr := { s.pwr with moves := s.pwr.moves.filter (fun x => x.dom != d) } } d) x 0)))) ∧
  (∀ d x s, s.pwr.moves.find? (fun m => m.dom == d) = some { dom := d, to_ := 1, write := some x } → upReady s d = true →
    exec (.domTransitionEnd d) s = .next (bellScan (fin (answerWaiting (powerUp
      { s with pwr := { s.pwr with moves := s.pwr.moves.filter (fun x => x.dom != d) } } d) x 0)))) ∧
  (∀ d x s, s.pwr.moves.find? (fun m => m.dom == d) = some { dom := d, to_ := 4, write := some x } → upReady s d = true →
    exec (.domTransitionEnd d) s = .next (bellScan (fin (answerWaiting (setDom
      { s with pwr := { s.pwr with moves := s.pwr.moves.filter (fun x => x.dom != d) } } d 4) x 0)))) ∧
  (∀ d s, mayCg d = true → domBusy s d = false → domState s d = 4 → num s 0x2011 (d + 1) = 0 → exec (.domIdleCg d) s = .next (bellScan (setDom s d 3))) ∧
  (∀ d c s, retEligible s d = true → domState s d = 4 ∨ domState s d = 3 → num s 0x2011 (d + 1) = 0 → c ≤ toSigned 8 (num s 0x2004 3) →
    exec (.domIdleRet d c) s = .next (bellScan (setDom s d 2))) ∧
  (∀ d c s, retEligible s d = true → domState s d = 4 ∨ domState s d = 3 → num s 0x2011 (d + 1) = 0 → toSigned 8 (num s 0x2004 3) < c →
    exec (.domIdleRet d c) s = .next (bellScan (setDom s d 3))) ∧
  (∀ d s, 16 ≤ d → domState s d = 2 ∨ domState s d = 3 → num s 0x2000 1 ≤ 1 → exec (.domWake d) s = .next (bellScan (setDom s d 4))) ∧
  (∀ d s, d < 16 → domState s d = 2 ∨ domState s d = 3 → num s 0x2000 1 ≤ 1 →
    exec (.domWake d) s = .next (bellScan (setDom (wakeCluster s (d / 4)) d 4))) ∧
  (∀ d c s, domState s d = 2 → mayCg d = true → toSigned 8 (num s 0x2004 3) < c → exec (.retOverTemperature d c) s = .next (bellScan (setDom s d 3))) ∧
  (∀ w v s, v.length = 25 → exec (.padRelease w v) s = .next (written w (
    forS (((upTo 6).map (106 + ·) ++ upTo 196).filter (bit (leNat v))) s releasePad))) ∧
  (∀ h d s, exec (.cwPadRelease h d) s = .next (fin (arrive s { h with addr := alignDown h.addr 0x4000000 + 0x080 } (.store (toLe 8 (d % 256)) false)))) ∧
  (∀ h s, exec (.cwPadReleaseAll h) s = .next (fin (arrive s { h with addr := alignDown h.addr 0x4000000 + 0x080 } (.store (toLe 8 256) false)))) ∧
  (∀ d s, domState s d = 2 → mayRet d = true → 2 ≤ d → d ≠ 16 → 
    let u := switchOff (brownoutLoss (latch (noteFault s 0x3C (resId 14 d) 0xFF 0xFF 0 []) 8) d) d
    num u 0x2011 (d + 1) = 2 → exec (.powerBrownout d) s = .next (bellScan (fin u))) ∧
  (∀ d s, domState s d = 2 → d ≤ 1 ∨ d = 16 →
    exec (.powerBrownout d) s = .next (deviceReset (latch (noteFault s 0x3C (resId 14 d) 0xFF 0xFF 0 []) 8) 4)) ∧
  (∀ d s, regulated d = true → domState s d ≠ 0 → sfind s.pwr.marginLow d = none → biasOf s d ≠ 0 →
    exec (.powerMargin d) s = .next (raiseLevel { s with pwr := { s.pwr with marginOk := s.pwr.marginOk.filter (fun e => e.1 != d) } } d)) ∧
  (∀ d t s, sfind s.pwr.marginLow d = some t → t + 999 ≤ s.det.now → exec (.marginStep d) s = .next (raiseLevel s d))

/-- Each command of the voltage, frequency, power and thermal loops and of the Larder's eye completes where it is due (R707, R708, R720 to R726). -/
def Obligations.PowerLoopsComplete : Prop :=
  (∀ margins low s, bringUpDemand s = false → s.pwr.avsAt + usT (num s 0x2003 2) ≤ s.det.now → exec (.avsPeriod margins low) s = .next (
    let s := { s with pwr := { s.pwr with avsAt := s.det.now } }
    let u := forS (margins.filter (fun e => regulated e.1 && domState s e.1 == 4)) s (fun s e => avsDom s e.1 e.2)
    forS ((u.pwr.marginLow.map (·.1)) ++ (u.pwr.marginOk.map (·.1))).eraseDups u (fun s d => levelPeriod s low d))) ∧
  (∀ s, s.pwr.stepAt = none → wantDiv s false < divT s → num s 0x2001 5 ≠ 1 → exec (.divisorStep false) s = .next (
    let u := clockVolts s false (divT s - 1)
    bump { setNum u 0x2001 1 (divT s - 1) with pwr := { u.pwr with stepAt := some u.det.now } } 0x2001 7)) ∧
  (∀ s, s.pwr.stepAt = none → divT s < wantDiv s false → num s 0x2001 5 ≠ 1 → exec (.divisorStep false) s = .next (
    let u := bump { setNum s 0x2001 1 (divT s + 1) with pwr := { s.pwr with stepAt := some s.det.now } } 0x2001 7
    if num u 0x2003 1 = 1 then u else clockVolts u false (divT s + 1))) ∧
  (∀ s, s.pwr.stepAt = none → wantDiv s true < divC s → num s 0x2001 5 ≠ 1 → exec (.divisorStep true) s = .next (
    let u := clockVolts s true (divC s - 1)
    bump { setNum u 0x2001 2 (divC s - 1) with pwr := { u.pwr with stepAt := some u.det.now } } 0x2001 7)) ∧
  (∀ s, s.pwr.stepAt = none → divC s < wantDiv s true → num s 0x2001 5 ≠ 1 → s.pwr.powerT ≠ 8 → exec (.divisorStep true) s = .next (
    let u := bump { setNum s 0x2001 2 (divC s + 1) with pwr := { s.pwr with stepAt := some s.det.now } } 0x2001 7
    if num u 0x2003 1 = 1 then u else clockVolts u true (divC s + 1))) ∧
  (∀ m s, s.pwr.pl2At + msT 1 ≤ s.det.now → m ≤ 480000 → exec (.pl2Eval m) s = .next (setNum { s with pwr := { s.pwr with pl2At := s.det.now } } 0x2002 1 m)) ∧
  (∀ m x s, s.pwr.pl2At + msT 1 ≤ s.det.now → 480000 < m →
    stepDown (setNum { s with pwr := { s.pwr with pl2At := s.det.now } } 0x2002 1 m) s.pwr.powerT s.pwr.powerC = some x →
    exec (.pl2Eval m) s = .next (latch (bump (setPowerDemand (setNum { s with pwr := { s.pwr with pl2At := s.det.now } } 0x2002 1 m) x) 0x2002 5) 8)) ∧
  (∀ s, max (divT s) s.pwr.powerT < 8 ∨ max (divC s) s.pwr.powerC < 6 → exec .pl2Sustained s = .next (
    latch (bumpBy (setPowerDemand s (8, 6)) 0x2002 5 ((8 - max (divT s) s.pwr.powerT) + (6 - max (divC s) s.pwr.powerC))) 8)) ∧
  (∀ tau last x s, num s 0x2001 5 ≠ 1 → s.pwr.pl1At + msT 10 ≤ s.det.now → pl1W s * 1000 < tau → 98 * (pl1W s * 1000) < 100 * last →
    stepDown { s with pwr := { s.pwr with pl1At := s.det.now } } s.pwr.powerT s.pwr.powerC = some x →
    exec (.pl1Eval tau last) s = .next (bump (setPowerDemand { s with pwr := { s.pwr with pl1At := s.det.now } } x) 0x2002 4)) ∧
  (∀ tau last x s, num s 0x2001 5 ≠ 1 → s.pwr.pl1At + msT 10 ≤ s.det.now → 100 * tau < 95 * (pl1W s * 1000) → 100 * last < 95 * (pl1W s * 1000) →
    stepUp s.pwr.powerT s.pwr.powerC = some x →
    exec (.pl1Eval tau last) s = .next (bump (setPowerDemand { s with pwr := { s.pwr with pl1At := s.det.now } } x) 0x2002 4)) ∧
  (∀ d c x s, throttleC s ≤ c → d ≤ 196 → throttleDue s (msT 1) = true → stepDown s s.pwr.thermalT s.pwr.thermalC = some x →
    exec (.throttleStep d c) s = .next (
      bump { s with pwr := { s.pwr with throttleAt := some s.det.now, thermalT := x.1, thermalC := x.2 } } 0x2004 5)) ∧
  (∀ c x s, c < throttleC s - 5 → throttleDue s (msT 10) = true → stepUp s.pwr.thermalT s.pwr.thermalC = some x →
    exec (.throttleStepUp c) s = .next { s with pwr := { s.pwr with thermalT := x.1, thermalC := x.2, throttleAt := some s.det.now } }) ∧
  (∀ d c s, 105 ≤ c → d ≤ 196 → s.pwr.hot105 = false → exec (.thermalTrip d c) s = .next (
    let u := noteFault s 0x3E (resId 14 d) 0xFF 0xFF 0 []
    { u with pwr := { u.pwr with hot105 := true, thermalT := 8, thermalC := 6, throttleAt := some u.det.now } })) ∧
  (∀ c s, c < 100 → exec (.thermalTripClear c) s = .next { s with pwr := { s.pwr with hot105 := false } }) ∧
  (∀ d c s, 120 ≤ c → d ≤ 196 → s.pwr.tripped = false → exec (.hardTrip d c) s = .next (
    let u := setNum (wipe (recordFault s 0x3E (resId 14 d) 0xFF 4 0xFF 0 []) true) 0x1003 9 (num s 0x1003 9)
    { u with pwr := { u.pwr with tripped := true, perst := true } })) ∧
  (∀ ch c s, ch < 22 → num s 0x2005 1 ≠ 1 → num s 0x2000 1 = 0 → s.tier.up = true → sfind s.pwr.eyeAt ch = none →
    s.pwr.eye.any (fun e => e.1 / 256 == ch && (decide (16 ≤ e.2.1.natAbs) || decide (16 ≤ e.2.2.natAbs))) = false →
    exec (.dramEyePass ch c []) s = .next { s with pwr := { s.pwr with eyeAt := sset s.pwr.eyeAt ch (s.det.now, c) } })

/-- Each command of device states, resets, supplies and sideband pins completes (R706, R725, R729 to R733, R740 to R744, R752). -/
def Obligations.DeviceCommandsComplete : Prop :=
  (∀ w s, num s 0x2000 1 = 0 → exec (.devTarget w [0, 0]) s = .next (written w (enterN2 (setNum s 0x2000 2 0))) ∧
    exec (.devTarget w [1, 0]) s = .next (written w (enterN2 (setNum s 0x2000 2 1)))) ∧
  (∀ w s, num s 0x2000 1 = 0 → lowAllowed s 2 = true → exec (.devTarget w [2, 0]) s = .next (written w (enterN2 (setNum s 0x2000 2 2)))) ∧
  (∀ s, num s 0x2000 2 = 1 → num s 0x2000 1 = 0 → num s 0x2000 4 = 7 → hasWork s = false → exec .n1Idle s = .next (
    let u := forS ((upTo 196).filter (fun d => mayCg d && domState s d == 4 && num s 0x2011 (d + 1) == 0)) s (fun s d => setDom s d 3)
    bellScan (setDevState { u with pwr := { u.pwr with leftN0 := u.det.now } } 1))) ∧
  (∀ s, num s 0x2000 1 = 1 → exec (.wakeEvent true) s = .next (wakeDevice (latch s 9)) ∧ exec (.wakeEvent false) s = .next (wakeDevice s)) ∧
  (∀ s, num s 0x2000 1 = 2 → exec (.wakeEvent true) s = .next (wakeDevice (setNum (latch s 9) 0x2000 2 0))) ∧
  (∀ s, num s 0x2000 2 = 3 → num s 0x2000 1 ≤ 1 → anyDraining s = false → lowAllowed s 3 = true → exec .n3Entry s = .next (
    let u := flushClusters (forS (upTo 18) s (fun s k => endSession s k 4))
    let on := (upTo 196).filter (fun d => decide (2 ≤ domState u d))
    let u := keysMade { u with pwr := { u.pwr with wasOn := on, saved := true, saveKey := true, leftN0 := u.det.now, flashVt := [] } } 1
    bellScan (setDevState (forS (on.filter (fun d => !n3Kept d)) u (fun s d =>
      if n3Ret d then setDom s d 2 else setDom (forgetDom (if 20 ≤ d && d ≤ 43 then domLost s d else s) d) d 0)) 3))) ∧
  (∀ bad s, num s 0x2000 1 = 3 → num s 0x2000 2 ≠ 3 → exec (.n3Wake bad false) s = .next (
    let u := keysGone { s with poison := (bad.filter (fun ln => inLanding (ln * 64))).foldl ninsert s.poison
                               pwr := { s.pwr with saved := false, saveKey := false, wasOn := [] } } 1
    let u := forS ((upTo 4).map (176 + ·) ++ (upTo 4).map (16 + ·) ++ upTo 196) u (fun s d =>
      if domState s d = 0 && num s 0x2011 (d + 1) ≠ 2 && !domDisabled s d then powerUp s d else s)
    enterN2 (wakeDevice (forS ((upTo 6).map (106 + ·) ++ (upTo 60).map (52 + ·)) u releasePad)))) ∧
  (∀ bad s, num s 0x2000 1 = 3 → num s 0x2000 2 ≠ 3 → exec (.n3Wake bad true) s = .next (deviceReset s 4)) ∧
  (∀ w s, exec (.resetCmd w [1]) s = .next (written w (deviceReset s 3))) ∧
  (∀ c s, num s 0x2020 2 = 1 → exec (.perst c) s = .next (
    { deviceReset s 2 with pwr := { (deviceReset s 2).pwr with perst := true, tripped := s.pwr.tripped && decide (100 ≤ c) } })) ∧
  (∀ s, num s 0x2020 2 = 1 → s.pwr.refclk = true → s.pwr.vstby = true → exec .perstRelease s = .next { s with pwr := { s.pwr with perst := false } }) ∧
  (∀ s, 4 ≤ num s 0x2000 4 → num s 0x2000 4 ≤ 7 → exec .watchdogReset s = .next (deviceReset s 4)) ∧
  (∀ s, s.pwr.refclk = true → exec .refclkLoss s = .next (
    let u := setNum (wipe s true) 0x1003 9 (num s 0x1003 9)
    forS ((upTo 196).filter (fun d => domState s d != 0)) { u with pwr := { u.pwr with refclk := false } } (fun s d => setDom s d 1))) ∧
  (∀ s, s.pwr.refclk = false → exec .refclkReturn s = .next (deviceReset { s with pwr := { s.pwr with refclk := true } } 1)) ∧
  (∀ s, s.pwr.vstby = false → exec .vstbyApply s = .next (
    let u := deviceReset { s with pwr := { s.pwr with vstby := true } } 1
    { u with pwr := { u.pwr with perst := true, tripped := false } })) ∧
  (∀ s, exec .vstbyLoss s = .next (
    let u := setNum (setNum (deviceReset s 1) 0x2020 1 0) 0x2020 2 0
    { u with pwr := { u.pwr with vstby := false, perst := true, tripped := false } })) ∧
  (∀ s, num s 0x2020 2 = 1 → exec .mainPwrgdFall s = .next (latch (setNum (mainLost s) 0x2020 2 0) 9) ∧ exec .vinCoreLow s = .next (mainLost s)) ∧
  (∀ s, s.pwr.vstby = true → num s 0x2020 2 ≠ 1 → exec .mainPwrgdRise s = .next (latch (setNum s 0x2020 2 1) 9)) ∧
  (∀ s, num s 0x2020 1 ≠ 1 → exec .sledPrsntAsserted s = .next (latch (setNum s 0x2020 1 1) 9)) ∧
  (∀ s, num s 0x2020 1 = 1 →
    let u := { latch (setNum s 0x2020 1 0) 9 with pwr := { (latch (setNum s 0x2020 1 0) 9).pwr with sledGone := true } }
    num u 0x2000 1 ≤ 2 → num u 0x2100 1 ≠ 3 → exec .sledPrsnt s = .next (
      fin (portsStopEnd (forS ((trfPorts u).filter (fun p => decide (2 ≤ portState u p) && decide (portState u p ≤ 9))) u
        (fun s p => portDown s p 15 (portState s p == 7 || portState s p == 9))))))

/-- Each command of boot, bring-up and the firmware update completes in its stage (R735 to R739). -/
def Obligations.BootCommandsComplete : Prop :=
  (∀ s, num s 0x2000 4 = 2 → s.pwr.runLoader = 0 → loaderValid s 1 = true → exec .bootRom s = .next (
    let u := { s with pwr := { s.pwr with runLoader := 1 }, sec := { s.sec with idleCores := s.sec.idleCores.filter (fun x => decide (2 ≤ x)) } }
    setNum u 0x2A22 3 (imageSecurity u (loaderOff 1)))) ∧
  (∀ s, num s 0x2000 4 = 2 → s.pwr.runLoader = 0 → loaderValid s 1 = false → loaderValid s 2 = false →
    exec .bootRom s = .next (setNum s 0x2000 4 8)) ∧
  (∀ c seq a s, num s 0x2000 4 = 3 → s.pwr.runImage = 0 → bestRecord s = some (c, seq, a, 0) → a = 1 ∨ a = 2 → firmwareValid s a = true →
    exec .loaderBoot s = .next (bootImage s a)) ∧
  (∀ found s, num s 0x2000 4 = 0 → num s 0x2020 2 = 1 → s.pwr.refclk = true → s.pwr.vstby = true → s.pwr.perst = false → s.pwr.tripped = false →
    exec (.bringupStage found) s = .next (bellScan (fin (setNum s 0x2000 4 1)))) ∧
  (∀ found s, num s 0x2000 4 = 1 → hemValid s.sec.hem = true → exec (.bringupStage found) s = .next (bellScan (fin (
    forS [176, 16, 0, 1] (setNum { s with sec := { s.sec with debugOpen := s.sec.hem.debugLock == 0 } } 0x2000 4 2) powerUp)))) ∧
  (∀ found s, num s 0x2000 4 = 2 → s.pwr.runLoader ≠ 0 → exec (.bringupStage found) s = .next (bellScan (fin (setNum s 0x2000 4 3)))) ∧
  (∀ found s, num s 0x2000 4 = 3 → s.pwr.runImage ≠ 0 → exec (.bringupStage found) s = .next (bellScan (fin (powerAll (setNum s 0x2000 4 4))))) ∧
  (∀ found s, num s 0x2000 4 = 4 → exec (.bringupStage found) s = .next (bellScan (fin (
    forS ((upTo 6).map (106 + ·) ++ (upTo 60).map (52 + ·)) (setNum s 0x2000 4 5) releasePad)))) ∧
  (∀ found s, num s 0x2000 4 = 5 → exec (.bringupStage found) s = .next (bellScan (fin (applyStored (setNum (sizeTiers s found) 0x2000 4 6))))) ∧
  (∀ found s, num s 0x2000 4 = 6 → num s 0x2100 3 ≠ 1 → exec (.bringupStage found) s = .next (bellScan (fin (setNum s 0x2000 4 7)))) ∧
  (∀ w s, num s 0x2006 6 = 0 → exec (.fwUpdateBegin w) s = .next (written w (
    setNum (setNum { flashErase s (imageOff (otherImage s)) 0x1000000 with
      pwr := { (flashErase s (imageOff (otherImage s)) 0x1000000).pwr with received := 0 } } 0x2006 2 0) 0x2006 4 1))) ∧
  (∀ w v s, v.length ≤ 65536 → num s 0x2006 4 = 1 → num s 0x2006 2 = s.pwr.received → s.pwr.received + v.length ≤ 0x1000000 →
    exec (.fwUpdateChunk w v) s = .next (written w (
      let u := flashWrite s (imageOff (otherImage s) + num s 0x2006 2) v
      setNum { u with pwr := { u.pwr with received := num s 0x2006 2 + v.length } } 0x2006 2 (num s 0x2006 2 + v.length)))) ∧
  (∀ w s, num s 0x2006 4 = 1 → firmwareValid s (otherImage s) = true → exec (.fwUpdateCommit w) s = .next (written w (
    let u := setNum s 0x2006 4 2
    setBlob u 0x1003 5 (imageVersion s (otherImage s))))) ∧
  (∀ w s, num s 0x2006 4 = 1 → firmwareValid s (otherImage s) = false → exec (.fwUpdateCommit w) s = .next (written w (setNum s 0x2006 4 3))) ∧
  (∀ w s, num s 0x2006 4 = 2 → bit (bfld (flashRead s (imageOff (otherImage s)) 512) 7 1) 0 = false → exec (.fwUpdateActivate w) s = .next (written w (
    setNum (setNum (newBootRecord s (otherImage s) 1) 0x2006 6 1) 0x2006 4 4))) ∧
  (∀ w s, exec (.fwUpdateAbort w) s = .next (written w (setNum s 0x2006 4 0))) ∧
  (∀ w x s, bestRecord s = some x → x.2.2.2 ≠ 0 → exec (.fwConfirm w [1]) s = .next (written w (setNum (newBootRecord s x.2.2.1 0) 0x2006 6 0))) ∧
  (∀ w s, exec (.fwConfirm w [0]) s = .next (written w s))

/-- A half-open session whose PROVE has not come within 5 s is freed, and no frame is sent; one that is still in time stays. -/
def Obligations.ProveTimeLimit : Prop :=
  (∀ k s, (getSess s k).inUse = true → (getSess s k).halfOpen = true → (getSess s k).openedAt + secT 5 ≤ s.det.now →
    ∃ t, exec (.pbpProveTimeout k) s = .next (setSess t k Session.free) ∧ t.out = s.out) ∧
  (∀ k s, s.det.now < (getSess s k).openedAt + secT 5 → exec (.pbpProveTimeout k) s = .next s) ∧
  (∀ f k s, pbpUp s f.tr f.via = true → badFrame f = false → f.ftype = 3 → f.body.length = 193 → slotOf s f = some k → (getSess s k).halfOpen = true →
    (getSess s k).openedAt + secT 5 < s.det.now → ∃ t, exec (.pbpProve f) s = .next (setSess t k Session.free) ∧ t.out = s.out)

/-- A frame whose VERSION or FTYPE is not known is discarded and counted in PBP_MALFORMED, whatever it carries (`fin` is what the block does by itself after a write). A REQUEST is a
command of its own OPCODE's row (the model's choice, log entry 142): each is stated for the frames that are its. -/
def Obligations.MalformedFramesAreCounted : Prop :=
  ∀ f s, pbpUp s f.tr f.via = true → ((f.tr = .eth ∧ f.version ≠ 1) ∨ f.ftype = 0 ∨ 10 < f.ftype) →
    exec (.pbpHello f) s = .next (setNum s 0x1111 3 ((num s 0x1111 3 + 1) % 2 ^ 32)) ∧
    exec (.pbpProve f) s = .next (setNum s 0x1111 3 ((num s 0x1111 3 + 1) % 2 ^ 32)) ∧
    exec (.pbpEventAck f) s = .next (setNum s 0x1111 3 ((num s 0x1111 3 + 1) % 2 ^ 32)) ∧
    exec (.pbpClose f) s = .next (setNum s 0x1111 3 ((num s 0x1111 3 + 1) % 2 ^ 32)) ∧
    (pbOpcode f = 1 → exec (.pbpRead f) s = .next (setNum s 0x1111 3 ((num s 0x1111 3 + 1) % 2 ^ 32))) ∧
    (∀ v, pbOpcode f = 2 → exec (.pbpWrite f v) s = .next (fin (setNum s 0x1111 3 ((num s 0x1111 3 + 1) % 2 ^ 32)))) ∧
    (pbOpcode f = 3 → exec (.pbpDescribe f) s = .next (setNum s 0x1111 3 ((num s 0x1111 3 + 1) % 2 ^ 32))) ∧
    (pbOpcode f = 4 → exec (.pbpEnumNext f) s = .next (setNum s 0x1111 3 ((num s 0x1111 3 + 1) % 2 ^ 32))) ∧
    (∀ ok, pbOpcode f = 5 → exec (.pbpStore f ok) s = .next (setNum s 0x1111 3 ((num s 0x1111 3 + 1) % 2 ^ 32))) ∧
    (∀ ok, pbOpcode f = 6 → exec (.pbpRestoreDefaults f ok) s = .next (setNum s 0x1111 3 ((num s 0x1111 3 + 1) % 2 ^ 32))) ∧
    (pbOpcode f = 7 → exec (.pbpSubscribe f) s = .next (setNum s 0x1111 3 ((num s 0x1111 3 + 1) % 2 ^ 32))) ∧
    (pbOpcode f = 8 → exec (.pbpUnsubscribe f) s = .next (setNum s 0x1111 3 ((num s 0x1111 3 + 1) % 2 ^ 32))) ∧
    (pbOpcode f = 9 → exec (.pbpPing f) s = .next (setNum s 0x1111 3 ((num s 0x1111 3 + 1) % 2 ^ 32))) ∧
    (∀ v, pbOpcode f = 10 → exec (.pbpWriteGroup f v) s = .next (fin (setNum s 0x1111 3 ((num s 0x1111 3 + 1) % 2 ^ 32))))

/-- A REQUEST whose TAG has a kept response is answered with that response and is not executed again; one beyond the session's limit is answered BUSY and counted. -/
def Obligations.KeptResponsesAnswerAgain : Prop :=
  (∀ f k r s, frameTaken s f 5 k = true → (getSess s k).kept.find? (fun r => r.tag == pbTag f) = some r →
    (pbOpcode f = 9 → exec (.pbpPing f) s = .next (sendFrame (afterFrame s f k) k (.response r))) ∧
    (pbOpcode f = 1 → exec (.pbpRead f) s = .next (sendFrame (afterFrame s f k) k (.response r))) ∧
    (∀ v, pbOpcode f = 2 → exec (.pbpWrite f v) s = .next (fin (sendFrame (afterFrame s f k) k (.response r)))) ∧
    (∀ ok, pbOpcode f = 5 → exec (.pbpStore f ok) s = .next (sendFrame (afterFrame s f k) k (.response r))) ∧
    (pbOpcode f = 7 → exec (.pbpSubscribe f) s = .next (sendFrame (afterFrame s f k) k (.response r)))) ∧
  (∀ f k s, frameTaken s f 5 k = true → (getSess s k).kept.find? (fun r => r.tag == pbTag f) = none → (if isI3c k then 1 else 8) ≤ (getSess s k).outstanding → pbOpcode f = 9 →
    exec (.pbpPing f) s = .next (sendFrame (bump (afterFrame s f k) 0x1111 4) k (.response { opcode := pbOpcode f, tag := pbTag f, abort := 0x0C, body := [] })))

/-- ROLE_KEYS (R101): a write is 0 B or 98 B long; byte 0 above 2, and with byte 0 of 1 or 2 a key that is no point of the curve, are refused; 0 B, or byte 0 of 0, empties the
element; a good key is held. -/
def Obligations.RoleKeyWrites : Prop :=
  (∀ w e v s, 1 ≤ e → e ≤ 16 → v.length ≠ 0 → v.length ≠ 98 → exec (.roleKeys w e v) s = .next (refused w abTYPE s)) ∧
  (∀ w e v s, 1 ≤ e → e ≤ 16 → v.length = 98 → 2 < bfld v 0 1 → exec (.roleKeys w e v) s = .next (refused w abRANGE s)) ∧
  (∀ w e v s, 1 ≤ e → e ≤ 16 → v.length = 98 → bfld v 0 1 = 1 ∨ bfld v 0 1 = 2 → (ecDecode (v.drop 1)).isSome = false →
    exec (.roleKeys w e v) s = .next (refused w abRANGE s)) ∧
  (∀ w e v s, 1 ≤ e → e ≤ 16 → v.length = 98 → bfld v 0 1 = 0 → exec (.roleKeys w e v) s = exec (.roleKeys w e []) s)

/-- BOLT_QUERY and BOLT_INFO: each session holds its own query, and a read of BOLT_INFO gives the map entry of the bolt that its own last BOLT_QUERY names, as it is at the read, or zero
for an offset outside unified memory. -/
def Obligations.BoltQueryIsPerSession : Prop :=
  (∀ w v s, v.length = 8 → exec (.boltQuery w v) s = .next (written w (setSess s w.slot { getSess s w.slot with boltQuery := leNat v }))) ∧
  (∀ s j k x, j ≠ k → getSess (setSess s j x) k = getSess s k) ∧
  (∀ s x role, x.boltQuery < s.tier.unifiedSize → viewOf s x role 0x2308 2 = .bytes (boltEntry s (x.boltQuery / 65536))) ∧
  (∀ s x role, s.tier.unifiedSize ≤ x.boltQuery → viewOf s x role 0x2308 2 = .bytes (zeros 16))

/-- A sticky record: false clears STICKY and FIRST together, true has no effect, another value is refused; STICKY_CLEAR_ALL clears every STICKY and FIRST and nothing else. -/
def Obligations.StickyRecordsAreCleared : Prop :=
  (∀ w c s, 1 ≤ c → c ≤ 0xFF → exec (.stickyWrite w c [0]) s = .next (written w (setBlob (setNum s (0x3100 + c) 1 0) (0x3100 + c) 3 (zeros 160))) ∧
    exec (.stickyWrite w c [1]) s = .next (written w s) ∧ exec (.stickyWrite w c [2]) s = .next (refused w abRANGE s)) ∧
  (∀ w s, ∃ u, exec (.stickyClearAll w [1]) s = .next (written w u) ∧
    (∀ c, 1 ≤ c → c ≤ 0xFF → (num u (0x3100 + c) 1 = 0 ∧ num u (0x3100 + c) 2 = num s (0x3100 + c) 2)) ∧
    (∀ i k, k < 256 → i < 0x3100 ∨ 0x3200 ≤ i → getObj u i k = getObj s i k))

/-- A detection sets STICKY of its code, and where STICKY was clear it fills FIRST; a later one leaves FIRST as it is (R671). COUNT rises, and LAST takes the sync counter. -/
def Obligations.DetectionsAreRecorded : Prop :=
  ∀ s code res level status addr detail, Objects.wf s.obj = true → 1 ≤ code → code ≤ 0xFF →
    let t := recordFault s code res 0xFF level status addr detail
    num t (0x3100 + code) 1 = 1 ∧ num t (0x3100 + code) 2 = (num s (0x3100 + code) 2 + 1) % 2 ^ 64 ∧ num t (0x3100 + code) 4 = s.det.count ∧
    (num s (0x3100 + code) 1 ≠ 1 → blob t (0x3100 + code) 3 = firstRecord s code res 0xFF level status addr detail) ∧
    (num s (0x3100 + code) 1 = 1 → blob t (0x3100 + code) 3 = blob s (0x3100 + code) 3)

/-- The sweeper's visit of a bolt: HEAT, AGE, the quadrant and the pending count become what R189's four lines give, and the bolt's home, slot, owner and region are not touched. -/
def Obligations.SweepFollowsItsFormulas : Prop :=
  ∀ b s, (getBolt s b).home = 1 ∨ (getBolt s b).home = 3 → (∀ t, (getBolt s b).sweptAt = some t → t + agePeriod s (getBolt s b).home ≤ s.det.now) →
    evacuated s (getBolt s b).home (unitOfSlot s (getBolt s b).home (getBolt s b).slot) = false →
    ∃ t, exec (.ageSweep b) s = .next t ∧
      (getBolt t b).heat = min 255 ((getBolt s b).heat - (getBolt s b).heat / 2 ^ num s 0x2301 2 + (getBolt s b).pendingN) ∧
      (getBolt t b).age = (if 0 < (getBolt s b).pendingN then 0 else min 255 ((getBolt s b).age + 1)) ∧
      (getBolt t b).pendingN = 0 ∧ (getBolt t b).home = (getBolt s b).home ∧ (getBolt t b).slot = (getBolt s b).slot ∧
      (getBolt t b).part = (getBolt s b).part ∧ (getBolt t b).region = (getBolt s b).region ∧ (∀ j, j ≠ b → getBolt t j = getBolt s j) ∧
      t.mem = s.mem ∧ t.obj = s.obj ∧ t.regions = s.regions

/-- The anti-rollback counters (R614): a write is refused with INCONSISTENT unless the version is above the fused value, at most 64, not above that of the running image and, for firmware,
not above that of the other stored image; an accepted one blows the fuses before the response, and the boot check keeps the old floor until the next reset. -/
def Obligations.AntiRollbackOnlyRises : Prop :=
  (∀ w v s, v.length = 4 →
    (leNat v ≤ s.sec.hem.arbFirmwareFuse ∨ 64 < leNat v ∨ num s 0x1003 3 < leNat v ∨ imageSecurity s (imageOff (otherImage s)) < leNat v) →
    exec (.arbAdvanceFw w v) s = .next (refused w abINCONS s)) ∧
  (∀ w v s, v.length = 4 → (leNat v ≤ s.sec.hem.arbLoaderFuse ∨ 64 < leNat v ∨ num s 0x2A22 3 < leNat v) →
    exec (.arbAdvanceLoader w v) s = .next (refused w abINCONS s)) ∧
  (∀ w v s, v.length = 4 → s.sec.hem.arbFirmwareFuse < leNat v → leNat v ≤ 64 → leNat v ≤ num s 0x1003 3 → leNat v ≤ imageSecurity s (imageOff (otherImage s)) →
    ∃ u, exec (.arbAdvanceFw w v) s = .next (written w u) ∧ u.sec.hem.arbFirmwareFuse = leNat v ∧ u.sec.hem.arbFirmware = s.sec.hem.arbFirmware) ∧
  (∀ s c, (deviceReset s c).sec.hem.arbFirmware = s.sec.hem.arbFirmwareFuse ∧ (deviceReset s c).sec.hem.arbLoader = s.sec.hem.arbLoaderFuse)

/-- MAP_COMMIT (R151): any value but the current epoch plus one is refused with INCONSISTENT; the commit makes the staging bank active, the value the epoch, and starts the grace of the
epoch that it replaces; the end of the copy makes the staging bank equal to the active one. -/
def Obligations.MapCommitFollowsTheEpoch : Prop :=
  (∀ w v s, v.length = 2 → leNat v ≠ (s.route.epoch + 1) % 65536 → exec (.mapCommit w v) s = .next (refused w abINCONS s)) ∧
  (∀ w v s, v.length = 2 → leNat v = (s.route.epoch + 1) % 65536 → s.route.copying = false → s.acc.issued = [] →
    exec (.mapCommit w v) s = .next (written w { s with route := { s.route with
      active := s.route.staging, epoch := leNat v, prev := some (s.route.epoch, s.det.now), copying := true } })) ∧
  (∀ s, s.route.copying = true → s.route.heldStage = [] →
    exec .mapStageCopyEnd s = .next (fin { s with route := { s.route with staging := s.route.active, copying := false } })) ∧
  (∀ s e, (epochOk s e).1 = true ↔ e = s.route.epoch ∨ ∃ t, s.route.prev = some (e, t) ∧ s.det.now < t + usT (num s 0x2201 2))

/-- A write of the wrong length is refused with TYPE_MISMATCH and changes nothing else (R60 step 4). -/
def Obligations.WrongLengthsAreRefused : Prop :=
  (∀ w v s, v.length ≠ 1 → exec (.placeReset w v) s = .next (refused w abTYPE s) ∧ exec (.placeFreeze w v) s = .next (refused w abTYPE s) ∧
    exec (.evacuate w v) s = .next (refused w abTYPE s) ∧
    exec (.resetCmd w v) s = .next (refused w abTYPE s) ∧ exec (.partCreate w v) s = .next (refused w abTYPE s) ∧
    exec (.partRemove w v) s = .next (refused w abTYPE s) ∧ exec (.violSticky w v) s = .next (refused w abTYPE s) ∧
    exec (.agentExpel w v) s = .next (refused w abTYPE s) ∧ exec (.stickyClearAll w v) s = .next (refused w abTYPE s) ∧
    exec (.detStep w v) s = .next (refused w abTYPE s) ∧ exec (.runReset w v) s = .next (refused w abTYPE s) ∧
    exec (.fwConfirm w v) s = .next (refused w abTYPE s)) ∧
  (∀ w d v s, d < 196 → domDisabled s d = false → v.length ≠ 2 → exec (.domTarget w d v) s = .next (refused w abTYPE s)) ∧
  (∀ w v s, v.length ≠ 2 → exec (.devTarget w v) s = .next (refused w abTYPE s)) ∧
  (∀ w v s, v.length ≠ 2 → exec (.mapCommit w v) s = .next (refused w abTYPE s) ∧ exec (.regionRecall w v) s = .next (refused w abTYPE s) ∧
    exec (.mirrorTakeover w v) s = .next (refused w abTYPE s) ∧ exec (.resourceQuery w v) s = .next (refused w abTYPE s)) ∧
  (∀ w v s, v.length ≠ 4 → exec (.debugUnlock w v) s = .next (refused w abTYPE s) ∧ exec (.arbAdvanceFw w v) s = .next (refused w abTYPE s) ∧
    exec (.arbAdvanceLoader w v) s = .next (refused w abTYPE s) ∧ exec (.sessionClose w v) s = .next (refused w abTYPE s)) ∧
  (∀ w v s, v.length ≠ 8 → exec (.boltQuery w v) s = .next (refused w abTYPE s) ∧ exec (.dirQuery w v) s = .next (refused w abTYPE s)) ∧
  (∀ w v s, v.length ≠ 24 → exec (.placeHint w v) s = .next (refused w abTYPE s)) ∧
  (∀ w v s, v.length ≠ 25 → exec (.padRelease w v) s = .next (refused w abTYPE s)) ∧
  (∀ w k v s, v.length ≠ 40 → exec (.windowWrite w k v) s = .next (refused w abTYPE s)) ∧
  (∀ w r v s, v.length ≠ 64 → exec (.regionCreate w r v) s = .next (refused w abTYPE s) ∧ exec (.regionRelease w r v) s = .next (refused w abTYPE s))

/-- What one element becomes under a far atomic (Table 9.2): integers wrap at their width, MIN and MAX compare as signed for I32 and I64 and as unsigned for U32 and U64, CAS takes the operand
exactly when memory equals COMPARE, the bitwise operations are bitwise, and a NaN in either value of a floating-point MIN or MAX gives the canonical NaN. -/
def Obligations.FarAtomicElements : Prop :=
  (∀ t x y, t < 4 → elemOp .add t 0 x y = (x + y) % (if t < 2 then 2 ^ 32 else 2 ^ 64)) ∧
  (∀ t x y, t = 1 ∨ t = 3 → elemOp .min t 0 x y = min x y ∧ elemOp .max t 0 x y = max x y) ∧
  (∀ x y, x < 2 ^ 32 → y < 2 ^ 32 → toSigned 32 (elemOp .min 0 0 x y) = min (toSigned 32 x) (toSigned 32 y) ∧
    toSigned 32 (elemOp .max 0 0 x y) = max (toSigned 32 x) (toSigned 32 y)) ∧
  (∀ x y, toSigned 64 (elemOp .min 2 0 x y) = min (toSigned 64 x) (toSigned 64 y) ∧ toSigned 64 (elemOp .max 2 0 x y) = max (toSigned 64 x) (toSigned 64 y)) ∧
  (∀ t c x y, elemOp .swap t c x y = y ∧ (t < 2 → c < 2 ^ 32 → elemOp .cas t c x y = if x = c then y else x)) ∧
  (∀ t c x y k, (elemOp .and t c x y).testBit k = (x.testBit k && y.testBit k) ∧ (elemOp .or t c x y).testBit k = (x.testBit k || y.testBit k) ∧
    (elemOp .xor t c x y).testBit k = (x.testBit k ^^ y.testBit k)) ∧
  (∀ x y, isNan (fdec fmtF32 x) = true ∨ isNan (fdec fmtF32 y) = true → elemOp .min 4 0 x y = 0x7FC00000 ∧ elemOp .max 4 0 x y = 0x7FC00000) ∧
  (∀ x y, isNan (fdec fmtBf16 x) = true ∨ isNan (fdec fmtBf16 y) = true → elemOp .min 5 0 x y = 0x7FC0 ∧ elemOp .max 5 0 x y = 0x7FC0)

/-- DIVISOR_STEP (R707, R708): it moves at most one clock by at most one position towards the largest of its demands, and the other clock not at all. -/
def Obligations.DivisorsMoveOnePosition : Prop :=
  (∀ s t, Objects.wf s.obj = true → exec (.divisorStep false) s = .next t →
    divC t = divC s ∧ (divT t = divT s ∨ (divT s < wantDiv s false ∧ divT t = divT s + 1) ∨ (wantDiv s false < divT s ∧ divT t + 1 = divT s))) ∧
  (∀ s t, Objects.wf s.obj = true → exec (.divisorStep true) s = .next t →
    divT t = divT s ∧ (divC t = divC s ∨ (divC s < wantDiv s true ∧ divC t = divC s + 1) ∨ (wantDiv s true < divC s ∧ divC t + 1 = divC s))) ∧
  (∀ s t0 c, s.pwr.stepAt = some t0 → s.det.now < t0 + usT 10 → exec (.divisorStep c) s = .next s)

/-- The power and thermal demands stay positions of their clocks' lists (R723 to R725): CLK_T's at most 8, CLK_C's at most 6. -/
def Obligations.DemandsStayInRange : Prop :=
  ∀ c s t, loopCommand c = true → (s.pwr.powerT ≤ 8 ∧ s.pwr.powerC ≤ 6 ∧ s.pwr.thermalT ≤ 8 ∧ s.pwr.thermalC ≤ 6) → exec c s = .next t →
    t.pwr.powerT ≤ 8 ∧ t.pwr.powerC ≤ 6 ∧ t.pwr.thermalT ≤ 8 ∧ t.pwr.thermalC ≤ 6

/-- The commands of the voltage, frequency, power and thermal loops change no memory, map, tier, coherence, ordering, version, session, partition or engine state (R724's separation from
placement). -/
def Obligations.LoopsChangeNoContents : Prop := ∀ c s t, loopCommand c = true → exec c s = .next t → SameContents s t ∧ t.ports = s.ports

/-- The SPDM, IDE_KM and CXL mailbox exchanges of a host change no memory, map, tier, coherence, ordering, version, Pattern Book, partition or engine state. -/
def Obligations.HostExchangesChangeNoContents : Prop := ∀ c s t, hostExchange c = true → exec c s = .next t → SameContents s t ∧ t.pwr = s.pwr ∧ t.bell = s.bell

/-- A reset (R733): unified memory, regions, windows, sessions, partitions, coherent and engine state are lost; the fuses, the configuration banks, the flash and the commands that wait are kept;
every cause but power-on keeps the sync counter. -/
def Obligations.ResetsLoseAndKeep : Prop :=
  ∀ s c, (deviceReset s c).mem = [] ∧ (deviceReset s c).regions = [] ∧ (deviceReset s c).windows = [] ∧ (deviceReset s c).sec.parts = [] ∧
    (deviceReset s c).pb.sessions = [] ∧ (deviceReset s c).coh = CohState.reset ∧ (deviceReset s c).eng = EngState.reset ∧ (deviceReset s c).ports = [] ∧
    (deviceReset s c).sec.hem.fused = s.sec.hem.fused ∧ (deviceReset s c).pb.bank1 = s.pb.bank1 ∧ (deviceReset s c).pb.bank2 = s.pb.bank2 ∧
    (deviceReset s c).pwr.flash = s.pwr.flash ∧ (deviceReset s c).pending = s.pending ∧ (c ≠ 1 → (deviceReset s c).det.count = s.det.count) ∧
    (c = 1 → (deviceReset s c).det.count = 0)
end

