-- ==== Sys2Proof/Laws/Sparse.lean ====
section
/-! SUPPORT. Laws of the sparse tables: a read after a write, other keys, and the canonical form. -/
namespace Sys2Proof.Machine

theorem swfFrom_weaken {α : Type} [DecidableEq α] {d : Nat → α} : ∀ {m : Sparse α} {lo hi : Nat}, lo ≤ hi → swfFrom d hi m = true → swfFrom d lo m = true
  | [], _, _, _, _ => rfl
  | (a, v) :: t, lo, hi, hl, h => by
    simp only [swfFrom, Bool.and_eq_true, decide_eq_true_eq] at h ⊢
    exact ⟨⟨by omega, h.1.2⟩, h.2⟩

theorem swfFrom_sput {α : Type} [DecidableEq α] {d : Nat → α} (k : Nat) (v : α) : ∀ {m : Sparse α} {lo : Nat}, lo ≤ k → swfFrom d lo m = true → swfFrom d lo (sput d m k v) = true
  | [], lo, hk, _ => by
    unfold sput; split
    · rfl
    · simp [swfFrom, *]
  | (a, w) :: t, lo, hk, h => by
    simp only [swfFrom, Bool.and_eq_true, decide_eq_true_eq] at h
    unfold sput
    split
    · split
      · simp [swfFrom, h]
      · simp only [swfFrom, Bool.and_eq_true, decide_eq_true_eq]
        refine ⟨⟨hk, by assumption⟩, ⟨by omega, h.1.2⟩, h.2⟩
    · split
      · split
        · exact swfFrom_weaken (by omega) h.2
        · simp only [swfFrom, Bool.and_eq_true, decide_eq_true_eq]
          refine ⟨⟨hk, by assumption⟩, ?_⟩
          have : k = a := by assumption
          rw [this]; exact h.2
      · simp only [swfFrom, Bool.and_eq_true, decide_eq_true_eq]
        exact ⟨h.1, swfFrom_sput k v (by omega) h.2⟩

theorem swfFrom_filter {α : Type} [DecidableEq α] {d : Nat → α} (p : Nat × α → Bool) : ∀ {m : Sparse α} {lo : Nat}, swfFrom d lo m = true → swfFrom d lo (m.filter p) = true
  | [], _, _ => rfl
  | (a, w) :: t, lo, h => by
    simp only [swfFrom, Bool.and_eq_true, decide_eq_true_eq] at h
    have ih := swfFrom_filter p h.2
    rw [List.filter_cons]
    split
    · simp only [swfFrom, Bool.and_eq_true, decide_eq_true_eq]
      exact ⟨h.1, ih⟩
    · exact swfFrom_weaken (by omega) ih

theorem sget_sput_new {α : Type} [DecidableEq α] (d : Nat → α) (k : Nat) (v : α) (h : v ≠ d k) : ∀ m : Sparse α, sget d (sput d m k v) k = v
  | [] => by simp [sput, sget, h]
  | (a, w) :: t => by
    unfold sput
    split
    · simp [sget]
    · split
      · simp [sget]
      · simp [sget, *, sget_sput_new d k v h t]

theorem sget_sput_ne {α : Type} [DecidableEq α] (d : Nat → α) (j k : Nat) (v : α) (h : j ≠ k) : ∀ m : Sparse α, sget d (sput d m k v) j = sget d m j
  | [] => by
    unfold sput
    split <;> simp [sget, h]
  | (a, w) :: t => by
    unfold sput
    split
    · split <;> simp [sget, h]
    · split
      · split <;> simp_all [sget]
      · simp [sget, sget_sput_ne d j k v h t]


/-- Below its lowest key a table in canonical form reads as the default. -/
theorem sget_below {α : Type} [DecidableEq α] {d : Nat → α} (k : Nat) : ∀ {m : Sparse α} {lo : Nat}, k < lo → swfFrom d lo m = true → sget d m k = d k
  | [], _, _, _ => rfl
  | (a, w) :: t, lo, hk, h => by
    simp only [swfFrom, Bool.and_eq_true, decide_eq_true_eq] at h
    have h1 : k ≠ a := by omega
    simp [sget, h1, sget_below k (m := t) (lo := a + 1) (by omega) h.2]

/-- A read after a write of the same key gives the value written, in a table in canonical form. -/
theorem sget_sput {α : Type} [DecidableEq α] {d : Nat → α} (k : Nat) (v : α) : ∀ {m : Sparse α} {lo : Nat}, swfFrom d lo m = true → sget d (sput d m k v) k = v
  | [], _, _ => by
    unfold sput
    split
    · simp [sget, *]
    · simp [sget]
  | (a, w) :: t, lo, h => by
    have h0 := h
    simp only [swfFrom, Bool.and_eq_true, decide_eq_true_eq] at h
    unfold sput
    split
    · split
      · rename_i hv
        rw [hv]
        exact sget_below k (m := (a, w) :: t) (lo := a) (by assumption) (by simp [swfFrom, h])
      · simp [sget]
    · split
      · split
        · rename_i he hv
          rw [hv]
          exact sget_below k (lo := a + 1) (by omega) h.2
        · simp [sget]
      · rename_i hn
        simp [sget, hn, sget_sput k v h.2]

/-- A key that a filter keeps reads as before. -/
theorem sget_filter_in {α : Type} {d : Nat → α} (p : Nat × α → Bool) (k : Nat) (h : ∀ v, p (k, v) = true) : ∀ (m : Sparse α), sget d (m.filter p) k = sget d m k
  | [] => rfl
  | (a, v) :: t => by
    have ih := sget_filter_in (d := d) p k h t
    by_cases hc : p (a, v) = true
    · simp [hc, sget, ih]
    · have : k ≠ a := by
        intro e
        subst e
        exact hc (h v)
      simp [hc, sget, this, ih]

/-- A key that a filter drops reads as the default. -/
theorem sget_filter_out {α : Type} {d : Nat → α} (p : Nat × α → Bool) (k : Nat) (h : ∀ v, p (k, v) = false) : ∀ (m : Sparse α), sget d (m.filter p) k = d k
  | [] => rfl
  | (a, v) :: t => by
    have ih := sget_filter_out (d := d) p k h t
    by_cases hc : p (a, v) = true
    · have : k ≠ a := by
        intro e
        subst e
        rw [h] at hc
        cases hc
      simp [hc, sget, this, ih]
    · simp [hc, ih]

end Sys2Proof.Machine
end

