-- ==== Sys2Proof/Laws/Memory.lean ====
section
/-! SUPPORT. Laws of memory: a read after a write, the other addresses, and the canonical form, for every operation over memory. -/
namespace Sys2Proof.Machine

/-- A byte that is written keeps the canonical form. -/
theorem memPut_wf {m : List Host.Cell} (a : Nat) (b : Byte) (h : Memory.wf m = true) : Memory.wf (memPut m a b) = true := swfFrom_sput a b (Nat.zero_le a) h

/-- Dropping cells keeps the canonical form. -/
theorem memFilter_wf {m : List Host.Cell} (p : Host.Cell → Bool) (h : Memory.wf m = true) : Memory.wf (m.filter p) = true := swfFrom_filter p h

/-- Zeroing a range keeps the canonical form. -/
theorem memZero_wf {m : List Host.Cell} (a n : Nat) (h : Memory.wf m = true) : Memory.wf (memZero m a n) = true := swfFrom_filter _ h

/-- Writing bytes keeps the canonical form. -/
theorem memWrite_wf : ∀ (d : Bytes) {m : List Host.Cell} (a : Nat), Memory.wf m = true → Memory.wf (memWrite m a d) = true
  | [], _, _, h => h
  | b :: t, _, a, h => memWrite_wf t (a + 1) (memPut_wf a b h)

/-- Writing many bytes one by one keeps the canonical form. -/
theorem memPuts_wf {α} (f : α → Nat) (g : α → Byte) : ∀ (l : List α) {m : List Host.Cell}, Memory.wf m = true → Memory.wf (l.foldl (fun m c => memPut m (f c) (g c)) m) = true
  | [], _, h => h
  | c :: l, _, h => memPuts_wf f g l (memPut_wf (f c) (g c) h)

/-- The byte just written is read. -/
theorem memGet_memPut {m : List Host.Cell} (a : Nat) (b : Byte) (h : Memory.wf m = true) : memGet (memPut m a b) a = b := sget_sput a b h

/-- Another address reads as before. -/
theorem memGet_memPut_ne (m : List Host.Cell) (a x : Nat) (b : Byte) (h : x ≠ a) : memGet (memPut m a b) x = memGet m x := sget_sput_ne _ x a b h m

/-- An address outside the bytes written reads as before. -/
theorem memGet_memWrite_out (x : Nat) : ∀ (d : Bytes) (m : List Host.Cell) (a : Nat), x < a ∨ a + d.length ≤ x → memGet (memWrite m a d) x = memGet m x
  | [], _, _, _ => rfl
  | b :: t, m, a, h => by
    simp only [List.length_cons] at h
    rw [memWrite, memGet_memWrite_out x t _ (a + 1) (by omega), memGet_memPut_ne _ _ _ _ (by omega)]

/-- The bytes written are read back. -/
theorem memRead_memWrite : ∀ (d : Bytes) {m : List Host.Cell} (a : Nat), Memory.wf m = true → memRead (memWrite m a d) a d.length = d
  | [], _, _, _ => rfl
  | b :: t, m, a, h => by
    simp only [List.length_cons, memWrite, memRead]
    rw [memRead_memWrite t (a + 1) (memPut_wf a b h), memGet_memWrite_out a t _ (a + 1) (by omega), memGet_memPut a b h]

/-- A zeroed byte reads as zero. -/
theorem memGet_memZero_in (m : List Host.Cell) (a n x : Nat) (h1 : a ≤ x) (h2 : x < a + n) : memGet (memZero m a n) x = 0 :=
  sget_filter_out _ x (fun _ => by simp; omega) m

/-- An address outside a zeroed range reads as before. -/
theorem memGet_memZero_out (m : List Host.Cell) (a n x : Nat) (h : x < a ∨ a + n ≤ x) : memGet (memZero m a n) x = memGet m x :=
  sget_filter_in _ x (fun _ => by simp; omega) m

end Sys2Proof.Machine
end

