-- ==== Sys2Proof/Laws/State.lean ====
section
/-! SUPPORT. Laws of the named updates of State: what each leaves as it is, field by field, and what a register, a session, a region, a bolt, a partition or a port reads after a write. -/
namespace Sys2Proof.Machine

/-! What setObj leaves as it is. -/

@[simp] theorem setObj_pending (s : State) (i k : Nat) (v : Val) : (setObj s i k v).pending = s.pending := rfl
@[simp] theorem setObj_out (s : State) (i k : Nat) (v : Val) : (setObj s i k v).out = s.out := rfl
@[simp] theorem setObj_free (s : State) (i k : Nat) (v : Val) : (setObj s i k v).free = s.free := rfl
@[simp] theorem setObj_pb (s : State) (i k : Nat) (v : Val) : (setObj s i k v).pb = s.pb := rfl
@[simp] theorem setObj_mem (s : State) (i k : Nat) (v : Val) : (setObj s i k v).mem = s.mem := rfl
@[simp] theorem setObj_poison (s : State) (i k : Nat) (v : Val) : (setObj s i k v).poison = s.poison := rfl
@[simp] theorem setObj_regions (s : State) (i k : Nat) (v : Val) : (setObj s i k v).regions = s.regions := rfl
@[simp] theorem setObj_windows (s : State) (i k : Nat) (v : Val) : (setObj s i k v).windows = s.windows := rfl
@[simp] theorem setObj_route (s : State) (i k : Nat) (v : Val) : (setObj s i k v).route = s.route := rfl
@[simp] theorem setObj_acc (s : State) (i k : Nat) (v : Val) : (setObj s i k v).acc = s.acc := rfl
@[simp] theorem setObj_tier (s : State) (i k : Nat) (v : Val) : (setObj s i k v).tier = s.tier := rfl
@[simp] theorem setObj_coh (s : State) (i k : Nat) (v : Val) : (setObj s i k v).coh = s.coh := rfl
@[simp] theorem setObj_ord (s : State) (i k : Nat) (v : Val) : (setObj s i k v).ord = s.ord := rfl
@[simp] theorem setObj_ver (s : State) (i k : Nat) (v : Val) : (setObj s i k v).ver = s.ver := rfl
@[simp] theorem setObj_sec (s : State) (i k : Nat) (v : Val) : (setObj s i k v).sec = s.sec := rfl
@[simp] theorem setObj_det (s : State) (i k : Nat) (v : Val) : (setObj s i k v).det = s.det := rfl
@[simp] theorem setObj_bell (s : State) (i k : Nat) (v : Val) : (setObj s i k v).bell = s.bell := rfl
@[simp] theorem setObj_flt (s : State) (i k : Nat) (v : Val) : (setObj s i k v).flt = s.flt := rfl
@[simp] theorem setObj_eng (s : State) (i k : Nat) (v : Val) : (setObj s i k v).eng = s.eng := rfl
@[simp] theorem setObj_ports (s : State) (i k : Nat) (v : Val) : (setObj s i k v).ports = s.ports := rfl
@[simp] theorem setObj_pwr (s : State) (i k : Nat) (v : Val) : (setObj s i k v).pwr = s.pwr := rfl

/-! What setNum leaves as it is. -/

@[simp] theorem setNum_pending (s : State) (i k n : Nat) : (setNum s i k n).pending = s.pending := rfl
@[simp] theorem setNum_out (s : State) (i k n : Nat) : (setNum s i k n).out = s.out := rfl
@[simp] theorem setNum_free (s : State) (i k n : Nat) : (setNum s i k n).free = s.free := rfl
@[simp] theorem setNum_pb (s : State) (i k n : Nat) : (setNum s i k n).pb = s.pb := rfl
@[simp] theorem setNum_mem (s : State) (i k n : Nat) : (setNum s i k n).mem = s.mem := rfl
@[simp] theorem setNum_poison (s : State) (i k n : Nat) : (setNum s i k n).poison = s.poison := rfl
@[simp] theorem setNum_regions (s : State) (i k n : Nat) : (setNum s i k n).regions = s.regions := rfl
@[simp] theorem setNum_windows (s : State) (i k n : Nat) : (setNum s i k n).windows = s.windows := rfl
@[simp] theorem setNum_route (s : State) (i k n : Nat) : (setNum s i k n).route = s.route := rfl
@[simp] theorem setNum_acc (s : State) (i k n : Nat) : (setNum s i k n).acc = s.acc := rfl
@[simp] theorem setNum_tier (s : State) (i k n : Nat) : (setNum s i k n).tier = s.tier := rfl
@[simp] theorem setNum_coh (s : State) (i k n : Nat) : (setNum s i k n).coh = s.coh := rfl
@[simp] theorem setNum_ord (s : State) (i k n : Nat) : (setNum s i k n).ord = s.ord := rfl
@[simp] theorem setNum_ver (s : State) (i k n : Nat) : (setNum s i k n).ver = s.ver := rfl
@[simp] theorem setNum_sec (s : State) (i k n : Nat) : (setNum s i k n).sec = s.sec := rfl
@[simp] theorem setNum_det (s : State) (i k n : Nat) : (setNum s i k n).det = s.det := rfl
@[simp] theorem setNum_bell (s : State) (i k n : Nat) : (setNum s i k n).bell = s.bell := rfl
@[simp] theorem setNum_flt (s : State) (i k n : Nat) : (setNum s i k n).flt = s.flt := rfl
@[simp] theorem setNum_eng (s : State) (i k n : Nat) : (setNum s i k n).eng = s.eng := rfl
@[simp] theorem setNum_ports (s : State) (i k n : Nat) : (setNum s i k n).ports = s.ports := rfl
@[simp] theorem setNum_pwr (s : State) (i k n : Nat) : (setNum s i k n).pwr = s.pwr := rfl

/-! What setBlob leaves as it is. -/

@[simp] theorem setBlob_pending (s : State) (i k : Nat) (b : Bytes) : (setBlob s i k b).pending = s.pending := rfl
@[simp] theorem setBlob_out (s : State) (i k : Nat) (b : Bytes) : (setBlob s i k b).out = s.out := rfl
@[simp] theorem setBlob_free (s : State) (i k : Nat) (b : Bytes) : (setBlob s i k b).free = s.free := rfl
@[simp] theorem setBlob_pb (s : State) (i k : Nat) (b : Bytes) : (setBlob s i k b).pb = s.pb := rfl
@[simp] theorem setBlob_mem (s : State) (i k : Nat) (b : Bytes) : (setBlob s i k b).mem = s.mem := rfl
@[simp] theorem setBlob_poison (s : State) (i k : Nat) (b : Bytes) : (setBlob s i k b).poison = s.poison := rfl
@[simp] theorem setBlob_regions (s : State) (i k : Nat) (b : Bytes) : (setBlob s i k b).regions = s.regions := rfl
@[simp] theorem setBlob_windows (s : State) (i k : Nat) (b : Bytes) : (setBlob s i k b).windows = s.windows := rfl
@[simp] theorem setBlob_route (s : State) (i k : Nat) (b : Bytes) : (setBlob s i k b).route = s.route := rfl
@[simp] theorem setBlob_acc (s : State) (i k : Nat) (b : Bytes) : (setBlob s i k b).acc = s.acc := rfl
@[simp] theorem setBlob_tier (s : State) (i k : Nat) (b : Bytes) : (setBlob s i k b).tier = s.tier := rfl
@[simp] theorem setBlob_coh (s : State) (i k : Nat) (b : Bytes) : (setBlob s i k b).coh = s.coh := rfl
@[simp] theorem setBlob_ord (s : State) (i k : Nat) (b : Bytes) : (setBlob s i k b).ord = s.ord := rfl
@[simp] theorem setBlob_ver (s : State) (i k : Nat) (b : Bytes) : (setBlob s i k b).ver = s.ver := rfl
@[simp] theorem setBlob_sec (s : State) (i k : Nat) (b : Bytes) : (setBlob s i k b).sec = s.sec := rfl
@[simp] theorem setBlob_det (s : State) (i k : Nat) (b : Bytes) : (setBlob s i k b).det = s.det := rfl
@[simp] theorem setBlob_bell (s : State) (i k : Nat) (b : Bytes) : (setBlob s i k b).bell = s.bell := rfl
@[simp] theorem setBlob_flt (s : State) (i k : Nat) (b : Bytes) : (setBlob s i k b).flt = s.flt := rfl
@[simp] theorem setBlob_eng (s : State) (i k : Nat) (b : Bytes) : (setBlob s i k b).eng = s.eng := rfl
@[simp] theorem setBlob_ports (s : State) (i k : Nat) (b : Bytes) : (setBlob s i k b).ports = s.ports := rfl
@[simp] theorem setBlob_pwr (s : State) (i k : Nat) (b : Bytes) : (setBlob s i k b).pwr = s.pwr := rfl

/-! What bumpBy leaves as it is. -/

@[simp] theorem bumpBy_pending (s : State) (i k n : Nat) : (bumpBy s i k n).pending = s.pending := rfl
@[simp] theorem bumpBy_out (s : State) (i k n : Nat) : (bumpBy s i k n).out = s.out := rfl
@[simp] theorem bumpBy_free (s : State) (i k n : Nat) : (bumpBy s i k n).free = s.free := rfl
@[simp] theorem bumpBy_pb (s : State) (i k n : Nat) : (bumpBy s i k n).pb = s.pb := rfl
@[simp] theorem bumpBy_mem (s : State) (i k n : Nat) : (bumpBy s i k n).mem = s.mem := rfl
@[simp] theorem bumpBy_poison (s : State) (i k n : Nat) : (bumpBy s i k n).poison = s.poison := rfl
@[simp] theorem bumpBy_regions (s : State) (i k n : Nat) : (bumpBy s i k n).regions = s.regions := rfl
@[simp] theorem bumpBy_windows (s : State) (i k n : Nat) : (bumpBy s i k n).windows = s.windows := rfl
@[simp] theorem bumpBy_route (s : State) (i k n : Nat) : (bumpBy s i k n).route = s.route := rfl
@[simp] theorem bumpBy_acc (s : State) (i k n : Nat) : (bumpBy s i k n).acc = s.acc := rfl
@[simp] theorem bumpBy_tier (s : State) (i k n : Nat) : (bumpBy s i k n).tier = s.tier := rfl
@[simp] theorem bumpBy_coh (s : State) (i k n : Nat) : (bumpBy s i k n).coh = s.coh := rfl
@[simp] theorem bumpBy_ord (s : State) (i k n : Nat) : (bumpBy s i k n).ord = s.ord := rfl
@[simp] theorem bumpBy_ver (s : State) (i k n : Nat) : (bumpBy s i k n).ver = s.ver := rfl
@[simp] theorem bumpBy_sec (s : State) (i k n : Nat) : (bumpBy s i k n).sec = s.sec := rfl
@[simp] theorem bumpBy_det (s : State) (i k n : Nat) : (bumpBy s i k n).det = s.det := rfl
@[simp] theorem bumpBy_bell (s : State) (i k n : Nat) : (bumpBy s i k n).bell = s.bell := rfl
@[simp] theorem bumpBy_flt (s : State) (i k n : Nat) : (bumpBy s i k n).flt = s.flt := rfl
@[simp] theorem bumpBy_eng (s : State) (i k n : Nat) : (bumpBy s i k n).eng = s.eng := rfl
@[simp] theorem bumpBy_ports (s : State) (i k n : Nat) : (bumpBy s i k n).ports = s.ports := rfl
@[simp] theorem bumpBy_pwr (s : State) (i k n : Nat) : (bumpBy s i k n).pwr = s.pwr := rfl

/-! What bump leaves as it is. -/

@[simp] theorem bump_pending (s : State) (i k : Nat) : (bump s i k).pending = s.pending := rfl
@[simp] theorem bump_out (s : State) (i k : Nat) : (bump s i k).out = s.out := rfl
@[simp] theorem bump_free (s : State) (i k : Nat) : (bump s i k).free = s.free := rfl
@[simp] theorem bump_pb (s : State) (i k : Nat) : (bump s i k).pb = s.pb := rfl
@[simp] theorem bump_mem (s : State) (i k : Nat) : (bump s i k).mem = s.mem := rfl
@[simp] theorem bump_poison (s : State) (i k : Nat) : (bump s i k).poison = s.poison := rfl
@[simp] theorem bump_regions (s : State) (i k : Nat) : (bump s i k).regions = s.regions := rfl
@[simp] theorem bump_windows (s : State) (i k : Nat) : (bump s i k).windows = s.windows := rfl
@[simp] theorem bump_route (s : State) (i k : Nat) : (bump s i k).route = s.route := rfl
@[simp] theorem bump_acc (s : State) (i k : Nat) : (bump s i k).acc = s.acc := rfl
@[simp] theorem bump_tier (s : State) (i k : Nat) : (bump s i k).tier = s.tier := rfl
@[simp] theorem bump_coh (s : State) (i k : Nat) : (bump s i k).coh = s.coh := rfl
@[simp] theorem bump_ord (s : State) (i k : Nat) : (bump s i k).ord = s.ord := rfl
@[simp] theorem bump_ver (s : State) (i k : Nat) : (bump s i k).ver = s.ver := rfl
@[simp] theorem bump_sec (s : State) (i k : Nat) : (bump s i k).sec = s.sec := rfl
@[simp] theorem bump_det (s : State) (i k : Nat) : (bump s i k).det = s.det := rfl
@[simp] theorem bump_bell (s : State) (i k : Nat) : (bump s i k).bell = s.bell := rfl
@[simp] theorem bump_flt (s : State) (i k : Nat) : (bump s i k).flt = s.flt := rfl
@[simp] theorem bump_eng (s : State) (i k : Nat) : (bump s i k).eng = s.eng := rfl
@[simp] theorem bump_ports (s : State) (i k : Nat) : (bump s i k).ports = s.ports := rfl
@[simp] theorem bump_pwr (s : State) (i k : Nat) : (bump s i k).pwr = s.pwr := rfl

/-! What setSess leaves as it is. -/

@[simp] theorem setSess_pending (s : State) (k : Nat) (x : Session) : (setSess s k x).pending = s.pending := rfl
@[simp] theorem setSess_out (s : State) (k : Nat) (x : Session) : (setSess s k x).out = s.out := rfl
@[simp] theorem setSess_free (s : State) (k : Nat) (x : Session) : (setSess s k x).free = s.free := rfl
@[simp] theorem setSess_obj (s : State) (k : Nat) (x : Session) : (setSess s k x).obj = s.obj := rfl
@[simp] theorem setSess_mem (s : State) (k : Nat) (x : Session) : (setSess s k x).mem = s.mem := rfl
@[simp] theorem setSess_poison (s : State) (k : Nat) (x : Session) : (setSess s k x).poison = s.poison := rfl
@[simp] theorem setSess_regions (s : State) (k : Nat) (x : Session) : (setSess s k x).regions = s.regions := rfl
@[simp] theorem setSess_windows (s : State) (k : Nat) (x : Session) : (setSess s k x).windows = s.windows := rfl
@[simp] theorem setSess_route (s : State) (k : Nat) (x : Session) : (setSess s k x).route = s.route := rfl
@[simp] theorem setSess_acc (s : State) (k : Nat) (x : Session) : (setSess s k x).acc = s.acc := rfl
@[simp] theorem setSess_tier (s : State) (k : Nat) (x : Session) : (setSess s k x).tier = s.tier := rfl
@[simp] theorem setSess_coh (s : State) (k : Nat) (x : Session) : (setSess s k x).coh = s.coh := rfl
@[simp] theorem setSess_ord (s : State) (k : Nat) (x : Session) : (setSess s k x).ord = s.ord := rfl
@[simp] theorem setSess_ver (s : State) (k : Nat) (x : Session) : (setSess s k x).ver = s.ver := rfl
@[simp] theorem setSess_sec (s : State) (k : Nat) (x : Session) : (setSess s k x).sec = s.sec := rfl
@[simp] theorem setSess_det (s : State) (k : Nat) (x : Session) : (setSess s k x).det = s.det := rfl
@[simp] theorem setSess_bell (s : State) (k : Nat) (x : Session) : (setSess s k x).bell = s.bell := rfl
@[simp] theorem setSess_flt (s : State) (k : Nat) (x : Session) : (setSess s k x).flt = s.flt := rfl
@[simp] theorem setSess_eng (s : State) (k : Nat) (x : Session) : (setSess s k x).eng = s.eng := rfl
@[simp] theorem setSess_ports (s : State) (k : Nat) (x : Session) : (setSess s k x).ports = s.ports := rfl
@[simp] theorem setSess_pwr (s : State) (k : Nat) (x : Session) : (setSess s k x).pwr = s.pwr := rfl

/-! What setRegion leaves as it is. -/

@[simp] theorem setRegion_pending (s : State) (r : Nat) (x : Region) : (setRegion s r x).pending = s.pending := rfl
@[simp] theorem setRegion_out (s : State) (r : Nat) (x : Region) : (setRegion s r x).out = s.out := rfl
@[simp] theorem setRegion_free (s : State) (r : Nat) (x : Region) : (setRegion s r x).free = s.free := rfl
@[simp] theorem setRegion_obj (s : State) (r : Nat) (x : Region) : (setRegion s r x).obj = s.obj := rfl
@[simp] theorem setRegion_pb (s : State) (r : Nat) (x : Region) : (setRegion s r x).pb = s.pb := rfl
@[simp] theorem setRegion_mem (s : State) (r : Nat) (x : Region) : (setRegion s r x).mem = s.mem := rfl
@[simp] theorem setRegion_poison (s : State) (r : Nat) (x : Region) : (setRegion s r x).poison = s.poison := rfl
@[simp] theorem setRegion_windows (s : State) (r : Nat) (x : Region) : (setRegion s r x).windows = s.windows := rfl
@[simp] theorem setRegion_route (s : State) (r : Nat) (x : Region) : (setRegion s r x).route = s.route := rfl
@[simp] theorem setRegion_acc (s : State) (r : Nat) (x : Region) : (setRegion s r x).acc = s.acc := rfl
@[simp] theorem setRegion_tier (s : State) (r : Nat) (x : Region) : (setRegion s r x).tier = s.tier := rfl
@[simp] theorem setRegion_coh (s : State) (r : Nat) (x : Region) : (setRegion s r x).coh = s.coh := rfl
@[simp] theorem setRegion_ord (s : State) (r : Nat) (x : Region) : (setRegion s r x).ord = s.ord := rfl
@[simp] theorem setRegion_ver (s : State) (r : Nat) (x : Region) : (setRegion s r x).ver = s.ver := rfl
@[simp] theorem setRegion_sec (s : State) (r : Nat) (x : Region) : (setRegion s r x).sec = s.sec := rfl
@[simp] theorem setRegion_det (s : State) (r : Nat) (x : Region) : (setRegion s r x).det = s.det := rfl
@[simp] theorem setRegion_bell (s : State) (r : Nat) (x : Region) : (setRegion s r x).bell = s.bell := rfl
@[simp] theorem setRegion_flt (s : State) (r : Nat) (x : Region) : (setRegion s r x).flt = s.flt := rfl
@[simp] theorem setRegion_eng (s : State) (r : Nat) (x : Region) : (setRegion s r x).eng = s.eng := rfl
@[simp] theorem setRegion_ports (s : State) (r : Nat) (x : Region) : (setRegion s r x).ports = s.ports := rfl
@[simp] theorem setRegion_pwr (s : State) (r : Nat) (x : Region) : (setRegion s r x).pwr = s.pwr := rfl

/-! What setBolt leaves as it is. -/

@[simp] theorem setBolt_pending (s : State) (b : Nat) (x : Bolt) : (setBolt s b x).pending = s.pending := rfl
@[simp] theorem setBolt_out (s : State) (b : Nat) (x : Bolt) : (setBolt s b x).out = s.out := rfl
@[simp] theorem setBolt_free (s : State) (b : Nat) (x : Bolt) : (setBolt s b x).free = s.free := rfl
@[simp] theorem setBolt_obj (s : State) (b : Nat) (x : Bolt) : (setBolt s b x).obj = s.obj := rfl
@[simp] theorem setBolt_pb (s : State) (b : Nat) (x : Bolt) : (setBolt s b x).pb = s.pb := rfl
@[simp] theorem setBolt_mem (s : State) (b : Nat) (x : Bolt) : (setBolt s b x).mem = s.mem := rfl
@[simp] theorem setBolt_poison (s : State) (b : Nat) (x : Bolt) : (setBolt s b x).poison = s.poison := rfl
@[simp] theorem setBolt_regions (s : State) (b : Nat) (x : Bolt) : (setBolt s b x).regions = s.regions := rfl
@[simp] theorem setBolt_windows (s : State) (b : Nat) (x : Bolt) : (setBolt s b x).windows = s.windows := rfl
@[simp] theorem setBolt_route (s : State) (b : Nat) (x : Bolt) : (setBolt s b x).route = s.route := rfl
@[simp] theorem setBolt_acc (s : State) (b : Nat) (x : Bolt) : (setBolt s b x).acc = s.acc := rfl
@[simp] theorem setBolt_coh (s : State) (b : Nat) (x : Bolt) : (setBolt s b x).coh = s.coh := rfl
@[simp] theorem setBolt_ord (s : State) (b : Nat) (x : Bolt) : (setBolt s b x).ord = s.ord := rfl
@[simp] theorem setBolt_ver (s : State) (b : Nat) (x : Bolt) : (setBolt s b x).ver = s.ver := rfl
@[simp] theorem setBolt_sec (s : State) (b : Nat) (x : Bolt) : (setBolt s b x).sec = s.sec := rfl
@[simp] theorem setBolt_det (s : State) (b : Nat) (x : Bolt) : (setBolt s b x).det = s.det := rfl
@[simp] theorem setBolt_bell (s : State) (b : Nat) (x : Bolt) : (setBolt s b x).bell = s.bell := rfl
@[simp] theorem setBolt_flt (s : State) (b : Nat) (x : Bolt) : (setBolt s b x).flt = s.flt := rfl
@[simp] theorem setBolt_eng (s : State) (b : Nat) (x : Bolt) : (setBolt s b x).eng = s.eng := rfl
@[simp] theorem setBolt_ports (s : State) (b : Nat) (x : Bolt) : (setBolt s b x).ports = s.ports := rfl
@[simp] theorem setBolt_pwr (s : State) (b : Nat) (x : Bolt) : (setBolt s b x).pwr = s.pwr := rfl

/-! What setPart leaves as it is. -/

@[simp] theorem setPart_pending (s : State) (p : Nat) (x : Partition) : (setPart s p x).pending = s.pending := rfl
@[simp] theorem setPart_out (s : State) (p : Nat) (x : Partition) : (setPart s p x).out = s.out := rfl
@[simp] theorem setPart_free (s : State) (p : Nat) (x : Partition) : (setPart s p x).free = s.free := rfl
@[simp] theorem setPart_obj (s : State) (p : Nat) (x : Partition) : (setPart s p x).obj = s.obj := rfl
@[simp] theorem setPart_pb (s : State) (p : Nat) (x : Partition) : (setPart s p x).pb = s.pb := rfl
@[simp] theorem setPart_mem (s : State) (p : Nat) (x : Partition) : (setPart s p x).mem = s.mem := rfl
@[simp] theorem setPart_poison (s : State) (p : Nat) (x : Partition) : (setPart s p x).poison = s.poison := rfl
@[simp] theorem setPart_regions (s : State) (p : Nat) (x : Partition) : (setPart s p x).regions = s.regions := rfl
@[simp] theorem setPart_windows (s : State) (p : Nat) (x : Partition) : (setPart s p x).windows = s.windows := rfl
@[simp] theorem setPart_route (s : State) (p : Nat) (x : Partition) : (setPart s p x).route = s.route := rfl
@[simp] theorem setPart_acc (s : State) (p : Nat) (x : Partition) : (setPart s p x).acc = s.acc := rfl
@[simp] theorem setPart_tier (s : State) (p : Nat) (x : Partition) : (setPart s p x).tier = s.tier := rfl
@[simp] theorem setPart_coh (s : State) (p : Nat) (x : Partition) : (setPart s p x).coh = s.coh := rfl
@[simp] theorem setPart_ord (s : State) (p : Nat) (x : Partition) : (setPart s p x).ord = s.ord := rfl
@[simp] theorem setPart_ver (s : State) (p : Nat) (x : Partition) : (setPart s p x).ver = s.ver := rfl
@[simp] theorem setPart_det (s : State) (p : Nat) (x : Partition) : (setPart s p x).det = s.det := rfl
@[simp] theorem setPart_bell (s : State) (p : Nat) (x : Partition) : (setPart s p x).bell = s.bell := rfl
@[simp] theorem setPart_flt (s : State) (p : Nat) (x : Partition) : (setPart s p x).flt = s.flt := rfl
@[simp] theorem setPart_eng (s : State) (p : Nat) (x : Partition) : (setPart s p x).eng = s.eng := rfl
@[simp] theorem setPart_ports (s : State) (p : Nat) (x : Partition) : (setPart s p x).ports = s.ports := rfl
@[simp] theorem setPart_pwr (s : State) (p : Nat) (x : Partition) : (setPart s p x).pwr = s.pwr := rfl

/-! What setPort leaves as it is. -/

@[simp] theorem setPort_pending (s : State) (p : Nat) (x : PortDyn) : (setPort s p x).pending = s.pending := rfl
@[simp] theorem setPort_out (s : State) (p : Nat) (x : PortDyn) : (setPort s p x).out = s.out := rfl
@[simp] theorem setPort_free (s : State) (p : Nat) (x : PortDyn) : (setPort s p x).free = s.free := rfl
@[simp] theorem setPort_obj (s : State) (p : Nat) (x : PortDyn) : (setPort s p x).obj = s.obj := rfl
@[simp] theorem setPort_pb (s : State) (p : Nat) (x : PortDyn) : (setPort s p x).pb = s.pb := rfl
@[simp] theorem setPort_mem (s : State) (p : Nat) (x : PortDyn) : (setPort s p x).mem = s.mem := rfl
@[simp] theorem setPort_poison (s : State) (p : Nat) (x : PortDyn) : (setPort s p x).poison = s.poison := rfl
@[simp] theorem setPort_regions (s : State) (p : Nat) (x : PortDyn) : (setPort s p x).regions = s.regions := rfl
@[simp] theorem setPort_windows (s : State) (p : Nat) (x : PortDyn) : (setPort s p x).windows = s.windows := rfl
@[simp] theorem setPort_route (s : State) (p : Nat) (x : PortDyn) : (setPort s p x).route = s.route := rfl
@[simp] theorem setPort_acc (s : State) (p : Nat) (x : PortDyn) : (setPort s p x).acc = s.acc := rfl
@[simp] theorem setPort_tier (s : State) (p : Nat) (x : PortDyn) : (setPort s p x).tier = s.tier := rfl
@[simp] theorem setPort_coh (s : State) (p : Nat) (x : PortDyn) : (setPort s p x).coh = s.coh := rfl
@[simp] theorem setPort_ord (s : State) (p : Nat) (x : PortDyn) : (setPort s p x).ord = s.ord := rfl
@[simp] theorem setPort_ver (s : State) (p : Nat) (x : PortDyn) : (setPort s p x).ver = s.ver := rfl
@[simp] theorem setPort_sec (s : State) (p : Nat) (x : PortDyn) : (setPort s p x).sec = s.sec := rfl
@[simp] theorem setPort_det (s : State) (p : Nat) (x : PortDyn) : (setPort s p x).det = s.det := rfl
@[simp] theorem setPort_bell (s : State) (p : Nat) (x : PortDyn) : (setPort s p x).bell = s.bell := rfl
@[simp] theorem setPort_flt (s : State) (p : Nat) (x : PortDyn) : (setPort s p x).flt = s.flt := rfl
@[simp] theorem setPort_eng (s : State) (p : Nat) (x : PortDyn) : (setPort s p x).eng = s.eng := rfl
@[simp] theorem setPort_pwr (s : State) (p : Nat) (x : PortDyn) : (setPort s p x).pwr = s.pwr := rfl

/-- The key of an object is its own: an index and a sub-index below 256 have one key. -/
theorem okey_ne {i j k l : Nat} (hk : k < 256) (hl : l < 256) (h : j ≠ i ∨ l ≠ k) : okey j l ≠ okey i k := by
  unfold okey
  omega

/-- An object's write keeps the store's canonical form. -/
theorem objPut_wf {m : Sparse Val} (k : Nat) (v : Val) (h : Objects.wf m = true) : Objects.wf (sput objDefault m k v) = true := swfFrom_sput k v (Nat.zero_le k) h

/-- Dropping objects keeps the store's canonical form. -/
theorem objFilter_wf {m : Sparse Val} (p : Nat × Val → Bool) (h : Objects.wf m = true) : Objects.wf (m.filter p) = true := swfFrom_filter p h

/-- An object's write keeps the store's canonical form. -/
theorem setObj_wf (s : State) (i k : Nat) (v : Val) (h : Objects.wf s.obj = true) : Objects.wf (setObj s i k v).obj = true := objPut_wf _ v h

/-- An object reads what was written to it. -/
theorem getObj_setObj (s : State) (i k : Nat) (v : Val) (h : Objects.wf s.obj = true) : getObj (setObj s i k v) i k = v := sget_sput _ v h

/-- Another object reads as before. -/
theorem getObj_setObj_ne (s : State) (i k j l : Nat) (v : Val) (h : okey j l ≠ okey i k) : getObj (setObj s i k v) j l = getObj s j l := sget_sput_ne _ _ _ _ h _

/-- A number reads what was written to it. -/
theorem num_setNum (s : State) (i k n : Nat) (h : Objects.wf s.obj = true) : num (setNum s i k n) i k = n := by
  simp [num, setNum, getObj_setObj s i k _ h]

/-- Another number reads as before. -/
theorem num_setNum_ne (s : State) (i k j l n : Nat) (h : okey j l ≠ okey i k) : num (setNum s i k n) j l = num s j l := by
  unfold num setNum
  rw [getObj_setObj_ne _ _ _ _ _ _ h]

/-- A number reads as before when another object's bytes are written. -/
theorem num_setBlob_ne (s : State) (i k j l : Nat) (b : Bytes) (h : okey j l ≠ okey i k) : num (setBlob s i k b) j l = num s j l := by
  unfold num setBlob
  rw [getObj_setObj_ne _ _ _ _ _ _ h]

/-- Bytes read what was written to them. -/
theorem blob_setBlob (s : State) (i k : Nat) (b : Bytes) (h : Objects.wf s.obj = true) : blob (setBlob s i k b) i k = b := by
  simp [blob, setBlob, getObj_setObj s i k _ h]

/-- Other bytes read as before. -/
theorem blob_setNum_ne (s : State) (i k j l n : Nat) (h : okey j l ≠ okey i k) : blob (setNum s i k n) j l = blob s j l := by
  unfold blob setNum
  rw [getObj_setObj_ne _ _ _ _ _ _ h]

/-- A number whose default is another reads what was written to it, in any store. -/
theorem num_setNum_new (s : State) (i k n : Nat) (h : objDefault (okey i k) ≠ .num n) : num (setNum s i k n) i k = n := by
  have : getObj (setNum s i k n) i k = .num n := sget_sput_new _ _ _ (fun e => h e.symm) _
  simp [num, this]

/-- A session in use that is written is read. -/
theorem getSess_setSess_used (s : State) (k : Nat) (x : Session) (h : x.inUse = true) : getSess (setSess s k x) k = x := by
  have : x ≠ Session.free := by
    intro e
    subst e
    simp [Session.free] at h
  exact sget_sput_new (fun _ => Session.free) k x this _

/-- Another session reads as before. -/
theorem getSess_setSess_ne (s : State) (k j : Nat) (x : Session) (h : j ≠ k) : getSess (setSess s k x) j = getSess s j := sget_sput_ne _ _ _ _ h _

/-- Another region reads as before. -/
theorem getRegion_setRegion_ne (s : State) (k j : Nat) (x : Region) (h : j ≠ k) : getRegion (setRegion s k x) j = getRegion s j := sget_sput_ne _ _ _ _ h _

/-- Another bolt reads as before. -/
theorem getBolt_setBolt_ne (s : State) (k j : Nat) (x : Bolt) (h : j ≠ k) : getBolt (setBolt s k x) j = getBolt s j := sget_sput_ne _ _ _ _ h _

/-- Another partition reads as before. -/
theorem getPart_setPart_ne (s : State) (k j : Nat) (x : Partition) (h : j ≠ k) : getPart (setPart s k x) j = getPart s j := sget_sput_ne _ _ _ _ h _

end Sys2Proof.Machine
end

