-- ==== Sys2Proof/Laws/Power.lean ====
section
/-! SUPPORT. Laws of the power domains and the port states under writes of other objects. -/
namespace Sys2Proof.Machine

theorem dropMove_none (s : State) (d : Nat) (h : s.pwr.moves.any (fun m => m.dom == d) = false) : dropMove s d = s := by
  have h1 : s.pwr.moves.filter (fun m => m.dom == d) = [] := by
    rw [List.filter_eq_nil_iff]; simpa using h
  have h2 : s.pwr.moves.filter (fun m => m.dom != d) = s.pwr.moves := by
    rw [List.filter_eq_self]; simpa using h
  simp [dropMove, h1, h2, forS]

theorem domState_target (s : State) (d e v : Nat) (hd : d < 196) (he : e < 196) : domState (setNum s 0x2011 (d + 1) v) e = domState s e := by
  unfold domState; apply num_setNum_ne; unfold okey; omega

theorem portState_setBlob (s : State) (i p : Nat) (b : Bytes) (h : i ≠ 0x2107) : portState (setBlob s i (p + 1) b) p = portState s p := by
  unfold portState num setBlob
  rw [getObj_setObj_ne]
  unfold okey; omega

end Sys2Proof.Machine
end

