-- ==== Sys2Proof/Laws/Sessions.lean ====
section
/-! SUPPORT. What taking a frame and a REQUEST of a Pattern Book session does, said once. -/
namespace Sys2Proof.Machine

theorem slotOf_used (s : State) (f : Frame) (k : Nat) (h : slotOf s f = some k) : (getSess s k).inUse = true := by
  have := List.find?_some h
  simp at this; exact this.1

theorem frameTaken_used (s : State) (h : Frame) (t k : Nat) (hf : frameTaken s h t k = true) : (getSess s k).inUse = true := by
  simp only [frameTaken, Bool.and_eq_true, beq_iff_eq] at hf
  exact slotOf_used s _ _ hf.1.1.1.2

theorem takeFrame_taken (s : State) (h : Frame) (t k : Nat) (f : State → Nat → State) (hf : frameTaken s h t k = true) :
    takeFrame s h t f = f (afterFrame s h k) k := by
  simp [frameTaken] at hf
  obtain ⟨⟨⟨⟨⟨⟨⟨h1, h2⟩, h3⟩, h4⟩, h5⟩, h6⟩, h7⟩, h8⟩ := hf
  have h9 : ¬ h.seq ≤ (getSess s k).clientSeq := by omega
  have h10 : ¬ bodyMax h.tr < h.body.length := by omega
  simp [takeFrame, h1, h2, h3, h10, h5, h6, h7, h9, afterFrame]

theorem takeRequest_taken (s : State) (h : Frame) (op k : Nat) (f : State → Nat → State) (hf : requestTaken s h op k = true) :
    takeRequest s h op f = f (requested s h k) k := by
  simp only [requestTaken, Bool.and_eq_true, decide_eq_true_eq, beq_iff_eq] at hf
  obtain ⟨⟨⟨⟨⟨h1, h2⟩, h3⟩, h4⟩, h5⟩, h6⟩ := hf
  have hu := frameTaken_used s _ _ _ h1
  have hg : getSess (afterFrame s h k) k = { getSess s k with clientSeq := h.seq, lastFrame := s.det.now, framesIn := (getSess s k).framesIn + 1 } :=
    getSess_setSess_used _ _ _ hu
  have hk : (getSess s k).kept.find? (fun r => r.tag == pbTag h) = none := by
    simp at h2; rw [List.find?_eq_none]; simpa using h2
  unfold takeRequest
  rw [takeFrame_taken s _ _ k _ h1]
  have h3' : ¬ (if isI3c k = true then 1 else 8) ≤ (getSess s k).outstanding := by omega
  simp [hg, hk, h3', h4, requested]

end Sys2Proof.Machine
end

