-- ==== Sys2Proof/Laws/Treadle.lean ====
section
/-! SUPPORT. What the issue of a Treadle unit's next instruction does, said once. -/
namespace Sys2Proof.Machine

theorem stopped_none {s t : State} {d : DescRef} (h : engStopped t = false) : stopped s t d = none := by
  simp [engStopped] at h
  simp [stopped, h.1, h.2]

theorem tdStep_issues {s u : State} {a cls op : Nat} {f : State → TdJob → Bool × State} {e : State → TdJob → Nat → State} {j : TdJob} {t : State}
    (h : tdIssues s a cls op u j) (hn : tiAccesses cls op = false) (hf : f u j = (true, t)) (ht : engStopped t = false) :
    tdStep s a cls op f e = fin (unstall (jobDone t j) j.l.d) := by
  obtain ⟨h1, h2⟩ := h
  unfold tdNext at h1
  split at h1
  · simp at h1
  · rename_i l p z hp
    simp at h1
    obtain ⟨h1, rfl⟩ := h1
    obtain ⟨x, hx⟩ := Option.isSome_iff_exists.mp h2
    simp [tdStep, hp, h1, hx, hn, hf, stopped_none ht]

theorem tdStep_issuesMem {s u : State} {a cls op : Nat} {f : State → TdJob → Bool × State} {e : State → TdJob → Nat → State} {j : TdJob} {t : State} {x : Desc}
    (h : tdIssues s a cls op u j) (hx : findDesc u j.l.d = some x) (h3 : x.trap = none) (h4 : x.heldEnd = none) (hf : f u j = (true, t)) (ht : engStopped t = false) :
    tdStep s a cls op f e = fin (unstall (jobDone t j) j.l.d) := by
  obtain ⟨h1, h2⟩ := h
  unfold tdNext at h1
  split at h1
  · simp at h1
  · rename_i l p z hp
    simp at h1
    obtain ⟨h1, rfl⟩ := h1
    simp [tdStep, hp, h1, hx, hf, stopped_none ht, h3, h4]

end Sys2Proof.Machine
end

