-- ==== Sys2Proof/WellFormed.lean ====
section
/-! DEFINITION. Well-formed commands: each operand is a value that the field it stands for can hold. No meaning rests on it: exec is total on every term. -/
namespace Sys2Proof

/-- A session slot is one of 16 and two (R86, R88). -/
def Writer.wf (w : Writer) : Bool := decide (w.slot < 18) && decide (w.tag < 2 ^ 16)

/-- The fields of a client frame (Tables 2.5 and 2.6): a body of 16 bits of length, and a tag of at most 24 bytes. -/
def Frame.wf (f : Frame) : Bool :=
  decide (f.version < 256) && decide (f.ftype < 256) && decide (f.sid < 2 ^ 32) && decide (f.seq < 2 ^ 64) && decide (f.body.length < 65536) && decide (f.auth.length ≤ 24)

/-- A request's header: requester kind and unit (R767), endpoints of 16 bits (R103), a CID of 20, a local offset or virtual address of 64. -/
def Head.wf (h : Head) : Bool :=
  decide (h.kind < 7) && decide (h.unit < 4096) && decide (h.ep < 65536) && decide (h.dst < 65536) && decide (h.cid < 2 ^ 20) && decide (h.addr < 2 ^ 64) && decide (h.va < 2 ^ 64)

/-- A load of at most a line; a store, an atomic's operands, a reduction or a BLK payload of the lengths of Table 6.2. -/
def MemOp.wf : MemOp → Bool
  | .load n => decide (0 < n) && decide (n ≤ 64)
  | .store d _ => decide (0 < d.length) && decide (d.length ≤ 64)
  | .atomic _ t _ _ o => decide (t < 16) && decide (o.length ≤ 64)
  | .reduce r t d => decide (r < 8) && decide (t < 8) && decide (0 < d.length) && decide (d.length ≤ 64)
  | .blk _ _ _ _ d _ => decide (d.length ≤ 64)

/-- An access of a Hearth core: 1 to 64 bytes. -/
def CoreAccess.wf : CoreAccess → Bool
  | .load n => decide (0 < n) && decide (n ≤ 64)
  | .fetch n => decide (0 < n) && decide (n ≤ 64)
  | .store d => decide (0 < d.length) && decide (d.length ≤ 64)

/-- A completion's status field has four bits (Table 13.18); the device itself returns the codes of Table 0.3 only. -/
def Completion.wf (c : Completion) : Bool := decide (c.status < 16)

/-- A bolt has 1,024 lines. -/
def ScrubFind.wf (f : ScrubFind) : Bool := (f.corrected ++ f.badLines).all (fun l => decide (l < 1024))

/-- The fields of a coherence message (Table 5.3). -/
def CohMsg.wf (m : CohMsg) : Bool := decide (m.agent < 4096) && decide (m.cid < 2 ^ 20) && decide (m.state < 5) && decide (m.status < 16)

/-- A queue: one of 64 partitions', one of 16. -/
def QueueId.wf (q : QueueId) : Bool := decide (q.part < 64) && decide (q.q < 16)

/-- A descriptor's name. -/
def DescRef.wf (d : DescRef) : Bool := d.q.wf

/-- An answer carries a status of Table 0.3. -/
def Reply.wf (r : Reply) : Bool := decide (r.status < 8)

/-- A message between members of a group. -/
def FanMsg.wf (m : FanMsg) : Bool := decide (m.ep < 65536) && m.q.wf && decide (m.member < 64)

/-- A received flit has 256 bytes (R560). -/
def RxFlit.wf (f : RxFlit) : Bool := decide (f.raw.length = 256) && decide (f.key ≤ 2)

/-- A LINK flit returns credits of eight classes. -/
def LinkHdr.wf (l : LinkHdr) : Bool := l.credits.all (fun c => decide (c.1 < 8))

/-- Sixteen Larder channels and 32 Cellar channels. -/
def MemoryFound.wf (f : MemoryFound) : Bool := decide (f.dimms.length ≤ 16) && decide (f.cellar.length ≤ 32)

/-- Is a command well formed? -/
def Instr.wf : Instr → Bool
  | .pbpHello f => f.wf
  | .pbpProve f => f.wf
  | .pbpProveTimeout slot => decide (slot < 18)
  | .pbpRead f => f.wf
  | .pbpWrite f _ => f.wf
  | .pbpDescribe f => f.wf
  | .pbpEnumNext f => f.wf
  | .pbpStore f _ => f.wf
  | .pbpRestoreDefaults f _ => f.wf
  | .pbpSubscribe f => f.wf
  | .pbpUnsubscribe f => f.wf
  | .pbpPing f => f.wf
  | .pbpWriteGroup f _ => f.wf
  | .pbpEventAck f => f.wf
  | .pbpClose f => f.wf
  | .sessionIdleTimeout slot => decide (slot < 18)
  | .sessionLimitReached slot => decide (slot < 18)
  | .eventRetryTimeout slot _ => decide (slot < 18)
  | .subscriptionPeriod _ => true
  | .eventSend _ => true
  | .drainEnd _ => true
  | .i3cPrivateRead _ => true
  | .sessionClose w _ => w.wf
  | .roleKeys w element _ => w.wf && decide (element < 17)
  | .objectWrite w index sub _ => w.wf && decide (index < 65536) && decide (sub < 256)
  | .regionCreate w region _ => w.wf && decide (region < 4096)
  | .regionChange w region _ => w.wf && decide (region < 4096)
  | .regionRelease w region _ => w.wf && decide (region < 4096)
  | .regionReleaseEnd region => decide (region < 4096)
  | .windowWrite w window _ => w.wf && decide (window < 4096)
  | .routeStage w _ => w.wf
  | .mapCommit w _ => w.wf
  | .mapStageCopyEnd => true
  | .mapGraceEnd => true
  | .cwInvAsid h asid => h.wf && decide (asid < 16384)
  | .cwInvAllAsid h => h.wf
  | .cwInvByVa h asid _ => h.wf && decide (asid < 16384)
  | .invComplete => true
  | .cwFrResume h record => h.wf && decide (record < 256)
  | .cwFrTerminate h record => h.wf && decide (record < 256)
  | .frRecordFreed => true
  | .trackerAllocate bank => decide (bank < 16)
  | .requestTimeout _ => true
  | .holdDiscard _ => true
  | .retryReceived c => c.wf
  | .ordLoad h n => h.wf && (MemOp.load n).wf
  | .ordStore h d => h.wf && (MemOp.store d false).wf
  | .atomicAdd h t v o => h.wf && (MemOp.atomic .add t v 0 o).wf
  | .atomicMin h t v o => h.wf && (MemOp.atomic .min t v 0 o).wf
  | .atomicMax h t v o => h.wf && (MemOp.atomic .max t v 0 o).wf
  | .atomicSwap h t v o => h.wf && (MemOp.atomic .swap t v 0 o).wf
  | .atomicCas h t v c o => h.wf && (MemOp.atomic .cas t v c o).wf
  | .atomicAnd h t v o => h.wf && (MemOp.atomic .and t v 0 o).wf
  | .atomicOr h t v o => h.wf && (MemOp.atomic .or t v 0 o).wf
  | .atomicXor h t v o => h.wf && (MemOp.atomic .xor t v 0 o).wf
  | .reduceSum h t d => h.wf && (MemOp.reduce 0 t d).wf
  | .reduceMin h t d => h.wf && (MemOp.reduce 1 t d).wf
  | .reduceMax h t d => h.wf && (MemOp.reduce 2 t d).wf
  | .blkWrite h g v d p => h.wf && (MemOp.blk g false v 0 d p).wf
  | .blkKnot h g v n d => h.wf && (MemOp.blk g true v n d false).wf
  | .knotPerform ep _ _ _ => decide (ep < 65536)
  | .knotHoldTimeout ep _ _ _ => decide (ep < 65536)
  | .ordCmp c => c.wf
  | .blkCmp c => c.wf
  | .ordData c => c.wf
  | .rdS m => m.wf
  | .rdOwn m => m.wf
  | .upgrade m => m.wf
  | .rdPeek m => m.wf
  | .sliceTxnStart line => decide (line < 2 ^ 58)
  | .snpAck m => m.wf
  | .snpData m => m.wf
  | .cmpAck m => m.wf
  | .wbDirty m => m.wf
  | .evictClean m => m.wf
  | .snpFwdS cluster m => decide (cluster < 4) && m.wf
  | .snpFwdOwn cluster m => decide (cluster < 4) && m.wf
  | .snpRecall cluster m => decide (cluster < 4) && m.wf
  | .snpPeek cluster m => decide (cluster < 4) && m.wf
  | .dataHome cluster m => decide (cluster < 4) && m.wf
  | .dataFwd cluster m => decide (cluster < 4) && m.wf
  | .cmp cluster m => decide (cluster < 4) && m.wf
  | .wbAck cluster m => decide (cluster < 4) && m.wf
  | .regionRecall w _ => w.wf
  | .regionRecallEnd => true
  | .snpTimeout line agent => decide (line < 2 ^ 58) && decide (agent < 256)
  | .agentExpel w _ => w.wf
  | .agentAdmit w agent _ => w.wf && decide (agent < 256)
  | .agentDetach w agent _ => w.wf && decide (agent < 256)
  | .agentDetachEnd agent => decide (agent < 256)
  | .dirEccError line => decide (line < 2 ^ 58)
  | .dirQuery w _ => w.wf
  | .cboFlush core h => decide (core < 16) && h.wf
  | .cboClean core h => decide (core < 16) && h.wf
  | .cboInval core h => decide (core < 16) && h.wf
  | .cboZero core h => decide (core < 16) && h.wf
  | .hearthAmo core h _ _ _ _ => decide (core < 16) && h.wf
  | .hearthLr core h _ => decide (core < 16) && h.wf
  | .hearthSc core h _ _ => decide (core < 16) && h.wf
  | .hearthFence core _ _ _ _ => decide (core < 16)
  | .fenceAcquire d => d.wf
  | .fenceRelease d => d.wf
  | .fenceFull d => d.wf
  | .fenceComplete q => q.wf
  | .flushRange d => d.wf
  | .vcOpenRead h slot region asid => h.wf && decide (slot < 256) && decide (region < 4096) && decide (asid < 16384)
  | .vcCloseRead h slot region asid => h.wf && decide (slot < 256) && decide (region < 4096) && decide (asid < 16384)
  | .vcOpenWork h slot region asid => h.wf && decide (slot < 256) && decide (region < 4096) && decide (asid < 16384)
  | .vcPublish h slot region asid => h.wf && decide (slot < 256) && decide (region < 4096) && decide (asid < 16384)
  | .vcRebase h slot region asid => h.wf && decide (slot < 256) && decide (region < 4096) && decide (asid < 16384)
  | .vcDiscardWork h slot region asid => h.wf && decide (slot < 256) && decide (region < 4096) && decide (asid < 16384)
  | .vcQuery h slot region asid => h.wf && decide (slot < 256) && decide (region < 4096) && decide (asid < 16384)
  | .verFold region page => decide (region < 4096) && decide (page < 2 ^ 36)
  | .bastePageFreed region => decide (region < 4096)
  | .verView w region _ => w.wf && decide (region < 4096)
  | .verQuery w _ => w.wf
  | .leaseQuery w _ => w.wf
  | .leaseRenew h _ => h.wf
  | .leaseAckExpired h => h.wf
  | .leaseDeadline lease => decide (lease < 4096)
  | .leaseExpiry lease => decide (lease < 4096)
  | .staleHoldEnd lease => decide (lease < 4096)
  | .leaseExpire w _ => w.wf
  | .queueTailWrite h q _ => h.wf && q.wf
  | .slotReadComplete q env => q.wf && env.all (fun r => r.wf)
  | .completionRingSpace q => q.wf
  | .bnStart w => w.wf
  | .bnStop w => w.wf
  | .bnStopEnd => true
  | .tabStart w table => w.wf && decide (table < 256)
  | .tabStop w table => w.wf && decide (table < 256)
  | .tabStopEnd table => decide (table < 256)
  | .lookup d env => d.wf && env.all (fun r => r.wf)
  | .fanoutReceive m env => m.wf && env.all (fun r => r.wf)
  | .chunkDeal d engine => d.wf && decide (engine < 16)
  | .memberReport d m => d.wf && decide (m.member < 64)
  | .memberMissingTimeout d => d.wf
  | .tabLoad d env => d.wf && env.all (fun r => r.wf)
  | .refreshHot d env => d.wf && env.all (fun r => r.wf)
  | .versionOpenRead d => d.wf
  | .versionCloseRead d => d.wf
  | .versionQuery d => d.wf
  | .versionOpenWork d => d.wf
  | .versionPublish d => d.wf
  | .versionRebase d => d.wf
  | .versionDiscardWork d => d.wf
  | .reencSweep => true
  | .rowReencode table _ => decide (table < 256)
  | .recordCutover table _ => decide (table < 256)
  | .oldRecordFree table _ _ => decide (table < 256)
  | .stepOpen d => d.wf
  | .accumulate d env => d.wf && env.all (fun r => r.wf)
  | .seal d => d.wf
  | .sealApply d => d.wf
  | .stepDiscard d => d.wf
  | .accBankFail bank _ => decide (bank < 16)
  | .tpStart w => w.wf
  | .tpStop w => w.wf
  | .tpStopEnd => true
  | .vecStart w index => w.wf && decide (index < 16)
  | .vecStop w index => w.wf && decide (index < 16)
  | .search d env => d.wf && env.all (fun r => r.wf)
  | .roundOpen index => decide (index < 16)
  | .passStart index engine => decide (index < 16) && decide (engine < 32)
  | .roundEnd index env => decide (index < 16) && env.all (fun r => r.wf)
  | .tapeMemberTimeout d => d.wf
  | .insert d env => d.wf && env.all (fun r => r.wf)
  | .delete d env => d.wf && env.all (fun r => r.wf)
  | .listLoad d env => d.wf && env.all (fun r => r.wf)
  | .areaLoad d env => d.wf && env.all (fun r => r.wf)
  | .merge d => d.wf
  | .mergeStart engine => decide (engine < 32)
  | .mergeSwap index _ => decide (index < 16)
  | .mergeFree index _ => decide (index < 16)
  | .graphRetire d => d.wf
  | .graphAdd d env => d.wf && env.all (fun r => r.wf)
  | .graphLink d env => d.wf && env.all (fun r => r.wf)
  | .tdStart w => w.wf
  | .tdStop w => w.wf
  | .tdStopEnd => true
  | .launch d env => d.wf && env.all (fun r => r.wf)
  | .launchPick d env => d.wf && env.all (fun r => r.wf)
  | .syncStartReached d => d.wf
  | .tdLoadTile array env => decide (array < 8) && env.all (fun r => r.wf)
  | .tdLoadScale array env => decide (array < 8) && env.all (fun r => r.wf)
  | .tdMma array => decide (array < 8)
  | .tdMmaZero array => decide (array < 8)
  | .tdAccZero array => decide (array < 8)
  | .tdAccCopy array => decide (array < 8)
  | .tdAccAdd array => decide (array < 8)
  | .tdAccLoad array => decide (array < 8)
  | .tdPull array => decide (array < 8)
  | .tdPullAny array _ => decide (array < 8)
  | .tdCvt array => decide (array < 8)
  | .tdMuls array => decide (array < 8)
  | .tdAdds array => decide (array < 8)
  | .tdRelu array => decide (array < 8)
  | .tdGelu array => decide (array < 8)
  | .tdExp array => decide (array < 8)
  | .tdRmax array => decide (array < 8)
  | .tdRsum array => decide (array < 8)
  | .tdSubr array => decide (array < 8)
  | .tdDivr array => decide (array < 8)
  | .tdAddv array => decide (array < 8)
  | .tdMulv array => decide (array < 8)
  | .tdVload array => decide (array < 8)
  | .tdItof array => decide (array < 8)
  | .tdStoreTile array => decide (array < 8)
  | .tdStoreScale array => decide (array < 8)
  | .tdWaitLocal array => decide (array < 8)
  | .tdWaitLaunch array => decide (array < 8)
  | .tdWaitMem array env => decide (array < 8) && env.all (fun r => r.wf)
  | .tdSignalLaunch array => decide (array < 8)
  | .tdSignalStore array => decide (array < 8)
  | .tdSignalAdd array => decide (array < 8)
  | .tdEnd array => decide (array < 8)
  | .launchEnd d => d.wf
  | .watchdogExpire d => d.wf
  | .shStart w => w.wf
  | .shStop w => w.wf
  | .shStopEnd => true
  | .pieceDeal d engine => d.wf && decide (engine < 32)
  | .copy d _ env => d.wf && env.all (fun r => r.wf)
  | .mcast d _ env => d.wf && env.all (fun r => r.wf)
  | .shReduce d _ env => d.wf && env.all (fun r => r.wf)
  | .shReduceTree d env => d.wf && env.all (fun r => r.wf)
  | .stageCounterReached d env => d.wf && env.all (fun r => r.wf)
  | .stageWaitTimeout d => d.wf
  | .shWait d env => d.wf && env.all (fun r => r.wf)
  | .waitTimeout d => d.wf
  | .arrivalAdd d _ => d.wf
  | .mcastGroup w group _ => w.wf && decide (group < 256)
  | .barStart w barrier => w.wf && decide (barrier < 256)
  | .barStop w barrier => w.wf && decide (barrier < 256)
  | .barAbort w barrier => w.wf && decide (barrier < 256)
  | .barArrive h barrier _ => h.wf && decide (barrier < 256)
  | .barTimeout barrier => decide (barrier < 256)
  | .portsStart w => w.wf
  | .portsStop w => w.wf
  | .joinEpoch w _ => w.wf
  | .portAttach w port => w.wf && decide (port < 32)
  | .portDetach w port => w.wf && decide (port < 32)
  | .portRetrainCmd w port => w.wf && decide (port < 32)
  | .portForceDown w port => w.wf && decide (port < 32)
  | .attachPoll port => decide (port < 32)
  | .detectDone port lanes => decide (port < 32) && decide (lanes < 65536)
  | .pollDone port => decide (port < 32)
  | .pollTimeout port => decide (port < 32)
  | .eqPhaseEnd port lanes _ _ => decide (port < 32) && decide (lanes.length ≤ 16)
  | .eqTimeout port => decide (port < 32)
  | .fit port _ => decide (port < 32)
  | .fitTimeout port => decide (port < 32)
  | .keyPart1 port _ => decide (port < 32)
  | .keyPart2 port _ => decide (port < 32)
  | .keyResend port => decide (port < 32)
  | .keyTimeout port => decide (port < 32)
  | .dataFlit port f => decide (port < 32) && f.wf
  | .idleFlit port f => decide (port < 32) && f.wf
  | .ackTimeout port => decide (port < 32)
  | .eqReq port l lane _ _ => decide (port < 32) && l.wf && decide (lane < 16)
  | .eqAck port l lane _ => decide (port < 32) && l.wf && decide (lane < 16)
  | .retrainReq port l => decide (port < 32) && l.wf
  | .downNotice port l _ => decide (port < 32) && l.wf
  | .lossOfSignal port => decide (port < 32)
  | .retrainTimeout port => decide (port < 32)
  | .detachTimeout port => decide (port < 32)
  | .ping port _ _ _ => decide (port < 32)
  | .pong port _ => decide (port < 32)
  | .quiesce port _ => decide (port < 32)
  | .resume port => decide (port < 32)
  | .detachReq port => decide (port < 32)
  | .detachAck port => decide (port < 32)
  | .keyUpdate port _ _ => decide (port < 32)
  | .rekeyDue port => decide (port < 32)
  | .counterExhausted port => decide (port < 32)
  | .notice port ep code _ _ => decide (port < 32) && decide (ep < 65536) && decide (code < 256)
  | .pcieMemRead port _ _ _ _ => decide (port < 32)
  | .pcieMemWrite port _ _ _ _ => decide (port < 32)
  | .cxlMemRd port _ _ => decide (port < 32)
  | .cxlMemWr port _ _ _ _ => decide (port < 32)
  | .flr port => decide (port < 32)
  | .spdmGetVersion port => decide (port < 32)
  | .spdmGetCapabilities port => decide (port < 32)
  | .spdmNegotiateAlgorithms port _ => decide (port < 32)
  | .spdmGetDigests port => decide (port < 32)
  | .spdmGetCertificate port slot _ _ => decide (port < 32) && decide (slot < 8)
  | .spdmChallenge port slot => decide (port < 32) && decide (slot < 8)
  | .spdmGetMeasurements port index _ => decide (port < 32) && decide (index < 256)
  | .spdmKeyExchange port slot => decide (port < 32) && decide (slot < 8)
  | .spdmFinish port _ => decide (port < 32)
  | .spdmEndSession port => decide (port < 32)
  | .ideKmQuery port => decide (port < 32)
  | .ideKmKeyProg port _ _ => decide (port < 32)
  | .ideKmKSetGo port _ _ => decide (port < 32)
  | .ideKmKSetStop port _ _ => decide (port < 32)
  | .identifyMemoryDevice port => decide (port < 32)
  | .getSupportedLogs port => decide (port < 32)
  | .getLog port _ _ => decide (port < 32)
  | .getEventRecords port => decide (port < 32)
  | .clearEventRecords port _ => decide (port < 32)
  | .getHealthInfo port => decide (port < 32)
  | .getPartitionInfo port => decide (port < 32)
  | .partCreate w _ => w.wf
  | .partRemove w _ => w.wf
  | .partDrainEnd part => decide (part < 64)
  | .partScrubEnd part => decide (part < 64)
  | .partHearth w part _ => w.wf && decide (part < 64)
  | .violSticky w _ => w.wf
  | .debugUnlock w _ => w.wf
  | .arbAdvanceFw w _ => w.wf
  | .arbAdvanceLoader w _ => w.wf
  | .thimbleHealthFail _ => true
  | .bbDeliver target => decide (target < 32)
  | .bbComplete core _ target _ => decide (core < 16) && decide (target < 32)
  | .bbRoute core _ source _ => decide (core < 16) && decide (source < 1024)
  | .bbCauseSet core _ => decide (core < 16)
  | .bbPSoftSet core part _ => decide (core < 16) && decide (part < 64)
  | .bbWakeTimeout target => decide (target < 32)
  | .detStep w _ => w.wf
  | .runReset w _ => w.wf
  | .syncInterval => true
  | .syncSample => true
  | .stickyWrite w code _ => w.wf && decide (code < 256)
  | .stickyClearAll w _ => w.wf
  | .recoveryStart => true
  | .recoveryEnd => true
  | .windowClose _ => true
  | .trackerBankLoss bank => decide (bank < 16)
  | .resourceRelease w _ => w.wf
  | .resourceQuery w _ => w.wf
  | .limpEnter w => w.wf
  | .limpExit w => w.wf
  | .mirrorBind ep _ _ => decide (ep < 65536)
  | .mirrorBound ep _ _ => decide (ep < 65536)
  | .mirrorRefused ep _ _ => decide (ep < 65536)
  | .mirrorUnbind ep _ _ => decide (ep < 65536)
  | .mirrorBindTimeout region => decide (region < 4096)
  | .mirrorWrite h op => h.wf && op.wf
  | .mirrorWriteTimeout _ => true
  | .mirrorRebindRetry region => decide (region < 4096)
  | .rebuildBolt region => decide (region < 4096)
  | .mirrorTakeover w _ => w.wf
  | .ageSweep _ => true
  | .evict tier => decide (tier < 4)
  | .promote _ => true
  | .demotePolicy _ => true
  | .demoteQuota part tier => decide (part < 64) && decide (tier < 4)
  | .demandMoveUp _ => true
  | .moveCutover _ _ _ => true
  | .moveSourceFree tier _ => decide (tier < 4)
  | .learnEnd => true
  | .allocSlotFreed => true
  | .placeHint w _ => w.wf
  | .placeReset w _ => w.wf
  | .placeFreeze w _ => w.wf
  | .evacuate w _ => w.wf
  | .boltQuery w _ => w.wf
  | .patrolScrub _ found => found.wf
  | .tierThermal _ _ _ => true
  | .strStart w window => w.wf && decide (window < 64)
  | .strStop w window => w.wf && decide (window < 64)
  | .strStopEnd window => decide (window < 64)
  | .strAdvance window => decide (window < 64)
  | .strLayerFetched window => decide (window < 64)
  | .domTarget w dom _ => w.wf && decide (dom < 197)
  | .domTransitionEnd dom => decide (dom < 197)
  | .domIdleCg dom => decide (dom < 197)
  | .domIdleRet dom _ => decide (dom < 197)
  | .domWake dom => decide (dom < 197)
  | .padRelease w _ => w.wf
  | .cwPadRelease h dom => h.wf && decide (dom < 197)
  | .cwPadReleaseAll h => h.wf
  | .powerBrownout dom => decide (dom < 197)
  | .powerMargin dom => decide (dom < 197)
  | .marginStep dom => decide (dom < 197)
  | .avsPeriod _ _ => true
  | .divisorStep _ => true
  | .pl2Eval _ => true
  | .pl2Sustained => true
  | .pl1Eval _ _ => true
  | .throttleStep dom _ => decide (dom < 197)
  | .thermalTrip dom _ => decide (dom < 197)
  | .hardTrip dom _ => decide (dom < 197)
  | .dramEyePass channel _ _ => decide (channel < 22)
  | .devTarget w _ => w.wf
  | .n1Idle => true
  | .wakeEvent _ => true
  | .n3Entry => true
  | .n3Wake _ _ => true
  | .resetCmd w _ => w.wf
  | .perst _ => true
  | .watchdogReset => true
  | .refclkLoss => true
  | .refclkReturn => true
  | .vstbyApply => true
  | .bootRom => true
  | .loaderBoot => true
  | .bringupStage found => found.wf
  | .fwUpdateBegin w => w.wf
  | .fwUpdateChunk w _ => w.wf
  | .fwUpdateCommit w => w.wf
  | .fwUpdateActivate w => w.wf
  | .fwUpdateAbort w => w.wf
  | .fwConfirm w _ => w.wf
  | .sledPrsnt => true
  | .mainPwrgdFall => true
  | .vinCoreLow => true
  | .mainPwrgdRise => true
  | .hearthLoadStore core h a => decide (core < 16) && h.wf && a.wf
  | .flitBoundary port => decide (port < 32)
  | .eyeHeightLow port lane _ _ _ => decide (port < 32) && decide (lane < 16)
  | .compatLinkState port _ _ _ _ _ => decide (port < 32)
  | .pcieConfigRequest port _ _ _ _ => decide (port < 32)
  | .pcieCompletion port _ _ _ _ => decide (port < 32)
  | .queueCfgWrite h q _ => h.wf && q.wf
  | .i3cEntdaa _ _ addr => decide (addr < 128)
  | .engineFault _ _ d => (d.map DescRef.wf).getD true
  | .slotScrubbed tier _ => decide (tier < 4)
  | .throttleStepUp _ => true
  | .thermalTripClear _ => true
  | .retOverTemperature dom _ => decide (dom < 197)
  | .perstRelease => true
  | .sledPrsntAsserted => true
  | .vstbyLoss => true

end Sys2Proof
end

