-- ==== Sys2Proof/Tests/Slice0.lean ====
section
/-! SUPPORT. The author's own tests: ill-formed commands are refused; values of FIPS and of the spec's worked examples; and for every obligation that has hypotheses a theorem that gives,
     for each of its clauses, a concrete state and operands
that meet them all (`witness_<obligation>`). -/
namespace Sys2Proof.Wit
open Sys2Proof Sys2Proof.Machine
set_option Elab.async false

/-! States and terms that the witnesses use. -/

/-- The device in N0, its bring-up at an end, main power good. -/
def n0 : State := setNum (setNum State.reset 0x2000 4 7) 0x2020 2 1

/-- The device in N0, reached over I3C under the dynamic address 9. -/
def n0i : State := { n0 with pb := { n0.pb with i3cDynamic := 9 } }

/-- `s` at time `t`. -/
def atT (t : Nat) (s : State) : State := { s with det := { s.det with now := t } }

/-- `s` with the domains `ds` ON. -/
def on (ds : List Nat) (s : State) : State := forS ds s (fun s d => setDom s d 4)

/-- An established session of the Owner, with the empty key. -/
def owner : Session := { Session.free with inUse := true, sid := 1, role := 3 }

/-- A frame over I3C of type `t`. -/
def i3cFrame (t : Nat) (body : Bytes) : Frame :=
  { tr := .i3c, via := { v6 := false, dst := 9, port := 0, phy := 0 }, addr := 0, version := 1, ftype := t, sid := 1, seq := 1, body := body, auth := [] }

/-- A frame with its tag under `key`. -/
def tagged (f : Frame) (key : Bytes) : Frame := { f with auth := frameTag f.tr key (frameHead f.tr f.version f.ftype f.sid f.seq f.body.length) f.body }

theorem taken {s : State} {f : Frame} {t k : Nat} {key : Bytes} (hk : (getSess s k).c2d = key)
    (h : (pbpUp s f.tr f.via && !badFrame f && f.ftype == t && decide (f.body.length ≤ bodyMax f.tr) && (slotOf s f == some k) &&
      !(getSess s k).halfOpen && decide ((getSess s k).clientSeq < f.seq)) = true) : frameTaken s (tagged f key) t k = true := by
  have hv : tagVerifies (tagged f key) (getSess s k).c2d = true := by rw [hk]; simp [tagVerifies, tagged]
  simp only [Bool.and_eq_true] at h
  obtain ⟨⟨⟨⟨⟨⟨h1, h2⟩, h3⟩, h4⟩, h5⟩, h6⟩, h7⟩ := h
  unfold frameTaken
  simp only [Bool.and_eq_true]
  exact ⟨⟨⟨⟨⟨⟨⟨h1, h2⟩, h3⟩, h4⟩, h5⟩, h6⟩, hv⟩, h7⟩

theorem asked {s : State} {f : Frame} {op k : Nat} {key : Bytes} (hk : (getSess s k).c2d = key)
    (h : (pbpUp s f.tr f.via && !badFrame f && f.ftype == 5 && decide (f.body.length ≤ bodyMax f.tr) && (slotOf s f == some k) &&
      !(getSess s k).halfOpen && decide ((getSess s k).clientSeq < f.seq)) = true)
    (h2 : (!(getSess s k).kept.any (fun r => r.tag == pbTag f) && decide ((getSess s k).outstanding < (if isI3c k then 1 else 8)) && pbOpcode f == op &&
      decide (1 ≤ op) && decide (op ≤ 10)) = true) : requestTaken s (tagged f key) op k = true := by
  have h1 := taken hk h
  simp only [Bool.and_eq_true] at h2
  obtain ⟨⟨⟨⟨a, b⟩, c⟩, d⟩, e⟩ := h2
  unfold requestTaken
  simp only [Bool.and_eq_true]
  exact ⟨⟨⟨⟨⟨h1, a⟩, b⟩, c⟩, d⟩, e⟩

/-- The body of a request: OPCODE, TAG 7, INDEX and the bytes after it. -/
def ask (op index : Nat) (rest : Bytes) : Bytes := toLe 2 op ++ toLe 2 7 ++ toLe 2 index ++ rest

/-- The state of a write's outcome. -/
def outState : WriteOut → State
  | .done _ _ t => t
  | .wait t => t

/-- Is a write applied with result `r`? -/
def outIs (r : Nat) : WriteOut → Bool
  | .done a q _ => a == 0 && q == r
  | .wait _ => false

theorem out_done {x : WriteOut} {r : Nat} (h : outIs r x = true) : x = .done 0 r (outState x) := by
  cases x with
  | done a q t => simp [outIs] at h; obtain ⟨rfl, rfl⟩ := h; rfl
  | wait t => cases h

/-- Unified memory of 1 GiB in all three tiers, and partition 0. -/
def n0t : State :=
  setPart { n0 with tier := { n0.tier with up := true, unifiedSize := 2 ^ 30, parlourSlots := 4096, larderSlots := 8192, cellarSlots := 8192 } } 0 { Partition.free with st := 1 }

/-- A region of partition 0. -/
def rgn (kind base size : Nat) : Region := { Region.none with valid := true, base := base, size := size, kind := kind, tierPolicy := 0x11 }

/-- The 64 bytes of a region's descriptor. -/
def rgnBytes (g : Region) : Bytes :=
  toLe 8 g.base ++ toLe 8 g.size ++ toLe 1 (b2n g.valid + 2 * b2n g.enc + 4 * b2n g.tile + 8 * b2n g.lostPolicy + 16 * b2n g.mirror) ++ toLe 1 g.kind ++ toLe 1 g.owner ++
    toLe 1 g.tierPolicy ++ toLe 2 g.mirrorEp ++ zeros 2 ++ toLe 8 g.shareRd ++ toLe 8 g.shareWr ++ toLe 8 g.mirrorBase ++ zeros 16

/-- `n0t` with region 1, of kind `k`, at 0. -/
def n0r (k : Nat) : State := setRegion n0t 1 (rgn k 0 65536)

/-- The header of a request of a Shuttle engine of partition 0 to `a` of the node itself. -/
def head0 (a : Nat) : Head :=
  { kind := 1, unit := 0, ep := 0, epoch := 0, tag := 0, cid := 0, hasCid := true, dst := 0, addr := a, xlat := false, fwd := false, va := 0, cause := 0, ecc := .clean }

/-- A request that the node holds. -/
def held0 (why : Why) (op : MemOp) (kind : Nat) : Held :=
  { seq := 0, since := 0, deadline := 0, why := why, req := { head := { head0 0 with kind := kind }, op := op }, target := .none, checked := true, xlatVpn := none, discardAt := 0,
    desc := Region.none, win := none, owed := none }

/-- A request that the node has issued under tag 0, sent on the wire under 0. -/
def issued0 (op : MemOp) : Issued :=
  { tag := 0, wire := some 0, req := { head := head0 0, op := op }, at_ := 0, deadline := 0, sent := true, retryEpoch := none, target := .none, mirror := none, port := 0 }

/-- `s` with requests held. -/
def hold (hs : List Held) (s : State) : State := { s with acc := { s.acc with held := hs } }

/-- `s` with requests issued. -/
def issue (is : List Issued) (s : State) : State := { s with acc := { s.acc with issued := is } }

/-- `s` with port 0 ACTIVE and endpoint 5 reached through it. -/
def routed (s : State) : State :=
  let s := setNum (setNum s 0x2010 113 4) 0x2107 1 7
  { s with route := { s.route with active := [(5, 1)] } }

/-- A descriptor at position 0 that nothing has run yet. -/
def desc0 : Desc :=
  { pos := 0, bytes := zeros 64, holder := 0, acceptedAt := 0, engine := none, ran := false, ranAt := 0, waitRemote := 0, waitMirror := 0, members := [], fault := none, status := 0,
    rcode := 0, result := 0, missing := 0, phase := 0, ord := 0, rcFrom := 0, arr := [], entry := none, lists := none, partials := [], owed := [], hits := 0, found := [], outs := [],
    heldEnd := none, heldBy := 0, pausedT := 0, group := [], dealt := [], doneP := [], knots := [], spans := [], polledAt := 0, ctT := 0, stageT := 0, waitT := 0, memberT := 0,
    trap := none, trapSeq := 0, stalledAt := none }

/-- Queue 0 of partition 0 of a block. -/
def q0 (b : Blk) : QueueId := { blk := b, part := 0, q := 0 }

/-- Its descriptor at position 0. -/
def d0 (b : Blk) : DescRef := { q := q0 b, pos := 0 }

/-- `s` with one descriptor accepted in queue 0 of a block. -/
def accepted (b : Blk) (x : Desc) (s : State) : State := setQueue s (q0 b) { Queue.reset with en := true, accepted := [x] }

/-- The device with the engine blocks RUNNING, their domains ON, and partition 0 there. -/
def n0e : State :=
  let s := on [20, 28, 44, 52] n0t
  [.shuttle, .bobbin, .tape, .treadle].foldl (fun s b => setNum s (blkIndex b) 1 3) s

/-- A versioned region without images. -/
def ver0 : VerRegion := { view := 65536, head := 1, next := 2, ground := 1, images := [], works := [], reads := [], staleWork := [] }

theorem some_getD {α : Type} {x : Option α} {d : α} (h : x.isSome = true) : x = some (x.getD d) := by cases x <;> simp_all

theorem fst_true {p : Bool × State} (h : p.1 = true) : p = (true, p.2) := by cases p; simp_all

/-- Fabric port 0 in state `st`. -/
def n0f (st : Nat) : State := setNum (setNum (setNum (setNum n0 0x2101 1 1) 0x2010 113 4) 0x2107 1 st) 0x2100 1 3

/-- Compatibility port 0 of mode `m` in state `st`, with an aperture of 1 MiB. -/
def n0c (m st : Nat) : State := setBlob (setNum (setNum (setNum n0 0x2101 1 m) 0x2010 113 4) 0x2107 1 st) 0x2110 1 (toLe 8 0 ++ toLe 8 (2 ^ 20) ++ zeros 16)

/-- Port 0 changed. -/
def port0 (f : PortDyn → PortDyn) (s : State) : State := setPort s 0 (f (getPort s 0))

/-- A half-open session. -/
def n0half : State := setSess n0i 16 { owner with halfOpen := true, role := 0 }

/-- An established session. -/
def n0own : State := setSess n0i 16 owner

theorem at_time {x : Option Nat} {p : Nat → Prop} (k : Nat) (h : x = some k) (q : p k) : ∀ t, x = some t → p t := by
  intro t e; rw [h] at e; cases e; exact q

theorem no_time {x : Option Nat} {p : Nat → Prop} (h : x = none) : ∀ t, x = some t → p t := by intro t e; simp_all

/-- A bolt of region 1 in slot 0 of a tier. -/
def bolt0 (home : Nat) : Bolt := { Bolt.none with home := home, region := 1, age := 255, sweptAt := some 0 }

/-- Unified memory with `slots` slots of the Parlour, bolt 0 in tier `home`. -/
def n0g (slots home : Nat) : State :=
  let s := setRegion n0t 1 { rgn 1 0 65536 with tierPolicy := 1 }
  let s := setNum (setNum s 0x2301 10 1024) 0x2301 11 1024
  setBolt { s with tier := { s.tier with parlourSlots := slots, larderFitted := List.replicate 16 64 } } 0 (bolt0 home)

/-- Firmware images of security version 1 in both slots. -/
def n0fw : State :=
  let w := fun (a : Nat) => [(a, (0x51 : Byte)), (a + 1, 0x59), (a + 2, 0x49), (a + 3, 0x4E), (a + 8, 1), (a + 9, 0), (a + 10, 0), (a + 11, 0)]
  let s := setNum (setNum n0 0x1003 3 5) 0x2A22 3 5
  { s with pwr := { s.pwr with flash := w 0x100000 ++ w 0x1100000 } }

/-- The state changed in its power fields. -/
def pwr0 (f : PwrState → PwrState) (s : State) : State := { s with pwr := f s.pwr }

/-- Divisors at `t` and `c`. -/
def n0div (t c : Nat) (f : PwrState → PwrState) : State := pwr0 f (setNum (setNum n0 0x2001 1 t) 0x2001 2 c)

/-! Which commands are well formed. -/

/-- Well-formed operands. -/
def w0 : Writer := ⟨0, 0⟩
def f0 : Frame := i3cFrame 5 []
def h0 : Head := head0 0
def c0 : Completion := ⟨0, 0, 0, []⟩
def m0 : CohMsg := { agent := 0, ep := 0, port := 0, cid := 0, epoch := 0, tag := 0, line := 0, state := 0, flag := false, status := 0, htid := 0, fwdAgent := 0, data := [], ecc := .clean }
def q1 : QueueId := ⟨.shuttle, 0, 0⟩
def fm0 : FanMsg := { ep := 0, q := q1, pos := 0, holder := 0, member := 0, table := 0, bytes := [], idx := [], off := [], wt := [], batch := [], bad := [] }
def rx0 : RxFlit := ⟨zeros 256, 0, []⟩
def l0 : LinkHdr := ⟨true, 0, false, false, []⟩

/-- The operands' own checks refuse each field out of its range, and accept the operands above. -/
theorem wf_operands : (w0.wf && f0.wf && h0.wf && c0.wf && m0.wf && q1.wf && fm0.wf && rx0.wf && l0.wf) = true ∧
    [({ w0 with slot := 18 } : Writer), { w0 with tag := 65536 }].any Writer.wf = false ∧
    [{ f0 with version := 256 }, { f0 with ftype := 256 }, { f0 with sid := 2 ^ 32 }, { f0 with seq := 2 ^ 64 }, { f0 with body := zeros 65536 }, { f0 with auth := zeros 25 }].any Frame.wf = false ∧
    [{ h0 with kind := 7 }, { h0 with unit := 4096 }, { h0 with ep := 65536 }, { h0 with dst := 65536 }, { h0 with cid := 2 ^ 20 }, { h0 with addr := 2 ^ 64 }, { h0 with va := 2 ^ 64 }].any Head.wf = false ∧
    [MemOp.load 0, .load 65, .store [] false, .store (zeros 65) false, .atomic .add 16 0 0 [], .atomic .add 0 0 0 (zeros 65), .reduce 8 0 [1], .reduce 0 8 [1], .reduce 0 0 [],
      .reduce 0 0 (zeros 65), .blk 0 false false 0 (zeros 65) false].any MemOp.wf = false ∧
    [CoreAccess.load 0, .load 65, .fetch 0, .fetch 65, .store [], .store (zeros 65)].any CoreAccess.wf = false ∧
    [{ m0 with agent := 4096 }, { m0 with cid := 2 ^ 20 }, { m0 with state := 5 }, { m0 with status := 16 }].any CohMsg.wf = false ∧
    [({ q1 with part := 64 } : QueueId), { q1 with q := 16 }].any QueueId.wf = false ∧
    [{ fm0 with ep := 65536 }, { fm0 with q := { q1 with part := 64 } }, { fm0 with member := 64 }].any FanMsg.wf = false ∧
    [({ rx0 with raw := zeros 255 } : RxFlit), { rx0 with key := 3 }].any RxFlit.wf = false ∧
    (Completion.mk 0 16 0 []).wf = false ∧ (Reply.mk 0 8 [] .clean).wf = false ∧ (ScrubFind.mk [1024] []).wf = false ∧ (ScrubFind.mk [] [1024]).wf = false ∧
    (LinkHdr.mk true 0 false false [(8, 1)]).wf = false ∧ (MemoryFound.mk (List.replicate 17 (0, 0)) [] []).wf = false ∧
         (MemoryFound.mk [] [] (List.replicate 33 0)).wf = false := by decide +kernel

/-- Terms each with one operand out of its range: refused. -/
theorem wf_refuses_1 : (
    [.pbpHello { f0 with ftype := 256 }, .pbpProve { f0 with ftype := 256 }, .pbpProveTimeout 18, .pbpRead { f0 with ftype := 256 }, 
     .pbpWrite { f0 with ftype := 256 } ⟨true⟩, .pbpDescribe { f0 with ftype := 256 }, .pbpEnumNext { f0 with ftype := 256 }, .pbpStore { f0 with ftype := 256 } false, 
     .pbpRestoreDefaults { f0 with ftype := 256 } false, .pbpSubscribe { f0 with ftype := 256 }, .pbpUnsubscribe { f0 with ftype := 256 }, 
     .pbpPing { f0 with ftype := 256 }, .pbpWriteGroup { f0 with ftype := 256 } ⟨true⟩, .pbpEventAck { f0 with ftype := 256 }, .pbpClose { f0 with ftype := 256 }, 
     .sessionIdleTimeout 18, .sessionLimitReached 18, .eventRetryTimeout 18 0, .sessionClose { w0 with slot := 18 } [], .roleKeys { w0 with slot := 18 } 0 [], 
     .roleKeys w0 17 [], .objectWrite { w0 with slot := 18 } 0 0 [], .objectWrite w0 65536 0 [], .objectWrite w0 0 256 [], .regionCreate { w0 with slot := 18 } 0 [], 
     .regionCreate w0 4096 [], .regionChange { w0 with slot := 18 } 0 [], .regionChange w0 4096 [], .regionRelease { w0 with slot := 18 } 0 [], .regionRelease w0 4096 [], 
     .regionReleaseEnd 4096, .windowWrite { w0 with slot := 18 } 0 [], .windowWrite w0 4096 [], .routeStage { w0 with slot := 18 } [], 
     .mapCommit { w0 with slot := 18 } [], .cwInvAsid { h0 with kind := 7 } 0, .cwInvAsid h0 16384, .cwInvAllAsid { h0 with kind := 7 }, 
     .cwInvByVa { h0 with kind := 7 } 0 false, .cwInvByVa h0 16384 false] : List Instr).any Instr.wf = false := by decide +kernel

/-- Terms each with one operand out of its range: refused. -/
theorem wf_refuses_2 : (
    [.cwFrResume { h0 with kind := 7 } 0, .cwFrResume h0 256, .cwFrTerminate { h0 with kind := 7 } 0, .cwFrTerminate h0 256, .trackerAllocate 16, 
     .retryReceived { c0 with status := 16 }, .ordLoad { h0 with kind := 7 } 8, .ordLoad h0 65, .ordStore { h0 with kind := 7 } [1], .ordStore h0 [], 
     .atomicAdd { h0 with kind := 7 } 0 0 [], .atomicAdd h0 16 0 [], .atomicMin { h0 with kind := 7 } 0 0 [], .atomicMin h0 16 0 [], 
     .atomicMax { h0 with kind := 7 } 0 0 [], .atomicMax h0 16 0 [], .atomicSwap { h0 with kind := 7 } 0 0 [], .atomicSwap h0 16 0 [], 
     .atomicCas { h0 with kind := 7 } 0 0 0 [], .atomicCas h0 16 0 0 [], .atomicAnd { h0 with kind := 7 } 0 0 [], .atomicAnd h0 16 0 [], 
     .atomicOr { h0 with kind := 7 } 0 0 [], .atomicOr h0 16 0 [], .atomicXor { h0 with kind := 7 } 0 0 [], .atomicXor h0 16 0 [], .reduceSum { h0 with kind := 7 } 0 [1], 
     .reduceSum h0 0 [], .reduceMin { h0 with kind := 7 } 0 [1], .reduceMin h0 0 [], .reduceMax { h0 with kind := 7 } 0 [1], .reduceMax h0 0 [], 
     .blkWrite { h0 with kind := 7 } 0 false [] false, .blkWrite h0 0 false (zeros 65) false, .blkKnot { h0 with kind := 7 } 0 false 0 [], 
     .blkKnot h0 0 false 0 (zeros 65), .knotPerform 65536 0 0 false, .knotHoldTimeout 65536 0 0 false, .ordCmp { c0 with status := 16 },
          .blkCmp { c0 with status := 16 }] : List Instr).any Instr.wf = false := by decide +kernel

/-- Terms each with one operand out of its range: refused. -/
theorem wf_refuses_3 : (
    [.ordData { c0 with status := 16 }, .rdS { m0 with state := 5 }, .rdOwn { m0 with state := 5 }, .upgrade { m0 with state := 5 }, .rdPeek { m0 with state := 5 }, 
     .sliceTxnStart (2 ^ 58), .snpAck { m0 with state := 5 }, .snpData { m0 with state := 5 }, .cmpAck { m0 with state := 5 }, .wbDirty { m0 with state := 5 }, 
     .evictClean { m0 with state := 5 }, .snpFwdS 4 m0, .snpFwdS 0 { m0 with state := 5 }, .snpFwdOwn 4 m0, .snpFwdOwn 0 { m0 with state := 5 }, .snpRecall 4 m0, 
     .snpRecall 0 { m0 with state := 5 }, .snpPeek 4 m0, .snpPeek 0 { m0 with state := 5 }, .dataHome 4 m0, .dataHome 0 { m0 with state := 5 }, .dataFwd 4 m0, 
     .dataFwd 0 { m0 with state := 5 }, .cmp 4 m0, .cmp 0 { m0 with state := 5 }, .wbAck 4 m0, .wbAck 0 { m0 with state := 5 }, .regionRecall { w0 with slot := 18 } [], 
     .snpTimeout (2 ^ 58) 0, .snpTimeout 0 256, .agentExpel { w0 with slot := 18 } [], .agentAdmit { w0 with slot := 18 } 0 [], .agentAdmit w0 256 [], 
     .agentDetach { w0 with slot := 18 } 0 [], .agentDetach w0 256 [], .agentDetachEnd 256, .dirEccError (2 ^ 58), .dirQuery { w0 with slot := 18 } [], .cboFlush 16 h0, 
     .cboFlush 0 { h0 with kind := 7 }] : List Instr).any Instr.wf = false := by decide +kernel

/-- Terms each with one operand out of its range: refused. -/
theorem wf_refuses_4 : (
    [.cboClean 16 h0, .cboClean 0 { h0 with kind := 7 }, .cboInval 16 h0, .cboInval 0 { h0 with kind := 7 }, .cboZero 16 h0, .cboZero 0 { h0 with kind := 7 }, 
     .hearthAmo 16 h0 .add false false 0, .hearthAmo 0 { h0 with kind := 7 } .add false false 0, .hearthLr 16 h0 false, .hearthLr 0 { h0 with kind := 7 } false, 
     .hearthSc 16 h0 false 0, .hearthSc 0 { h0 with kind := 7 } false 0, .hearthFence 16 false false false false, .fenceAcquire ⟨{ q1 with part := 64 }, 0⟩, 
     .fenceRelease ⟨{ q1 with part := 64 }, 0⟩, .fenceFull ⟨{ q1 with part := 64 }, 0⟩, .fenceComplete { q1 with q := 16 }, .flushRange ⟨{ q1 with part := 64 }, 0⟩, 
     .vcOpenRead { h0 with kind := 7 } 0 0 0, .vcOpenRead h0 256 0 0, .vcOpenRead h0 0 4096 0, .vcOpenRead h0 0 0 16384, .vcCloseRead { h0 with kind := 7 } 0 0 0, 
     .vcCloseRead h0 256 0 0, .vcCloseRead h0 0 4096 0, .vcCloseRead h0 0 0 16384, .vcOpenWork { h0 with kind := 7 } 0 0 0, .vcOpenWork h0 256 0 0, 
     .vcOpenWork h0 0 4096 0, .vcOpenWork h0 0 0 16384, .vcPublish { h0 with kind := 7 } 0 0 0, .vcPublish h0 256 0 0, .vcPublish h0 0 4096 0, .vcPublish h0 0 0 16384, 
     .vcRebase { h0 with kind := 7 } 0 0 0, .vcRebase h0 256 0 0, .vcRebase h0 0 4096 0, .vcRebase h0 0 0 16384, .vcDiscardWork { h0 with kind := 7 } 0 0 0, 
     .vcDiscardWork h0 256 0 0] : List Instr).any Instr.wf = false := by decide +kernel

/-- Terms each with one operand out of its range: refused. -/
theorem wf_refuses_5 : (
    [.vcDiscardWork h0 0 4096 0, .vcDiscardWork h0 0 0 16384, .vcQuery { h0 with kind := 7 } 0 0 0, .vcQuery h0 256 0 0, .vcQuery h0 0 4096 0, .vcQuery h0 0 0 16384, 
     .verFold 4096 0, .verFold 0 (2 ^ 36), .bastePageFreed 4096, .verView { w0 with slot := 18 } 0 [], .verView w0 4096 [], .verQuery { w0 with slot := 18 } [], 
     .leaseQuery { w0 with slot := 18 } [], .leaseRenew { h0 with kind := 7 } 0, .leaseAckExpired { h0 with kind := 7 }, .leaseDeadline 4096, .leaseExpiry 4096, 
     .staleHoldEnd 4096, .leaseExpire { w0 with slot := 18 } [], .queueTailWrite { h0 with kind := 7 } q1 0, .queueTailWrite h0 { q1 with q := 16 } 0, 
     .slotReadComplete { q1 with q := 16 } [], .slotReadComplete q1 [⟨0, 8, [], .clean⟩], .completionRingSpace { q1 with q := 16 }, .bnStart { w0 with slot := 18 }, 
     .bnStop { w0 with slot := 18 }, .tabStart { w0 with slot := 18 } 0, .tabStart w0 256, .tabStop { w0 with slot := 18 } 0, .tabStop w0 256, .tabStopEnd 256, 
     .lookup ⟨{ q1 with part := 64 }, 0⟩ [], .lookup ⟨q1, 0⟩ [⟨0, 8, [], .clean⟩], .fanoutReceive { fm0 with member := 64 } [], .fanoutReceive fm0 [⟨0, 8, [], .clean⟩], 
     .chunkDeal ⟨{ q1 with part := 64 }, 0⟩ 0, .chunkDeal ⟨q1, 0⟩ 16, .memberReport ⟨{ q1 with part := 64 }, 0⟩ ⟨0, 0, 0, 0, [], []⟩, 
     .memberReport ⟨q1, 0⟩ ⟨64, 0, 0, 0, [], []⟩, .memberMissingTimeout ⟨{ q1 with part := 64 }, 0⟩] : List Instr).any Instr.wf = false := by decide +kernel

/-- Terms each with one operand out of its range: refused. -/
theorem wf_refuses_6 : (
    [.tabLoad ⟨{ q1 with part := 64 }, 0⟩ [], .tabLoad ⟨q1, 0⟩ [⟨0, 8, [], .clean⟩], .refreshHot ⟨{ q1 with part := 64 }, 0⟩ [], .refreshHot ⟨q1, 0⟩ [⟨0, 8, [], .clean⟩], 
     .versionOpenRead ⟨{ q1 with part := 64 }, 0⟩, .versionCloseRead ⟨{ q1 with part := 64 }, 0⟩, .versionQuery ⟨{ q1 with part := 64 }, 0⟩, 
     .versionOpenWork ⟨{ q1 with part := 64 }, 0⟩, .versionPublish ⟨{ q1 with part := 64 }, 0⟩, .versionRebase ⟨{ q1 with part := 64 }, 0⟩, 
     .versionDiscardWork ⟨{ q1 with part := 64 }, 0⟩, .rowReencode 256 0, .recordCutover 256 0, .oldRecordFree 256 0 0, .stepOpen ⟨{ q1 with part := 64 }, 0⟩, 
     .accumulate ⟨{ q1 with part := 64 }, 0⟩ [], .accumulate ⟨q1, 0⟩ [⟨0, 8, [], .clean⟩], .seal ⟨{ q1 with part := 64 }, 0⟩, .sealApply ⟨{ q1 with part := 64 }, 0⟩, 
     .stepDiscard ⟨{ q1 with part := 64 }, 0⟩, .accBankFail 16 false, .tpStart { w0 with slot := 18 }, .tpStop { w0 with slot := 18 }, .vecStart { w0 with slot := 18 } 0, 
     .vecStart w0 16, .vecStop { w0 with slot := 18 } 0, .vecStop w0 16, .search ⟨{ q1 with part := 64 }, 0⟩ [], .search ⟨q1, 0⟩ [⟨0, 8, [], .clean⟩], .roundOpen 16, 
     .passStart 16 0, .passStart 0 32, .roundEnd 16 [], .roundEnd 0 [⟨0, 8, [], .clean⟩], .tapeMemberTimeout ⟨{ q1 with part := 64 }, 0⟩, 
     .insert ⟨{ q1 with part := 64 }, 0⟩ [], .insert ⟨q1, 0⟩ [⟨0, 8, [], .clean⟩], .delete ⟨{ q1 with part := 64 }, 0⟩ [], .delete ⟨q1, 0⟩ [⟨0, 8, [], .clean⟩], 
     .listLoad ⟨{ q1 with part := 64 }, 0⟩ []] : List Instr).any Instr.wf = false := by decide +kernel

/-- Terms each with one operand out of its range: refused. -/
theorem wf_refuses_7 : (
    [.listLoad ⟨q1, 0⟩ [⟨0, 8, [], .clean⟩], .areaLoad ⟨{ q1 with part := 64 }, 0⟩ [], .areaLoad ⟨q1, 0⟩ [⟨0, 8, [], .clean⟩], .merge ⟨{ q1 with part := 64 }, 0⟩, 
     .mergeStart 32, .mergeSwap 16 0, .mergeFree 16 0, .graphRetire ⟨{ q1 with part := 64 }, 0⟩, .graphAdd ⟨{ q1 with part := 64 }, 0⟩ [], 
     .graphAdd ⟨q1, 0⟩ [⟨0, 8, [], .clean⟩], .graphLink ⟨{ q1 with part := 64 }, 0⟩ [], .graphLink ⟨q1, 0⟩ [⟨0, 8, [], .clean⟩], .tdStart { w0 with slot := 18 }, 
     .tdStop { w0 with slot := 18 }, .launch ⟨{ q1 with part := 64 }, 0⟩ [], .launch ⟨q1, 0⟩ [⟨0, 8, [], .clean⟩], .launchPick ⟨{ q1 with part := 64 }, 0⟩ [], 
     .launchPick ⟨q1, 0⟩ [⟨0, 8, [], .clean⟩], .syncStartReached ⟨{ q1 with part := 64 }, 0⟩, .tdLoadTile 8 [], .tdLoadTile 0 [⟨0, 8, [], .clean⟩], .tdLoadScale 8 [], 
     .tdLoadScale 0 [⟨0, 8, [], .clean⟩], .tdMma 8, .tdMmaZero 8, .tdAccZero 8, .tdAccCopy 8, .tdAccAdd 8, .tdAccLoad 8, .tdPull 8, .tdPullAny 8 [], .tdCvt 8, .tdMuls 8, 
     .tdAdds 8, .tdRelu 8, .tdGelu 8, .tdExp 8, .tdRmax 8, .tdRsum 8, .tdSubr 8] : List Instr).any Instr.wf = false := by decide +kernel

/-- Terms each with one operand out of its range: refused. -/
theorem wf_refuses_8 : (
    [.tdDivr 8, .tdAddv 8, .tdMulv 8, .tdVload 8, .tdItof 8, .tdStoreTile 8, .tdStoreScale 8, .tdWaitLocal 8, .tdWaitLaunch 8, .tdWaitMem 8 [], 
     .tdWaitMem 0 [⟨0, 8, [], .clean⟩], .tdSignalLaunch 8, .tdSignalStore 8, .tdSignalAdd 8, .tdEnd 8, .launchEnd ⟨{ q1 with part := 64 }, 0⟩, 
     .watchdogExpire ⟨{ q1 with part := 64 }, 0⟩, .shStart { w0 with slot := 18 }, .shStop { w0 with slot := 18 }, .pieceDeal ⟨{ q1 with part := 64 }, 0⟩ 0, 
     .pieceDeal ⟨q1, 0⟩ 32, .copy ⟨{ q1 with part := 64 }, 0⟩ 0 [], .copy ⟨q1, 0⟩ 0 [⟨0, 8, [], .clean⟩], .mcast ⟨{ q1 with part := 64 }, 0⟩ 0 [], 
     .mcast ⟨q1, 0⟩ 0 [⟨0, 8, [], .clean⟩], .shReduce ⟨{ q1 with part := 64 }, 0⟩ 0 [], .shReduce ⟨q1, 0⟩ 0 [⟨0, 8, [], .clean⟩], 
     .shReduceTree ⟨{ q1 with part := 64 }, 0⟩ [], .shReduceTree ⟨q1, 0⟩ [⟨0, 8, [], .clean⟩], .stageCounterReached ⟨{ q1 with part := 64 }, 0⟩ [], 
     .stageCounterReached ⟨q1, 0⟩ [⟨0, 8, [], .clean⟩], .stageWaitTimeout ⟨{ q1 with part := 64 }, 0⟩, .shWait ⟨{ q1 with part := 64 }, 0⟩ [], 
     .shWait ⟨q1, 0⟩ [⟨0, 8, [], .clean⟩], .waitTimeout ⟨{ q1 with part := 64 }, 0⟩, .arrivalAdd ⟨{ q1 with part := 64 }, 0⟩ 0, .mcastGroup { w0 with slot := 18 } 0 [], 
     .mcastGroup w0 256 [], .barStart { w0 with slot := 18 } 0, .barStart w0 256] : List Instr).any Instr.wf = false := by decide +kernel

/-- Terms each with one operand out of its range: refused. -/
theorem wf_refuses_9 : (
    [.barStop { w0 with slot := 18 } 0, .barStop w0 256, .barAbort { w0 with slot := 18 } 0, .barAbort w0 256, .barArrive { h0 with kind := 7 } 0 0, .barArrive h0 256 0, 
     .barTimeout 256, .portsStart { w0 with slot := 18 }, .portsStop { w0 with slot := 18 }, .joinEpoch { w0 with slot := 18 } [], .portAttach { w0 with slot := 18 } 0, 
     .portAttach w0 32, .portDetach { w0 with slot := 18 } 0, .portDetach w0 32, .portRetrainCmd { w0 with slot := 18 } 0, .portRetrainCmd w0 32, 
     .portForceDown { w0 with slot := 18 } 0, .portForceDown w0 32, .attachPoll 32, .detectDone 32 0, .detectDone 0 65536, .pollDone 32, .pollTimeout 32, 
     .eqPhaseEnd 32 [] 0 0, .eqPhaseEnd 0 (List.replicate 17 ⟨0, 0, 0, 0, 0, 0⟩) 0 0, .eqTimeout 32, .fit 32 [], .fitTimeout 32, .keyPart1 32 [], .keyPart2 32 [], 
     .keyResend 32, .keyTimeout 32, .dataFlit 32 rx0, .dataFlit 0 { rx0 with raw := [] }, .idleFlit 32 rx0, .idleFlit 0 { rx0 with raw := [] }, .ackTimeout 32, 
     .eqReq 32 l0 0 false false, .eqReq 0 { l0 with credits := [(8, 1)] } 0 false false, .eqReq 0 l0 16 false false] : List Instr).any Instr.wf = false := by decide +kernel

/-- Terms each with one operand out of its range: refused. -/
theorem wf_refuses_10 : (
    [.eqAck 32 l0 0 false, .eqAck 0 { l0 with credits := [(8, 1)] } 0 false, .eqAck 0 l0 16 false, .retrainReq 32 l0, .retrainReq 0 { l0 with credits := [(8, 1)] }, 
     .downNotice 32 l0 0, .downNotice 0 { l0 with credits := [(8, 1)] } 0, .lossOfSignal 32, .retrainTimeout 32, .detachTimeout 32, .ping 32 0 0 false, .pong 32 0, 
     .quiesce 32 0, .resume 32, .detachReq 32, .detachAck 32, .keyUpdate 32 [] 0, .rekeyDue 32, .counterExhausted 32, .notice 32 0 0 0 0, .notice 0 65536 0 0 0, 
     .notice 0 0 256 0 0, .pcieMemRead 32 0 0 0 0, .pcieMemWrite 32 0 0 [] false, .cxlMemRd 32 0 0, .cxlMemWr 32 0 0 [] 0, .flr 32, .spdmGetVersion 32, 
     .spdmGetCapabilities 32, .spdmNegotiateAlgorithms 32 false, .spdmGetDigests 32, .spdmGetCertificate 32 0 0 0, .spdmGetCertificate 0 8 0 0, .spdmChallenge 32 0, 
     .spdmChallenge 0 8, .spdmGetMeasurements 32 0 false, .spdmGetMeasurements 0 256 false, .spdmKeyExchange 32 0, .spdmKeyExchange 0 8,
          .spdmFinish 32 false] : List Instr).any Instr.wf = false := by decide +kernel

/-- Terms each with one operand out of its range: refused. -/
theorem wf_refuses_11 : (
    [.spdmEndSession 32, .ideKmQuery 32, .ideKmKeyProg 32 false false, .ideKmKSetGo 32 false false, .ideKmKSetStop 32 false false, .identifyMemoryDevice 32, 
     .getSupportedLogs 32, .getLog 32 0 0, .getEventRecords 32, .clearEventRecords 32 0, .getHealthInfo 32, .getPartitionInfo 32, .partCreate { w0 with slot := 18 } [], 
     .partRemove { w0 with slot := 18 } [], .partDrainEnd 64, .partScrubEnd 64, .partHearth { w0 with slot := 18 } 0 [], .partHearth w0 64 [], 
     .violSticky { w0 with slot := 18 } [], .debugUnlock { w0 with slot := 18 } [], .arbAdvanceFw { w0 with slot := 18 } [], .arbAdvanceLoader { w0 with slot := 18 } [], 
     .bbDeliver 32, .bbComplete 16 false 0 0, .bbComplete 0 false 32 0, .bbRoute 16 false 0 0, .bbRoute 0 false 1024 0, .bbCauseSet 16 0, .bbPSoftSet 16 0 0, 
     .bbPSoftSet 0 64 0, .bbWakeTimeout 32, .detStep { w0 with slot := 18 } [], .runReset { w0 with slot := 18 } [], .stickyWrite { w0 with slot := 18 } 0 [], 
     .stickyWrite w0 256 [], .stickyClearAll { w0 with slot := 18 } [], .trackerBankLoss 16, .resourceRelease { w0 with slot := 18 } [], 
     .resourceQuery { w0 with slot := 18 } [], .limpEnter { w0 with slot := 18 }] : List Instr).any Instr.wf = false := by decide +kernel

/-- Terms each with one operand out of its range: refused. -/
theorem wf_refuses_12 : (
    [.limpExit { w0 with slot := 18 }, .mirrorBind 65536 0 0, .mirrorBound 65536 0 0, .mirrorRefused 65536 0 0, .mirrorUnbind 65536 0 0, .mirrorBindTimeout 4096, 
     .mirrorWrite { h0 with kind := 7 } (.load 8), .mirrorWrite h0 (.load 65), .mirrorRebindRetry 4096, .rebuildBolt 4096, .mirrorTakeover { w0 with slot := 18 } [], 
     .evict 4, .demoteQuota 64 0, .demoteQuota 0 4, .moveSourceFree 4 0, .placeHint { w0 with slot := 18 } [], .placeReset { w0 with slot := 18 } [], 
     .placeFreeze { w0 with slot := 18 } [], .evacuate { w0 with slot := 18 } [], .boltQuery { w0 with slot := 18 } [], .patrolScrub 0 ⟨[1024], []⟩, 
     .strStart { w0 with slot := 18 } 0, .strStart w0 64, .strStop { w0 with slot := 18 } 0, .strStop w0 64, .strStopEnd 64, .strAdvance 64, .strLayerFetched 64, 
     .domTarget { w0 with slot := 18 } 0 [], .domTarget w0 197 [], .domTransitionEnd 197, .domIdleCg 197, .domIdleRet 197 0, .domWake 197, 
     .padRelease { w0 with slot := 18 } [], .cwPadRelease { h0 with kind := 7 } 0, .cwPadRelease h0 197, .cwPadReleaseAll { h0 with kind := 7 }, .powerBrownout 197, 
     .powerMargin 197] : List Instr).any Instr.wf = false := by decide +kernel

/-- Terms each with one operand out of its range: refused. -/
theorem wf_refuses_13 : (
    [.marginStep 197, .throttleStep 197 0, .thermalTrip 197 0, .hardTrip 197 0, .devTarget { w0 with slot := 18 } [], .resetCmd { w0 with slot := 18 } [], 
     .bringupStage ⟨List.replicate 17 (0, 0), [], []⟩, .fwUpdateBegin { w0 with slot := 18 }, .fwUpdateChunk { w0 with slot := 18 } [], 
     .fwUpdateCommit { w0 with slot := 18 }, .fwUpdateActivate { w0 with slot := 18 }, .fwUpdateAbort { w0 with slot := 18 }, .fwConfirm { w0 with slot := 18 } [], 
     .hearthLoadStore 16 h0 (.load 8), .hearthLoadStore 0 { h0 with kind := 7 } (.load 8), .hearthLoadStore 0 h0 (.load 65), .flitBoundary 32, 
     .eyeHeightLow 32 0 0 false false, .eyeHeightLow 0 16 0 false false, .compatLinkState 32 0 false 0 0 false, .pcieConfigRequest 32 false 0 0 0, 
     .pcieCompletion 32 0 0 false [], .queueCfgWrite { h0 with kind := 7 } q1 0, .queueCfgWrite h0 { q1 with q := 16 } 0, .i3cEntdaa false 0 128, 
     .engineFault 0 0 (some ⟨{ q1 with q := 16 }, 0⟩), .slotScrubbed 4 0, .retOverTemperature 197 0, .dramEyePass 22 0 []] : List Instr).any Instr.wf = false := by decide +kernel

/-- The same commands with every operand in its range: accepted. -/
theorem wf_accepts_1 : (
    [.pbpHello f0, .pbpProve f0, .pbpProveTimeout 0, .pbpRead f0, .pbpWrite f0 ⟨true⟩, .pbpDescribe f0, .pbpEnumNext f0, .pbpStore f0 false, .pbpRestoreDefaults f0 false, 
     .pbpSubscribe f0, .pbpUnsubscribe f0, .pbpPing f0, .pbpWriteGroup f0 ⟨true⟩, .pbpEventAck f0, .pbpClose f0, .sessionIdleTimeout 0, .sessionLimitReached 0, 
     .eventRetryTimeout 0 0, .sessionClose w0 [], .roleKeys w0 0 [], .objectWrite w0 0 0 [], .regionCreate w0 0 [], .regionChange w0 0 [], .regionRelease w0 0 [], 
     .regionReleaseEnd 0, .windowWrite w0 0 [], .routeStage w0 [], .mapCommit w0 [], .cwInvAsid h0 0, .cwInvAllAsid h0, .cwInvByVa h0 0 false, .cwFrResume h0 0, 
     .cwFrTerminate h0 0, .trackerAllocate 0, .retryReceived c0, .ordLoad h0 8, .ordStore h0 [1], .atomicAdd h0 0 0 [], .atomicMin h0 0 0 [],
          .atomicMax h0 0 0 []] : List Instr).all Instr.wf = true := by decide +kernel

/-- The same commands with every operand in its range: accepted. -/
theorem wf_accepts_2 : (
    [.atomicSwap h0 0 0 [], .atomicCas h0 0 0 0 [], .atomicAnd h0 0 0 [], .atomicOr h0 0 0 [], .atomicXor h0 0 0 [], .reduceSum h0 0 [1], .reduceMin h0 0 [1], 
     .reduceMax h0 0 [1], .blkWrite h0 0 false [] false, .blkKnot h0 0 false 0 [], .knotPerform 0 0 0 false, .knotHoldTimeout 0 0 0 false, .ordCmp c0, .blkCmp c0, 
     .ordData c0, .rdS m0, .rdOwn m0, .upgrade m0, .rdPeek m0, .sliceTxnStart 0, .snpAck m0, .snpData m0, .cmpAck m0, .wbDirty m0, .evictClean m0, .snpFwdS 0 m0, 
     .snpFwdOwn 0 m0, .snpRecall 0 m0, .snpPeek 0 m0, .dataHome 0 m0, .dataFwd 0 m0, .cmp 0 m0, .wbAck 0 m0, .regionRecall w0 [], .snpTimeout 0 0, .agentExpel w0 [], 
     .agentAdmit w0 0 [], .agentDetach w0 0 [], .agentDetachEnd 0, .dirEccError 0] : List Instr).all Instr.wf = true := by decide +kernel

/-- The same commands with every operand in its range: accepted. -/
theorem wf_accepts_3 : (
    [.dirQuery w0 [], .cboFlush 0 h0, .cboClean 0 h0, .cboInval 0 h0, .cboZero 0 h0, .hearthAmo 0 h0 .add false false 0, .hearthLr 0 h0 false, .hearthSc 0 h0 false 0, 
     .hearthFence 0 false false false false, .fenceAcquire ⟨q1, 0⟩, .fenceRelease ⟨q1, 0⟩, .fenceFull ⟨q1, 0⟩, .fenceComplete q1, .flushRange ⟨q1, 0⟩, 
     .vcOpenRead h0 0 0 0, .vcCloseRead h0 0 0 0, .vcOpenWork h0 0 0 0, .vcPublish h0 0 0 0, .vcRebase h0 0 0 0, .vcDiscardWork h0 0 0 0, .vcQuery h0 0 0 0, .verFold 0 0, 
     .bastePageFreed 0, .verView w0 0 [], .verQuery w0 [], .leaseQuery w0 [], .leaseRenew h0 0, .leaseAckExpired h0, .leaseDeadline 0, .leaseExpiry 0, .staleHoldEnd 0, 
     .leaseExpire w0 [], .queueTailWrite h0 q1 0, .slotReadComplete q1 [], .completionRingSpace q1, .bnStart w0, .bnStop w0, .tabStart w0 0, .tabStop w0 0,
          .tabStopEnd 0] : List Instr).all Instr.wf = true := by decide +kernel

/-- The same commands with every operand in its range: accepted. -/
theorem wf_accepts_4 : (
    [.lookup ⟨q1, 0⟩ [], .fanoutReceive fm0 [], .chunkDeal ⟨q1, 0⟩ 0, .memberReport ⟨q1, 0⟩ ⟨0, 0, 0, 0, [], []⟩, .memberMissingTimeout ⟨q1, 0⟩, .tabLoad ⟨q1, 0⟩ [], 
     .refreshHot ⟨q1, 0⟩ [], .versionOpenRead ⟨q1, 0⟩, .versionCloseRead ⟨q1, 0⟩, .versionQuery ⟨q1, 0⟩, .versionOpenWork ⟨q1, 0⟩, .versionPublish ⟨q1, 0⟩, 
     .versionRebase ⟨q1, 0⟩, .versionDiscardWork ⟨q1, 0⟩, .rowReencode 0 0, .recordCutover 0 0, .oldRecordFree 0 0 0, .stepOpen ⟨q1, 0⟩, .accumulate ⟨q1, 0⟩ [], 
     .seal ⟨q1, 0⟩, .sealApply ⟨q1, 0⟩, .stepDiscard ⟨q1, 0⟩, .accBankFail 0 false, .tpStart w0, .tpStop w0, .vecStart w0 0, .vecStop w0 0, .search ⟨q1, 0⟩ [], 
     .roundOpen 0, .passStart 0 0, .roundEnd 0 [], .tapeMemberTimeout ⟨q1, 0⟩, .insert ⟨q1, 0⟩ [], .delete ⟨q1, 0⟩ [], .listLoad ⟨q1, 0⟩ [], .areaLoad ⟨q1, 0⟩ [], 
     .merge ⟨q1, 0⟩, .mergeStart 0, .mergeSwap 0 0, .mergeFree 0 0] : List Instr).all Instr.wf = true := by decide +kernel

/-- The same commands with every operand in its range: accepted. -/
theorem wf_accepts_5 : (
    [.graphRetire ⟨q1, 0⟩, .graphAdd ⟨q1, 0⟩ [], .graphLink ⟨q1, 0⟩ [], .tdStart w0, .tdStop w0, .launch ⟨q1, 0⟩ [], .launchPick ⟨q1, 0⟩ [], .syncStartReached ⟨q1, 0⟩, 
     .tdLoadTile 0 [], .tdLoadScale 0 [], .tdMma 0, .tdMmaZero 0, .tdAccZero 0, .tdAccCopy 0, .tdAccAdd 0, .tdAccLoad 0, .tdPull 0, .tdPullAny 0 [], .tdCvt 0, .tdMuls 0, 
     .tdAdds 0, .tdRelu 0, .tdGelu 0, .tdExp 0, .tdRmax 0, .tdRsum 0, .tdSubr 0, .tdDivr 0, .tdAddv 0, .tdMulv 0, .tdVload 0, .tdItof 0, .tdStoreTile 0, .tdStoreScale 0, 
     .tdWaitLocal 0, .tdWaitLaunch 0, .tdWaitMem 0 [], .tdSignalLaunch 0, .tdSignalStore 0, .tdSignalAdd 0] : List Instr).all Instr.wf = true := by decide +kernel

/-- The same commands with every operand in its range: accepted. -/
theorem wf_accepts_6 : (
    [.tdEnd 0, .launchEnd ⟨q1, 0⟩, .watchdogExpire ⟨q1, 0⟩, .shStart w0, .shStop w0, .pieceDeal ⟨q1, 0⟩ 0, .copy ⟨q1, 0⟩ 0 [], .mcast ⟨q1, 0⟩ 0 [], .shReduce ⟨q1, 0⟩ 0 [], 
     .shReduceTree ⟨q1, 0⟩ [], .stageCounterReached ⟨q1, 0⟩ [], .stageWaitTimeout ⟨q1, 0⟩, .shWait ⟨q1, 0⟩ [], .waitTimeout ⟨q1, 0⟩, .arrivalAdd ⟨q1, 0⟩ 0, 
     .mcastGroup w0 0 [], .barStart w0 0, .barStop w0 0, .barAbort w0 0, .barArrive h0 0 0, .barTimeout 0, .portsStart w0, .portsStop w0, .joinEpoch w0 [], 
     .portAttach w0 0, .portDetach w0 0, .portRetrainCmd w0 0, .portForceDown w0 0, .attachPoll 0, .detectDone 0 0, .pollDone 0, .pollTimeout 0, .eqPhaseEnd 0 [] 0 0, 
     .eqTimeout 0, .fit 0 [], .fitTimeout 0, .keyPart1 0 [], .keyPart2 0 [], .keyResend 0, .keyTimeout 0] : List Instr).all Instr.wf = true := by decide +kernel

/-- The same commands with every operand in its range: accepted. -/
theorem wf_accepts_7 : (
    [.dataFlit 0 rx0, .idleFlit 0 rx0, .ackTimeout 0, .eqReq 0 l0 0 false false, .eqAck 0 l0 0 false, .retrainReq 0 l0, .downNotice 0 l0 0, .lossOfSignal 0, 
     .retrainTimeout 0, .detachTimeout 0, .ping 0 0 0 false, .pong 0 0, .quiesce 0 0, .resume 0, .detachReq 0, .detachAck 0, .keyUpdate 0 [] 0, .rekeyDue 0, 
     .counterExhausted 0, .notice 0 0 0 0 0, .pcieMemRead 0 0 0 0 0, .pcieMemWrite 0 0 0 [] false, .cxlMemRd 0 0 0, .cxlMemWr 0 0 0 [] 0, .flr 0, .spdmGetVersion 0, 
     .spdmGetCapabilities 0, .spdmNegotiateAlgorithms 0 false, .spdmGetDigests 0, .spdmGetCertificate 0 0 0 0, .spdmChallenge 0 0, .spdmGetMeasurements 0 0 false, 
     .spdmKeyExchange 0 0, .spdmFinish 0 false, .spdmEndSession 0, .ideKmQuery 0, .ideKmKeyProg 0 false false, .ideKmKSetGo 0 false false, .ideKmKSetStop 0 false false, 
     .identifyMemoryDevice 0] : List Instr).all Instr.wf = true := by decide +kernel

/-- The same commands with every operand in its range: accepted. -/
theorem wf_accepts_8 : (
    [.getSupportedLogs 0, .getLog 0 0 0, .getEventRecords 0, .clearEventRecords 0 0, .getHealthInfo 0, .getPartitionInfo 0, .partCreate w0 [], .partRemove w0 [], 
     .partDrainEnd 0, .partScrubEnd 0, .partHearth w0 0 [], .violSticky w0 [], .debugUnlock w0 [], .arbAdvanceFw w0 [], .arbAdvanceLoader w0 [], .bbDeliver 0, 
     .bbComplete 0 false 0 0, .bbRoute 0 false 0 0, .bbCauseSet 0 0, .bbPSoftSet 0 0 0, .bbWakeTimeout 0, .detStep w0 [], .runReset w0 [], .stickyWrite w0 0 [], 
     .stickyClearAll w0 [], .trackerBankLoss 0, .resourceRelease w0 [], .resourceQuery w0 [], .limpEnter w0, .limpExit w0, .mirrorBind 0 0 0, .mirrorBound 0 0 0, 
     .mirrorRefused 0 0 0, .mirrorUnbind 0 0 0, .mirrorBindTimeout 0, .mirrorWrite h0 (.load 8), .mirrorRebindRetry 0, .rebuildBolt 0, .mirrorTakeover w0 [],
          .evict 0] : List Instr).all Instr.wf = true := by decide +kernel

/-- The same commands with every operand in its range: accepted. -/
theorem wf_accepts_9 : (
    [.demoteQuota 0 0, .moveSourceFree 0 0, .placeHint w0 [], .placeReset w0 [], .placeFreeze w0 [], .evacuate w0 [], .boltQuery w0 [], .patrolScrub 0 ⟨[], []⟩, 
     .strStart w0 0, .strStop w0 0, .strStopEnd 0, .strAdvance 0, .strLayerFetched 0, .domTarget w0 0 [], .domTransitionEnd 0, .domIdleCg 0, .domIdleRet 0 0, .domWake 0, 
     .padRelease w0 [], .cwPadRelease h0 0, .cwPadReleaseAll h0, .powerBrownout 0, .powerMargin 0, .marginStep 0, .throttleStep 0 0, .thermalTrip 0 0, .hardTrip 0 0, 
     .devTarget w0 [], .resetCmd w0 [], .bringupStage ⟨[], [], []⟩, .fwUpdateBegin w0, .fwUpdateChunk w0 [], .fwUpdateCommit w0, .fwUpdateActivate w0, .fwUpdateAbort w0, 
     .fwConfirm w0 [], .hearthLoadStore 0 h0 (.load 8), .flitBoundary 0, .eyeHeightLow 0 0 0 false false,
          .compatLinkState 0 0 false 0 0 false] : List Instr).all Instr.wf = true := by decide +kernel

/-- The same commands with every operand in its range: accepted. -/
theorem wf_accepts_10 : (
    [.pcieConfigRequest 0 false 0 0 0, .pcieCompletion 0 0 0 false [], .queueCfgWrite h0 q1 0, .i3cEntdaa false 0 0, .engineFault 0 0 none, .slotScrubbed 0 0, 
     .retOverTemperature 0 0] : List Instr).all Instr.wf = true := by decide +kernel

/-! Witnesses. -/

/-- The generator of P-384 as a public key. -/
def ecG' : Bytes := ecEncode ecG

/-- A HELLO of a client without a role. -/
def hello : Frame := i3cFrame 1 (zeros 36 ++ ecG')

/-- Sessions of both I3C slots, the first without a role. -/
def n0both : State := setSess (setSess n0i 16 { owner with role := 0 }) 17 { owner with sid := 2 }

/-- A frame that the device holds ready. -/
def rf : ReadyFrame := { seq := 1, frame := .accept 1 1, auth := [] }

/-- A subscription to UPTIME. -/
def sub1 : Subscription := { id := 1, slot := 16, index := 0x1003, sub := 9, mode := 3, periodMs := 10, minIntervalMs := 0, last := [], held := false, sentAt := 0, dueAt := 0 }

/-- An event of it. -/
def ev1 : Event := { subId := 1, kind := 1, seq := 1, index := 0x1003, sub := 9, type := 1, data := [1] }

/-- A WRITE of HEAT_SHIFT. -/
def wf2 : Frame := i3cFrame 5 (ask 2 0x2301 ([2, 1] ++ zeros 4 ++ toLe 4 1 ++ toLe 2 1 ++ [3]))

theorem witness_StepRunsFront : ∃ (c : Instr) (rest : List Instr) (s : State), (s.pending = c :: rest) :=
  ⟨.recoveryStart, [], { State.reset with pending := [.recoveryStart] }, by decide +kernel⟩

theorem witness_IdleStepIsATick :
    (∃ (s : State), (s.pending = [])) ∧
    (∃ (s : State), (s.pending = []) ∧ (s.pwr.refclk = false)) :=
  ⟨⟨State.reset, by decide +kernel⟩,
   ⟨{ State.reset with pwr := { State.reset.pwr with refclk := false } }, by decide +kernel⟩⟩

theorem witness_EveryStepKeepsInvariant : ∃ (s : State) (t : State), (Invariant s) ∧ (step s = .next t) :=
  ⟨State.reset, tick State.reset, ⟨⟨rfl, rfl⟩, rfl⟩⟩

theorem witness_MemoryReadsWhatWasWritten :
    (∃ (m : List Host.Cell), (Memory.wf m = true)) ∧
    (∃ (a : Nat) (d : Bytes) (x : Nat), (x < a ∨ a + d.length ≤ x)) ∧
    (∃ (m : List Host.Cell) (a : Nat) (n : Nat) (x : Nat), (Memory.wf m = true) ∧ (a ≤ x) ∧ (x < a + n)) ∧
    (∃ (a : Nat) (n : Nat) (x : Nat), (x < a ∨ a + n ≤ x)) :=
  ⟨⟨[(5, 1)], by decide +kernel⟩,
   ⟨4, [1, 2], 6, by decide +kernel⟩,
   ⟨[(5, 1)], 4, 2, 5, by decide +kernel⟩,
   ⟨4, 2, 6, by decide +kernel⟩⟩

theorem witness_RegistersReadWhatWasWritten :
    (∃ (s : State), (Objects.wf s.obj = true)) ∧
    (∃ (i : Nat) (k : Nat) (j : Nat) (l : Nat), (k < 256) ∧ (l < 256) ∧ ((j ≠ i ∨ l ≠ k))) :=
  ⟨⟨n0, by decide +kernel⟩,
   ⟨0x2000, 255, 0x2000, 0, by decide +kernel⟩⟩

theorem witness_SessionsOpenAndEnd :
    (∃ (f : Frame) (k : Nat) (s : State), (pbpUp s f.tr f.via = true) ∧ (badFrame f = false) ∧ (f.ftype = 1) ∧ (helloForm f = true) ∧ (num s 0x2A21 1 = 0) ∧ (standby s = false) ∧
         (((slotsOf f.tr).filter (fun k => (getSess s k).inUse)).length < slotLimit s f.tr) ∧ ((slotsOf f.tr).find? (fun k => !(getSess s k).inUse) = some k)) ∧
    (∃ (f : Frame) (j : Nat) (k : Nat) (s : State), (pbpUp s f.tr f.via = true) ∧ (badFrame f = false) ∧ (f.ftype = 1) ∧ (helloForm f = true) ∧ (num s 0x2A21 1 = 0) ∧
         (standby s = false) ∧ (slotLimit s f.tr ≤ ((slotsOf f.tr).filter (fun k => (getSess s k).inUse)).length) ∧ (oldestNoRole s f.tr = some j) ∧
         ((slotsOf f.tr).find? (fun k => !(getSess (endSession s j 8) k).inUse) = some k)) ∧
    (∃ (f : Frame) (k : Nat) (s : State), (pbpUp s f.tr f.via = true) ∧ (badFrame f = false) ∧ (f.ftype = 3) ∧ (f.body.length = 193) ∧ (slotOf s f = some k) ∧
         ((getSess s k).halfOpen = true) ∧ (s.det.now ≤ (getSess s k).openedAt + secT 5)) ∧
    (∃ (slot : Nat) (s : State), ((getSess s slot).inUse = true) ∧ ((getSess s slot).halfOpen = true) ∧ ((getSess s slot).openedAt + secT 5 ≤ s.det.now)) ∧
    (∃ (f : Frame) (k : Nat) (s : State), (frameTaken s f 9 k = true)) ∧
    (∃ (slot : Nat) (s : State), ((getSess s slot).inUse = true) ∧ ((getSess s slot).halfOpen = false) ∧ ((getSess s slot).lastFrame + secT (num s 0x1102 1) ≤ s.det.now)) ∧
    (∃ (slot : Nat) (s : State), ((getSess s slot).inUse = true) ∧ ((getSess s slot).halfOpen = false) ∧
         ((2 ^ 31 ≤ (getSess s slot).framesIn ∨ 2 ^ 31 ≤ (getSess s slot).framesOut ∨ (getSess s slot).openedAt + secT 86400 ≤ s.det.now))) ∧
    (∃ (v : Bytes), (v.length = 4)) ∧
    (∃ (e : Nat) (v : Bytes), (1 ≤ e) ∧ (e ≤ 16) ∧ (v.length = 98) ∧ ((bfld v 0 1 = 1 ∨ bfld v 0 1 = 2)) ∧ ((ecDecode (v.drop 1)).isSome = true)) ∧
    (∃ (e : Nat), (1 ≤ e) ∧ (e ≤ 16)) ∧
    (∃ (handle : Nat) (f : ReadyFrame) (t : List ReadyFrame) (s : State), (transportOn s .i3c = true) ∧ (s.pb.i3cDynamic ≠ 0) ∧ (1 ≤ handle) ∧ (handle ≤ 2) ∧
         (s.pb.i3cTail.find? (fun e => e.1 == handle + 15) = none) ∧ ((getSess s (handle + 15)).ready = f :: t)) ∧
    (∃ (handle : Nat) (e : Nat × ReadyFrame) (s : State), (transportOn s .i3c = true) ∧ (s.pb.i3cDynamic ≠ 0) ∧ (1 ≤ handle) ∧ (handle ≤ 2) ∧
         (s.pb.i3cTail.find? (fun e => e.1 == handle + 15) = some e)) ∧
    (∃ (byId : Bool) (named : Nat) (addr : Nat) (s : State), (transportOn s .i3c = true) ∧ (named = (if byId then s.sec.hem.i3cId else num s 0x1101 2)) ∧ (8 ≤ addr) ∧ (addr ≤ 0x7D)) :=
  ⟨⟨hello, 16, n0i, by decide +kernel⟩,
   ⟨hello, 16, 16, n0both, by decide +kernel⟩,
   ⟨i3cFrame 3 (zeros 193), 16, atT (secT 5) n0half, by decide +kernel⟩,
   ⟨16, atT (secT 5) n0half, by decide +kernel⟩,
   ⟨tagged (i3cFrame 9 []) [], 16, n0own, taken (by decide +kernel) (by decide +kernel)⟩,
   ⟨16, atT (secT 86400) n0own, by decide +kernel⟩,
   ⟨16, setSess n0i 16 { owner with framesIn := 2 ^ 31 }, by decide +kernel⟩,
   ⟨[0, 0, 0, 0], by decide +kernel⟩,
   ⟨16, 2 :: ecG', by decide +kernel⟩,
   ⟨1, by decide +kernel⟩,
   ⟨2, rf, [], setSess n0i 17 { owner with ready := [rf] }, by decide +kernel⟩,
   ⟨1, (16, rf), { n0i with pb := { n0i.pb with i3cTail := [(16, rf)] } }, by decide +kernel⟩,
   ⟨true, 0, 0x7D, n0, by decide +kernel⟩⟩

theorem witness_RequestsComplete :
    (∃ (f : Frame) (k : Nat) (s : State), (requestTaken s f 1 k = true) ∧ (f.body.length = 14) ∧ ((readOps f).maxLen ≤ (if isI3c k then 472 else 1344)) ∧
         ((findObject (requested s f k) (opIndex f) (opSub f)).1 = 0) ∧ (mayRead (getSess (requested s f k) k).role (findObject (requested s f k) (opIndex f) (opSub f)).2 = true) ∧
         ((readObject (requested s f k) k (opIndex f) (opSub f) (findObject (requested s f k) (opIndex f) (opSub f)).2 (bit (readOps f).flags 0)).1 = 0)) ∧
    (∃ (f : Frame) (v : Verdicts) (k : Nat) (r : Nat) (t : State) (s : State), (requestTaken s f 2 k = true) ∧ (f.body.length = 18 + (writeOps f).dataLen) ∧
         ((writeOps f).dataLen ≤ (if isI3c k then 470 else 1342)) ∧ ((findObject (requested s f k) (opIndex f) (opSub f)).1 = 0) ∧
         (mayWrite (getSess (requested s f k) k).role (findObject (requested s f k) (opIndex f) (opSub f)).2 = true) ∧ (disabledUnit (requested s f k) (opIndex f) (opSub f) = false) ∧
         ((writeOps f).offset = 0) ∧ (bit (writeOps f).flags 0 = true) ∧ ((writeOps f).dataLen = (writeOps f).totalLen) ∧
         (writeWhole (requested s f k) { slot := k, tag := pbTag f } (findObject (requested s f k) (opIndex f) (opSub f)).2 (opIndex f) (opSub f) (writeOps f).data v.flashOk = .done 0 r t)) ∧
    (∃ (f : Frame) (k : Nat) (s : State), (requestTaken s f 3 k = true) ∧ (f.body.length = 8) ∧ ((findObject (requested s f k) (opIndex f) (opSub f)).1 = 0)) ∧
    (∃ (f : Frame) (k : Nat) (s : State), (requestTaken s f 4 k = true) ∧ (f.body.length = 8)) ∧
    (∃ (f : Frame) (k : Nat) (s : State), (requestTaken s f 5 k = true) ∧ (f.body.length = 8) ∧ (2 ≤ (getSess (requested s f k) k).role) ∧ (standby (requested s f k) = false)) ∧
    (∃ (f : Frame) (k : Nat) (s : State), (requestTaken s f 6 k = true) ∧ (f.body.length = 8) ∧ (2 ≤ (getSess (requested s f k) k).role) ∧ (standby (requested s f k) = false)) ∧
    (∃ (f : Frame) (k : Nat) (s : State), (requestTaken s f 7 k = true) ∧ (f.body.length = 14) ∧ (opSub f ≠ 0xFF) ∧ ((findObject (requested s f k) (opIndex f) (opSub f)).1 = 0) ∧
         (mayRead (getSess (requested s f k) k).role (findObject (requested s f k) (opIndex f) (opSub f)).2 = true) ∧ (served (requested s f k) (opIndex f) (opSub f) = true) ∧
         (1 ≤ (subscribeOps f).mode) ∧ ((subscribeOps f).mode ≤ 3) ∧ (10 ≤ (subscribeOps f).periodMs) ∧ ((subscribeOps f).periodMs ≤ 3600000) ∧ ((subscribeOps f).minIntervalMs ≤ 60000) ∧
         (countIf (requested s f k).pb.subs (fun y => y.slot == k) < 32) ∧ ((requested s f k).pb.subs.length < 256)) ∧
    (∃ (f : Frame) (k : Nat) (s : State), (requestTaken s f 8 k = true) ∧ (f.body.length = 6) ∧ ((requested s f k).pb.subs.any (fun y => y.id == bfld f.body 4 2 && y.slot == k) = true)) ∧
    (∃ (f : Frame) (k : Nat) (s : State), (requestTaken s f 9 k = true) ∧ (f.body.length = 4)) ∧
    (∃ (f : Frame) (entries : List GroupEntry) (v : Verdicts) (k : Nat) (s : State), (requestTaken s f 10 k = true) ∧ (1 ≤ opSub f) ∧ (opSub f ≤ 16) ∧ (8 ≤ f.body.length) ∧
         (groupEntries (opSub f) (f.body.drop 8) = some entries) ∧
         (entries.all (fun e => (findObject (requested s f k) (opIndex f) e.sub).1 == 0 && mayWrite (getSess (requested s f k) k).role (findObject (requested s f k) (opIndex f) e.sub).2) = true) ∧ ((groupWrite (requested s f k) { slot := k, tag := pbTag f } (opIndex f) (entries.map (fun e => { row := (findObject (requested s f k) (opIndex f) e.sub).2, sub := e.sub, data := e.data })) v.flashOk).1 = 0) ∧ ((groupWrite (requested s f k) { slot := k, tag := pbTag f } (opIndex f) (entries.map (fun e => { row := (findObject (requested s f k) (opIndex f) e.sub).2, sub := e.sub, data := e.data })) v.flashOk).2.2.2.1 = 0)) ∧
    (∃ (w : Sys2Proof.Writer) (index : Nat) (sub : Nat) (v : Bytes) (r : Nat) (t : State) (s : State), ((findObject s index sub).1 = 0) ∧ ((findObject s index sub).2.cls ≠ .ro) ∧
         (writeWhole s w (findObject s index sub).2 index sub v true = .done 0 r t)) :=
  ⟨⟨tagged (i3cFrame 5 (ask 1 0x1003 ([9, 0] ++ zeros 4 ++ toLe 2 472))) [], 16, n0own, ⟨asked (by decide +kernel) (by decide +kernel) (by decide +kernel), by decide +kernel⟩⟩,
   ⟨tagged wf2 [], { flashOk := true }, 16, 0, _, n0own, ⟨asked (by decide +kernel) (by decide +kernel) (by decide +kernel), by decide +kernel, by decide +kernel, by decide +kernel,
        by decide +kernel, by decide +kernel, by decide +kernel, by decide +kernel, by decide +kernel, out_done (by decide +kernel)⟩⟩,
   ⟨tagged (i3cFrame 5 (ask 3 0x1003 [9, 0])) [], 16, n0own, ⟨asked (by decide +kernel) (by decide +kernel) (by decide +kernel), by decide +kernel⟩⟩,
   ⟨tagged (i3cFrame 5 (ask 4 0xFFFF [255, 0])) [], 16, n0own, ⟨asked (by decide +kernel) (by decide +kernel) (by decide +kernel), by decide +kernel⟩⟩,
   ⟨tagged (i3cFrame 5 (ask 5 0 [0xFF, 0xFF])) [], 16, n0own, ⟨asked (by decide +kernel) (by decide +kernel) (by decide +kernel), by decide +kernel⟩⟩,
   ⟨tagged (i3cFrame 5 (ask 6 0 [0xFF, 0xFF])) [], 16, n0own, ⟨asked (by decide +kernel) (by decide +kernel) (by decide +kernel), by decide +kernel⟩⟩,
   ⟨tagged (i3cFrame 5 (ask 7 0x1003 ([9, 3] ++ toLe 4 3600000 ++ toLe 2 60000))) [], 16, n0own, ⟨asked (by decide +kernel) (by decide +kernel) (by decide +kernel), by decide +kernel⟩⟩,
   ⟨tagged (i3cFrame 5 (ask 8 1 [])) [], 16, { n0own with pb := { n0own.pb with subs := [sub1] } }, ⟨asked (by decide +kernel) (by decide +kernel) (by decide +kernel), by decide +kernel⟩⟩,
   ⟨tagged (i3cFrame 5 (toLe 2 9 ++ toLe 2 7)) [], 16, n0own, ⟨asked (by decide +kernel) (by decide +kernel) (by decide +kernel), by decide +kernel⟩⟩,
   ⟨tagged (i3cFrame 5 (ask 10 0x2301 [1, 0, 2, 0, 1, 0, 3])) [], [{ sub := 2, data := [3] }], { flashOk := true }, 16, n0own,
        ⟨asked (by decide +kernel) (by decide +kernel) (by decide +kernel), by decide +kernel⟩⟩,
   ⟨{ slot := 16, tag := 7 }, 0x2301, 2, [3], 0, _, n0own, ⟨by decide +kernel, by decide +kernel, out_done (by decide +kernel)⟩⟩⟩

theorem witness_EventsComplete :
    (∃ (f : Frame) (k : Nat) (s : State), (frameTaken s f 8 k = true) ∧ (f.body.length = 4)) ∧
    (∃ (slot : Nat) (eventSeq : Nat) (u : Unacked) (s : State), ((getSess s slot).unacked.find? (fun u => u.ev.seq == eventSeq) = some u) ∧ (u.sentAt + msT (num s 0x1112 1) ≤ s.det.now) ∧
         (u.ev.kind = 1) ∧ (u.attempts < num s 0x1112 2)) ∧
    (∃ (subId : Nat) (y : Subscription) (s : State), (s.pb.subs.find? (fun y => y.id == subId) = some y) ∧ (2 ≤ y.mode) ∧ (y.dueAt ≤ s.det.now)) ∧
    (∃ (subId : Nat) (y : Subscription) (e : Nat × Val) (s : State), (s.pb.subs.find? (fun y => y.id == subId) = some y) ∧
         ((subNow s y.slot y.index y.sub).find? (fun e => sfind y.last e.1 != some e.2) = some e) ∧ (y.mode ≠ 2) ∧ ((getSess s y.slot).unacked.length < 4) ∧
         ((getSess s y.slot).unacked.any (fun u => u.ev.subId == y.id) = false) ∧ ((y.sentAt = 0 ∨ y.sentAt + msT y.minIntervalMs ≤ s.det.now))) ∧
    (∃ (block : DrainBlock) (s : State), (s.pb.drains.any (fun d => d.block == block) = true) ∧ (blkAccepted s (drainBlk block) = 0)) :=
  ⟨⟨tagged (i3cFrame 8 [1, 0, 0, 0]) [], 16, n0own, ⟨taken (by decide +kernel) (by decide +kernel), by decide +kernel⟩⟩,
   ⟨16, 1, { ev := ev1, attempts := 1, sentAt := 0 }, atT (secT 60) (setSess n0i 16 { owner with unacked := [{ ev := ev1, attempts := 1, sentAt := 0 }] }), by decide +kernel⟩,
   ⟨1, sub1, { n0own with pb := { n0own.pb with subs := [sub1] } }, by decide +kernel⟩,
   ⟨1, sub1, (9, .bytes [1, 0]), { n0own with pb := { n0own.pb with subs := [sub1] } }, by decide +kernel⟩,
   ⟨.bobbin, { n0own with pb := { n0own.pb with drains := [{ block := .bobbin, key := 0, value := .num 0, slot := 16, sid := 1, tag := 0, group := 0, isGroup := false }] } },
        by decide +kernel⟩⟩

/-- A mirrored region of 64 KiB. -/
def mir : Region := { rgn 1 0x100000 65536 with mirror := true, mirrorEp := 5, mirrorBase := 0x200000 }

/-- A window of 64 KiB at the start of the range. -/
def winBytes : Bytes := toLe 8 0xC00000000000 ++ toLe 8 65536 ++ toLe 8 0 ++ [1, 0, 0xFF] ++ zeros 13

/-- A translation fault. -/
def trap0 : Trap := { cid := 0, kind := 1, unit := 0, vpn := 0, cause := 1, level := 0, pte := 0, user := false, write := false, atomic := false, walked := true, viol := none }

/-- Is the first fault that waits the one of descriptor `d`? -/
def isDescFault (q : Nat) (t : Trap) (d : DescRef) (x : Desc) : Option (Nat × Trap × FaultOf) → Bool
  | some (a, b, .desc e y) => a == q && b == t && e == d && y == x
  | _ => false

theorem desc_fault {o : Option (Nat × Trap × FaultOf)} {q : Nat} {t : Trap} {d : DescRef} {x : Desc} (h : isDescFault q t d x o = true) : o = some (q, t, .desc d x) := by
  unfold isDescFault at h
  split at h
  · simp at h; obtain ⟨⟨⟨rfl, rfl⟩, rfl⟩, rfl⟩ := h; rfl
  · cases h

theorem witness_MapWritesComplete :
    (∃ (r : Nat) (v : Bytes) (s : State), (v.length = 64) ∧ ((getRegion s r).releasing = false) ∧ (s.flt.binds.any (fun x => x.region == r) = false) ∧
         (s.coh.recalls.any (fun c => c.region == r && c.new.isSome) = false) ∧ ((getRegion s r).valid = false) ∧ ((parseRegion v).valid = true) ∧
         (regionCreatable s r (parseRegion v) = true) ∧ (((parseRegion v).mirror = false ∨ arrNum s 0x3640 r ≠ 0))) ∧
    (∃ (r : Nat) (v : Bytes) (s : State), (v.length = 64) ∧ ((getRegion s r).releasing = false) ∧ (s.flt.binds.any (fun x => x.region == r) = false) ∧
         (s.coh.recalls.any (fun c => c.region == r && c.new.isSome) = false) ∧ ((getRegion s r).valid = false) ∧ ((parseRegion v).valid = true) ∧
         (regionCreatable s r (parseRegion v) = true) ∧ ((parseRegion v).mirror = true) ∧ (arrNum s 0x3640 r = 0)) ∧
    (∃ (r : Nat) (v : Bytes) (s : State), (v.length = 64) ∧ ((getRegion s r).releasing = false) ∧ (s.flt.binds.any (fun x => x.region == r) = false) ∧
         (s.coh.recalls.any (fun c => c.region == r && c.new.isSome) = false) ∧ ((getRegion s r).valid = true) ∧ ((parseRegion v).valid = true) ∧
         (regionChangeable s r (getRegion s r) (parseRegion v) = true) ∧ ((getRegion s r).mirror = false) ∧ ((parseRegion v).mirror = false)) ∧
    (∃ (r : Nat) (v : Bytes) (s : State), (v.length = 64) ∧ ((getRegion s r).releasing = false) ∧ (s.flt.binds.any (fun x => x.region == r) = false) ∧
         (s.coh.recalls.any (fun c => c.region == r && c.new.isSome) = false) ∧ ((getRegion s r).valid = true) ∧ ((parseRegion v).valid = false) ∧ (regionBound s r = false)) ∧
    (∃ (r : Nat) (s : State), (releaseDone s r = true)) ∧
    (∃ (k : Nat) (v : Bytes) (s : State), (v.length = 40) ∧ (((parseWindow v).valid = false ∨ windowOk s k (parseWindow v) = true))) ∧
    (∃ (v : Bytes) (s : State), (v.length ≤ 1024) ∧ (s.route.copying = false) ∧ ((stageWrite s v).1 = 0)) ∧
    (∃ (v : Bytes) (s : State), (v.length ≤ 1024) ∧ (s.route.copying = true)) ∧
    (∃ (v : Bytes) (s : State), (v.length = 2) ∧ (leNat v = (s.route.epoch + 1) % 65536)) ∧
    (∃ (s : State), (s.route.copying = true) ∧ (s.route.heldStage = [])) ∧
    (∃ (e : Nat) (t : Nat) (s : State), (s.route.prev = some (e, t)) ∧ (t + usT (num s 0x2201 2) ≤ s.det.now)) :=
  ⟨⟨4095, rgnBytes (rgn 1 0 65536), n0t, by decide +kernel⟩,
   ⟨0, rgnBytes mir, routed n0t, by decide +kernel⟩,
   ⟨1, rgnBytes (rgn 3 0 65536), n0r 1, by decide +kernel⟩,
   ⟨1, zeros 64, n0r 1, by decide +kernel⟩,
   ⟨1, setRegion n0t 1 { rgn 1 0 65536 with valid := false, releasing := true }, by decide +kernel⟩,
   ⟨4095, winBytes, n0t, by decide +kernel⟩,
   ⟨[0xFF, 0xFF, 1, 0, 3, 0, 0, 0], n0, by decide +kernel⟩,
   ⟨zeros 1024, { n0 with route := { n0.route with copying := true } }, by decide +kernel⟩,
   ⟨[0, 0], { n0 with route := { n0.route with epoch := 65535 } }, by decide +kernel⟩,
   ⟨{ n0 with route := { n0.route with copying := true } }, by decide +kernel⟩,
   ⟨0, 0, atT (secT 10) { n0 with route := { n0.route with epoch := 1, prev := some (0, 0) } }, by decide +kernel⟩⟩

theorem witness_TranslationCommandsComplete :
    (∃ (i : Inval) (rest : List Inval) (s : State), (s.acc.invals = i :: rest) ∧ (i.started = true) ∧ (i.waits.any (inHand s) = false) ∧
         (i.descs.all (fun d => (findDesc s d).isNone) = true)) ∧
    (∃ (x : Held) (t : Trap) (q : Nat) (n : Nat) (u : State) (s : State), (firstFault ((faultsWaiting s).filter (fun e => (attachFault s e.2.1).1.isSome)) = some (q, t, .held x)) ∧
         (attachFault s t = (some n, u))) ∧
    (∃ (d : DescRef) (x : Desc) (t : Trap) (q : Nat) (n : Nat) (u : State) (s : State), (firstFault ((faultsWaiting s).filter (fun e => (attachFault s e.2.1).1.isSome)) = some (q, t,
         .desc d x)) ∧ (attachFault s t = (some n, u))) ∧
    (∃ (bank : Nat) (x : Held) (s : State), (nextTracker s bank = some (.inl x)) ∧ (trackerFree s (portOf x.req.head) x.req.head.addr = true)) ∧
    (∃ (tag : Nat) (i : Issued) (s : State), (s.acc.issued.find? (fun i => i.tag == tag) = some i) ∧ (i.deadline ≤ s.det.now) ∧ (i.mirror = none)) ∧
    (∃ (seq : Nat) (x : Held) (p : Nat) (n : Nat) (s : State), (s.acc.held.find? (fun h => h.seq == seq) = some x) ∧ (x.deadline ≤ s.det.now) ∧ (x.req.head.kind = 0) ∧
         (x.why = .faultRec p n)) ∧
    (∃ (seq : Nat) (x : Held) (s : State), (s.acc.held.find? (fun h => h.seq == seq) = some x) ∧ (x.deadline ≤ s.det.now) ∧ (x.req.head.kind ≠ 0)) ∧
    (∃ (seq : Nat) (x : Held) (s : State), (s.acc.held.find? (fun h => h.seq == seq) = some x) ∧ (x.why ≠ .forwarded) ∧ ((∀ a b, x.why ≠ .away a b)) ∧ (x.discardAt < s.det.now) ∧
         (x.req.head.kind = 0)) ∧
    (∃ (seq : Nat) (x : Held) (s : State), (s.acc.held.find? (fun h => h.seq == seq) = some x) ∧ (x.why ≠ .forwarded) ∧ ((∀ a b, x.why ≠ .away a b)) ∧ (x.discardAt < s.det.now) ∧
         (x.req.head.kind ≠ 0)) ∧
    (∃ (c : Completion) (i : Issued) (s : State), (findIssued s c.tag = some i)) :=
  ⟨⟨{ part := 0, started := true, waits := [], descs := [], asid := none, vpn := none }, [],
       { n0 with acc := { n0.acc with invals := [{ part := 0, started := true, waits := [], descs := [], asid := none, vpn := none }] } }, by decide +kernel⟩,
   ⟨held0 (.faultWait 0 1 0 0 false) (.load 8) 1, ((heldTrap (held0 (.faultWait 0 1 0 0 false) (.load 8) 1)).getD trap0), 0, 0,
        (attachFault (hold [held0 (.faultWait 0 1 0 0 false) (.load 8) 1] n0) ((heldTrap (held0 (.faultWait 0 1 0 0 false) (.load 8) 1)).getD trap0)).2,
        hold [held0 (.faultWait 0 1 0 0 false) (.load 8) 1] n0, ⟨by apply Eq.refl, by apply Eq.refl⟩⟩,
   ⟨d0 .bobbin, { desc0 with trap := some trap0 }, trap0, 0, 0, (attachFault (accepted .bobbin { desc0 with trap := some trap0 } n0) trap0).2,
        accepted .bobbin { desc0 with trap := some trap0 } n0, ⟨desc_fault (by decide +kernel), by decide +kernel⟩⟩,
   ⟨0, held0 .tracker (.load 8) 1, hold [held0 .tracker (.load 8) 1] n0, by decide +kernel⟩,
   ⟨0, issued0 (.load 8), issue [issued0 (.load 8)] n0, by decide +kernel⟩,
   ⟨0, held0 (.faultRec 0 0) (.load 8) 0, 0, 0, hold [held0 (.faultRec 0 0) (.load 8) 0] n0, by decide +kernel⟩,
   ⟨0, held0 .slot (.load 8) 6, hold [held0 .slot (.load 8) 6] n0, by decide +kernel⟩,
   ⟨0, held0 .slot (.load 8) 0, atT 1 (hold [held0 .slot (.load 8) 0] n0), ⟨by decide +kernel, by decide +kernel, (fun _ _ h => nomatch h), by decide +kernel, by decide +kernel⟩⟩,
   ⟨0, held0 .slot (.load 8) 6, atT 1 (hold [held0 .slot (.load 8) 6] n0), ⟨by decide +kernel, by decide +kernel, (fun _ _ h => nomatch h), by decide +kernel, by decide +kernel⟩⟩,
   ⟨{ tag := 0, status := 4, epoch := 0, data := [] }, issued0 (.load 8), issue [issued0 (.load 8)] n0, by decide +kernel⟩⟩

/-- A knot held in an entry of the knot table. -/
def knot0 (count counted : Nat) : KnotEntry :=
  { ep := 0, cid := 0, group := 0, count0 := counted, count1 := 0, knot0 := some { held := held0 .slot (.blk 0 true false count [] false) 1, deadline := 0, count := count }, knot1 := none }

/-- `n0` with it. -/
def n0knot (count counted : Nat) : State := { n0 with ord := { n0.ord with knots := [knot0 count counted] } }

/-- A completion of wire tag 0 with status OK. -/
def ok0 : Completion := { tag := 0, status := 0, epoch := 0, data := zeros 64 }

theorem witness_MemoryRequestsComplete :
    (∃ (h : Head) (s : State), (h.kind ≠ 0) ∧ ((unitHead s h).dst = endpointId s)) ∧
    (∃ (ep : Nat) (cid : Nat) (g : Nat) (sp : Bool) (k : KnotEntry) (x : HeldKnot) (c : Nat) (s : State), (findKnot s ep cid g = some k) ∧ (heldKnot k sp = (some x, c)) ∧ (x.count ≤ c)) ∧
    (∃ (ep : Nat) (cid : Nat) (g : Nat) (sp : Bool) (k : KnotEntry) (x : HeldKnot) (c : Nat) (s : State), (findKnot s ep cid g = some k) ∧ (heldKnot k sp = (some x, c)) ∧
         (x.deadline ≤ s.det.now) ∧ (c < x.count)) ∧
    (∃ (c : Completion) (i : Issued) (s : State), (findIssued s c.tag = some i) ∧ (cmpKind i.req.op = 0) ∧ (c.status = 0) ∧ (opReads i.req.op = false)) ∧
    (∃ (c : Completion) (i : Issued) (s : State), (findIssued s c.tag = some i) ∧ (cmpKind i.req.op = 1) ∧ (c.status = 0) ∧ (opReads i.req.op = false)) ∧
    (∃ (c : Completion) (i : Issued) (s : State), (findIssued s c.tag = some i) ∧ (cmpKind i.req.op = 2) ∧ (c.status = 0) ∧ (i.mirror = none) ∧ (opReads i.req.op = true)) :=
  ⟨⟨head0 0, n0, by decide +kernel⟩,
   ⟨0, 0, 0, false, knot0 1 1, { held := held0 .slot (.blk 0 true false 1 [] false) 1, deadline := 0, count := 1 }, 1, n0knot 1 1, by decide +kernel⟩,
   ⟨0, 0, 0, false, knot0 1 0, { held := held0 .slot (.blk 0 true false 1 [] false) 1, deadline := 0, count := 1 }, 0, n0knot 1 0, by decide +kernel⟩,
   ⟨ok0, issued0 (.store [1] false), issue [issued0 (.store [1] false)] n0, by decide +kernel⟩,
   ⟨ok0, issued0 (.blk 0 false false 0 [] false), issue [issued0 (.blk 0 false false 0 [] false)] n0, by decide +kernel⟩,
   ⟨ok0, issued0 (.load 8), issue [issued0 (.load 8)] n0, by decide +kernel⟩⟩

/-- The device with a COH region at 0, its L2 clusters ON and every core running. -/
def n0coh : State :=
  let s := on [16, 17, 18, 19] (n0r 0)
  { s with sec := { s.sec with idleCores := [] } }

/-- A message of L2 cluster 0 about line 0. -/
def msg0 : CohMsg :=
  { agent := 0, ep := 0, port := 0xFF, cid := 0, epoch := 0, tag := 0, line := 0, state := 0, flag := false, status := 0, htid := 0, fwdAgent := 0, data := zeros 64, ecc := .clean }

/-- A transaction that waits for the snoop's answer of agent `a`. -/
def txn0 (a : Nat) : Txn :=
  { kind := .rdS, agent := 1, tag := 0, cid := 0, started := 0, snoops := [(a, 1, 0)], forward := none, wbWait := [], held := [], granted := false, grant := 0, acked := false,
    status := 0, lost := false, pol := false }

/-- `n0coh` with it on line 0. -/
def n0txn (a : Nat) : State := { n0coh with coh := { n0coh.coh with txns := [(0, txn0 a)] } }

/-- `n0coh` with line 0 in cluster 0 in state `st`. -/
def n0l2 (st : Nat) (coh pending : Bool) : State :=
  { n0coh with coh := { n0coh.coh with l2 := [(0, { st := st, coh := coh, wbPending := pending, cid := 0, data := zeros 64, mark := false, tag := 0 })] } }

/-- An outer agent admitted at endpoint 5 by port 0. -/
def agent5 (st : Nat) : Agent := { ep := 5, port := 0, v := true, cacheless := false, part := 0, credits := 64, st := st }

/-- `s` with outer agent 4. -/
def outer (st : Nat) (s : State) : State := setAgent s 4 (agent5 st)

/-- The cache entry of an agent as it is written, `v` its V. -/
def agentBytes (v : Bool) : Bytes := toLe 8 (5 + 2 ^ 24 * b2n v + 64 * 2 ^ 40) ++ zeros 8

/-- A write that waits. -/
def ww : WaitingWrite := { slot := 16, sid := 1, tag := 0, opcode := 2, sub := 0 }

/-- A lease of endpoint 5 for partition 0. -/
def lease5 (st : Nat) : Lease := { ep := 5, part := 0, st := st, durationMs := 100, deadline := 0, expiredAt := 0 }

/-- A CBO that has been sent and waits for its WB_ACK. -/
def pend0 : L2Pend :=
  { seq := 0, deadline := 0, dead := false, cluster := 0, line := 0, core := 0, addr := 0, va := 0, cid := 0, op := .cbo 2, sent := true }

/-- The header of an access of core 0. -/
def coreHead0 (a : Nat) : Head := { head0 a with kind := 5 }

theorem witness_HomeCommandsComplete :
    (∃ (c : Instr) (k : TxnKind) (m : CohMsg) (r : Nat) (s : State) (u : State), ((c,
         k) ∈ ([(.rdS m, .rdS), (.rdOwn m, .rdOwn), (.upgrade m, .upgrade), (.rdPeek m, .peek)] : List (Instr × TxnKind))) ∧ (reqGate s m k = .pass u) ∧ (fromAgent u m = true) ∧
         ((byPort m = true → (getAgent u m.agent).part = cidPart m.cid ∧ ((getAgent u m.agent).cacheless = false ∨ k = .peek))) ∧ (placeOf u m.line = .memory) ∧
         (trackerFree u (reqPort m) m.line = true) ∧ (checkMem u m.cid (lineOf m.line * 64) 64 (k == .rdOwn || k == .upgrade) = some r) ∧ (inBasting u r (lineOf m.line * 64) 64 = false) ∧
         (boltDead u r m.cid m.ep (lineOf m.line * 64) = false) ∧ ((getRegion u r).kind = 0) ∧ (isCopy u r = false) ∧
         (boltBelow (reachFrom (countReq u k) (agentQuad u m.agent) (lineOf m.line * 64)) r m.cid m.ep (lineOf m.line * 64) = none)) ∧
    (∃ (line : Nat) (s : State), (inCellar s (lineOf line) = false)) ∧
    (∃ (m : CohMsg) (t : Txn) (s : State), (admitted s m.agent = true) ∧ (fromAgent s m = true) ∧ (txnGet s (lineOf m.line) = some t) ∧ (t.snoops.any (fun x => x.1 == m.agent) = true)) ∧
    (∃ (m : CohMsg) (t : Txn) (s : State), (admitted s m.agent = true) ∧ (fromAgent s m = true) ∧ (txnGet s (lineOf m.line) = some t) ∧ (awaitsAck t m.agent = true)) ∧
    (∃ (m : CohMsg) (s : State), (admitted s m.agent = true) ∧ (fromAgent s m = true)) ∧
    (∃ (v : Bytes) (s : State), (v.length = 2) ∧ ((getRegion s (leNat v)).valid = true) ∧ ((getRegion s (leNat v)).base < landBase)) ∧
    (∃ (c : Recall) (rest : List Recall) (x : WaitingWrite) (s : State), (s.coh.recalls = c :: rest) ∧ (recallEnded s = true) ∧ (c.write = some x) ∧ (c.new = none)) ∧
    (∃ (c : Recall) (rest : List Recall) (x : WaitingWrite) (g : Region) (s : State), (s.coh.recalls = c :: rest) ∧ (recallEnded s = true) ∧ (c.write = some x) ∧ (c.new = some g)) ∧
    (∃ (line : Nat) (agent : Nat) (t : Txn) (op : Nat) (at_ : Nat) (s : State), (txnGet s (lineOf line) = some t) ∧ (t.snoops.find? (fun x => x.1 == agent) = some (agent, op, at_)) ∧
         (at_ + usT (num s 0x2400 3) ≤ s.det.now) ∧ (agent < 4) ∧ (s.coh.unresponsive.contains agent = false)) ∧
    (∃ (line : Nat) (agent : Nat) (t : Txn) (op : Nat) (at_ : Nat) (s : State), (txnGet s (lineOf line) = some t) ∧ (t.snoops.find? (fun x => x.1 == agent) = some (agent, op, at_)) ∧
         (at_ + usT (num s 0x2400 3) ≤ s.det.now) ∧ (4 ≤ agent) ∧ ((getAgent s agent).st ≠ 2)) ∧
    (∃ (v : Bytes), (v.length = 1) ∧ (4 ≤ leNat v)) ∧
    (∃ (a : Nat) (v : Bytes) (s : State), (v.length = 16) ∧ (4 ≤ a) ∧ ((getAgent s a).st = 0) ∧ ((getAgent s a).v = false) ∧
         (let lo := bfld v 0 8; let n : Agent := { ep := fld lo 0 16, port := fld lo 16 8, v := true, cacheless := bit lo 25, part := fld lo 32 6, credits := fld lo 40 7, st := 0 }; (bit lo 24 = true) ∧ (innerTrf s n.port = true) ∧ (partExists s n.part = true) ∧ (n.credits ≠ 0) ∧ (n.credits ≤ 64) ∧ (s.coh.agents.any (fun e => e.1 != a && e.2.v && e.2.ep == n.ep && e.2.part == n.part) = false) ∧ (leaseExpired s n.ep n.part = false) ∧ ((leaseOf (setAgent s a { n with st := 1 }) n.ep n.part).isSome = true))) ∧
    (∃ (a : Nat) (v : Bytes) (s : State), (v.length = 16) ∧ (4 ≤ a) ∧ ((getAgent s a).st = 1) ∧ ((getAgent s a).v = true) ∧ (bit (bfld v 0 8) 24 = false) ∧
         (fld (bfld v 0 8) 0 16 = (getAgent s a).ep) ∧ (fld (bfld v 0 8) 16 8 = (getAgent s a).port) ∧ (bit (bfld v 0 8) 25 = (getAgent s a).cacheless) ∧
         (fld (bfld v 0 8) 32 6 = (getAgent s a).part) ∧ (fld (bfld v 0 8) 40 7 = (getAgent s a).credits)) ∧
    (∃ (a : Nat) (s : State), ((getAgent s a).st = 3) ∧ ((agentLines s a).isEmpty = true) ∧ (agentBusy s a = false)) ∧
    (∃ (line : Nat) (x : DirEntry) (s : State), (dirGet s (lineOf line) = some x)) ∧
    (∃ (v : Bytes), (v.length = 8)) :=
  ⟨⟨.rdS msg0, .rdS, msg0, 1, n0coh, n0coh, by simp only [List.mem_cons, true_or, true_and]; exact ⟨rfl, by decide +kernel, by decide +kernel, rfl, by decide +kernel⟩⟩,
   ⟨0, n0coh, by decide +kernel⟩,
   ⟨msg0, txn0 0, n0txn 0, by decide +kernel⟩,
   ⟨msg0, { txn0 1 with agent := 0, granted := true }, { n0coh with coh := { n0coh.coh with txns := [(0, { txn0 1 with agent := 0, granted := true })] } }, by decide +kernel⟩,
   ⟨msg0, n0coh, by decide +kernel⟩,
   ⟨[1, 0], n0coh, by decide +kernel⟩,
   ⟨{ region := 1, scope := none, write := some ww, new := none }, [], ww,
        { n0coh with coh := { n0coh.coh with recalls := [{ region := 1, scope := none, write := some ww, new := none }] } }, by decide +kernel⟩,
   ⟨{ region := 1, scope := none, write := some ww, new := some (rgn 1 0 65536) }, [], ww, rgn 1 0 65536,
        { n0coh with coh := { n0coh.coh with recalls := [{ region := 1, scope := none, write := some ww, new := some (rgn 1 0 65536) }] } }, by decide +kernel⟩,
   ⟨0, 3, txn0 3, 1, 0, atT (secT 1) (n0txn 3), by decide +kernel⟩,
   ⟨0, 4, txn0 4, 1, 0, atT (secT 1) (outer 0 (n0txn 4)), by decide +kernel⟩,
   ⟨[4], by decide +kernel⟩,
   ⟨4, agentBytes true, let s := routed n0coh; { s with ver := { s.ver with leases := [(0, lease5 1)] } }, by decide +kernel⟩,
   ⟨4, agentBytes false, outer 1 n0coh, by decide +kernel⟩,
   ⟨4, outer 3 n0coh, by decide +kernel⟩,
   ⟨0, { st := 1, owner := 0, sharers := [], leadV := false, lead := 0, groups := 0, part := 0, used := 0 },
        { n0coh with coh := { n0coh.coh with dir := [(0, { st := 1, owner := 0, sharers := [], leadV := false, lead := 0, groups := 0, part := 0, used := 0 })] } }, by decide +kernel⟩,
   ⟨zeros 8, by decide +kernel⟩⟩

theorem witness_ClusterCommandsComplete :
    (∃ (c : Nat) (m : CohMsg) (s : State), ((l2Get (wakeCluster s c) c (lineOf m.line)).wbPending = true)) ∧
    (∃ (c : Nat) (m : CohMsg) (s : State), ((l2Get (wakeCluster s c) c (lineOf m.line)).wbPending = false) ∧
         (((l2Get (wakeCluster s c) c (lineOf m.line)).coh = false ∨ (l2Get (wakeCluster s c) c (lineOf m.line)).st = 0))) ∧
    (∃ (c : Nat) (m : CohMsg) (s : State), ((l2Get (wakeCluster s c) c (lineOf m.line)).wbPending = false) ∧ ((l2Get (wakeCluster s c) c (lineOf m.line)).coh = true) ∧
         ((l2Get (wakeCluster s c) c (lineOf m.line)).st = 4)) ∧
    (∃ (c : Nat) (m : CohMsg) (p : L2Pend) (s : State), ((pendsOf (wakeCluster s c) c (lineOf m.line)).find? (fun p => p.sent && (match p.op with | .cbo k => k != 4 | _ => false)) = some p) ∧ (p.op = .cbo 2) ∧ (p.dead = false)) :=
  ⟨⟨0, msg0, n0l2 4 true true, by decide +kernel⟩,
   ⟨0, msg0, n0coh, by decide +kernel⟩,
   ⟨0, msg0, n0l2 4 true false, by decide +kernel⟩,
   ⟨0, msg0, pend0, { n0coh with coh := { n0coh.coh with l2pend := [pend0] } }, by decide +kernel⟩⟩

theorem witness_HearthCommandsComplete :
    (∃ (core : Nat) (h : Head) (n : Nat) (s : State) (u : State) (o : Head), (coreStopped s core = false) ∧ (u = wakeCluster s (core / 4)) ∧ (o = coreOwn u core h) ∧
         (inBell o.addr = false) ∧ (coreWay u o n false = .coherent)) ∧
    (∃ (core : Nat) (h : Head) (d : Bytes) (s : State) (u : State) (o : Head), (coreStopped s core = false) ∧ (u = wakeCluster s (core / 4)) ∧ (o = coreOwn u core h) ∧
         (inBell o.addr = false) ∧ (coreWay u o d.length true = .coherent)) ∧
    (∃ (core : Nat) (h : Head) (n : Nat) (s : State) (u : State) (o : Head), (coreStopped s core = false) ∧ (u = wakeCluster s (core / 4)) ∧ (o = coreOwn u core h) ∧
         (inBell o.addr = false) ∧ (coreWay u o n false = .uncached)) ∧
    (∃ (core : Nat) (h : Head) (wide : Bool) (s : State) (u : State) (o : Head), (coreStopped s core = false) ∧ (u = wakeCluster s (core / 4)) ∧ (o = coreOwn u core h) ∧
         (coreWay u o (amoSize wide) true = .coherent)) ∧
    (∃ (core : Nat) (h : Head) (wide : Bool) (s : State) (u : State) (o : Head), (coreStopped s core = false) ∧ (u = wakeCluster s (core / 4)) ∧ (o = coreOwn u core h) ∧
         (coreWay u o (amoSize wide) true = .uncached)) ∧
    (∃ (core : Nat) (h : Head) (wide : Bool) (s : State) (u : State) (o : Head), (coreStopped s core = false) ∧ (u = wakeCluster s (core / 4)) ∧ (o = coreOwn u core h) ∧
         (coreWay u o (amoSize wide) false = .coherent)) ∧
    (∃ (core : Nat) (h : Head) (wide : Bool) (s : State) (u : State) (o : Head), (coreStopped s core = false) ∧ (u = wakeCluster s (core / 4)) ∧ (o = coreOwn u core h) ∧
         (coreWay u o (amoSize wide) true ≠ .coherent)) ∧
    (∃ (core : Nat) (h : Head) (s : State) (u : State) (o : Head), (coreStopped s core = false) ∧ (u = wakeCluster s (core / 4)) ∧
         (o = { coreOwn u core h with addr := alignDown h.addr 64 }) ∧ (coreWay u o 64 true = .coherent)) ∧
    (∃ (core : Nat) (h : Head) (s : State) (u : State) (o : Head), (coreStopped s core = false) ∧ (u = wakeCluster s (core / 4)) ∧ (o = coreOwn u core h) ∧
         ((l2Get u (core / 4) (lineOf o.addr)).coh = true) ∧ (coreWay u o 1 false = .coherent)) ∧
    (∃ (core : Nat) (pi : Bool) (si : Bool) (pr : Bool) (sr : Bool) (s : State), (coreStopped s core = false) ∧ (((pi && (si || sr)) || (si && pr)) = true) ∧
         (s.ord.coreFences.any (fun x => x.1 == core) = false)) :=
  ⟨⟨15, coreHead0 0, 64, n0coh, n0coh, coreOwn n0coh 15 (coreHead0 0), by decide +kernel⟩,
   ⟨0, coreHead0 56, zeros 8, n0coh, n0coh, coreOwn n0coh 0 (coreHead0 56), by decide +kernel⟩,
   ⟨0, coreHead0 65536, 4, n0coh, n0coh, coreOwn n0coh 0 (coreHead0 65536), by decide +kernel⟩,
   ⟨0, coreHead0 8, true, n0coh, n0coh, coreOwn n0coh 0 (coreHead0 8), by decide +kernel⟩,
   ⟨0, coreHead0 65536, true, n0coh, n0coh, coreOwn n0coh 0 (coreHead0 65536), by decide +kernel⟩,
   ⟨0, coreHead0 8, false, n0coh, n0coh, coreOwn n0coh 0 (coreHead0 8), by decide +kernel⟩,
   ⟨0, coreHead0 65536, true, n0coh, n0coh, coreOwn n0coh 0 (coreHead0 65536), by decide +kernel⟩,
   ⟨0, coreHead0 70, n0coh, n0coh, { coreOwn n0coh 0 (coreHead0 70) with addr := 64 }, by decide +kernel⟩,
   ⟨0, coreHead0 0, n0l2 1 true false, n0l2 1 true false, coreOwn n0coh 0 (coreHead0 0), by decide +kernel⟩,
   ⟨0, true, false, false, true, n0coh, by decide +kernel⟩⟩

/-- A FENCE of the mode. -/
def fence (mode : Nat) : Desc := { desc0 with bytes := [0xF0] ++ toLe 1 mode ++ zeros 62 }

/-- `n0r 2` with the version state of region 1. -/
def n0v : State := { setRegion n0t 1 (rgn 2 0 (2 ^ 24)) with ver := { n0.ver with regions := [(1, ver0)] } }

/-- A lease, number 0, of endpoint 5 in state `st`. -/
def n0lease (st : Nat) : State := { n0 with ver := { n0.ver with leases := [(0, { ep := 5, part := 0, st := st, durationMs := 100, deadline := 0, expiredAt := 0 })] } }

/-- That lease. -/
def lease0 (st : Nat) : Lease := { ep := 5, part := 0, st := st, durationMs := 100, deadline := 0, expiredAt := 0 }

/-- Bobbin's queue 0 with one slot submitted at 0. -/
def n0q : State := setQueue (setRegion n0e 1 (rgn 1 0 65536)) (q0 .bobbin) { Queue.reset with en := true, log2n := 4, tail := 1 }

/-- `n0q` with a descriptor of operation 0x10 in memory at 0. -/
def n0qm : State :=
  { setBolt n0q 0 { (getBolt n0q 0) with home := 1 } with mem := [(0, 0x10)] }

/-- The state of an engine's read. -/
def readEnd (s : State) (a n : Nat) (env : List Reply) : State :=
  (engRead s { ownCtx s 2 (mkCid 0 0) with inside := false, env := env } a n).2.2

/-- A message of a member of a group. -/
def fan0 (op : Nat) : FanMsg :=
  { ep := 5, q := q0 .bobbin, pos := 0, holder := 5, member := 1, table := 0, bytes := toLe 1 op ++ zeros 63, idx := [], off := [], wt := [], batch := [], bad := [] }

theorem witness_FencesAndVersionsComplete :
    (∃ (d : DescRef) (x : Desc) (s : State), (readyDesc s d 0xF0 = some x) ∧ (fenceForm x.bytes = true) ∧ (bfld x.bytes 1 1 = 1) ∧ (fenceMet s d x.bytes = true)) ∧
    (∃ (d : DescRef) (x : Desc) (s : State), (readyDesc s d 0xF0 = some x) ∧ (fenceForm x.bytes = true) ∧ (bfld x.bytes 1 1 = 2) ∧ (fenceMet s d x.bytes = true)) ∧
    (∃ (d : DescRef) (x : Desc) (s : State), (readyDesc s d 0xF0 = some x) ∧ (fenceForm x.bytes = true) ∧ (bfld x.bytes 1 1 = 3) ∧ (fenceMet s d x.bytes = true)) ∧
    (∃ (q : QueueId) (x : Desc) (s : State), ((getQueue s q).accepted.find? (fun x => descOp x == 0xF0 && !x.ran && x.phase == 1) = some x) ∧
         (fenceMet s { q := q, pos := x.pos } x.bytes = true)) ∧
    (∃ (d : DescRef) (x : Desc) (s : State), (readyDesc s d 0xF1 = some x) ∧ (flushForm x.bytes = true)) ∧
    (∃ (r : Nat) (s : State), ((getRegion s r).valid = true)) ∧
    (∃ (r : Nat) (v : VerRegion) (x : Held) (s : State), (getVer s r = some v) ∧ ((basteFree (getRegion s r).size v).isSome = true) ∧
         (s.acc.held.find? (fun h => h.why == .baste r) = some x)) ∧
    (∃ (r : Nat) (b : Bytes) (v : VerRegion) (s : State), (b.length = 8) ∧ (verViewOk s r (leNat b) = true) ∧ (getVer s r = some v)) ∧
    (∃ (b : Bytes), (b.length = 2)) ∧
    (∃ (b : Bytes), (b.length = 2) ∧ (leNat b ≤ 4095)) ∧
    (∃ (n : Nat) (l : Lease) (s : State), (sfind s.ver.leases n = some l) ∧ (l.st = 1) ∧ (l.deadline < s.det.now) ∧ (l.ep ≠ endpointId s)) ∧
    (∃ (n : Nat) (l : Lease) (s : State), (sfind s.ver.leases n = some l) ∧ ((l.st = 1 ∨ l.st = 2)) ∧ (l.deadline + msT (num s 0x2510 1) < s.det.now) ∧ (l.ep ≠ endpointId s)) ∧
    (∃ (n : Nat) (l : Lease) (s : State), (sfind s.ver.leases n = some l) ∧ (l.st = 3) ∧ (l.expiredAt + secT (num s 0x2500 4) ≤ s.det.now)) ∧
    (∃ (b : Bytes) (l : Lease) (s : State), (b.length = 2) ∧ (leNat b ≤ 4095) ∧ (sfind s.ver.leases (leNat b) = some l) ∧ ((l.st = 1 ∨ l.st = 2)) ∧ (l.ep ≠ endpointId s)) :=
  ⟨⟨d0 .bobbin, fence 1, accepted .bobbin (fence 1) n0e, by decide +kernel⟩,
   ⟨d0 .shuttle, fence 2, accepted .shuttle (fence 2) n0e, by decide +kernel⟩,
   ⟨d0 .tape, fence 3, accepted .tape (fence 3) n0e, by decide +kernel⟩,
   ⟨q0 .treadle, { fence 3 with phase := 1 }, accepted .treadle { fence 3 with phase := 1 } n0e, by decide +kernel⟩,
   ⟨d0 .bobbin, { desc0 with bytes := [0xF1] ++ zeros 7 ++ zeros 8 ++ toLe 8 64 ++ zeros 40 },
        accepted .bobbin { desc0 with bytes := [0xF1] ++ zeros 7 ++ zeros 8 ++ toLe 8 64 ++ zeros 40 } n0e, by decide +kernel⟩,
   ⟨1, n0v, by decide +kernel⟩,
   ⟨1, ver0, held0 (.baste 1) (.store [1] false) 1, hold [held0 (.baste 1) (.store [1] false) 1] n0v, by decide +kernel⟩,
   ⟨1, toLe 8 65536, ver0, n0v, by decide +kernel⟩,
   ⟨[1, 0], by decide +kernel⟩,
   ⟨toLe 2 4095, by decide +kernel⟩,
   ⟨0, lease0 1, atT 1 (n0lease 1), by decide +kernel⟩,
   ⟨0, lease0 2, atT (secT 100) (n0lease 2), by decide +kernel⟩,
   ⟨0, lease0 3, atT (secT 86400) (n0lease 3), by decide +kernel⟩,
   ⟨[0, 0], lease0 1, n0lease 1, by decide +kernel⟩⟩

theorem witness_QueueCommandsComplete :
    (∃ (q : QueueId) (env : List Reply) (b : Bytes) (u : State) (s : State), ((getQueue s q).en = true) ∧ ((getQueue s q).halted = false) ∧ ((getQueue s q).head ≠ (getQueue s q).tail) ∧
         (q.q < 8) ∧ (partExists s q.part = true) ∧ (blkRun s q.blk = 3) ∧ (draining s q.blk = false) ∧ (blkAccepted s q.blk < acceptMax q.blk) ∧
         (engRead s { ownCtx s (blkCode q.blk + 1) (mkCid q.part 0) with inside := false, env := env } ((getQueue s q).qbase + (getQueue s q).head % 2 ^ (getQueue s q).log2n * 64) 64 = (0, b, u)) ∧ (stoppedAlone s u = none) ∧ (knownOp q.blk (bfld b 0 1) (bfld b 1 1) = true)) ∧
    (∃ (q : QueueId) (env : List Reply) (st : Nat) (b : Bytes) (u : State) (s : State), ((getQueue s q).en = true) ∧ ((getQueue s q).halted = false) ∧
         ((getQueue s q).head ≠ (getQueue s q).tail) ∧ (q.q < 8) ∧ (partExists s q.part = true) ∧ (blkRun s q.blk = 3) ∧ (draining s q.blk = false) ∧
         (blkAccepted s q.blk < acceptMax q.blk) ∧ (st ≠ 0) ∧ (engRead s { ownCtx s (blkCode q.blk + 1) (mkCid q.part 0) with inside := false, env := env } ((getQueue s q).qbase + (getQueue s q).head % 2 ^ (getQueue s q).log2n * 64) 64 = (st, b, u)) ∧ (stoppedAlone s u = none)) ∧
    (∃ (q : QueueId) (e : Bytes) (rest : List Bytes) (s : State), ((getQueue s q).waiting = e :: rest) ∧ ((getQueue s q).cqEn = true) ∧
         (slotDiff (getQueue s q).cqTail (getQueue s q).cqHead < 2 ^ (getQueue s q).cqLog2n)) ∧
    (∃ (d : DescRef) (m : MemberMsg) (x : Desc) (s : State), (findDesc s d = some x) ∧ (x.members.contains m.member = true) ∧
         (isWide d (mergeCode { x with members := x.members.filter (· ≠ m.member), status := firstStatus x.status m.status } m.member m.rcode) = false) ∧
         (isSearch d (mergeCode { x with members := x.members.filter (· ≠ m.member), status := firstStatus x.status m.status } m.member m.rcode) = false)) ∧
    (∃ (d : DescRef) (x : Desc) (s : State), (findDesc s d = some x) ∧ (x.members.isEmpty = false) ∧ (isSearch d x = false) ∧ (x.ranAt + x.ctT ≤ s.det.now)) ∧
    (∃ (d : DescRef) (x : Desc) (s : State), (findDesc s d = some x) ∧ (x.members.isEmpty = false) ∧ (isSearch d x = true) ∧ (x.phase = 2) ∧ (x.ranAt + x.memberT ≤ s.det.now)) ∧
    (∃ (m : FanMsg) (s : State), (m.q.blk = .bobbin) ∧ (bfld m.bytes 0 1 = 0x10) ∧ (draining s .bobbin = false)) ∧
    (∃ (m : FanMsg) (s : State), (knownOp m.q.blk (bfld m.bytes 0 1) (bfld m.bytes 1 1) = true) ∧ (bfld m.bytes 0 1 ≠ 0xF0) ∧ (bfld m.bytes 0 1 ≠ 0xF1) ∧ (draining s m.q.blk = true)) :=
  ⟨⟨q0 .bobbin, [], (engRead n0qm { ownCtx n0qm 2 (mkCid 0 0) with inside := false, env := [] } 0 64).2.1, readEnd n0qm 0 64 [], n0qm, by decide +kernel⟩,
   ⟨q0 .bobbin, [], 1, (engRead (setQueue n0q (q0 .bobbin) { Queue.reset with en := true, log2n := 4, tail := 1, qbase := 5 * 2 ^ 48 }) { ownCtx n0q 2 (mkCid 0 0) with inside := false, env := [] } (5 * 2 ^ 48) 64).2.1, readEnd (setQueue n0q (q0 .bobbin) { Queue.reset with en := true, log2n := 4, tail := 1, qbase := 5 * 2 ^ 48 }) (5 * 2 ^ 48) 64 [], setQueue n0q (q0 .bobbin) { Queue.reset with en := true, log2n := 4, tail := 1, qbase := 5 * 2 ^ 48 }, by decide +kernel⟩,
   ⟨q0 .bobbin, zeros 32, [], setQueue n0e (q0 .bobbin) { Queue.reset with en := true, cqEn := true, waiting := [zeros 32] }, by decide +kernel⟩,
   ⟨d0 .bobbin, { member := 1, status := 0, rcode := 0, result := 0, partials := [], found := [] }, { desc0 with members := [1] }, accepted .bobbin { desc0 with members := [1] } n0e,
        by decide +kernel⟩,
   ⟨d0 .bobbin, { desc0 with members := [1] }, accepted .bobbin { desc0 with members := [1] } n0e, by decide +kernel⟩,
   ⟨d0 .tape, { desc0 with bytes := [0x30] ++ zeros 63, members := [1], phase := 2 }, accepted .tape { desc0 with bytes := [0x30] ++ zeros 63, members := [1], phase := 2 } n0e,
        by decide +kernel⟩,
   ⟨fan0 0x10, n0e, by decide +kernel⟩,
   ⟨fan0 0x11, { n0e with pb := { n0e.pb with drains := [{ block := .bobbin, key := 0, value := .num 0, slot := 16, sid := 1, tag := 0, group := 0, isGroup := false }] } },
        by decide +kernel⟩⟩

/-- A table's descriptor: region 1, 16 rows of 16 values, formats FP32 to INT4, exact accumulation, flags `fl`. -/
def tabBytes (fl : Nat) : Bytes :=
  toLe 2 1 ++ [0] ++ toLe 1 fl ++ [1, 0, 1, 4] ++ toLe 8 16 ++ toLe 2 16 ++ toLe 2 0 ++ toLe 2 16 ++ zeros 2 ++ zeros 4 ++ [0xFF, 0xFF] ++ zeros 2 ++ [1, 16, 1, 0, 0, 0, 0xFF, 0xFF] ++ zeros 24

/-- `n0e` with a table of flags `fl` in state `run`, over region 1, and the version state of that region. -/
def n0b (fl run : Nat) : State :=
  let s := setRegion n0e 1 (rgn 4 0 (2 ^ 24))
  let s := setArrBlob (setArrBlob (setArrNum s 0x2616 0 run) 0x2610 0 (tabBytes fl)) 0x2612 0 (zeros 4)
  { s with ver := { s.ver with regions := [(1, ver0)] } }

/-- A descriptor of Bobbin: the operation, its sub-operation, its flags, table 0, ASID 0, then the rest. -/
def bob (op sub fl : Nat) (rest : Bytes) : Desc := { desc0 with bytes := toLe 1 op ++ toLe 1 sub ++ toLe 2 fl ++ zeros 4 ++ rest ++ zeros (56 - rest.length) }

/-- A LOOKUP of one index in one bag. -/
def lookup0 : Desc := bob 0x10 0 0 (zeros 40 ++ toLe 4 1 ++ toLe 4 1 ++ toLe 4 64)

/-- A TAB_LOAD of row 0 from FP32. -/
def load0 : Desc := bob 0x11 1 0 (zeros 16 ++ toLe 4 1 ++ toLe 4 64)

/-- An ACCUMULATE of one gradient into step 1. -/
def acc0 : Desc := bob 0x21 0 0 (zeros 32 ++ toLe 8 1 ++ toLe 4 1 ++ toLe 4 1 ++ toLe 4 64)

/-- What `bobTake` answers for the descriptor at position 0. -/
def took (s : State) : Nat × Desc × State := ((bobTake s (d0 .bobbin) ((findDesc s (d0 .bobbin)).getD desc0)).getD (0, desc0, s))

/-- A row that moves. -/
def move0 : RowMove := { table := 0, row := 0, fmt := 2, band := 0, bolt := 3, slot := 4, hot := false, deltas := [] }

/-- An open step 1 of table 0. -/
def step0 : Step := { table := 0, step := 1, st := 2, exact_ := true, part := 0, cells := 0, res := [], left := [], rows := [], sealOrd := 0 }

theorem witness_BobbinTablesComplete :
    (∃ (s : State), (blkRun s .bobbin ≠ 0) ∧ (inLimp s = false)) ∧
    (∃ (s : State), (blkRun s .bobbin = 3)) ∧
    (∃ (s : State), (blkRun s .bobbin = 2) ∧ (blkAccepted s .bobbin = 0) ∧ ((blkQueues s .bobbin).all (fun q => q.2.waiting.isEmpty) = true)) ∧
    (∃ (t : Nat) (s : State), (tabRun s t < 2) ∧ (tabStartable s t = true) ∧ (tabMaster s t = true) ∧ (tabVersioned s t = false)) ∧
    (∃ (t : Nat) (s : State), (tabRun s t = 3)) ∧
    (∃ (t : Nat) (s : State), (tabRun s t = 2) ∧ (tabBusy s t = false)) ∧
    (∃ (d : DescRef) (e : Nat) (x : Desc) (s : State), (findDesc s d = some x) ∧ (d.q.blk = .bobbin) ∧ (undealt s (d.q.part % 64) (d.q.q % 16) x = true) ∧ (dealable s d.q.part e = true) ∧
         (dealTurn s d x = true)) ∧
    (∃ (d : DescRef) (x : Desc) (e : Nat) (y : Desc) (u : State) (s : State), (readyDesc s d 0x10 = some x) ∧ (tabDeny s (bfld x.bytes 4 2) x.ord = none) ∧
         (lookupForm s (bfld x.bytes 4 2) x.bytes = true) ∧ (bobTake s d x = some (e, y, u))) ∧
    (∃ (d : DescRef) (x : Desc) (e : Nat) (y : Desc) (u : State) (s : State), (readyDesc s d 0x11 = some x) ∧ (tabDeny s (bfld x.bytes 4 2) x.ord = none) ∧
         (loadForm s (bfld x.bytes 4 2) x.bytes = true) ∧ (bobTake s d x = some (e, y, u))) ∧
    (∃ (d : DescRef) (x : Desc) (e : Nat) (y : Desc) (u : State) (s : State), (readyDesc s d 0x12 = some x) ∧ (tabDeny s (bfld x.bytes 4 2) x.ord = none) ∧ (hotForm x.bytes = true) ∧
         (bobTake s d x = some (e, y, u)) ∧ (hotBefore u (bfld x.bytes 4 2) y.ord = false)) ∧
    (∃ (d : DescRef) (c : Instr) (op : Nat) (x : Desc) (s : State), ((c,
         op) ∈ [(Instr.versionOpenRead d, 1), (.versionCloseRead d, 2), (.versionOpenWork d, 3), (.versionPublish d, 4), (.versionRebase d, 5), (.versionDiscardWork d, 6), (.versionQuery d, 7)]) ∧ (readyDesc s d 0x13 = some x) ∧ (bfld x.bytes 1 1 = op) ∧ (tabDeny s (bfld x.bytes 4 2) x.ord = none) ∧ (versionForm x.bytes = true) ∧ (tabRight s (bfld x.bytes 4 2) (descCtx s d 0 (bfld x.bytes 6 2) false []) (3 ≤ op && op ≤ 6) = true) ∧ (tabVersioned s (bfld x.bytes 4 2) = true) ∧ ((op = 4 → sealBefore s d.q.part (bfld x.bytes 4 2) x.ord = false))) :=
  ⟨⟨n0e, by decide +kernel⟩,
   ⟨n0e, by decide +kernel⟩,
   ⟨setNum n0e (blkIndex .bobbin) 1 2, by decide +kernel⟩,
   ⟨0, n0b 1 0, by decide +kernel⟩,
   ⟨0, n0b 1 3, by decide +kernel⟩,
   ⟨0, n0b 1 2, by decide +kernel⟩,
   ⟨d0 .bobbin, 0, lookup0, accepted .bobbin lookup0 (n0b 1 3), by decide +kernel⟩,
   ⟨d0 .bobbin, lookup0, (took (accepted .bobbin lookup0 (n0b 1 3))).1, (took (accepted .bobbin lookup0 (n0b 1 3))).2.1, (took (accepted .bobbin lookup0 (n0b 1 3))).2.2,
        accepted .bobbin lookup0 (n0b 1 3), by decide +kernel⟩,
   ⟨d0 .bobbin, load0, (took (accepted .bobbin load0 (n0b 1 3))).1, (took (accepted .bobbin load0 (n0b 1 3))).2.1, (took (accepted .bobbin load0 (n0b 1 3))).2.2,
        accepted .bobbin load0 (n0b 1 3), by decide +kernel⟩,
   ⟨d0 .bobbin, (bob 0x12 0 0 []), (took (accepted .bobbin (bob 0x12 0 0 []) (n0b 1 3))).1, (took (accepted .bobbin (bob 0x12 0 0 []) (n0b 1 3))).2.1,
        (took (accepted .bobbin (bob 0x12 0 0 []) (n0b 1 3))).2.2, accepted .bobbin (bob 0x12 0 0 []) (n0b 1 3), by decide +kernel⟩,
   ⟨d0 .bobbin, .versionOpenRead (d0 .bobbin), 1, bob 0x13 1 0 [], accepted .bobbin (bob 0x13 1 0 []) (n0b 3 3), by decide +kernel⟩⟩

theorem witness_BobbinStepsComplete :
    (∃ (s : State), (detMode s ≠ 2) ∧ (s.eng.bob.sweptAt + msT (num s 0x2602 2) ≤ s.det.now)) ∧
    (∃ (t : Nat) (row : Nat) (f : Nat) (u : State) (s : State), (s.eng.bob.queue.find? (fun q => q.1 == t) = some (t, row, f)) ∧ (reencFrozen s = false) ∧ (detMode s ≠ 2) ∧
         (reencBudget s = (true, u))) ∧
    (∃ (t : Nat) (row : Nat) (m : RowMove) (s : State), (findMove s t row = some m)) ∧
    (∃ (t : Nat) (b : Nat) (k : Nat) (s : State), (s.eng.bob.oldRecs.contains (t, b, k) = true) ∧
         ((let u := dropRows s t (b * 65536 + k * 16) (recSize 1 (tabDim s t)); (usedRecs (setBob u { u.eng.bob with oldRecs := u.eng.bob.oldRecs.erase (t, b, k) }) t .head).any (fun r => r.1 == b)) = true)) ∧
    (∃ (d : DescRef) (x : Desc) (e : Nat) (y : Desc) (u : State) (s : State), (readyDesc s d 0x20 = some x) ∧ (tabDeny s (bfld x.bytes 4 2) x.ord = none) ∧
         (stepForm s (bfld x.bytes 4 2) 0x20 x.bytes = true) ∧ (bobTake s d x = some (e, y, u))) ∧
    (∃ (d : DescRef) (x : Desc) (e : Nat) (y : Desc) (u : State) (s : State), (readyDesc s d 0x21 = some x) ∧ (tabDeny s (bfld x.bytes 4 2) x.ord = none) ∧
         (accForm s (bfld x.bytes 4 2) x.bytes = true) ∧ (bobTake s d x = some (e, y, u))) ∧
    (∃ (d : DescRef) (x : Desc) (e : Nat) (y : Desc) (u : State) (s : State), (readyDesc s d 0x22 = some x) ∧ (tabDeny s (bfld x.bytes 4 2) x.ord = none) ∧
         (sealForm s (bfld x.bytes 4 2) x.bytes = true) ∧ (bobTake s d x = some (e, y, u))) ∧
    (∃ (d : DescRef) (x : Desc) (y : Step) (e : Nat) (sel : VerSel) (s : State), (findDesc s d = some x) ∧ (d.q.blk = .bobbin) ∧ (descOp x = 0x22) ∧ (x.phase = 1) ∧ (x.ran = false) ∧
         (x.trap = none) ∧ (2 ≤ blkRun s .bobbin) ∧ (getStep s (bfld x.bytes 4 2) (bfld x.bytes 8 8) = some y) ∧ ((upTo 16).find? (dealable s d.q.part) = some e) ∧
         (sealMay s (bfld x.bytes 4 2) y.step x.ord = true) ∧ (tabSelect s (bfld x.bytes 4 2) (descCtx s d e (bfld x.bytes 6 2) (bit (bfld x.bytes 2 2) 1) []).cid x.holder (bit (bfld x.bytes 2 2) 2) true = (none, sel))) ∧
    (∃ (d : DescRef) (x : Desc) (e : Nat) (y : Desc) (u : State) (s : State), (readyDesc s d 0x23 = some x) ∧ (tabDeny s (bfld x.bytes 4 2) x.ord = none) ∧
         (stepForm s (bfld x.bytes 4 2) 0x23 x.bytes = true) ∧ (bobTake s d x = some (e, y, u))) ∧
    (∃ (bank : Nat), (bank < 16)) :=
  ⟨⟨atT (msT 4000000) (n0b 1 3), by decide +kernel⟩,
   ⟨0, 1, 2, (reencBudget ({ n0b 1 3 with eng := { (n0b 1 3).eng with bob := { (n0b 1 3).eng.bob with queue := [(0, 1, 2)] } } })).2,
        { n0b 1 3 with eng := { (n0b 1 3).eng with bob := { (n0b 1 3).eng.bob with queue := [(0, 1, 2)] } } }, by decide +kernel⟩,
   ⟨0, 0, move0, setBob (n0b 1 3) { (n0b 1 3).eng.bob with moves := [move0] }, by decide +kernel⟩,
   ⟨0, 3, 4, setBob (n0b 1 3) { (n0b 1 3).eng.bob with oldRecs := [(0, 3, 4), (0, 3, 8)] }, by decide +kernel⟩,
   ⟨d0 .bobbin, (bob 0x20 0 0 (toLe 8 1 ++ toLe 4 1)), (took (accepted .bobbin (bob 0x20 0 0 (toLe 8 1 ++ toLe 4 1)) (n0b 1 3))).1,
        (took (accepted .bobbin (bob 0x20 0 0 (toLe 8 1 ++ toLe 4 1)) (n0b 1 3))).2.1, (took (accepted .bobbin (bob 0x20 0 0 (toLe 8 1 ++ toLe 4 1)) (n0b 1 3))).2.2,
        accepted .bobbin (bob 0x20 0 0 (toLe 8 1 ++ toLe 4 1)) (n0b 1 3), by decide +kernel⟩,
   ⟨d0 .bobbin, acc0, (took (accepted .bobbin acc0 (n0b 1 3))).1, (took (accepted .bobbin acc0 (n0b 1 3))).2.1, (took (accepted .bobbin acc0 (n0b 1 3))).2.2,
        accepted .bobbin acc0 (n0b 1 3), by decide +kernel⟩,
   ⟨d0 .bobbin, (bob 0x22 0 0 (toLe 8 1)), (took (accepted .bobbin (bob 0x22 0 0 (toLe 8 1)) (n0b 1 3))).1, (took (accepted .bobbin (bob 0x22 0 0 (toLe 8 1)) (n0b 1 3))).2.1,
        (took (accepted .bobbin (bob 0x22 0 0 (toLe 8 1)) (n0b 1 3))).2.2, accepted .bobbin (bob 0x22 0 0 (toLe 8 1)) (n0b 1 3), by decide +kernel⟩,
   ⟨d0 .bobbin, { bob 0x22 0 0 (toLe 8 1) with phase := 1 }, step0, 0, .head,
        setBob (accepted .bobbin ({ bob 0x22 0 0 (toLe 8 1) with phase := 1 }) (n0b 1 3)) { (n0b 1 3).eng.bob with steps := [step0] }, by decide +kernel⟩,
   ⟨d0 .bobbin, (bob 0x23 0 0 (toLe 8 1)), (took (accepted .bobbin (bob 0x23 0 0 (toLe 8 1)) (n0b 1 3))).1, (took (accepted .bobbin (bob 0x23 0 0 (toLe 8 1)) (n0b 1 3))).2.1,
        (took (accepted .bobbin (bob 0x23 0 0 (toLe 8 1)) (n0b 1 3))).2.2, accepted .bobbin (bob 0x23 0 0 (toLe 8 1)) (n0b 1 3), by decide +kernel⟩,
   ⟨15, by decide +kernel⟩⟩

/-- An index's descriptor: region 1, one list, one-dimensional codes of 8 bits; with a graph or without one. -/
def vecBytes (gr : Nat) : Bytes :=
  toLe 2 1 ++ [0] ++ toLe 1 (2 * gr) ++ [1, 8, 0, 1] ++ toLe 4 1 ++ toLe 4 1 ++ [0xFF, 0xFF, 0] ++ toLe 1 gr ++ toLe 4 1 ++ toLe 2 1 ++ toLe 2 1 ++ toLe 4 1 ++ toLe 2 1 ++ toLe 1 gr ++
    zeros 29

/-- `n0e` with index 0 in state `run` over region 1. -/
def n0x (gr run : Nat) : State :=
  let s := setRegion n0e 1 { rgn 5 0 (2 ^ 24) with tierPolicy := 0x31 }
  let s := setBlob (setBlob (setNum s 0x2713 1 run) 0x2710 1 (vecBytes gr)) 0x2711 1 (zeros 4)
  { s with tier := { s.tier with cellarFitted := List.replicate 32 1 } }

/-- A descriptor of Tape: the operation, its sub-operation, index 0, then the bytes from 8. -/
def tp (op sub : Nat) (rest : Bytes) : Desc := { desc0 with bytes := toLe 1 op ++ toLe 1 sub ++ zeros 6 ++ rest ++ zeros (56 - rest.length) }

/-- `n0x` with the descriptor accepted. -/
def tape0 (gr : Nat) (x : Desc) : State := accepted .tape x (n0x gr 3)

/-- The Tape state given. -/
def withTape (f : TapeState → TapeState) (s : State) : State := setTape s (f s.eng.tape)

/-- A round without queries. -/
def round0 (p : List (Nat × List Nat)) : Round := { index := 0, queries := [], passes := p }

/-- A SEARCH of one query that waits for a round. -/
def search0 (phase : Nat) : Desc := { tp 0x30 0 (zeros 24 ++ toLe 2 1) with phase := phase }

/-- An INSERT of one item. -/
def insert0 : Desc := tp 0x31 0 (zeros 8 ++ toLe 4 1 ++ toLe 4 64)

/-- A DELETE of one item. -/
def delete0 : Desc := tp 0x32 0 (zeros 8 ++ toLe 4 1)

/-- A LIST_LOAD of no items into lane 0. -/
def list0 : Desc := tp 0x33 0 (zeros 16 ++ toLe 4 64)

/-- A merge of list 0. -/
def merge0 : VecMerge := { index := 0, list := 0, lane := 0, first := 0, n := 0, count := 0, oldChain := none32, load := none, since := 0 }

/-- An old version of list 0. -/
def free0 : VecFree := { index := 0, list := 0, lane := 0, first := 0, n := 0, bitmap := none32, pages := 0, chain := none32 }

theorem witness_TapeCommandsComplete :
    (∃ (s : State), (blkRun s .tape ≠ 0) ∧ (inLimp s = false)) ∧
    (∃ (s : State), (blkRun s .tape = 3)) ∧
    (∃ (s : State), (s.eng.tape.rounds.isEmpty = true) ∧ (s.eng.tape.merges.isEmpty = true) ∧ (blkRun s .tape = 2) ∧ (blkAccepted s .tape = 0) ∧
         ((blkQueues s .tape).all (fun q => q.2.waiting.isEmpty) = true)) ∧
    (∃ (x : Nat) (s : State), (vecRun s x < 2) ∧ (vecStartable s x = true)) ∧
    (∃ (x : Nat) (s : State), (vecRun s x = 3)) ∧
    (∃ (d : DescRef) (z : Desc) (s : State), (findDesc s d = some z) ∧ (z.phase = 2) ∧ (z.ran = false) ∧ (z.trap = none) ∧ (z.members = []) ∧ (d.q.blk = .tape) ∧ (descOp z = 0x30)) ∧
    (∃ (index : Nat) (e : DescRef × Desc) (w : List (DescRef × Desc)) (s : State), (roundWaiting s index = e :: w) ∧ ((findRound s index).isSome = false) ∧ (2 ≤ blkRun s .tape) ∧
         (serviceOn s = true) ∧ (num s 0x2700 4 ≤ sumQueries (e :: w)) ∧ ((areasBelow s index).isEmpty = true)) ∧
    (∃ (index : Nat) (e : Nat) (r : Round) (p : Nat × List Nat) (s : State), (findRound s index = some r) ∧ (r.passes.find? (fun p => (vecEnt s index p.1).lane == e) = some p) ∧
         ((areasBelow s index).isEmpty = true) ∧ (tapeOn s e = true)) ∧
    (∃ (index : Nat) (env : List Reply) (r : Round) (u : State) (s : State), (findRound s index = some r) ∧ (r.passes = []) ∧
         (forS (r.queries.map (·.d)).eraseDups (setTape s { s.eng.tape with rounds := s.eng.tape.rounds.filter (fun q => q.index != index) }) (fun s d => searchEnd s index r.queries d env) = u) ∧ (stoppedAlone s u = none)) ∧
    (∃ (d : DescRef) (env : List Reply) (y : Desc) (s : State), (tapeTaken s d 0x31 (insertForm s) y) ∧ (vecRight s (bfld y.bytes 4 2) (searchCtx s d y.bytes env) true = true)) ∧
    (∃ (d : DescRef) (env : List Reply) (y : Desc) (l : List (Nat × Nat × Nat)) (u : State) (s : State), (tapeTaken s d 0x32 (fun _ b => deleteForm b) y) ∧
         (vecRight s (bfld y.bytes 4 2) (searchCtx s d y.bytes env) true = true) ∧ (deleteRecords s (searchCtx s d y.bytes env) y.bytes = (l, u)) ∧ (stopped s u d = none) ∧
         (l.any (fun q => decide (q.2.1 < vecNlist s (bfld y.bytes 4 2)) && (vecEnt s (bfld y.bytes 4 2) q.2.1).state == 2) = false)) ∧
    (∃ (d : DescRef) (env : List Reply) (y : Desc) (items : List VecItem) (u : State) (v : State) (z : Desc) (s : State), (tapeTaken s d 0x33 (loadListForm s) y) ∧
         (vecRight s (bfld y.bytes 4 2) (searchCtx s d y.bytes env) true = true) ∧ (bfld y.bytes 0x1C 1 ≠ 0xFF) ∧
         (s.eng.tape.merges.any (fun m => m.index == bfld y.bytes 4 2 && m.list == bfld y.bytes 0x10 4) = false) ∧ ((laneIdle s (bfld y.bytes 0x1C 1) = true ∧
         tapeOn s (bfld y.bytes 0x1C 1) = true)) ∧ (loadItems s (searchCtx s d y.bytes env) y.bytes (vecCb s (bfld y.bytes 4 2)) = (items, 0, u)) ∧ (stopped s u d = none) ∧
         (beginVersion u (bfld y.bytes 4 2) (bfld y.bytes 0x10 4) (bfld y.bytes 0x1C 1) items (some d) = some v) ∧ (findDesc v d = some z)) ∧
    (∃ (d : DescRef) (env : List Reply) (y : Desc) (s : State), (tapeTaken s d 0x34 (areaForm s) y) ∧ (vecRight s (bfld y.bytes 4 2) (searchCtx s d y.bytes env) true = true) ∧
         (bfld y.bytes 1 1 = 3)) ∧
    (∃ (d : DescRef) (y : Desc) (z : Desc) (s : State), (tapeTaken s d 0x35 (mergeForm s) y) ∧ (vecRight s (bfld y.bytes 4 2) (searchCtx s d y.bytes []) true = true) ∧
         (bfld y.bytes 0x10 4 ≠ 1) ∧ (s.eng.tape.mergeQ.contains (bfld y.bytes 4 2, bfld y.bytes 8 4) = false) ∧
         (findDesc (setTape s { s.eng.tape with mergeQ := s.eng.tape.mergeQ ++ [(bfld y.bytes 4 2, bfld y.bytes 8 4)] }) d = some z)) ∧
    (∃ (e : Nat) (x : Nat) (l : Nat) (u : State) (s : State), (tapeOn s e = true) ∧ (laneIdle s e = true) ∧ (2 ≤ blkRun s .tape) ∧
         (s.eng.tape.mergeQ.find? (fun q => (vecEnt s q.1 q.2).lane == e && vecRunRaw s q.1 != 0 && (vecEnt s q.1 q.2).state != 2) = some (x, l)) ∧
         (beginVersion s x l e (mergeItems s x l) none = some u)) ∧
    (∃ (x : Nat) (l : Nat) (m : VecMerge) (s : State), (s.eng.tape.merges.find? (fun m => m.index == x && m.list == l) = some m) ∧ (m.load = none)) ∧
    (∃ (x : Nat) (l : Nat) (f : VecFree) (s : State), (s.eng.tape.frees.find? (fun f => f.index == x && f.list == l) = some f)) ∧
    (∃ (d : DescRef) (y : Desc) (s : State), (findDesc s d = some y) ∧ (bfld y.bytes 1 1 = 1) ∧ (tapeTaken s d 0x36 (editForm s) y) ∧
         (vecRight s (bfld y.bytes 4 2) (searchCtx s d y.bytes []) true = true) ∧ (bfld y.bytes 8 3 < vecNlist s (bfld y.bytes 4 2))) ∧
    (∃ (d : DescRef) (env : List Reply) (y : Desc) (s : State), (findDesc s d = some y) ∧ (bfld y.bytes 1 1 = 2) ∧ (tapeTaken s d 0x36 (editForm s) y) ∧
         (vecRight s (bfld y.bytes 4 2) (searchCtx s d y.bytes env) true = true) ∧ (bfld y.bytes 8 3 < vecNlist s (bfld y.bytes 4 2))) ∧
    (∃ (d : DescRef) (env : List Reply) (y : Desc) (s : State), (findDesc s d = some y) ∧ (bfld y.bytes 1 1 = 3) ∧ (tapeTaken s d 0x36 (editForm s) y) ∧
         (vecRight s (bfld y.bytes 4 2) (searchCtx s d y.bytes env) true = true) ∧ (bfld y.bytes 8 3 < vecNlist s (bfld y.bytes 4 2))) :=
  ⟨⟨n0e, by decide +kernel⟩,
   ⟨n0e, by decide +kernel⟩,
   ⟨setNum n0e (blkIndex .tape) 1 2, by decide +kernel⟩,
   ⟨0, n0x 0 0, by decide +kernel⟩,
   ⟨0, n0x 0 3, by decide +kernel⟩,
   ⟨d0 .tape, search0 2, tape0 0 (search0 2), by decide +kernel⟩,
   ⟨0, (d0 .tape, search0 1), [], setNum (tape0 0 (search0 1)) 0x2700 4 1, by decide +kernel⟩,
   ⟨0, 0, round0 [(0, [])], (0, []), withTape (fun t => { t with rounds := [round0 [(0, [])]] }) (n0x 0 3), by decide +kernel⟩,
   ⟨0, [], round0 [], setTape (withTape (fun t => { t with rounds := [round0 []] }) (n0x 0 3)) { (withTape (fun t => { t with rounds := [round0 []] }) (n0x 0 3)).eng.tape with rounds := [] }, withTape (fun t => { t with rounds := [round0 []] }) (n0x 0 3), by decide +kernel⟩,
   ⟨d0 .tape, [], insert0, tape0 0 insert0, by decide +kernel⟩,
   ⟨d0 .tape, [], delete0, (deleteRecords (tape0 0 delete0) (searchCtx (tape0 0 delete0) (d0 .tape) delete0.bytes []) delete0.bytes).1,
        (deleteRecords (tape0 0 delete0) (searchCtx (tape0 0 delete0) (d0 .tape) delete0.bytes []) delete0.bytes).2, tape0 0 delete0, by decide +kernel⟩,
   ⟨d0 .tape, [], list0, [], (loadItems (tape0 0 list0) (searchCtx (tape0 0 list0) (d0 .tape) list0.bytes []) list0.bytes 1).2.2,
        ((beginVersion (loadItems (tape0 0 list0) (searchCtx (tape0 0 list0) (d0 .tape) list0.bytes []) list0.bytes 1).2.2 0 0 0 [] (some (d0 .tape))).getD n0), list0, tape0 0 list0,
        by decide +kernel⟩,
   ⟨d0 .tape, [], tp 0x34 3 [], tape0 0 (tp 0x34 3 []), by decide +kernel⟩,
   ⟨d0 .tape, tp 0x35 0 [], tp 0x35 0 [], tape0 0 (tp 0x35 0 []), by decide +kernel⟩,
   ⟨0, 0, 0, ((beginVersion (withTape (fun t => { t with mergeQ := [(0, 0)] }) (n0x 0 3)) 0 0 0 (mergeItems (withTape (fun t => { t with mergeQ := [(0, 0)] }) (n0x 0 3)) 0 0) none).getD n0), withTape (fun t => { t with mergeQ := [(0, 0)] }) (n0x 0 3), by decide +kernel⟩,
   ⟨0, 0, merge0, withTape (fun t => { t with merges := [merge0] }) (n0x 0 3), by decide +kernel⟩,
   ⟨0, 0, free0, withTape (fun t => { t with frees := [free0] }) (n0x 0 3), by decide +kernel⟩,
   ⟨d0 .tape, tp 0x36 1 [], tape0 1 (tp 0x36 1 []), by decide +kernel⟩,
   ⟨d0 .tape, [], tp 0x36 2 [], tape0 1 (tp 0x36 2 []), by decide +kernel⟩,
   ⟨d0 .tape, [], tp 0x36 3 [], tape0 1 (tp 0x36 3 []), by decide +kernel⟩⟩

/-- A LAUNCH descriptor: all arrays, the image at 0; the flag word and the phase. -/
def launch0 (fl phase : Nat) : Desc := { desc0 with bytes := [0x40, 1] ++ toLe 2 fl ++ zeros 60, phase := phase }

/-- The header of an image of one part, and its part table. -/
def header0 : Bytes := toLe 4 0x48435453 ++ [1, 1] ++ zeros 26 ++ toLe 4 128 ++ toLe 4 1 ++ zeros 88

/-- `n0e` with an image at 0 and the LAUNCH accepted. -/
def n0l (x : Desc) : State := accepted .treadle x { setBolt (setRegion n0e 1 (rgn 1 0 65536)) 0 { (getBolt n0e 0) with home := 1 } with mem := memWrite [] 0 header0 }

/-- A launch of one part of one instruction. -/
def run0 (w : Nat) (started ended : Bool) : Launch :=
  { d := d0 .treadle, cid := 0, arrays := [0], image := [[(w, 0)]], addr := 0, id := 0, independent := false,
    parts := [(0, { array := 0, ended := ended, base := 0, done := [], counters := [], storing := [], raced := [] })], counters := [], cycles := 0,
    vcount := 0, started := started, late := false, expired := false, startedAt := 0 }

/-- `n0l` with the launch picked, and its instruction in array 0. -/
def n0p (x : Desc) (l : Launch) : State :=
  let s := n0l x
  setTd s { s.eng.td with launches := [l], arrays := [(0, { TdArray.reset with code := some { tag := 0, addr := 0, id := 0, part := 0, code := [(((l.image.getD 0 []).getD 0 (0, 0)))] } })] }

/-- A running launch whose next instruction is `w`. -/
def n0i1 (w : Nat) : State := n0p (launch0 0 3) (run0 w true false)

/-- The state and the job with which that instruction executes. -/
def next0 (w cls op : Nat) : State × TdJob := (tdNext (n0i1 w) 0 cls op).getD (n0,
     { l := run0 0 true false, p := 0, run := { array := 0, ended := false, base := 0, done := [], counters := [], storing := [], raced := [] }, idx := 0, w := (0, 0), racing := [], mixing := [] })

theorem witness_TreadleLaunchComplete :
    (∃ (s : State), (blkRun s .treadle ≠ 0) ∧ (inLimp s = false)) ∧
    (∃ (s : State), (blkRun s .treadle = 3)) ∧
    (∃ (s : State), (blkRun s .treadle = 2) ∧ (blkAccepted s .treadle = 0) ∧ ((blkQueues s .treadle).all (fun q => q.2.waiting.isEmpty) = true)) ∧
    (∃ (d : DescRef) (env : List Reply) (x : Desc) (st : Nat) (b : Bytes) (u : State) (s : State), (readyDesc s d 0x40 = some x) ∧ (d.q.blk = .treadle) ∧ (lnBad x.bytes = false) ∧
         ((upTo 8).any (fun a => bit (lnArrays x.bytes) a && bit s.sec.hem.treadleDisabled a) = false) ∧ (readHeader s d x.bytes env = (st, b, u)) ∧ (stopped s u d = none) ∧
         ((hdrOk b = true → hdrNeed b ≤ (mayUse (unstall u d) d x.bytes).length))) ∧
    (∃ (d : DescRef) (env : List Reply) (x : Desc) (st : Nat) (b : Bytes) (u : State) (l : Launch) (s : State), (mayStart s d = some x) ∧ (d.q.blk = .treadle) ∧ (2 ≤ blkRun s .treadle) ∧
         (descOp x = 0x40) ∧ (findLaunch s d = none) ∧ (x.phase = 1) ∧ (earlierWaits s d x = false) ∧ (turnOf s.eng.td.dealt (pnum s 0x4801) d.q.part (pickRivals s d.q.part) = true) ∧
         (readHeader s d x.bytes env = (st, b, u)) ∧ (stopped s u d = none) ∧ (hdrZero b = false) ∧ (hdrOk b = true) ∧
         (l = reserveArrays (launchStatus (unstall u d) d st) (newLaunch d x.bytes) x.bytes (hdrParts b)) ∧ (hdrNeed b ≤ l.arrays.length)) ∧
    (∃ (d : DescRef) (l : Launch) (x : Desc) (s : State), (findLaunch s d = some l) ∧ (findDesc s d = some x) ∧ (x.phase = 2) ∧ (l.started = false) ∧ (lnSync x.bytes = true) ∧
         (lnStart x.bytes ≤ s.det.count)) ∧
    (∃ (d : DescRef) (l : Launch) (x : Desc) (s : State), (findLaunch s d = some l) ∧ (findDesc s d = some x) ∧ (l.started = true) ∧ (l.expired = false) ∧ (partsEnded l = true) ∧
         (x.ran = false)) ∧
    (∃ (d : DescRef) (l : Launch) (x : Desc) (s : State), (findLaunch s d = some l) ∧ (findDesc s d = some x) ∧ (l.started = true) ∧ (x.ran = false) ∧ (x.fault = none) ∧
         (partsEnded l = false) ∧ (l.startedAt + usT (watchdogUs s x.bytes) + x.pausedT ≤ s.det.now)) :=
  ⟨⟨n0e, by decide +kernel⟩,
   ⟨n0e, by decide +kernel⟩,
   ⟨setNum n0e (blkIndex .treadle) 1 2, by decide +kernel⟩,
   ⟨d0 .treadle, [], launch0 0 0, 0, (readHeader (n0l (launch0 0 0)) (d0 .treadle) (launch0 0 0).bytes []).2.1, (readHeader (n0l (launch0 0 0)) (d0 .treadle) (launch0 0 0).bytes []).2.2,
        n0l (launch0 0 0), by decide +kernel⟩,
   ⟨d0 .treadle, [], launch0 0 1, 0, (readHeader (n0l (launch0 0 1)) (d0 .treadle) (launch0 0 1).bytes []).2.1, (readHeader (n0l (launch0 0 1)) (d0 .treadle) (launch0 0 1).bytes []).2.2,
        reserveArrays (launchStatus (unstall (readHeader (n0l (launch0 0 1)) (d0 .treadle) (launch0 0 1).bytes []).2.2 (d0 .treadle)) (d0 .treadle) 0) (newLaunch (d0 .treadle) (launch0 0 1).bytes) (launch0 0 1).bytes (hdrParts (readHeader (n0l (launch0 0 1)) (d0 .treadle) (launch0 0 1).bytes []).2.1), n0l (launch0 0 1), by decide +kernel⟩,
   ⟨d0 .treadle, run0 7 false false, launch0 2 2, n0p (launch0 2 2) (run0 7 false false), by decide +kernel⟩,
   ⟨d0 .treadle, run0 7 true true, launch0 0 3, n0p (launch0 0 3) (run0 7 true true), by decide +kernel⟩,
   ⟨d0 .treadle, run0 7 true false, launch0 0 3, atT (secT 1000000) (n0p (launch0 0 3) (run0 7 true false)), by decide +kernel⟩⟩

theorem witness_TreadleInstructionsComplete :
    (∃ (a : Nat) (c : Instr) (cls : Nat) (op : Nat) (f : State → TdJob → Bool × State) (u : State) (j : TdJob) (t : State) (s : State), ((c, cls, op,
         f) ∈ ([(.tdMma a, 1, 0, tdMma false), (.tdMmaZero a, 1, 1, tdMma true), (.tdAccZero a, 2, 0, tdAccZero), (.tdAccCopy a, 2, 1, tdAccCopy), (.tdAccAdd a, 2, 2, tdAccAdd), (.tdAccLoad a, 2, 3, tdAccLoad), (.tdPull a, 2, 4, tdAccPull), (.tdCvt a, 3, 0, tdCvt), (.tdMuls a, 3, 1, fun s j => tdMapBank (fun _ _ x => f32mul x (tiImm j.w)) s j), (.tdAdds a, 3, 2, fun s j => tdMapBank (fun _ _ x => f32add x (tiImm j.w)) s j), (.tdRelu a, 3, 3, tdMapBank (fun _ _ x => reluWord x)), (.tdGelu a, 3, 4, tdMapBank (fun _ _ x => tdGelu x)), (.tdExp a, 3, 5, tdMapBank (fun _ _ x => tdExp x)), (.tdRmax a, 3, 6, tdReduce false), (.tdRsum a, 3, 7, tdReduce true), (.tdSubr a, 3, 8, tdMapVec (fun i _ x v => f32sub x (v i))), (.tdDivr a, 3, 9, tdMapVec (fun i _ x v => f32div x (v i))), (.tdAddv a, 3, 10, tdMapVec (fun _ k x v => f32add x (v k))), (.tdMulv a, 3, 11, tdMapVec (fun _ k x v => f32mul x (v k))), (.tdVload a, 3, 12, tdVload), (.tdItof a, 3, 13, tdMapBank (fun _ _ x => f32ofInt (toSigned 32 x))), (.tdWaitLocal a, 5, 0, tdWaitLocal), (.tdWaitLaunch a, 5, 1, tdWaitLaunch), (.tdSignalLaunch a, 6, 0, tdSignalLaunch)] : List (Instr × Nat × Nat × (State → TdJob → Bool × State)))) ∧ (tdIssues s a cls op u j) ∧ (f u j = (true, t)) ∧ (engStopped t = false)) ∧
    (∃ (a : Nat) (arrivals : List Nat) (u : State) (j : TdJob) (t : State) (s : State), (tdIssues s a 2 5 u j) ∧ (tdAccPullAny arrivals u j = (true, t)) ∧ (engStopped t = false)) ∧
    (∃ (a : Nat) (env : List Reply) (c : Instr) (cls : Nat) (op : Nat) (f : State → TdJob → Bool × State) (x : Desc) (u : State) (j : TdJob) (t : State) (s : State), ((c, cls, op,
         f) ∈ ([(.tdLoadTile a env, 0, 0, tdLoad env), (.tdLoadScale a env, 0, 1, tdLoad env), (.tdStoreTile a, 4, 0, tdStore), (.tdStoreScale a, 4, 1, tdStore), (.tdWaitMem a env, 5, 2, tdWaitMem env), (.tdSignalStore a, 6, 1, tdSignalMem false), (.tdSignalAdd a, 6, 2, tdSignalMem true)] : List (Instr × Nat × Nat × (State → TdJob → Bool × State)))) ∧ (tdIssues s a cls op u j) ∧ (findDesc u j.l.d = some x) ∧ (x.trap = none) ∧ (x.heldEnd = none) ∧ (f u j = (true, t)) ∧ (engStopped t = false)) ∧
    (∃ (a : Nat) (l : Launch) (u : State) (v : State) (j : TdJob) (s : State), (tdIssues s a 7 0 u j) ∧ (tdEarlierDone u j = true) ∧
         (countCycles (setRun u j.l.d j.p { curRun u j with ended := true }) j.l.d a = v) ∧ (findLaunch v j.l.d = some l) ∧
         (engStopped (setLaunch (dealParts v l).2 (dealParts v l).1) = false)) :=
  ⟨⟨0, .tdWaitLocal 0, 5, 0, tdWaitLocal, (next0 5 5 0).1, (next0 5 5 0).2, (next0 5 5 0).1, n0i1 5, ⟨(by repeat (first | exact List.Mem.head _ | apply List.Mem.tail)),
       by decide +kernel, by decide +kernel, by decide +kernel⟩⟩,
   ⟨0, [], (next0 0x52 2 5).1, (next0 0x52 2 5).2, (tdAccPullAny [] (next0 0x52 2 5).1 (next0 0x52 2 5).2).2, n0i1 0x52, ⟨by decide +kernel, fst_true (by decide +kernel),
        by decide +kernel⟩⟩,
   ⟨0, [], .tdSignalStore 0, 6, 1, tdSignalMem false, launch0 0 3, (next0 0x16 6 1).1, (next0 0x16 6 1).2, (tdSignalMem false (next0 0x16 6 1).1 (next0 0x16 6 1).2).2, n0i1 0x16,
        ⟨(by repeat (first | exact List.Mem.head _ | apply List.Mem.tail)), by decide +kernel, by decide +kernel, by decide +kernel, by decide +kernel, by decide +kernel,
        by decide +kernel⟩⟩,
   ⟨0, (findLaunch (countCycles (setRun (next0 7 7 0).1 (next0 7 7 0).2.l.d (next0 7 7 0).2.p { curRun (next0 7 7 0).1 (next0 7 7 0).2 with ended := true }) (next0 7 7 0).2.l.d 0) (d0 .treadle)).getD (run0 7 true false), (next0 7 7 0).1, (countCycles (setRun (next0 7 7 0).1 (next0 7 7 0).2.l.d (next0 7 7 0).2.p { curRun (next0 7 7 0).1 (next0 7 7 0).2 with ended := true }) (next0 7 7 0).2.l.d 0), (next0 7 7 0).2, n0i1 7, ⟨by decide +kernel, by decide +kernel, rfl, some_getD (by decide +kernel), by decide +kernel⟩⟩⟩

/-- A descriptor of Shuttle: the operation, its type, flags, bytes 4 and 5, then the bytes from 8. -/
def sh (op ty fl k : Nat) (rest : Bytes) : Desc := { desc0 with bytes := toLe 1 op ++ toLe 1 ty ++ toLe 2 fl ++ toLe 2 k ++ zeros 2 ++ rest ++ zeros (56 - rest.length) }

/-- Its piece 0 has been dealt to engine 0. -/
def dealt0 (x : Desc) : Desc := { x with dealt := [(0, 0)] }

/-- A COPY, MCAST or REDUCE of 64 bytes. -/
def piece0 (op k : Nat) : Desc := sh op 0 0 k (zeros 16 ++ toLe 8 64)

/-- A REDUCE by a tree of one rank. -/
def tree0 (phase : Nat) : Desc := { dealt0 (sh 0x52 0 4 256 (zeros 16 ++ toLe 8 64)) with phase := phase }

/-- A WAIT for 1 at 0. -/
def wait0 (phase : Nat) : Desc := { sh 0x53 0 0 0 (zeros 8 ++ toLe 8 1) with phase := phase, waitT := 5 }

/-- The descriptor of a barrier of one rank. -/
def barBytes : Bytes := zeros 2 ++ toLe 2 1 ++ toLe 2 0xFFFF ++ toLe 2 1 ++ zeros 8 ++ toLe 4 10 ++ zeros 12

/-- `n0r 1` with barrier 0 in state `run`. -/
def n0bar (run : Nat) : State := setArrNum (setArrBlob (setArrBlob (n0r 1) 0x2930 0 barBytes) 0x2932 0 (zeros 2)) 0x2936 0 run

/-- An arrival count of 1 that is due. -/
def due0 : ArrDue := { dest := 0, addr := 0, cid := 0, unit := 0, due := 1, since := 0, vpn := none }

theorem witness_ShuttleCommandsComplete :
    (∃ (s : State), (blkRun s .shuttle ≠ 0) ∧ (inLimp s = false)) ∧
    (∃ (s : State), (blkRun s .shuttle = 3)) ∧
    (∃ (s : State), (blkRun s .shuttle = 2) ∧ (blkAccepted s .shuttle = 0) ∧ ((blkQueues s .shuttle).all (fun q => q.2.waiting.isEmpty) = true)) ∧
    (∃ (d : DescRef) (e : Nat) (x : Desc) (s : State), (mayStart s d = some x) ∧ (d.q.blk = .shuttle) ∧ (2 ≤ blkRun s .shuttle) ∧ (pieceless x = false) ∧ (x.dealt.length < shPieces x) ∧
         (earlierPieces s d.q.part x = false) ∧ (shEngineOn s e = true) ∧ (bit (pnum s 0x4900 d.q.part) e = true) ∧ (shContexts s e < 4096) ∧
         (turnOf s.eng.shDealt (pnum s 0x4901) d.q.part (pieceRivals s d.q.part) = true)) ∧
    (∃ (d : DescRef) (p : Nat) (x : Desc) (e : Nat) (s : State), (shReady s d 0x50 = some x) ∧ (copyBad x.bytes = false) ∧ (dealtPiece s x p = some e)) ∧
    (∃ (d : DescRef) (p : Nat) (x : Desc) (e : Nat) (s : State), (shReady s d 0x51 = some x) ∧ (copyBad x.bytes = false) ∧ (x.group.isEmpty = false) ∧ (dealtPiece s x p = some e)) ∧
    (∃ (d : DescRef) (p : Nat) (x : Desc) (e : Nat) (s : State), (shReady s d 0x52 = some x) ∧ (reduceDescBad x.bytes = false) ∧ (cpTree x.bytes = false) ∧ (reduceV x.bytes = false) ∧
         (dealtPiece s x p = some e)) ∧
    (∃ (d : DescRef) (x : Desc) (e : Nat) (s : State), (shReady s d 0x52 = some x) ∧ (reduceDescBad x.bytes = false) ∧ (cpTree x.bytes = true) ∧ (x.phase = 0) ∧
         (dealtPiece s x 0 = some e)) ∧
    (∃ (d : DescRef) (x : Desc) (e : Nat) (s : State), (shReady s d 0x52 = some x) ∧ (dealtPiece s x 0 = some e) ∧ (x.phase = 1)) ∧
    (∃ (d : DescRef) (x : Desc) (s : State), (shReady s d 0x52 = some x) ∧ (x.phase = 1) ∧ (x.doneP.isEmpty = true) ∧ (x.ranAt + x.stageT ≤ s.det.now)) ∧
    (∃ (d : DescRef) (x : Desc) (s : State), (shReady s d 0x53 = some x) ∧ (waitBad x.bytes = false) ∧ (x.phase = 0)) ∧
    (∃ (d : DescRef) (x : Desc) (s : State), (shReady s d 0x53 = some x) ∧ (x.phase = 1) ∧ (x.ranAt + waitBound x ≤ s.det.now)) ∧
    (∃ (d : DescRef) (dest : Nat) (x : Desc) (a : ArrDue) (s : State), (findDesc s d = some x) ∧ (x.arr.find? (fun a => a.dest == dest) = some a) ∧ (a.since + usT 2 ≤ s.det.now) ∧
         (0 < a.due ∧ a.due < 65536)) ∧
    (∃ (g : Nat) (v : Bytes), (g < 256) ∧ (v.length = 144) ∧ (1 ≤ bfld v 8 1) ∧ (bfld v 8 1 ≤ 64) ∧ (bfld v 9 7 = 0) ∧
         ((((upTo (bfld v 8 1)).map (fun k => bfld v (16 + 2 * k) 2)).eraseDups).length = bfld v 8 1) ∧ ((v.drop (16 + 2 * bfld v 8 1)).any (fun y => y != 0) = false)) ∧
    (∃ (b : Nat) (s : State), (b < 256) ∧ (barRunning s b = false) ∧ (barStartOk s b = true)) ∧
    (∃ (b : Nat) (s : State), (b < 256) ∧ (barRunning s b = true)) ∧
    (∃ (b : Nat) (s : State), (b < 256) ∧ (barRunning s b = true) ∧ (barTimeout s b ≠ 0) ∧ ((getBar s b).timedOut = false) ∧ ((getBar s b).openedAt + msT (barTimeout s b) ≤ s.det.now)) :=
  ⟨⟨n0e, by decide +kernel⟩,
   ⟨n0e, by decide +kernel⟩,
   ⟨setNum n0e (blkIndex .shuttle) 1 2, by decide +kernel⟩,
   ⟨d0 .shuttle, 0, piece0 0x50 0, accepted .shuttle (piece0 0x50 0) n0e, by decide +kernel⟩,
   ⟨d0 .shuttle, 0, dealt0 (piece0 0x50 0), 0, accepted .shuttle (dealt0 (piece0 0x50 0)) n0e, by decide +kernel⟩,
   ⟨d0 .shuttle, 0, { dealt0 (piece0 0x51 0) with group := [1] }, 0, accepted .shuttle ({ dealt0 (piece0 0x51 0) with group := [1] }) n0e, by decide +kernel⟩,
   ⟨d0 .shuttle, 0, dealt0 (piece0 0x52 0), 0, accepted .shuttle (dealt0 (piece0 0x52 0)) n0e, by decide +kernel⟩,
   ⟨d0 .shuttle, tree0 0, 0, accepted .shuttle (tree0 0) n0e, by decide +kernel⟩,
   ⟨d0 .shuttle, tree0 1, 0, accepted .shuttle (tree0 1) n0e, by decide +kernel⟩,
   ⟨d0 .shuttle, tree0 1, accepted .shuttle (tree0 1) n0e, by decide +kernel⟩,
   ⟨d0 .shuttle, wait0 0, accepted .shuttle (wait0 0) n0e, by decide +kernel⟩,
   ⟨d0 .shuttle, wait0 1, atT 5 (accepted .shuttle (wait0 1) n0e), by decide +kernel⟩,
   ⟨d0 .shuttle, 0, { piece0 0x50 0 with arr := [due0] }, due0, atT (usT 2) (accepted .shuttle ({ piece0 0x50 0 with arr := [due0] }) n0e), by decide +kernel⟩,
   ⟨255, zeros 8 ++ [64] ++ zeros 7 ++ (upTo 64).flatMap (fun k => toLe 2 k), by decide +kernel⟩,
   ⟨0, n0bar 0, by decide +kernel⟩,
   ⟨0, n0bar 3, by decide +kernel⟩,
   ⟨0, atT (msT 10) (n0bar 3), by decide +kernel⟩⟩

/-- A link header that acknowledges nothing. -/
def link0 : LinkHdr := { authOk := true, ack := 0, ackV := false, nak := false, credits := [] }

/-- A key exchange that has sent its part 1 at 0. -/
def key0 : KeyEx := { priv := 1, mine := [], theirs := none, sentAt := 0 }

/-- A link key under which `n` flits have been counted. -/
def lkey (n : Nat) : LinkKey := { id := 0, gen := 0, count := n, madeAt := 0, key := zeros 32, salt := zeros 12 }

/-- A DATA flit that nothing verifies. -/
def flit0 : RxFlit := { raw := zeros 256, key := 0, plain := [] }

/-- A request that went out on port 0 under tag 0. -/
def out0 : Issued := issued0 (.load 8)

theorem witness_PortBringUpComplete :
    (∃ (s : State), (num s 0x2200 2 = 1) ∧ (s.pwr.sledGone = false)) ∧
    (∃ (s : State), (num s 0x2100 1 = 3)) ∧
    (∃ (v : Bytes) (s : State), (v.length = 2) ∧ (portsRun s < 2)) ∧
    (∃ (p : Nat) (s : State), (p < 32) ∧ (mayAttach s p = true)) ∧
    (∃ (p : Nat) (s : State), (p < 32) ∧ (s.coh.agents.any (fun e => e.2.v && e.2.port == p) = false) ∧ (portCompat s p = false) ∧ ((portState s p = 7 ∨ portState s p = 8))) ∧
    (∃ (p : Nat), (p < 32)) ∧
    (∃ (p : Nat) (s : State), (p < 32) ∧ (portState s p ≠ 0) ∧ (portState s p ≠ 1) ∧ (portState s p ≠ 10)) ∧
    (∃ (p : Nat) (s : State), (p < 32) ∧ (num s 0x2105 (p + 1) = 1) ∧ (mayAttach s p = true) ∧ (reattachQueued s p = false) ∧ ((getPort s p).pollAt + msT (num s 0x2100 10) ≤ s.det.now)) ∧
    (∃ (p : Nat) (lanes : Nat) (s : State), (p < 32) ∧ ((getPort s p).stage = 2) ∧ (portState s p = 2) ∧ ((fld lanes 0 4 = 15 ∨ fld lanes 4 4 = 15))) ∧
    (∃ (p : Nat) (s : State), (p < 32) ∧ ((getPort s p).stage = 3) ∧ ((portState s p = 3 ∨ portState s p = 8))) ∧
    (∃ (p : Nat) (s : State), (p < 32) ∧ (portState s p = 3) ∧ ((getPort s p).since + msT 4 ≤ s.det.now)) ∧
    (∃ (p : Nat) (s : State), (p < 32) ∧ (portState s p = 4) ∧ ((getPort s p).since + msT 30 ≤ s.det.now)) ∧
    (∃ (p : Nat) (s : State), (p < 32) ∧ ((getPort s p).stage = 4) ∧ (portState s p = 4) ∧ ((getPort s p).phase < 3)) ∧
    (∃ (p : Nat) (good : Nat) (pg : Nat) (s : State), (p < 32) ∧ ((getPort s p).stage = 4) ∧ (portState s p = 4) ∧ (3 ≤ (getPort s p).phase) ∧ (widthOf (good.land pg) ≠ 0)) ∧
    (∃ (p : Nat) (s : State), (p < 32) ∧ (portState s p = 5) ∧ ((getPort s p).since + msT 1 ≤ s.det.now)) ∧
    (∃ (p : Nat) (k : KeyEx) (s : State), ((getPort s p).keyEx = some k) ∧ (portState s p = 6) ∧ (k.sentAt + usT 10 ≤ s.det.now)) ∧
    (∃ (p : Nat) (s : State), (p < 32) ∧ (portState s p = 6) ∧ ((getPort s p).since + msT 50 ≤ s.det.now)) :=
  ⟨⟨setNum (n0f 1) 0x2200 2 1, by decide +kernel⟩,
   ⟨n0f 7, by decide +kernel⟩,
   ⟨[1, 0], setNum (n0f 1) 0x2100 1 1, by decide +kernel⟩,
   ⟨0, n0f 1, by decide +kernel⟩,
   ⟨0, n0f 8, by decide +kernel⟩,
   ⟨31, by decide +kernel⟩,
   ⟨0, n0f 7, by decide +kernel⟩,
   ⟨0, atT (msT 100000) (setNum (n0f 10) 0x2105 1 1), by decide +kernel⟩,
   ⟨0, 0xF0, port0 (fun x => { x with stage := 2 }) (n0f 2), by decide +kernel⟩,
   ⟨0, port0 (fun x => { x with stage := 3 }) (n0f 3), by decide +kernel⟩,
   ⟨0, atT (msT 4) (n0f 3), by decide +kernel⟩,
   ⟨0, atT (msT 30) (n0f 4), by decide +kernel⟩,
   ⟨0, port0 (fun x => { x with stage := 4, phase := 2 }) (n0f 4), by decide +kernel⟩,
   ⟨0, 255, 15, port0 (fun x => { x with stage := 4, phase := 3 }) (n0f 4), by decide +kernel⟩,
   ⟨0, atT (msT 1) (n0f 5), by decide +kernel⟩,
   ⟨0, key0, atT (usT 10) (port0 (fun x => { x with keyEx := some key0 }) (n0f 6)), by decide +kernel⟩,
   ⟨0, atT (msT 50) (n0f 6), by decide +kernel⟩⟩

theorem witness_PortLinkComplete :
    (∃ (p : Nat) (l : LinkHdr) (s : State), (p < 32) ∧ ((portState s p = 7 ∨ portState s p = 8 ∨ portState s p = 9)) ∧ (linkRefused s p l = false)) ∧
    (∃ (p : Nat), (p < 32)) ∧
    (∃ (p : Nat) (lane : Nat) (mv : Nat) (s : State), (p < 32) ∧ (lane < 8) ∧ (mv < 20) ∧ (portState s p = 7) ∧ (num s 0x210A (p + 1) ≠ 1) ∧ (sfind (getPort s p).eqAsked lane = none)) ∧
    (∃ (p : Nat) (s : State), (p < 32) ∧ (portState s p = 8) ∧ ((getPort s p).since + msT (num s 0x2100 8) ≤ s.det.now)) ∧
    (∃ (p : Nat) (s : State), (p < 32) ∧ (((getPort s p).detach = 1 ∨ (getPort s p).detach = 3)) ∧ (portState s p = 9) ∧ ((getPort s p).detachAt + msT (num s 0x2100 9) ≤ s.det.now)) :=
  ⟨⟨0, link0, n0f 7, by decide +kernel⟩,
   ⟨31, by decide +kernel⟩,
   ⟨0, 7, 19, n0f 7, by decide +kernel⟩,
   ⟨0, atT (msT 100000) (n0f 8), by decide +kernel⟩,
   ⟨0, atT (msT 100000) (port0 (fun x => { x with detach := 3 }) (n0f 9)), by decide +kernel⟩⟩

theorem witness_PortFlitsComplete :
    (∃ (p : Nat) (s : State), (takesFlits s p = true)) ∧
    (∃ (p : Nat) (s : State), (takesFlits s p = true) ∧ ((getPort s p).replay.isEmpty = false) ∧ ((getPort s p).ackAt + num s 0x2100 6 / 10 ≤ s.det.now)) ∧
    (∃ (p : Nat) (s : State), (takesFlits s p = true) ∧ (portState s p = 7)) ∧
    (∃ (p : Nat) (s : State), (takesFlits s p = true) ∧ (((getPort s p).detach = 1 ∨ (getPort s p).detach = 3))) ∧
    (∃ (p : Nat) (gen : Nat) (k : LinkKey) (s : State), (takesFlits s p = true) ∧ ((getPort s p).rxKey = some k) ∧ (gen % 2 ^ 32 = (k.gen + 1) % 2 ^ 32)) ∧
    (∃ (p : Nat) (k : LinkKey) (s : State), (takesFlits s p = true) ∧ (num s 0x2A21 1 = 0) ∧ ((getPort s p).txKey = some k) ∧ ((getPort s p).txOld = none) ∧
         ((getPort s p).updateKey = none) ∧ (num s 0x2A10 1 ≤ k.count)) ∧
    (∃ (p : Nat) (k : LinkKey) (s : State), ((getPort s p).txKey = some k) ∧ (2 ^ 63 ≤ k.count)) :=
  ⟨⟨0, n0f 7, by decide +kernel⟩,
   ⟨0, atT (msT 1) (port0 (fun x => { x with replay := [{ seq := 0, bytes := [], msgs := 0, key := 0 }] }) (n0f 7)), by decide +kernel⟩,
   ⟨0, n0f 7, by decide +kernel⟩,
   ⟨0, port0 (fun x => { x with detach := 1 }) (n0f 9), by decide +kernel⟩,
   ⟨0, 1, lkey 0, port0 (fun x => { x with rxKey := some (lkey 0) }) (n0f 7), by decide +kernel⟩,
   ⟨0, lkey (2 ^ 62), port0 (fun x => { x with txKey := some (lkey (2 ^ 62)) }) (n0f 7), by decide +kernel⟩,
   ⟨0, lkey (2 ^ 63), port0 (fun x => { x with txKey := some (lkey (2 ^ 63)) }) (n0f 7), by decide +kernel⟩⟩

theorem witness_HostTrafficComplete :
    (∃ (p : Nat) (len : Nat) (s : State), (hostUp s p = true) ∧ (1 ≤ len) ∧ (len ≤ 4096) ∧ (ideMissing s p 1 = false)) ∧
    (∃ (p : Nat) (off : Nat) (d : List Byte) (a : Nat) (s : State), (hostUp s p = true) ∧ (d ≠ []) ∧ (d.length ≤ 512) ∧ (ideMissing s p 1 = false) ∧ (barPlace s p 0 off = .local_ a)) ∧
    (∃ (p : Nat) (addr : Nat) (s : State), (hostUp s p = true) ∧ (num s 0x2101 (p + 1) = 3) ∧ (ideMissing s p 2 = false) ∧ (alignDown addr 64 < apertureSize s p)) ∧
    (∃ (p : Nat) (addr : Nat) (en : Nat) (s : State), (hostUp s p = true) ∧ (num s 0x2101 (p + 1) = 3) ∧ (ideMissing s p 2 = false) ∧ (alignDown addr 64 < apertureSize s p) ∧
         ((runsOf en).isEmpty = false)) ∧
    (∃ (p : Nat) (tag : Nat) (cpl : Nat) (i : Issued) (s : State), (p < 32) ∧ (portCompat s p = true) ∧ (portState s p = 12) ∧
         (s.acc.issued.find? (fun i => i.sent && i.port == p && i.wire == some (p * 4096 + tag % 4096)) = some i) ∧ (cpl = 0) ∧ (opReads i.req.op = true)) ∧
    (∃ (p : Nat) (s : State), (hostUp s p = true)) ∧
    (∃ (p : Nat) (s : State), (p < 32) ∧ (portCompat s p = true) ∧ (portState s p = 11)) :=
  ⟨⟨0, 4096, n0c 2 12, by decide +kernel⟩,
   ⟨0, 0, [1], 0xF80000000000, n0c 2 12, ⟨by decide +kernel, by decide +kernel, by decide +kernel, by decide +kernel, rfl⟩⟩,
   ⟨0, 0xFFFC0, n0c 3 12, by decide +kernel⟩,
   ⟨0, 0, 1, n0c 3 12, by decide +kernel⟩,
   ⟨0, 0, 0, out0, issue [out0] (n0c 2 12), by decide +kernel⟩,
   ⟨0, n0c 2 12, by decide +kernel⟩,
   ⟨0, n0c 2 11, by decide +kernel⟩⟩

/-- A CXL port 0 whose function is as given. -/
def n0h (f : HostFn → HostFn) : State := port0 (fun x => { x with host := f x.host }) (n0c 3 12)

/-- SPDM at the stage given. -/
def spdm (n : Nat) : State := n0h (fun h => { h with spdm := n })

/-- A secure session, with IDE keys programmed. -/
def sess0 (keys : List Nat) : State := n0h (fun h => { h with spdm := 3, session := true, ideKeys := keys })

/-- Partition `p` in state `st`. -/
def partAt (p st : Nat) : State := setPart n0 p { Partition.free with st := st }

/-- The node with a DEBUG_LOCK. -/
def locked (k : Nat) : State := { n0 with sec := { n0.sec with hem := { n0.sec.hem with debugLock := k } } }

theorem witness_HostSecurityComplete :
    (∃ (p : Nat) (s : State), (hostUp s p = true)) ∧
    (∃ (p : Nat) (s : State), (hostUp s p = true) ∧ ((getPort s p).host.spdm = 1)) ∧
    (∃ (p : Nat) (s : State), (hostUp s p = true) ∧ ((getPort s p).host.spdm = 2)) ∧
    (∃ (p : Nat) (s : State), (hostUp s p = true) ∧ ((getPort s p).host.spdm = 3)) ∧
    (∃ (p : Nat) (i : Nat) (s : State), (hostUp s p = true) ∧ ((getPort s p).host.spdm = 3) ∧ (1 ≤ i) ∧ (i ≤ 3)) ∧
    (∃ (p : Nat) (s : State), (hostUp s p = true) ∧ ((getPort s p).host.spdm = 3) ∧ ((getPort s p).host.handshake = false) ∧ ((getPort s p).host.session = false) ∧ (num s 0x2A21 1 = 0)) ∧
    (∃ (p : Nat) (s : State), (hostUp s p = true) ∧ ((getPort s p).host.spdm = 3) ∧ ((getPort s p).host.handshake = true)) ∧
    (∃ (p : Nat) (s : State), (hostUp s p = true) ∧ ((getPort s p).host.spdm = 3) ∧ ((getPort s p).host.session = true)) ∧
    (∃ (p : Nat) (s : State), (hostUp s p = true) ∧ ((getPort s p).host.session = true)) ∧
    (∃ (p : Nat) (cxl : Bool) (tx : Bool) (s : State), (hostUp s p = true) ∧ ((getPort s p).host.session = true) ∧ ((cxl = true → num s 0x2101 (p + 1) = 3)) ∧
         ((getPort s p).host.ideKeys.contains (ideKey cxl tx) = false)) ∧
    (∃ (p : Nat) (cxl : Bool) (tx : Bool) (s : State), (hostUp s p = true) ∧ ((getPort s p).host.session = true) ∧ ((cxl = true → num s 0x2101 (p + 1) = 3)) ∧
         ((getPort s p).host.ideKeys.contains (ideKey cxl tx) = true)) ∧
    (∃ (p : Nat) (cxl : Bool) (s : State), (hostUp s p = true) ∧ ((getPort s p).host.session = true) ∧ ((cxl = true → num s 0x2101 (p + 1) = 3))) ∧
    (∃ (p : Nat) (s : State), (hostUp s p = true) ∧ (num s 0x2101 (p + 1) = 3)) :=
  ⟨⟨0, spdm 0, by decide +kernel⟩,
   ⟨0, spdm 1, by decide +kernel⟩,
   ⟨0, spdm 2, by decide +kernel⟩,
   ⟨0, spdm 3, by decide +kernel⟩,
   ⟨0, 3, spdm 3, by decide +kernel⟩,
   ⟨0, spdm 3, by decide +kernel⟩,
   ⟨0, n0h (fun h => { h with spdm := 3, handshake := true }), by decide +kernel⟩,
   ⟨0, sess0 [], by decide +kernel⟩,
   ⟨0, sess0 [], by decide +kernel⟩,
   ⟨0, true, true, sess0 [], by decide +kernel⟩,
   ⟨0, true, true, sess0 [3], by decide +kernel⟩,
   ⟨0, true, sess0 [], by decide +kernel⟩,
   ⟨0, n0c 3 12, by decide +kernel⟩⟩

theorem witness_PartitionCommandsComplete :
    (∃ (v : Bytes) (s : State), (v.length = 1) ∧ (leNat v < s.sec.hem.maxPartitions) ∧ ((getPart s (leNat v)).st = 0) ∧ (num s 0x2A21 1 = 0)) ∧
    (∃ (v : Bytes) (s : State), (v.length = 1) ∧ (leNat v ≠ 0) ∧ ((getPart s (leNat v)).st = 1)) ∧
    (∃ (p : Nat) (s : State), ((getPart s p).st = 2) ∧ ((partDrained s p = true ∨ (getPart s p).fencedT + msT (num s 0x2A00 3) ≤ s.det.now))) ∧
    (∃ (p : Nat) (s : State), ((getPart s p).st = 3) ∧ (s.tier.freed.any (fun f => f.part == p) = false) ∧ (s.regions.any (fun e => e.2.releasing && e.2.owner == p) = false)) ∧
    (∃ (s : State), (num s 0x2000 1 = 0)) ∧
    (∃ (p : Nat) (v : Bytes) (s : State), (v.length = 2) ∧ (bit (leNat v) 0 = false) ∧ (bit (leNat v) 1 = false) ∧ ((leNat v).land s.sec.hem.hearthDisabled = 0) ∧
         (s.sec.parts.any (fun e => e.1 != p && (e.2.st == 1 || e.2.st == 2) && (leNat v).land (pnum s 0x4A01 e.1) != 0) = false) ∧ ((getPart s p).st = 1)) ∧
    (∃ (v : Bytes) (s : State), (v.length = 4) ∧ (leNat v = num s 0x1003 8) ∧ (s.sec.hem.debugLock = 0 ∨ s.sec.hem.debugLock = 2)) ∧
    (∃ (v : Bytes) (u : State) (s : State), (writeDebugUnlock s v = .done 0 0 u)) ∧
    (∃ (v : Bytes) (s : State), (v.length = 4) ∧ (s.sec.hem.arbFirmwareFuse < leNat v) ∧ (leNat v ≤ 64) ∧ (leNat v ≤ num s 0x1003 3) ∧
         (leNat v ≤ imageSecurity s (imageOff (otherImage s)))) ∧
    (∃ (v : Bytes) (s : State), (v.length = 4) ∧ (s.sec.hem.arbLoaderFuse < leNat v) ∧ (leNat v ≤ 64) ∧ (leNat v ≤ num s 0x2A22 3)) :=
  ⟨⟨[63], n0, by decide +kernel⟩,
   ⟨[1], partAt 1 1, by decide +kernel⟩,
   ⟨1, partAt 1 2, by decide +kernel⟩,
   ⟨1, partAt 1 3, by decide +kernel⟩,
   ⟨n0, by decide +kernel⟩,
   ⟨1, [4, 0x80], partAt 1 1, by decide +kernel⟩,
   ⟨toLe 4 (num n0 0x1003 8), locked 2, by decide +kernel⟩,
   ⟨toLe 4 (num n0 0x1003 8), outState (writeDebugUnlock (partAt 1 1) (toLe 4 (num n0 0x1003 8))), partAt 1 1, out_done (by decide +kernel)⟩,
   ⟨[1, 0, 0, 0], n0fw, by decide +kernel⟩,
   ⟨[1, 0, 0, 0], n0fw, by decide +kernel⟩⟩

/-- Core 0's domain in state `st`, an out-of-chip-power record waiting. -/
def n0bell (st : Nat) : State := let s := setDom n0 0 st; { s with bell := { s.bell with oocValid := true, wakes := [(0, 1)] } }

/-- A synchronised node in state `st` of the sync loop, with `n` samples. -/
def n0sync (st n : Nat) : State :=
  let s := setNum (setNum n0 0x2C10 1 1) 0x2C10 5 st
  atT (secT 1000000) { s with det := { s.det with samples := List.replicate n { rtt := 1, twice := 0 }, missed := 2 } }

/-- A recovery of a level-1 fault of resource `res`. -/
def rec0 (res : Nat) : RecEntry := { res := res, fromLevel := 1, level := 1, code := 1, queuedAt := 0, startedAt := 0, endedAt := 0 }

/-- The node with a window of resource `res`, which it holds out of service. -/
def n0win (res : Nat) : State :=
  { n0 with flt := { n0.flt with windows := [(res, { level := 1, closes := some 0, out := true, count := 1, code := 1 })] } }

/-- Region 1, a mirror copy (`role` 1) or the primary (0) of endpoint 5, in state `st`. -/
def n0m (role st : Nat) : State :=
  let s := setRegion n0t 1 { rgn 1 0 65536 with mirror := true, mirrorEp := 5 }
  setNum (setNum (setArrNum (setArrNum s 0x3640 1 role) 0x3660 1 st) 0x3600 1 3) 0x3600 5 1

/-- A bind that has been sent. -/
def bind0 : Bind := { region := 1, new := { rgn 1 0 65536 with mirror := true, mirrorEp := 5 }, create := false, write := none, sent := true, sentAt := 0 }

/-- The node with that bind. -/
def n0bind : State := { n0m 0 1 with flt := { n0.flt with binds := [bind0] } }

/-- A mirror write of region 1. -/
def mw0 : Issued := { issued0 (.store [1] false) with mirror := some 1 }

theorem sync_offset : syncOffset (n0sync 1 16) = some 0 := by
  have h : (n0sync 1 16).det.samples.mergeSort (fun a b => decide (a.rtt ≤ b.rtt)) = (n0sync 1 16).det.samples :=
    List.mergeSort_of_pairwise (by decide +kernel)
  unfold syncOffset
  rw [h]
  decide +kernel

theorem witness_DoorbellsComplete :
    (∃ (t : Nat) (src : Nat) (red : Bool) (lvl : Nat) (s : State), (t < 32) ∧ (winner s t = src) ∧ (src ≠ 0) ∧ (inService s t = 0) ∧ (targetOn s t = true) ∧
         (coreEnabled s (targetCore t) = true) ∧ (routedTo s src = some (lvl, red))) ∧
    (∃ (t : Nat), (t < 32)) ∧
    (∃ (src : Nat), (src < 1024)) ∧
    (∃ (p : Nat), (p < 64)) ∧
    (∃ (t : Nat) (s : State), (t < 32) ∧ (sget (fun _ => 0) s.bell.wakes t ≠ 0) ∧ (targetAsleep s t = true) ∧ (s.bell.expired.contains t = false) ∧
         (sget (fun _ => 0) s.bell.wakes t - 1 + usT 50 ≤ s.det.now)) :=
  ⟨⟨0, 1, false, 0, n0bell 4, by decide +kernel⟩,
   ⟨31, by decide +kernel⟩,
   ⟨1023, by decide +kernel⟩,
   ⟨63, by decide +kernel⟩,
   ⟨0, atT (usT 50) (n0bell 2), by decide +kernel⟩⟩

theorem witness_DeterminismComplete :
    (∃ (z : Int) (s : State), (num s 0x2C10 1 = 1) ∧ (s.det.intervalAt + msT (num s 0x2C10 3) ≤ s.det.now) ∧ (syncOffset s = some z)) ∧
    (∃ (s : State), (num s 0x2C10 1 = 1) ∧ (s.det.intervalAt + msT (num s 0x2C10 3) ≤ s.det.now) ∧ (syncOffset s = none) ∧
         (syncState { s with det := { s.det with samples := [], intervalAt := s.det.now, sampleN := 0, missed := s.det.missed + 1 } } = 2) ∧ (3 ≤ s.det.missed + 1)) ∧
    (∃ (s : State), (num s 0x2C10 1 = 1) ∧ (s.det.sampleN < 64) ∧ ((s.det.sampleN = 0 ∨ s.det.sampleAt + usT 10 ≤ s.det.now))) :=
  ⟨⟨0, n0sync 1 16, ⟨by decide +kernel, by decide +kernel, sync_offset⟩⟩,
   ⟨n0sync 2 0, ⟨by decide +kernel, by decide +kernel, by simp [syncOffset, n0sync, atT], by decide +kernel, by decide +kernel⟩⟩,
   ⟨n0sync 1 0, by decide +kernel⟩⟩

theorem witness_RecoveryComplete :
    (∃ (code : Nat), (1 ≤ code) ∧ (code ≤ 0xFF)) ∧
    (∃ (bank : Nat) (s : State), (bank < 16) ∧ (bit s.acc.banksOk bank = true)) ∧
    (∃ (e : RecEntry) (rest : List RecEntry) (s : State), (s.flt.running = none) ∧ (s.flt.queue = e :: rest) ∧ (e.res / 4096 ≠ 1)) ∧
    (∃ (e : RecEntry) (s : State), (s.flt.running = some e) ∧ (recoveryOver s e = true) ∧ (e.res / 4096 ≠ 1) ∧ (e.res / 4096 ≠ 9)) ∧
    (∃ (res : Nat) (t : Nat) (s : State), ((getWindow s res).closes = some t) ∧ (t ≤ s.det.now)) ∧
    (∃ (v : Bytes) (s : State), (v.length = 2) ∧ (outOfService s (leNat v) = true) ∧ (leNat v / 4096 = 6)) ∧
    (∃ (v : Bytes), (v.length = 2)) ∧
    (∃ (s : State), (inLimp s = false)) ∧
    (∃ (s : State), (inLimp s = true)) ∧
    (∃ (kind : Nat) (d : DescRef) (x : Desc) (s : State), (1 ≤ kind) ∧ (kind ≤ 6) ∧ (findDesc s d = some x)) ∧
    (∃ (kind : Nat), (1 ≤ kind) ∧ (kind ≤ 6)) :=
  ⟨⟨0xFF, by decide +kernel⟩,
   ⟨15, n0, by decide +kernel⟩,
   ⟨rec0 0x2000, [], { n0 with flt := { n0.flt with queue := [rec0 0x2000] } }, by decide +kernel⟩,
   ⟨rec0 0x2000, { n0 with flt := { n0.flt with running := some (rec0 0x2000) } }, by decide +kernel⟩,
   ⟨0x2000, 0, n0win 0x2000, by decide +kernel⟩,
   ⟨toLe 2 0x6000, n0win 0x6000, by decide +kernel⟩,
   ⟨[0, 0], by decide +kernel⟩,
   ⟨n0, by decide +kernel⟩,
   ⟨setNum n0 0x3300 1 1, by decide +kernel⟩,
   ⟨6, d0 .shuttle, desc0, accepted .shuttle desc0 n0e, by decide +kernel⟩,
   ⟨6, by decide +kernel⟩⟩

theorem witness_MirrorComplete :
    (∃ (ep : Nat) (unit : Nat) (data : Nat) (r : Nat) (s : State), (copyOf s ep (noticeBase data) = some r) ∧ (bindReason s ep unit data = 0)) ∧
    (∃ (ep : Nat) (data : Nat) (b : Machine.Bind) (s : State), (boundTo s ep = some b) ∧ (data % 2 ^ 32 ≠ num s 0x3600 1) ∧ (data % 2 ^ 32 ≠ 0) ∧ (num s 0x3600 1 ≠ 0) ∧
         (data / 2 ^ 32 % 2 ^ 32 = b.new.size / 65536)) ∧
    (∃ (ep : Nat) (data : Nat) (b : Machine.Bind) (s : State), (boundTo s ep = some b) ∧ (b.new.base = noticeBase data)) ∧
    (∃ (ep : Nat) (data : Nat) (r : Nat) (s : State), (copyOf s ep (noticeBase data) = some r) ∧ (5 ≤ mirrorState s r)) ∧
    (∃ (r : Nat) (b : Machine.Bind) (s : State), (s.flt.binds.find? (fun b => b.region == r) = some b) ∧ (b.sent = true) ∧ (b.sentAt + msT (num s 0x3600 4) ≤ s.det.now)) ∧
    (∃ (tag : Nat) (i : Issued) (r : Nat) (s : State), (s.acc.issued.find? (fun i => i.tag == tag) = some i) ∧ (i.mirror = some r) ∧ (i.at_ + usT (num s 0x3600 2) ≤ s.det.now)) ∧
    (∃ (r : Nat) (s : State), ((getRegion s r).valid = true) ∧ ((getRegion s r).mirror = true) ∧ (arrNum s 0x3640 r = 0) ∧ (mirrorState s r = 3) ∧ (num s 0x3600 5 = 1) ∧
         (s.flt.binds.any (fun b => b.region == r) = false) ∧ (sget (fun _ => 0) s.flt.rebindAt r + secT 1 ≤ s.det.now)) ∧
    (∃ (r : Nat) (s : State), ((getRegion s r).valid = true) ∧ ((getRegion s r).mirror = true) ∧ (mirrorState s r = 2) ∧ (watermark s r * 65536 < (getRegion s r).size) ∧
         (s.acc.issued.any (fun i => i.target == .rebuild r (watermark s r)) = false) ∧ ((effPorts s (getRegion s r).mirrorEp 6).isEmpty = false)) ∧
    (∃ (v : Bytes) (s : State), (v.length = 2) ∧ ((getRegion s (leNat v)).valid = true) ∧ (isCopy s (leNat v) = true) ∧ (mirrorState s (leNat v) = 6) ∧
         ((effPorts s (getRegion s (leNat v)).mirrorEp 5).isEmpty = true)) :=
  ⟨⟨5, 4096, 7, 1, n0m 1 0, by decide +kernel⟩,
   ⟨5, 2 ^ 32 + 7, bind0, n0bind, by decide +kernel⟩,
   ⟨5, 0, bind0, n0bind, by decide +kernel⟩,
   ⟨5, 0, 1, n0m 1 5, by decide +kernel⟩,
   ⟨1, bind0, atT (secT 1000) n0bind, by decide +kernel⟩,
   ⟨0, mw0, 1, atT (secT 1000) (issue [mw0] (n0m 0 2)), by decide +kernel⟩,
   ⟨1, atT (secT 1) (n0m 0 3), by decide +kernel⟩,
   ⟨1, routed (n0m 0 2), by decide +kernel⟩,
   ⟨[1, 0], n0m 1 6, by decide +kernel⟩⟩

/-- The tier state changed. -/
def tier0 (f : TierState → TierState) (s : State) : State := { s with tier := f s.tier }

/-- A move of bolt 0. -/
def mv0 (c : MoveCause) : Move := { bolt := 0, tier := 2, slot := 5, cause := c, next := 0, pass := 0, work := [], dirty := [] }

/-- A slot that has been freed. -/
def freed0 : FreedSlot := { tier := 1, slot := 5, part := 0, ready := false, waits := [] }

/-- Stream 0 over region 1, its position word in region 2. -/
def n0s (f : StreamRun → StreamRun) (home : Nat) : State :=
  let s := setRegion (setRegion n0t 1 (rgn 6 0 65536)) 2 (rgn 1 (2 ^ 24) 65536)
  let s := setBlob (setBlob (setBlob s 0x2320 1 ([1, 0, 1, 1, 1, 0, 1, 0] ++ toLe 8 (2 ^ 24) ++ zeros 16)) 0x2321 1 (zeros 4 ++ toLe 4 1)) 0x2322 1 (zeros 2)
  setStream (setBolt s 0 (bolt0 home)) 0 (f (getStream s 0))

theorem witness_PlacementComplete :
    (∃ (b : Nat) (s : State), ((getBolt s b).home ≠ 0) ∧ ((∀ t, (getBolt s b).sweptAt = some t → t + agePeriod s (getBolt s b).home ≤ s.det.now)) ∧
         (evacuated s (getBolt s b).home (unitOfSlot s (getBolt s b).home (getBolt s b).slot) = false)) ∧
    (∃ (t : Nat) (v : Nat × Bolt) (s : State), (t = 1 ∨ t = 2) ∧ (0 < tierFree s t) ∧ (belowTarget s t 1 = true) ∧ (s.tier.learning = false) ∧ (oldestOf s (eligible s t none) = some v) ∧
         (0 < tierFree s (t + 1))) ∧
    (∃ (t : Nat) (p : Nat) (v : Nat × Bolt) (s : State), (t = 1 ∨ t = 2) ∧ (tierFree s t = 0) ∧ (needer s = some p) ∧ (s.tier.learning = false) ∧
         (oldestOf s (eligible s t (some p)) = some v) ∧ (0 < tierFree s (t + 1))) ∧
    (∃ (b : Nat) (slot : Nat) (u : State) (s : State), (s.tier.queued.contains (b, 0) = true) ∧ (placeFrozen s = false) ∧ (s.tier.learning = false) ∧ (detMode s ≠ 2) ∧
         (victimOf s b = none) ∧ (promotable s (getBolt s b) = true) ∧ (num s 0x2301 10 * tierSlots s 1 < tierFree s 1 * 1024) ∧
         (pickCool s 1 (getBolt s b).quad 1 (fun _ => true) = (some slot, u))) ∧
    (∃ (b : Nat) (s : State), (placeFrozen s = false) ∧ (s.tier.learning = false) ∧ (detMode s ≠ 2) ∧ ((getBolt s b).home = 1) ∧ (num s 0x2301 5 ≤ (getBolt s b).age) ∧
         (belowTarget s 1 1 = true) ∧ ((getBolt s b).pins = 0) ∧ ((getBolt s b).moving = false) ∧ (1 < boltFloor s (getBolt s b)) ∧
         (((getBolt s b).promoted = false ∨ resident s (getBolt s b) = true))) ∧
    (∃ (p : Nat) (t : Nat) (v : Nat × Bolt) (s : State), (placeFrozen s = false) ∧ (s.tier.learning = false) ∧ (detMode s ≠ 2) ∧ (t = 1 ∨ t = 2) ∧ (quota s p t < homed s p t) ∧
         (oldestOf s (quotaVictim s p t) = some v)) ∧
    (∃ (b : Nat) (s : State), (s.tier.upQueue.contains b = true)) ∧
    (∃ (b : Nat) (m : Move) (s : State), (s.tier.moves.find? (fun m => m.bolt == b) = some m) ∧ (partExists s (getBolt s b).part = true) ∧
         ((getRegion s (getBolt s b).region).valid = true) ∧ (m.cause ≠ .demand) ∧ ((m.cause = .retire ∨ m.copied = true)) ∧ ((getBolt s b).home ≠ 3)) ∧
    (∃ (b : Nat) (m : Move) (s : State), (s.tier.moves.find? (fun m => m.bolt == b) = some m) ∧ (partExists s (getBolt s b).part = true) ∧
         ((getRegion s (getBolt s b).region).valid = true) ∧ (m.cause = .demand) ∧ ((getBolt s b).home = 3)) ∧
    (∃ (t : Nat) (slot : Nat) (f : FreedSlot) (s : State), (s.tier.freed.find? (fun f => f.tier == t && f.slot == slot && !f.ready) = some f) ∧ (f.waits.any (inHand s) = false)) ∧
    (∃ (s : State), (s.tier.learning = true) ∧ (num s 0x2303 4 ≤ s.tier.learnAccesses) ∧ (s.tier.learnStart + msT (num s 0x2303 5) ≤ s.det.now)) ∧
    (∃ (h : Held) (s : State), (s.acc.held.find? (fun h => h.why == .slot && (match regionOf s h.req.head.addr with | some r => (ensureBolt s r h.req.head.addr h.req.head.kind h.req.head.unit).isSome | none => true)) = some h)) ∧
    (∃ (v : Bytes) (s : State), (v.length = 24) ∧ (bfld v 0 8 % 65536 = 0) ∧ (bfld v 8 8 % 65536 = 0) ∧ (bfld v 0 8 + bfld v 8 8 ≤ s.tier.unifiedSize) ∧
         (bfld v 16 1 = 1 ∨ bfld v 16 1 = 2)) ∧
    (∃ (v : Bytes) (s : State), (v.length = 1) ∧ (let u := setNum s 0x2301 0x0D (leNat v % 16); let out := [1, 2, 3].foldl (fun l t => l ++ ((upTo (tierUnits t)).filter (fun n => evacuated u t n && !evacuated s t n)).foldl (fun l n => l ++ unitBolts s t n) []) []; (out.length ≤ tierFree u 1 + tierFree u 2 + tierFree u 3))) ∧
    (∃ (v : Bytes), (v.length = 8)) ∧
    (∃ (b : Nat) (s : State), ((getBolt s b).home = 1 ∨ (getBolt s b).home = 2) ∧ (sget (fun _ => 0) s.tier.scrubs ((getBolt s b).home * 2 ^ 32 + (getBolt s b).slot) = 0)) ∧
    (∃ (larder : Bool) (u : Nat) (c : Int) (s : State), (u < (if larder then 16 else 6)) ∧ (nextHeat s (heatOf s larder u).state c ≠ (heatOf s larder u).state) ∧ ((∀ t,
         (heatOf s larder u).changedAt = some t → t + msT 100 ≤ s.det.now))) :=
  ⟨⟨0, atT (msT 100000000) (n0g 4096 1), ⟨by decide +kernel, at_time 0 (by decide +kernel) (by decide +kernel), by decide +kernel⟩⟩,
   ⟨1, (0, bolt0 1), n0g 4096 1, by decide +kernel⟩,
   ⟨1, 0, (0, bolt0 1), tier0 (fun t => { t with upQueue := [0] }) (n0g 1 1), by decide +kernel⟩,
   ⟨0, (pickCool (setNum (tier0 (fun t => { t with queued := [(0, 0)] }) (setBolt (n0g 4096 2) 0 { bolt0 2 with heat := 255 })) 0x2301 10 0) 1 (getBolt (setNum (tier0 (fun t => { t with queued := [(0, 0)] }) (setBolt (n0g 4096 2) 0 { bolt0 2 with heat := 255 })) 0x2301 10 0) 0).quad 1 (fun _ => true)).1.getD 0, (pickCool (setNum (tier0 (fun t => { t with queued := [(0, 0)] }) (setBolt (n0g 4096 2) 0 { bolt0 2 with heat := 255 })) 0x2301 10 0) 1 (getBolt (setNum (tier0 (fun t => { t with queued := [(0, 0)] }) (setBolt (n0g 4096 2) 0 { bolt0 2 with heat := 255 })) 0x2301 10 0) 0).quad 1 (fun _ => true)).2, setNum (tier0 (fun t => { t with queued := [(0, 0)] }) (setBolt (n0g 4096 2) 0 { bolt0 2 with heat := 255 })) 0x2301 10 0, by decide +kernel⟩,
   ⟨0, n0g 4096 1, by decide +kernel⟩,
   ⟨0, 1, (0, bolt0 1), setPnum (n0g 4096 1) 0x4300 0 0, by decide +kernel⟩,
   ⟨0, tier0 (fun t => { t with upQueue := [0] }) n0t, by decide +kernel⟩,
   ⟨0, mv0 .retire, tier0 (fun t => { t with moves := [mv0 .retire] }) (n0g 4096 1), by decide +kernel⟩,
   ⟨0, mv0 .demand, tier0 (fun t => { t with moves := [mv0 .demand] }) (n0g 4096 3), by decide +kernel⟩,
   ⟨1, 5, freed0, tier0 (fun t => { t with freed := [freed0] }) n0t, by decide +kernel⟩,
   ⟨tier0 (fun t => { t with learning := true, learnAccesses := 2 ^ 70 }) (atT (secT 1000000) n0t), by decide +kernel⟩,
   ⟨held0 .slot (.load 8) 1, hold [held0 .slot (.load 8) 1] n0t, by decide +kernel⟩,
   ⟨zeros 16 ++ [1] ++ zeros 7, n0t, by decide +kernel⟩,
   ⟨[0], n0t, by decide +kernel⟩,
   ⟨zeros 8, by decide +kernel⟩,
   ⟨0, n0g 4096 2, by decide +kernel⟩,
   ⟨true, 15, 127, n0t, ⟨by decide +kernel, by decide +kernel, no_time (by decide +kernel)⟩⟩⟩

theorem witness_StreamsComplete :
    (∃ (n : Nat) (s : State), (n < 64) ∧ (strStartable s n = true)) ∧
    (∃ (n : Nat) (s : State), ((getStream s n).run = 3)) ∧
    (∃ (n : Nat) (s : State), ((getStream s n).run = 2)) ∧
    (∃ (n : Nat) (s : State), ((getStream s n).writes ≠ [])) ∧
    (∃ (n : Nat) (v : Nat) (s : State), (n < 64) ∧ ((getStream s n).run = 3) ∧ ((getStream s n).pos < v) ∧ (v ≤ (getStream s n).pos + strW s n) ∧ (strCycle s n = true) ∧
         ((getStream s n).writes = [v])) ∧
    (∃ (n : Nat) (k : Nat) (s : State), ((getStream s n).fetching = some k) ∧ (layerResident s n k = true)) ∧
    (∃ (n : Nat) (k : Nat) (s : State), ((getStream s n).fetching = some k) ∧ (layerResident s n k = false)) :=
  ⟨⟨0, n0s id 1, by decide +kernel⟩,
   ⟨0, n0s (fun x => { x with run := 3 }) 1, by decide +kernel⟩,
   ⟨0, n0s (fun x => { x with run := 2 }) 1, by decide +kernel⟩,
   ⟨0, n0s (fun x => { x with writes := [1] }) 1, by decide +kernel⟩,
   ⟨0, 1, n0s (fun x => { x with run := 3, writes := [1] }) 1, by decide +kernel⟩,
   ⟨0, 0, n0s (fun x => { x with run := 3, fetching := some 0 }) 1, by decide +kernel⟩,
   ⟨0, 0, n0s (fun x => { x with run := 3, fetching := some 0 }) 2, by decide +kernel⟩⟩

/-- A write of DOM_TARGET that waits. -/
def ww0 : WaitingWrite := { slot := 16, sid := 1, tag := 0, opcode := 2, sub := 0 }

/-- The quadrants ON, and domain `d` on its way to `k`. -/
def n0mv (d k : Nat) : State := pwr0 (fun p => { p with moves := [{ dom := d, to_ := k, write := some ww0 }] }) (on [176, 177, 178, 179, d] n0)

theorem witness_PowerDomainsComplete :
    (∃ (d : Nat) (s : State), (d < 196) ∧ (domDisabled s d = false) ∧ (s.pwr.moves.any (fun m => m.dom == d) = false) ∧ (domState s d = 4)) ∧
    (∃ (d : Nat) (s : State), (d < 196) ∧ (d < 16 ∨ 20 ≤ d) ∧ (domDisabled s d = false) ∧ (s.pwr.moves.any (fun m => m.dom == d) = false) ∧ (domState s d ≠ 0) ∧ (offRefused s d = false)) ∧
    (∃ (d : Nat) (s : State), (d < 196) ∧ (domDisabled s d = false) ∧ (s.pwr.moves.any (fun m => m.dom == d) = false) ∧ (domState s d = 0)) ∧
    (∃ (d : Nat) (x : WaitingWrite) (s : State), (s.pwr.moves.find? (fun m => m.dom == d) = some { dom := d, to_ := 0, write := some x }) ∧ (offReady s d = true)) ∧
    (∃ (d : Nat) (x : WaitingWrite) (s : State), (s.pwr.moves.find? (fun m => m.dom == d) = some { dom := d, to_ := 1, write := some x }) ∧ (upReady s d = true)) ∧
    (∃ (d : Nat) (x : WaitingWrite) (s : State), (s.pwr.moves.find? (fun m => m.dom == d) = some { dom := d, to_ := 4, write := some x }) ∧ (upReady s d = true)) ∧
    (∃ (d : Nat) (s : State), (mayCg d = true) ∧ (domBusy s d = false) ∧ (domState s d = 4) ∧ (num s 0x2011 (d + 1) = 0)) ∧
    (∃ (d : Nat) (c : Int) (s : State), (retEligible s d = true) ∧ (domState s d = 4 ∨ domState s d = 3) ∧ (num s 0x2011 (d + 1) = 0) ∧ (c ≤ toSigned 8 (num s 0x2004 3))) ∧
    (∃ (d : Nat) (c : Int) (s : State), (retEligible s d = true) ∧ (domState s d = 4 ∨ domState s d = 3) ∧ (num s 0x2011 (d + 1) = 0) ∧ (toSigned 8 (num s 0x2004 3) < c)) ∧
    (∃ (d : Nat) (s : State), (16 ≤ d) ∧ (domState s d = 2 ∨ domState s d = 3) ∧ (num s 0x2000 1 ≤ 1)) ∧
    (∃ (d : Nat) (s : State), (d < 16) ∧ (domState s d = 2 ∨ domState s d = 3) ∧ (num s 0x2000 1 ≤ 1)) ∧
    (∃ (d : Nat) (c : Int) (s : State), (domState s d = 2) ∧ (mayCg d = true) ∧ (toSigned 8 (num s 0x2004 3) < c)) ∧
    (∃ (v : Bytes), (v.length = 25)) ∧
    (∃ (d : Nat) (s : State), (domState s d = 2) ∧ (mayRet d = true) ∧ (2 ≤ d) ∧ (d ≠ 16) ∧
         (let u := switchOff (brownoutLoss (latch (noteFault s 0x3C (resId 14 d) 0xFF 0xFF 0 []) 8) d) d; (num u 0x2011 (d + 1) = 2))) ∧
    (∃ (d : Nat) (s : State), (domState s d = 2) ∧ (d ≤ 1 ∨ d = 16)) ∧
    (∃ (d : Nat) (s : State), (regulated d = true) ∧ (domState s d ≠ 0) ∧ (sfind s.pwr.marginLow d = none) ∧ (biasOf s d ≠ 0)) ∧
    (∃ (d : Nat) (t : Nat) (s : State), (sfind s.pwr.marginLow d = some t) ∧ (t + 999 ≤ s.det.now)) :=
  ⟨⟨195, setDom n0 195 4, by decide +kernel⟩,
   ⟨20, setDom n0 20 4, by decide +kernel⟩,
   ⟨195, setDom n0 195 0, by decide +kernel⟩,
   ⟨20, ww0, n0mv 20 0, by decide +kernel⟩,
   ⟨20, ww0, n0mv 20 1, by decide +kernel⟩,
   ⟨20, ww0, n0mv 20 4, by decide +kernel⟩,
   ⟨195, setDom n0 195 4, by decide +kernel⟩,
   ⟨180, -128, setDom n0 180 4, by decide +kernel⟩,
   ⟨180, 127, setDom n0 180 3, by decide +kernel⟩,
   ⟨180, setDom n0 180 2, by decide +kernel⟩,
   ⟨15, setDom n0 15 3, by decide +kernel⟩,
   ⟨180, 127, setDom n0 180 2, by decide +kernel⟩,
   ⟨zeros 25, by decide +kernel⟩,
   ⟨180, setNum (setDom n0 180 2) 0x2011 181 2, by decide +kernel⟩,
   ⟨16, setDom n0 16 2, by decide +kernel⟩,
   ⟨20, pwr0 (fun p => { p with level := [(20, 1)] }) (setDom n0 20 4), by decide +kernel⟩,
   ⟨20, 0, atT 999 (pwr0 (fun p => { p with marginLow := [(20, 0)] }) n0), by decide +kernel⟩⟩

theorem witness_PowerLoopsComplete :
    (∃ (s : State), (bringUpDemand s = false) ∧ (s.pwr.avsAt + usT (num s 0x2003 2) ≤ s.det.now)) ∧
    (∃ (s : State), (s.pwr.stepAt = none) ∧ (wantDiv s false < divT s) ∧ (num s 0x2001 5 ≠ 1)) ∧
    (∃ (s : State), (s.pwr.stepAt = none) ∧ (divT s < wantDiv s false) ∧ (num s 0x2001 5 ≠ 1)) ∧
    (∃ (s : State), (s.pwr.stepAt = none) ∧ (wantDiv s true < divC s) ∧ (num s 0x2001 5 ≠ 1)) ∧
    (∃ (s : State), (s.pwr.stepAt = none) ∧ (divC s < wantDiv s true) ∧ (num s 0x2001 5 ≠ 1) ∧ (s.pwr.powerT ≠ 8)) ∧
    (∃ (m : Nat) (s : State), (s.pwr.pl2At + msT 1 ≤ s.det.now) ∧ (m ≤ 480000)) ∧
    (∃ (m : Nat) (x : Nat × Nat) (s : State), (s.pwr.pl2At + msT 1 ≤ s.det.now) ∧ (480000 < m) ∧
         (stepDown (setNum { s with pwr := { s.pwr with pl2At := s.det.now } } 0x2002 1 m) s.pwr.powerT s.pwr.powerC = some x)) ∧
    (∃ (s : State), (max (divT s) s.pwr.powerT < 8 ∨ max (divC s) s.pwr.powerC < 6)) ∧
    (∃ (tau : Nat) (last : Nat) (x : Nat × Nat) (s : State), (num s 0x2001 5 ≠ 1) ∧ (s.pwr.pl1At + msT 10 ≤ s.det.now) ∧ (pl1W s * 1000 < tau) ∧ (98 * (pl1W s * 1000) < 100 * last) ∧
         (stepDown { s with pwr := { s.pwr with pl1At := s.det.now } } s.pwr.powerT s.pwr.powerC = some x)) ∧
    (∃ (tau : Nat) (last : Nat) (x : Nat × Nat) (s : State), (num s 0x2001 5 ≠ 1) ∧ (s.pwr.pl1At + msT 10 ≤ s.det.now) ∧ (100 * tau < 95 * (pl1W s * 1000)) ∧
         (100 * last < 95 * (pl1W s * 1000)) ∧ (stepUp s.pwr.powerT s.pwr.powerC = some x)) ∧
    (∃ (d : Nat) (c : Int) (x : Nat × Nat) (s : State), (throttleC s ≤ c) ∧ (d ≤ 196) ∧ (throttleDue s (msT 1) = true) ∧ (stepDown s s.pwr.thermalT s.pwr.thermalC = some x)) ∧
    (∃ (c : Int) (x : Nat × Nat) (s : State), (c < throttleC s - 5) ∧ (throttleDue s (msT 10) = true) ∧ (stepUp s.pwr.thermalT s.pwr.thermalC = some x)) ∧
    (∃ (d : Nat) (c : Int) (s : State), (105 ≤ c) ∧ (d ≤ 196) ∧ (s.pwr.hot105 = false)) ∧
    (∃ (c : Int), (c < 100)) ∧
    (∃ (d : Nat) (c : Int) (s : State), (120 ≤ c) ∧ (d ≤ 196) ∧ (s.pwr.tripped = false)) ∧
    (∃ (ch : Nat) (s : State), (ch < 22) ∧ (num s 0x2005 1 ≠ 1) ∧ (num s 0x2000 1 = 0) ∧ (s.tier.up = true) ∧ (sfind s.pwr.eyeAt ch = none) ∧
         (s.pwr.eye.any (fun e => e.1 / 256 == ch && (decide (16 ≤ e.2.1.natAbs) || decide (16 ≤ e.2.2.natAbs))) = false)) :=
  ⟨⟨atT (secT 1000) n0, by decide +kernel⟩,
   ⟨n0div 8 4 id, by decide +kernel⟩,
   ⟨n0div 5 4 (fun p => { p with powerT := 8 }), by decide +kernel⟩,
   ⟨n0div 5 6 id, by decide +kernel⟩,
   ⟨n0div 5 4 (fun p => { p with powerC := 6 }), by decide +kernel⟩,
   ⟨480000, atT (secT 1) n0, by decide +kernel⟩,
   ⟨480001, (6, 0), atT (secT 1) (n0div 5 4 id), by decide +kernel⟩,
   ⟨n0div 5 4 id, by decide +kernel⟩,
   ⟨10 ^ 9, 10 ^ 9, (6, 0), atT (secT 1) (n0div 5 4 id), by decide +kernel⟩,
   ⟨0, 0, (0, 5), atT (secT 1) (n0div 5 4 (fun p => { p with powerC := 6 })), by decide +kernel⟩,
   ⟨196, 127, (6, 0), atT (secT 1) (n0div 5 4 id), by decide +kernel⟩,
   ⟨-128, (0, 5), atT (secT 1) (n0div 5 4 (fun p => { p with thermalC := 6 })), by decide +kernel⟩,
   ⟨196, 105, n0, by decide +kernel⟩,
   ⟨99, by decide +kernel⟩,
   ⟨196, 120, n0, by decide +kernel⟩,
   ⟨21, n0t, by decide +kernel⟩⟩

theorem witness_DeviceCommandsComplete :
    (∃ (s : State), (num s 0x2000 1 = 0)) ∧
    (∃ (s : State), (num s 0x2000 1 = 0) ∧ (lowAllowed s 2 = true)) ∧
    (∃ (s : State), (num s 0x2000 2 = 1) ∧ (num s 0x2000 1 = 0) ∧ (num s 0x2000 4 = 7) ∧ (hasWork s = false)) ∧
    (∃ (s : State), (num s 0x2000 1 = 1)) ∧
    (∃ (s : State), (num s 0x2000 1 = 2)) ∧
    (∃ (s : State), (num s 0x2000 2 = 3) ∧ (num s 0x2000 1 ≤ 1) ∧ (anyDraining s = false) ∧ (lowAllowed s 3 = true)) ∧
    (∃ (s : State), (num s 0x2000 1 = 3) ∧ (num s 0x2000 2 ≠ 3)) ∧
    (∃ (s : State), (num s 0x2020 2 = 1)) ∧
    (∃ (s : State), (num s 0x2020 2 = 1) ∧ (s.pwr.refclk = true) ∧ (s.pwr.vstby = true)) ∧
    (∃ (s : State), (4 ≤ num s 0x2000 4) ∧ (num s 0x2000 4 ≤ 7)) ∧
    (∃ (s : State), (s.pwr.refclk = true)) ∧
    (∃ (s : State), (s.pwr.refclk = false)) ∧
    (∃ (s : State), (s.pwr.vstby = false)) ∧
    (∃ (s : State), (s.pwr.vstby = true) ∧ (num s 0x2020 2 ≠ 1)) ∧
    (∃ (s : State), (num s 0x2020 1 ≠ 1)) ∧
    (∃ (s : State), (num s 0x2020 1 = 1) ∧ (let u := { latch (setNum s 0x2020 1 0) 9 with pwr := { (latch (setNum s 0x2020 1 0) 9).pwr with sledGone := true } }; (num u 0x2000 1 ≤ 2) ∧
         (num u 0x2100 1 ≠ 3))) :=
  ⟨⟨n0, by decide +kernel⟩,
   ⟨n0, by decide +kernel⟩,
   ⟨setNum n0 0x2000 2 1, by decide +kernel⟩,
   ⟨setNum n0 0x2000 1 1, by decide +kernel⟩,
   ⟨setNum n0 0x2000 1 2, by decide +kernel⟩,
   ⟨setNum { n0t with tier := { n0t.tier with larderFitted := List.replicate 16 64 } } 0x2000 2 3, by decide +kernel⟩,
   ⟨setNum n0 0x2000 1 3, by decide +kernel⟩,
   ⟨n0, by decide +kernel⟩,
   ⟨n0, by decide +kernel⟩,
   ⟨n0, by decide +kernel⟩,
   ⟨n0, by decide +kernel⟩,
   ⟨pwr0 (fun p => { p with refclk := false }) n0, by decide +kernel⟩,
   ⟨pwr0 (fun p => { p with vstby := false }) n0, by decide +kernel⟩,
   ⟨setNum n0 0x2020 2 0, by decide +kernel⟩,
   ⟨n0, by decide +kernel⟩,
   ⟨setNum n0 0x2020 1 1, by decide +kernel⟩⟩

/-- The node at stage `k` of its bring-up. -/
def stage (k : Nat) : State := setNum n0 0x2000 4 k

/-- The flash cells of bytes from an address on. -/
def cells (a : Nat) (b : Bytes) : Sparse Byte := (List.range' a b.length).map (fun x => (x, b.getD (x - a) 0))

theorem sget_append {α : Type} (d : Nat → α) (l m : Sparse α) (k : Nat) : sget d (l ++ m) k = sget (sget d m) l k := by
  induction l with
  | nil => rfl
  | cons e t ih => cases e; simp only [List.cons_append, sget, ih]

theorem sget_run {α : Type} (d : Nat → α) (g : Nat → α) (k n : Nat) (a : Nat) :
    sget d ((List.range' a n).map (fun x => (x, g x))) k = if a ≤ k ∧ k < a + n then g k else d k := by
  induction n generalizing a with
  | zero => rw [if_neg (by omega)]; rfl
  | succ n ih =>
    rw [List.range'_succ, List.map_cons, sget, ih]
    by_cases h : k = a
    · subst h; simp
    · rw [if_neg h]; congr 1; apply propext; omega

theorem sget_cells (d : Nat → Byte) (a k : Nat) (b : Bytes) : sget d (cells a b) k = if a ≤ k ∧ k < a + b.length then b.getD (k - a) 0 else d k :=
  sget_run d (fun x => b.getD (x - a) 0) k b.length a

theorem read_cells {s : State} {l m : Sparse Byte} {a n : Nat} {b : Bytes} (hf : s.pwr.flash = l ++ cells a b ++ m) (hn : b.length = n)
    (hl : ∀ k, a ≤ k → k < a + n → ∀ d : Nat → Byte, sget d l k = d k) : flashRead s a n = b := by
  subst hn
  apply List.ext_getElem (by simp [flashRead, upTo])
  intro i h1 h2
  simp only [flashRead, upTo, flashGet, hf, List.getElem_map, List.getElem_range, List.append_assoc, sget_append]
  rw [hl _ (by omega) (by omega), sget_append, sget_cells, if_pos ⟨by omega, by omega⟩]
  simp [List.getD_eq_getElem?_getD, h2]

/-- A header of an image without contents that the root key has signed. The digest of the root key is a free value (Config.rootByte),
     so that no such header can be written out: what rests on a signed image is shown
for whichever header the key has signed. -/
def Signed (h : Bytes) (kind : Nat) : Prop :=
  h.length = 512 ∧ imageSigned h = true ∧ bfld h 0 4 = 0x4E495951 ∧ bfld h 4 1 = 1 ∧ bfld h 5 1 = kind ∧ bfld h 0x0C 4 = 0 ∧ slice h 0x30 48 = sha384 [] ∧ bfld h 8 4 = 1

theorem valid_of {s : State} {off kind room floor : Nat} {h : Bytes} (hs : Signed h kind) (hr : flashRead s off 512 = h) (hm : 512 ≤ room) (hf : floor ≤ 1) :
    imageValid s off room kind floor = true := by
  obtain ⟨h1, h2, h3, h4, h5, h6, h7, h8⟩ := hs
  have e : flashRead s (off + 512) 0 = [] := rfl
  simp [imageValid, hr, h2, h3, h4, h5, h6, h7, h8, e, hm, hf]

/-- The boot record that names image 1, with its trial field. -/
def record0 (trial : Byte) : Bytes :=
  let b := toLe 4 0x52425951 ++ toLe 4 1 ++ [1, trial] ++ zeros 38
  b ++ slice (sha384 b) 0 48

/-- The state with that record in copy 0 and `h` in a place. -/
def flashed (trial : Byte) (a : Nat) (h : Bytes) (s : State) : State := { s with pwr := { s.pwr with flash := cells 0x80000 (record0 trial) ++ cells a h } }

theorem toLe_len (n v : Nat) : (toLe n v).length = n := by
  induction n generalizing v with
  | zero => rfl
  | succ n ih => simp [toLe, ih]

theorem record_len (t : Byte) : (record0 t).length = 96 := by
  simp only [record0, List.length_append, slice, zeros, List.length_replicate, List.length_cons, List.length_nil, toLe_len, List.length_take, List.length_drop]
  omega

theorem read_image {t : Byte} {a : Nat} {h : Bytes} {s : State} (hl : h.length = 512) (ha : a + 512 ≤ 0x80000 ∨ 0x80060 ≤ a) : flashRead (flashed t a h s) a 512 = h := by
  refine read_cells (l := cells 0x80000 (record0 t)) (m := []) (by simp [flashed]) hl ?_
  intro k h1 h2 d
  rw [sget_cells, record_len, if_neg (by omega)]

theorem read_record {t : Byte} {a : Nat} {h : Bytes} {s : State} : flashRead (flashed t a h s) 0x80000 96 = record0 t :=
  read_cells (l := []) (m := cells a h) (by simp [flashed]) (record_len t) (fun _ _ _ _ => rfl)

theorem best_record {a : Nat} {h : Bytes} {s : State} (hl : h.length = 512) (ha : 0x100000 ≤ a) : bestRecord (flashed 0 a h s) = some (0, 1, 1, 0) := by
  have h1 : bootRecord (flashed 0 a h s) 0 = some (1, 1, 0) := by
    have e : flashRead (flashed 0 a h s) (0x80000 + 0x10000 * 0) 96 = record0 0 := read_record
    unfold bootRecord
    rw [e]
    decide +kernel
  have h2 : bootRecord (flashed 0 a h s) 1 = none := by
    have e : flashRead (flashed 0 a h s) (0x80000 + 0x10000 * 1) 96 = List.replicate 96 255 := by
      apply List.ext_getElem (by simp [flashRead, upTo])
      intro i i1 i2
      simp only [flashRead, upTo, List.length_map, List.length_range] at i1
      simp only [flashRead, upTo, flashGet, flashed, List.getElem_map, List.getElem_range, sget_append, List.getElem_replicate]
      rw [sget_cells, record_len, if_neg (by omega), sget_cells, hl, if_neg (by omega)]
    unfold bootRecord
    rw [e]
    decide +kernel
  unfold bestRecord; rw [h1, h2]

/-- The clauses about signed images: whatever the root key has signed meets them. -/
theorem witness_BootCommandsComplete_signed (h g : Bytes) (hh : Signed h 1) (hg : Signed g 2) :
    (∃ s : State, num s 0x2000 4 = 2 ∧ s.pwr.runLoader = 0 ∧ loaderValid s 1 = true) ∧
    (∃ (c seq a : Nat) (s : State), num s 0x2000 4 = 3 ∧ s.pwr.runImage = 0 ∧ bestRecord s = some (c, seq, a, 0) ∧ (a = 1 ∨ a = 2) ∧ firmwareValid s a = true) ∧
    (∃ s : State, num s 0x2006 4 = 1 ∧ firmwareValid s (otherImage s) = true) :=
  ⟨⟨flashed 0 0 h (stage 2), rfl, rfl, valid_of hh (read_image hh.1 (by omega)) (by omega) (Nat.zero_le 1)⟩,
   ⟨0, 1, 1, flashed 0 0x100000 g (stage 3), rfl, rfl, best_record hg.1 (by omega), .inl rfl, valid_of hg (read_image hg.1 (by omega)) (by omega) (Nat.zero_le 1)⟩,
   ⟨flashed 0 0x100000 g (setNum (setNum n0 0x2006 4 1) 0x1003 4 2), rfl, valid_of hg (read_image hg.1 (by omega)) (by omega) (Nat.zero_le 1)⟩⟩

theorem witness_BootCommandsComplete :
    (∃ (s : State), (num s 0x2000 4 = 2) ∧ (s.pwr.runLoader = 0) ∧ (loaderValid s 1 = false) ∧ (loaderValid s 2 = false)) ∧
    (∃ (s : State), (num s 0x2000 4 = 0) ∧ (num s 0x2020 2 = 1) ∧ (s.pwr.refclk = true) ∧ (s.pwr.vstby = true) ∧ (s.pwr.perst = false) ∧ (s.pwr.tripped = false)) ∧
    (∃ (s : State), (num s 0x2000 4 = 1) ∧ (hemValid s.sec.hem = true)) ∧
    (∃ (s : State), (num s 0x2000 4 = 2) ∧ (s.pwr.runLoader ≠ 0)) ∧
    (∃ (s : State), (num s 0x2000 4 = 3) ∧ (s.pwr.runImage ≠ 0)) ∧
    (∃ (s : State), (num s 0x2000 4 = 4)) ∧
    (∃ (s : State), (num s 0x2000 4 = 5)) ∧
    (∃ (s : State), (num s 0x2000 4 = 6) ∧ (num s 0x2100 3 ≠ 1)) ∧
    (∃ (s : State), (num s 0x2006 6 = 0)) ∧
    (∃ (v : Bytes) (s : State), (v.length ≤ 65536) ∧ (num s 0x2006 4 = 1) ∧ (num s 0x2006 2 = s.pwr.received) ∧ (s.pwr.received + v.length ≤ 0x1000000)) ∧
    (∃ (s : State), (num s 0x2006 4 = 1) ∧ (firmwareValid s (otherImage s) = false)) ∧
    (∃ (s : State), (num s 0x2006 4 = 2) ∧ (bit (bfld (flashRead s (imageOff (otherImage s)) 512) 7 1) 0 = false)) ∧
    (∃ (x : Nat × Nat × Nat × Nat) (s : State), (bestRecord s = some x) ∧ (x.2.2.2 ≠ 0)) :=
  ⟨⟨stage 2, by decide +kernel⟩,
   ⟨{ stage 0 with pwr := { n0.pwr with perst := false } }, by decide +kernel⟩,
   ⟨stage 1, by decide +kernel⟩,
   ⟨{ stage 2 with pwr := { n0.pwr with runLoader := 1 } }, by decide +kernel⟩,
   ⟨{ stage 3 with pwr := { n0.pwr with runImage := 1 } }, by decide +kernel⟩,
   ⟨stage 4, by decide +kernel⟩,
   ⟨stage 5, by decide +kernel⟩,
   ⟨stage 6, by decide +kernel⟩,
   ⟨n0, by decide +kernel⟩,
   ⟨zeros 8, setNum n0 0x2006 4 1, by decide +kernel⟩,
   ⟨setNum n0 0x2006 4 1, by decide +kernel⟩,
   ⟨{ setNum n0 0x2006 4 2 with pwr := { n0.pwr with flash := [(0x100007, 0), (0x1100007, 0)] } }, by decide +kernel⟩,
   ⟨(0, 1, 1, 1), flashed 1 0x100000 [] n0, by decide +kernel⟩⟩

/-- The state of a step's next outcome. -/
def nextOf (r : Res) : State := match r with | .next t => t | _ => n0

/-- Does it answer a next state? -/
def isNext (r : Res) : Bool := match r with | .next _ => true | _ => false

theorem next_of {r : Res} (h : isNext r = true) : r = .next (nextOf r) := by cases r <;> first | rfl | cases h

/-- A kept response. -/
def kept0 : Response := { opcode := 9, tag := 7, abort := 0, body := [] }

/-- A PING. -/
def ping0 : Frame := tagged (i3cFrame 5 (toLe 2 9 ++ toLe 2 7)) []

theorem ping_taken {s : State} (hk : (getSess s 16).c2d = [])
    (h : (pbpUp s .i3c { v6 := false, dst := 9, port := 0, phy := 0 } && !badFrame (i3cFrame 5 (toLe 2 9 ++ toLe 2 7)) && (slotOf s (i3cFrame 5 (toLe 2 9 ++ toLe 2 7)) == some 16) &&
      !(getSess s 16).halfOpen && decide ((getSess s 16).clientSeq < 1)) = true) : frameTaken s ping0 5 16 = true := by
  refine taken hk ?_
  simp only [Bool.and_eq_true] at h ⊢
  obtain ⟨⟨⟨⟨h1, h2⟩, h3⟩, h4⟩, h5⟩ := h
  exact ⟨⟨⟨⟨⟨⟨h1, h2⟩, rfl⟩, by decide⟩, h3⟩, h4⟩, h5⟩

theorem witness_ProveTimeLimit :
    (∃ (k : Nat) (s : State), ((getSess s k).inUse = true) ∧ ((getSess s k).halfOpen = true) ∧ ((getSess s k).openedAt + secT 5 ≤ s.det.now)) ∧
    (∃ (k : Nat) (s : State), (s.det.now < (getSess s k).openedAt + secT 5)) ∧
    (∃ (f : Frame) (k : Nat) (s : State), (pbpUp s f.tr f.via = true) ∧ (badFrame f = false) ∧ (f.ftype = 3) ∧ (f.body.length = 193) ∧ (slotOf s f = some k) ∧
         ((getSess s k).halfOpen = true) ∧ ((getSess s k).openedAt + secT 5 < s.det.now)) :=
  ⟨⟨16, atT (secT 5) n0half, by decide +kernel⟩,
   ⟨16, n0half, by decide +kernel⟩,
   ⟨i3cFrame 3 (zeros 193), 16, atT (secT 5 + 1) n0half, by decide +kernel⟩⟩

theorem witness_MalformedFramesAreCounted : ∃ (f : Frame) (s : State), (pbpUp s f.tr f.via = true) ∧ (((f.tr = .eth ∧ f.version ≠ 1) ∨ f.ftype = 0 ∨ 10 < f.ftype)) :=
  ⟨i3cFrame 11 [], n0i, by decide +kernel⟩

theorem witness_KeptResponsesAnswerAgain :
    (∃ (f : Frame) (k : Nat) (r : Response) (s : State), (frameTaken s f 5 k = true) ∧ ((getSess s k).kept.find? (fun r => r.tag == pbTag f) = some r)) ∧
    (∃ (f : Frame) (k : Nat) (s : State), (frameTaken s f 5 k = true) ∧ ((getSess s k).kept.find? (fun r => r.tag == pbTag f) = none) ∧
         ((if isI3c k then 1 else 8) ≤ (getSess s k).outstanding) ∧ (pbOpcode f = 9)) :=
  ⟨⟨ping0, 16, kept0, setSess n0i 16 { owner with kept := [kept0] }, ⟨ping_taken (by decide +kernel) (by decide +kernel), by decide +kernel⟩⟩,
   ⟨ping0, 16, setSess n0i 16 { owner with outstanding := 1 }, ⟨ping_taken (by decide +kernel) (by decide +kernel), by decide +kernel⟩⟩⟩

theorem witness_RoleKeyWrites :
    (∃ (e : Nat) (v : Bytes), (1 ≤ e) ∧ (e ≤ 16) ∧ (v.length ≠ 0) ∧ (v.length ≠ 98)) ∧
    (∃ (e : Nat) (v : Bytes), (1 ≤ e) ∧ (e ≤ 16) ∧ (v.length = 98) ∧ (2 < bfld v 0 1)) ∧
    (∃ (e : Nat) (v : Bytes), (1 ≤ e) ∧ (e ≤ 16) ∧ (v.length = 98) ∧ (bfld v 0 1 = 1 ∨ bfld v 0 1 = 2) ∧ ((ecDecode (v.drop 1)).isSome = false)) ∧
    (∃ (e : Nat) (v : Bytes), (1 ≤ e) ∧ (e ≤ 16) ∧ (v.length = 98) ∧ (bfld v 0 1 = 0)) :=
  ⟨⟨16, [1], by decide +kernel⟩,
   ⟨16, 3 :: zeros 97, by decide +kernel⟩,
   ⟨1, 2 :: zeros 97, by decide +kernel⟩,
   ⟨1, zeros 98, by decide +kernel⟩⟩

theorem witness_BoltQueryIsPerSession :
    (∃ (v : Bytes), (v.length = 8)) ∧
    (∃ (j : Nat) (k : Nat), (j ≠ k)) ∧
    (∃ (s : State) (x : Session), (x.boltQuery < s.tier.unifiedSize)) ∧
    (∃ (s : State) (x : Session), (s.tier.unifiedSize ≤ x.boltQuery)) :=
  ⟨⟨zeros 8, by decide +kernel⟩,
   ⟨16, 17, by decide +kernel⟩,
   ⟨n0t, owner, by decide +kernel⟩,
   ⟨n0, owner, by decide +kernel⟩⟩

theorem witness_StickyRecordsAreCleared : ∃ (c : Nat), (1 ≤ c) ∧ (c ≤ 0xFF) :=
  ⟨0xFF, by decide +kernel⟩

theorem witness_DetectionsAreRecorded : ∃ (s : State) (code : Nat), (Objects.wf s.obj = true) ∧ (1 ≤ code) ∧ (code ≤ 0xFF) :=
  ⟨n0, 0xFF, by decide +kernel⟩

theorem witness_SweepFollowsItsFormulas : ∃ (b : Nat) (s : State), ((getBolt s b).home = 1 ∨ (getBolt s b).home = 3) ∧ ((∀ t,
     (getBolt s b).sweptAt = some t → t + agePeriod s (getBolt s b).home ≤ s.det.now)) ∧ (evacuated s (getBolt s b).home (unitOfSlot s (getBolt s b).home (getBolt s b).slot) = false) :=
  ⟨0, atT (msT 100000000) (n0g 4096 1), ⟨by decide +kernel, at_time 0 (by decide +kernel) (by decide +kernel), by decide +kernel⟩⟩

theorem witness_AntiRollbackOnlyRises :
    (∃ (v : Bytes) (s : State), (v.length = 4) ∧ ((leNat v ≤ s.sec.hem.arbFirmwareFuse ∨ 64 < leNat v ∨ num s 0x1003 3 < leNat v ∨ imageSecurity s (imageOff (otherImage s)) < leNat v))) ∧
    (∃ (v : Bytes) (s : State), (v.length = 4) ∧ ((leNat v ≤ s.sec.hem.arbLoaderFuse ∨ 64 < leNat v ∨ num s 0x2A22 3 < leNat v))) ∧
    (∃ (v : Bytes) (s : State), (v.length = 4) ∧ (s.sec.hem.arbFirmwareFuse < leNat v) ∧ (leNat v ≤ 64) ∧ (leNat v ≤ num s 0x1003 3) ∧
         (leNat v ≤ imageSecurity s (imageOff (otherImage s)))) :=
  ⟨⟨[65, 0, 0, 0], n0fw, by decide +kernel⟩,
   ⟨zeros 4, n0fw, by decide +kernel⟩,
   ⟨[1, 0, 0, 0], n0fw, by decide +kernel⟩⟩

theorem witness_MapCommitFollowsTheEpoch :
    (∃ (v : Bytes) (s : State), (v.length = 2) ∧ (leNat v ≠ (s.route.epoch + 1) % 65536)) ∧
    (∃ (v : Bytes) (s : State), (v.length = 2) ∧ (leNat v = (s.route.epoch + 1) % 65536) ∧ (s.route.copying = false) ∧ (s.acc.issued = [])) ∧
    (∃ (s : State), (s.route.copying = true) ∧ (s.route.heldStage = [])) :=
  ⟨⟨[7, 0], n0, by decide +kernel⟩,
   ⟨toLe 2 ((n0.route.epoch + 1) % 65536), n0, by decide +kernel⟩,
   ⟨{ n0 with route := { n0.route with copying := true } }, by decide +kernel⟩⟩

theorem witness_WrongLengthsAreRefused :
    (∃ (v : Bytes), (v.length ≠ 1)) ∧
    (∃ (d : Nat) (v : Bytes) (s : State), (d < 196) ∧ (domDisabled s d = false) ∧ (v.length ≠ 2)) ∧
    (∃ (v : Bytes), (v.length ≠ 2)) ∧
    (∃ (v : Bytes), (v.length ≠ 4)) ∧
    (∃ (v : Bytes), (v.length ≠ 8)) ∧
    (∃ (v : Bytes), (v.length ≠ 24)) ∧
    (∃ (v : Bytes), (v.length ≠ 25)) ∧
    (∃ (v : Bytes), (v.length ≠ 40)) ∧
    (∃ (v : Bytes), (v.length ≠ 64)) :=
  ⟨⟨[], by decide +kernel⟩,
   ⟨195, [], n0, by decide +kernel⟩,
   ⟨[], by decide +kernel⟩,
   ⟨[], by decide +kernel⟩,
   ⟨[], by decide +kernel⟩,
   ⟨[], by decide +kernel⟩,
   ⟨[], by decide +kernel⟩,
   ⟨[], by decide +kernel⟩,
   ⟨[], by decide +kernel⟩⟩

theorem witness_FarAtomicElements :
    (∃ (t : Nat), (t < 4)) ∧
    (∃ (t : Nat), (t = 1 ∨ t = 3)) ∧
    (∃ (x : Nat) (y : Nat), (x < 2 ^ 32) ∧ (y < 2 ^ 32)) ∧
    (∃ (x : Nat) (y : Nat), (isNan (fdec fmtF32 x) = true ∨ isNan (fdec fmtF32 y) = true)) ∧
    (∃ (x : Nat) (y : Nat), (isNan (fdec fmtBf16 x) = true ∨ isNan (fdec fmtBf16 y) = true)) :=
  ⟨⟨3, by decide +kernel⟩,
   ⟨3, by decide +kernel⟩,
   ⟨2 ^ 32 - 1, 1, by decide +kernel⟩,
   ⟨0x7FC00000, 0, by decide +kernel⟩,
   ⟨0, 0x7FC0, by decide +kernel⟩⟩

theorem witness_DivisorsMoveOnePosition :
    (∃ (s : State) (t : State), (Objects.wf s.obj = true) ∧ (exec (.divisorStep false) s = .next t)) ∧
    (∃ (s : State) (t : State), (Objects.wf s.obj = true) ∧ (exec (.divisorStep true) s = .next t)) ∧
    (∃ (s : State) (t0 : Nat), (s.pwr.stepAt = some t0) ∧ (s.det.now < t0 + usT 10)) :=
  ⟨⟨n0div 8 4 id, nextOf (exec (.divisorStep false) (n0div 8 4 id)), ⟨by decide +kernel, next_of (by decide +kernel)⟩⟩,
   ⟨n0div 5 6 id, nextOf (exec (.divisorStep true) (n0div 5 6 id)), ⟨by decide +kernel, next_of (by decide +kernel)⟩⟩,
   ⟨pwr0 (fun p => { p with stepAt := some 0 }) n0, 0, by decide +kernel⟩⟩

theorem witness_DemandsStayInRange : ∃ (c : Instr) (s : State) (t : State), (loopCommand c = true) ∧ ((s.pwr.powerT ≤ 8 ∧ s.pwr.powerC ≤ 6 ∧ s.pwr.thermalT ≤ 8 ∧ s.pwr.thermalC ≤ 6)) ∧
     (exec c s = .next t) :=
  ⟨.pl2Sustained, n0div 5 4 id, nextOf (exec .pl2Sustained (n0div 5 4 id)), ⟨rfl, by decide +kernel, next_of (by decide +kernel)⟩⟩

theorem witness_LoopsChangeNoContents : ∃ (c : Instr) (s : State) (t : State), (loopCommand c = true) ∧ (exec c s = .next t) :=
  ⟨.pl2Sustained, n0div 5 4 id, nextOf (exec .pl2Sustained (n0div 5 4 id)), ⟨rfl, next_of (by decide +kernel)⟩⟩

theorem witness_HostExchangesChangeNoContents : ∃ (c : Instr) (s : State) (t : State), (hostExchange c = true) ∧ (exec c s = .next t) :=
  ⟨.spdmGetVersion 0, n0c 3 12, nextOf (exec (.spdmGetVersion 0) (n0c 3 12)), ⟨rfl, next_of (by decide +kernel)⟩⟩

/-! Values from outside the model. -/

/-- FIPS 180-4: the digest of "abc". -/
theorem test_sha384 : sha384 [0x61, 0x62, 0x63] =
    [0xcb, 0x00, 0x75, 0x3f, 0x45, 0xa3, 0x5e, 0x8b, 0xb5, 0xa0, 0x3d, 0x69, 0x9a, 0xc6, 0x50, 0x07, 0x27, 0x2c, 0x32, 0xab, 0x0e, 0xde, 0xd1, 0x63] ++
    [0x1a, 0x8b, 0x60, 0x5a, 0x43, 0xff, 0x5b, 0xed, 0x80, 0x86, 0x07, 0x2b, 0xa1, 0xe7, 0xcc, 0x23, 0x58, 0xba, 0xec, 0xa1, 0x34, 0xc8, 0x25, 0xa7] := by decide +kernel

/-- FIPS 197, C.3: AES-256 of its example block. -/
theorem test_aes : aesBlock (aesKeys ((List.range 32).map (fun k => BitVec.ofNat 8 k))) ((List.range 16).map (fun k => BitVec.ofNat 8 (17 * k))) =
    [0x8e, 0xa2, 0xb7, 0xca, 0x51, 0x67, 0x45, 0xbf, 0xea, 0xfc, 0x49, 0x90, 0x4b, 0x49, 0x60, 0x89] := by decide +kernel

/-- P-384: twice the base point. -/
theorem test_p384 : ecAdd ecG ecG =
    some (0x08d999057ba3d2d969260045c55b97f089025959a6f434d651d207d19fb96e9e4fe0e86ebe0e64f85b96a9c75295df61,
          0x8e80f1fa5b1b3cedb7bfe8dffd6dba74b275d875bc6cc43e904e505f256ab4255ffd43e94d39e22d61501e700a940e80) := by decide +kernel

/-- The worked example of spec/02_pattern_book.md: the header and the body of the request, and the body of the response. -/
theorem test_read_frames : frameHead .eth 1 5 7 12 14 = [0x01, 0x05, 0x0e, 0x00, 0x07, 0x00, 0x00, 0x00, 0x0c, 0x00, 0x00, 0x00, 0x00, 0x00, 0x00, 0x00] ∧
    (readOps (i3cFrame 5 [0x01, 0x00, 0x21, 0x00, 0x03, 0x10, 0x02, 0x00, 0x00, 0x00, 0x00, 0x00, 0x40, 0x05])).maxLen = 0x540 ∧
    toLe 2 1 ++ toLe 2 0x21 ++ toLe 4 0 ++ readBody 2 0 [3] 0 0x540 = [0x01, 0x00, 0x21, 0x00, 0x00, 0x00, 0x00, 0x00, 0x02, 0x00, 0x01, 0x00, 0x00, 0x00, 0x01, 0x00, 0x03] := by decide +kernel

/-- The worked example of spec/04_tiers_and_placement.md: two 128 GiB DIMMs on each channel, 2 TiB on each Cellar channel. -/
theorem test_tier_sizes :
    (sizeTiers n0 { dimms := List.replicate 16 (2 ^ 37, 2 ^ 37), failed := [], cellar := List.replicate 32 (2 ^ 41) }).tier.mapReserve = 15456 * 2 ^ 20 ∧
    (sizeTiers n0 { dimms := List.replicate 16 (2 ^ 37, 2 ^ 37), failed := [], cellar := List.replicate 32 (2 ^ 41) }).tier.unifiedSize = 66107562393600 := by decide +kernel

/-- A worked example of spec/03_address_space_and_regions.md: epochs 0x40, 0x41 and 0x42 with a grace of 500 µs. -/
def epochs (cur prev t now : Nat) : State := atT (usT now) (setNum { n0 with route := { n0.route with epoch := cur, prev := some (prev, usT t) } } 0x2201 2 500)

theorem test_epochs : epochOk (epochs 0x41 0x40 0 300) 0x40 = (true, true) ∧ epochOk (epochs 0x41 0x40 0 620) 0x40 = (false, false) ∧
    epochOk (epochs 0x42 0x41 700 900) 0x41 = (true, true) ∧ epochOk (epochs 0x42 0x41 700 950) 0x40 = (false, false) ∧
    epochOk (epochs 0x42 0x41 700 1250) 0x41 = (false, false) := by decide +kernel

/-- A worked example of spec/03_address_space_and_regions.md: the descriptor of region 37, and what it lets partitions 3, 5 and 7 do. -/
def region37 : Region := parseRegion ([0x00, 0x00, 0x00, 0x00, 0x10, 0x00, 0x00, 0x00] ++ [0x00, 0x00, 0x00, 0x00, 0x04, 0x00, 0x00, 0x00] ++ [0x01, 0x02, 0x03, 0x00] ++ [0x00, 0x00, 0x00, 0x00] ++ [0x20, 0x00, 0x00, 0x00, 0x00, 0x00, 0x00, 0x00] ++ zeros 32)

theorem test_region : region37.base = 0x1000000000 ∧ region37.size = 0x400000000 ∧ region37.valid = true ∧ region37.kind = 2 ∧ hasRight region37 3 true = true ∧
    hasRight region37 5 false = true ∧ hasRight region37 5 true = false ∧ hasRight region37 7 false = false ∧ 37 / 128 = 0 ∧ 37 % 128 + 1 = 0x26 := by decide +kernel

/-- The worked example of spec/15_bell_board.md: Bobbin's source 193 of partition 5 is delivered at 0x8010_3040. -/
def n0src : State :=
  let s := setQueue (setDom n0 6 4) { blk := .bobbin, part := 5, q := 0 } { Queue.reset with irqEn := true, cqTail := 1 }
  { s with bell := { s.bell with enabled := [193], routes := [(193, 13 + 32)], vbase := [(13, 0x8010)] } }

theorem test_deliver : (nextOf (exec (.bbDeliver 13) n0src)).out.head? = some (.coreIrq 6 1 0x80103040 193) := by decide +kernel

/-- A store writes its bytes and no others. -/
theorem test_store : memRead (nextOf (exec (.ordStore (head0 64) [1, 2, 3]) (n0r 1))).mem 63 5 = [0, 1, 2, 3, 0] := by decide +kernel

/-- A store by a partition without the right writes nothing (R123). -/
theorem test_violation : (nextOf (exec (.ordStore { head0 64 with cid := 7 * 16384 } [1, 2, 3]) (n0r 1))).mem = [] := by decide +kernel

/-- A far atomic add of 64 bits wraps. -/
theorem test_atomic : memRead (nextOf (exec (.atomicAdd (head0 0) 3 0 (toLe 8 2)) { n0r 3 with mem := memWrite [] 0 (toLe 8 (2 ^ 64 - 1)) })).mem 0 8 = toLe 8 1 := by decide +kernel

end Sys2Proof.Wit
end

section
/-! The time limit of PROVE (R85): what PBP_PROVE_TIMEOUT and a late PROVE come to. -/
namespace Sys2Proof.Machine

/-- A time span has passed exactly when its end is not after now. -/
theorem due_iff (s : State) (t d : Nat) : due s t d = true ↔ t + d ≤ s.det.now := decide_eq_true_iff

/-- R85: a session that ends for no reason that is told is freed, and nothing is sent. -/
theorem endSession_untold {s : State} {k : Nat} (hu : (getSess s k).inUse = true) :
    ∃ t, endSession s k 0 = setSess t k Session.free ∧ t.out = s.out :=
  ⟨bumpBy { s with pb := { s.pb with subs := s.pb.subs.filter (fun y => y.slot != k) } } 0x2A21 3 2,
    by simp [endSession, hu], by rw [bumpBy_out]⟩

theorem exec_pbpProveTimeout (k : Nat) (s : State) : exec (.pbpProveTimeout k) s = execPbpProveTimeout k s := rfl

theorem exec_pbpProve (f : Frame) (s : State) : exec (.pbpProve f) s = execPbpProve f s := rfl

/-- R85, the time has passed. -/
theorem execPbpProveTimeout_expired {s : State} {k : Nat} (hu : (getSess s k).inUse = true)
    (hh : (getSess s k).halfOpen = true) (hd : (getSess s k).openedAt + secT 5 ≤ s.det.now) :
    execPbpProveTimeout k s = .next (endSession s k 0) := by
  have hdue : due s (getSess s k).openedAt (secT 5) = true := (due_iff ..).mpr hd
  simp [execPbpProveTimeout, hu, hh, hdue]

/-- R85, the time has not passed: the command has no effect (log entry 9). -/
theorem execPbpProveTimeout_inTime {s : State} {k : Nat} (hd : s.det.now < (getSess s k).openedAt + secT 5) :
    execPbpProveTimeout k s = .next s := by
  have hdue : ¬ due s (getSess s k).openedAt (secT 5) = true := by rw [due_iff]; omega
  simp [execPbpProveTimeout, hdue]

/-- R85, log entry 181: a PROVE that comes after the 5 s ends the half-open session it names. -/
theorem execPbpProve_late {s : State} {f : Frame} {k : Nat} (hup : pbpUp s f.tr f.via = true) (hok : badFrame f = false)
    (ht : f.ftype = 3) (hl : f.body.length = 193) (hs : slotOf s f = some k) (hh : (getSess s k).halfOpen = true)
    (hd : (getSess s k).openedAt + secT 5 < s.det.now) : execPbpProve f s = .next (endSession s k 0) := by
  have hdue : due s (getSess s k).openedAt (secT 5 + 1) = true := by rw [due_iff]; omega
  simp [execPbpProve, hup, hok, ht, hl, hs, hh, hdue]

end Sys2Proof.Machine

open Sys2Proof Sys2Proof.Machine

/-- Settles O43: after 5 s both the timeout and a late PROVE end the session for no told reason, and before that the timeout does nothing. -/
theorem proveTimeLimit : Obligations.ProveTimeLimit := by
  refine ⟨fun k s hu hh hd => ?_, fun k s hd => ?_, fun f k s hup hok ht hl hs hh hd => ?_⟩
  · obtain ⟨t, hfree, hout⟩ := endSession_untold hu
    exact ⟨t, by rw [exec_pbpProveTimeout, execPbpProveTimeout_expired hu hh hd, hfree], hout⟩
  · rw [exec_pbpProveTimeout, execPbpProveTimeout_inTime hd]
  · obtain ⟨t, hfree, hout⟩ := endSession_untold (slotOf_used s f k hs)
    exact ⟨t, by rw [exec_pbpProve, execPbpProve_late hup hok ht hl hs hh hd, hfree], hout⟩
end

section
/-! The placement objects that each session holds for itself (R219): what a write of BOLT_QUERY and a read of BOLT_INFO come to. -/
namespace Sys2Proof.Machine

theorem exec_boltQuery (w : Writer) (v : Bytes) (s : State) : exec (.boltQuery w v) s = execBoltQuery w v s := rfl

/-- R219: a query of 8 bytes is accepted and changes the writer's session only. -/
theorem writeBoltQuery_of_length {s : State} {w : Writer} {v : Bytes} (hl : v.length = 8) :
    writeBoltQuery s w v = applied (setSess s w.slot { getSess s w.slot with boltQuery := leNat v }) :=
  if_neg (not_not_intro hl)

/-- R91: a write whose effect is applied at once is answered APPLIED. -/
theorem endWrite_applied (w : Writer) (t : State) : endWrite w (applied t) = .next (written w t) := rfl

/-- R219: the entry is looked up in the state at the read, under the query of the session that reads. -/
theorem viewOf_boltInfo (s : State) (x : Session) (role : Nat) :
    viewOf s x role 0x2308 2 =
      .bytes (if x.boltQuery < s.tier.unifiedSize then boltEntry s (x.boltQuery / 65536) else zeros 16) := rfl

end Sys2Proof.Machine

open Sys2Proof Sys2Proof.Machine

/-- Settles O47: the query stands in the writer's own session, and a read of BOLT_INFO looks up that query in the state at the read. -/
theorem boltQueryIsPerSession : Obligations.BoltQueryIsPerSession := by
  refine ⟨fun w v s hl => ?_, fun s j k x hjk => ?_, fun s x role hin => ?_, fun s x role hout => ?_⟩
  · rw [exec_boltQuery, execBoltQuery, writeBoltQuery_of_length hl, endWrite_applied]
  · exact getSess_setSess_ne s j k x hjk.symm
  · rw [viewOf_boltInfo, if_pos hin]
  · rw [viewOf_boltInfo, if_neg (Nat.not_lt.mpr hout)]
end

section
/-! Memory, the object store and one step: the statements that follow from the laws of the state's operations. -/
namespace Sys2Proof.Machine

/-- Counting at one object leaves every other object as it is. -/
theorem num_bump_ne (s : State) (i k j l : Nat) (h : okey j l ≠ okey i k) : num (bump s i k) j l = num s j l :=
  num_setNum_ne _ _ _ _ _ _ h

/-- Counting at one object leaves the bytes of every other object as they are. -/
theorem blob_bump_ne (s : State) (i k j l : Nat) (h : okey j l ≠ okey i k) : blob (bump s i k) j l = blob s j l :=
  blob_setNum_ne _ _ _ _ _ _ h

/-- A count rises by one, modulo its width. -/
theorem num_bump (s : State) (i k : Nat) (h : Objects.wf s.obj = true) : num (bump s i k) i k = (num s i k + 1) % 2 ^ 64 :=
  num_setNum _ _ _ _ h

/-- Counting keeps the object store's form. -/
theorem bump_wf (s : State) (i k : Nat) (h : Objects.wf s.obj = true) : Objects.wf (bump s i k).obj = true := setObj_wf _ _ _ _ h

/-- Two sub-indices of a record are two objects. -/
theorem okey_sub_ne {i k l : Nat} (hk : k < 256) (hl : l < 256) (h : l ≠ k) : okey i l ≠ okey i k := okey_ne hk hl (.inr h)

/-- The counts of a fault record after a detection: DETECTED's own, COUNT and LAST (R671). -/
def faultCounted (s : State) (code : Nat) : State := setNum (bump (bump s 0x3000 3) (0x3100 + code) 2) (0x3100 + code) 4 s.det.count

theorem faultCounted_wf (s : State) (code : Nat) (h : Objects.wf s.obj = true) : Objects.wf (faultCounted s code).obj = true :=
  setObj_wf _ _ _ _ (bump_wf _ _ _ (bump_wf _ _ _ h))

/-- The counter of all detections is no part of a record. -/
theorem okey_record_ne {code k : Nat} (hk : k < 256) (hc : 1 ≤ code) : okey (0x3100 + code) k ≠ okey 0x3000 3 :=
  okey_ne (by decide) hk (.inl (by omega))

theorem num_faultCounted_sticky (s : State) {code : Nat} (hc : 1 ≤ code) : num (faultCounted s code) (0x3100 + code) 1 = num s (0x3100 + code) 1 := by
  rw [faultCounted, num_setNum_ne _ _ _ _ _ _ (okey_sub_ne (by decide) (by decide) (by decide)),
    num_bump_ne _ _ _ _ _ (okey_sub_ne (by decide) (by decide) (by decide)), num_bump_ne _ _ _ _ _ (okey_record_ne (by decide) hc)]

theorem num_faultCounted_count (s : State) {code : Nat} (hc : 1 ≤ code) (h : Objects.wf s.obj = true) :
    num (faultCounted s code) (0x3100 + code) 2 = (num s (0x3100 + code) 2 + 1) % 2 ^ 64 := by
  rw [faultCounted, num_setNum_ne _ _ _ _ _ _ (okey_sub_ne (by decide) (by decide) (by decide)), num_bump _ _ _ (bump_wf _ _ _ h),
    num_bump_ne _ _ _ _ _ (okey_record_ne (by decide) hc)]

theorem num_faultCounted_last (s : State) (code : Nat) (h : Objects.wf s.obj = true) : num (faultCounted s code) (0x3100 + code) 4 = s.det.count :=
  num_setNum _ _ _ _ (bump_wf _ _ _ (bump_wf _ _ _ h))

theorem blob_faultCounted_first (s : State) {code : Nat} (hc : 1 ≤ code) : blob (faultCounted s code) (0x3100 + code) 3 = blob s (0x3100 + code) 3 := by
  rw [faultCounted, blob_setNum_ne _ _ _ _ _ _ (okey_sub_ne (by decide) (by decide) (by decide)),
    blob_bump_ne _ _ _ _ _ (okey_sub_ne (by decide) (by decide) (by decide)), blob_bump_ne _ _ _ _ _ (okey_record_ne (by decide) hc)]

/-- R671: a detection that names no partition counts, and where STICKY is clear sets it and fills FIRST. -/
theorem recordFault_noPart (s : State) (code res level status addr : Nat) (detail : Bytes) :
    recordFault s code res 0xFF level status addr detail =
      if num (faultCounted s code) (0x3100 + code) 1 = 1 then faultCounted s code
      else setBlob (setNum (faultCounted s code) (0x3100 + code) 1 1) (0x3100 + code) 3 (firstRecord s code res 0xFF level status addr detail) := by
  simp only [recordFault, beq_iff_eq, reduceIte, show ¬ (0xFF < 64) by decide]
  rfl

end Sys2Proof.Machine

open Sys2Proof Sys2Proof.Machine

/-- Settles O1: `step` looks at the queue's front and hands it to `exec`. -/
theorem stepRunsFront : Obligations.StepRunsFront := by
  intro c rest s hq
  unfold step
  rw [hq]

/-- Settles O4: memory is empty at reset, and RESET_CAUSE is the one object away from its default. -/
theorem resetMeetsInvariant : Obligations.ResetMeetsInvariant :=
  ⟨rfl, by decide +kernel⟩

/-- Settles O8. -/
theorem memoryReadsWhatWasWritten : Obligations.MemoryReadsWhatWasWritten :=
  ⟨fun _ a d h => memRead_memWrite d a h, fun m a d x h => memGet_memWrite_out x d m a h, fun _ a d h => memWrite_wf d a h,
    fun m a n x _ h1 h2 => memGet_memZero_in m a n x h1 h2, fun m a n x h => memGet_memZero_out m a n x h⟩

/-- Settles O9. -/
theorem registersReadWhatWasWritten : Obligations.RegistersReadWhatWasWritten :=
  ⟨fun s i k n h => num_setNum s i k n h, fun s i k b h => blob_setBlob s i k b h,
    fun s i k v j l hk hl hne => getObj_setObj_ne s i k j l v (okey_ne hk hl hne), fun s i k v h => setObj_wf s i k v h⟩

/-- Settles O49: the record's counters are written first, and then STICKY and FIRST where STICKY was clear. -/
theorem detectionsAreRecorded : Obligations.DetectionsAreRecorded := by
  intro s code res level status addr detail hwf hlo hhi t
  have hu := faultCounted_wf s code hwf
  have hset := setObj_wf (faultCounted s code) (0x3100 + code) 1 (.num 1) hu
  have ht : t = _ := recordFault_noPart s code res level status addr detail
  rw [num_faultCounted_sticky s hlo] at ht
  by_cases hs : num s (0x3100 + code) 1 = 1
  · rw [if_pos hs] at ht
    rw [ht]
    exact ⟨(num_faultCounted_sticky s hlo).trans hs, num_faultCounted_count s hlo hwf, num_faultCounted_last s code hwf, fun hn => absurd hs hn,
      fun _ => blob_faultCounted_first s hlo⟩
  · rw [if_neg hs] at ht
    have other : ∀ k, k < 256 → k ≠ 1 → k ≠ 3 → num t (0x3100 + code) k = num (faultCounted s code) (0x3100 + code) k := fun k hk h1 h3 => by
      rw [ht, num_setBlob_ne _ _ _ _ _ _ (okey_sub_ne (by decide) hk h3), num_setNum_ne _ _ _ _ _ _ (okey_sub_ne (by decide) hk h1)]
    refine ⟨?_, ?_, ?_, fun _ => ?_, fun h => absurd h hs⟩
    · rw [ht, num_setBlob_ne _ _ _ _ _ _ (okey_sub_ne (by decide) (by decide) (by decide)), num_setNum _ _ _ _ hu]
    · rw [other 2 (by decide) (by decide) (by decide), num_faultCounted_count s hlo hwf]
    · rw [other 4 (by decide) (by decide) (by decide), num_faultCounted_last s code hwf]
    · rw [ht]
      exact blob_setBlob _ _ _ _ hset
end

section
/-! Far atomics on one element (Table 9.2), and the divisor step (R707, R708). -/
namespace Sys2Proof.Machine

/-- The smaller and the larger of two integers under the type's order are those of any map of the elements to a linear order that agrees with it. -/
theorem map_elemMinMax {α : Type} [LinearOrder α] (v : Nat → α) {t : Nat} {x y : Nat} (ht : atypeFloat t = false)
    (hlt : ∀ x y, elemLt t x y = true ↔ v x < v y) :
    v (elemMinMax t false x y) = min (v x) (v y) ∧ v (elemMinMax t true x y) = max (v x) (v y) := by
  simp only [elemMinMax, ht, Bool.false_and, Bool.false_eq_true, reduceIte, hlt, apply_ite v]
  constructor
  · split
    · exact (min_eq_right (le_of_lt ‹_›)).symm
    · exact (min_eq_left (not_lt.mp ‹_›)).symm
  · split
    · exact (max_eq_right (le_of_lt ‹_›)).symm
    · exact (max_eq_left (not_lt.mp ‹_›)).symm

/-- A NaN in either value of a floating-point MIN or MAX gives the format's canonical NaN. -/
theorem elemMinMax_nan {t x y : Nat} (ht : atypeFloat t = true) (h : isNan (fdec (atypeFmt t) x) = true ∨ isNan (fdec (atypeFmt t) y) = true) (b : Bool) :
    elemMinMax t b x y = fnanBits (atypeFmt t) := by
  rw [← Bool.or_eq_true] at h
  simp [elemMinMax, ht, h]

/-- The sum of two integers wraps at the width of the type. -/
theorem elemAdd_int {t : Nat} (ht : atypeFloat t = false) (x y : Nat) : elemAdd t x y = (x + y) % 2 ^ (8 * atypeSize t) := by
  simp [elemAdd, ht]

theorem atypeFloat_int {t : Nat} (ht : t < 4) : atypeFloat t = false := by
  simp [atypeFloat]
  omega

theorem exec_divisorStep (c : Bool) (s : State) : exec (.divisorStep c) s = execDivisorStep c s := rfl

/-- A property that each step of a loop keeps holds at the loop's end. -/
theorem forS_induct {α : Type} {P : State → Prop} {f : State → α → State} (hf : ∀ s a, P s → P (f s a)) : ∀ (l : List α) {s : State}, P s → P (forS l s f)
  | [], _, h => h
  | a :: l, _, h => forS_induct hf l (hf _ a h)

/-- Setting the voltages of a clock's domains touches no object. -/
theorem clockVolts_obj (s : State) (c : Bool) (div : Nat) : (clockVolts s c div).obj = s.obj :=
  forS_induct (P := fun t => t.obj = s.obj) (f := fun t d => setVolt t d (learnedMv t d div)) (fun _ _ h => h) _ rfl

/-- The divisor of a clock: CLK_C's where `c`, CLK_T's otherwise. -/
def divOf (s : State) (c : Bool) : Nat := num s 0x2001 (if c then 2 else 1)

/-- The state after a clock's divisor has become `n` (R707). -/
def divStepped (s : State) (c : Bool) (n : Nat) : State :=
  bump { setNum s 0x2001 (if c then 2 else 1) n with pwr := { s.pwr with stepAt := some s.det.now } } 0x2001 7

/-- A read of an object depends on the object store only. -/
theorem num_congr {s t : State} (h : t.obj = s.obj) (i k : Nat) : num t i k = num s i k := by
  unfold num getObj
  rw [h]

/-- The divisor that has been set is read. -/
theorem divOf_divStepped {s : State} (h : Objects.wf s.obj = true) (c : Bool) (n : Nat) : divOf (divStepped s c n) c = n := by
  unfold divOf divStepped
  rw [num_bump_ne _ _ _ _ _ (okey_sub_ne (by decide) (by split <;> decide) (by split <;> decide))]
  exact num_setNum _ _ _ _ h

/-- The other clock's divisor is left as it is. -/
theorem divOf_divStepped_not (s : State) (c : Bool) (n : Nat) : divOf (divStepped s c n) (!c) = divOf s (!c) := by
  unfold divOf divStepped
  rw [num_bump_ne _ _ _ _ _ (okey_sub_ne (by decide) (by split <;> decide) (by split <;> decide))]
  exact num_setNum_ne _ _ _ _ _ _ (okey_sub_ne (by split <;> decide) (by split <;> decide) (by cases c <;> decide))

/-- R708: what DIVISOR_STEP comes to. It does nothing, or moves its clock one position towards the largest demand, the voltages before or after. -/
theorem execDivisorStep_cases (s : State) (c : Bool) :
    ∃ t, execDivisorStep c s = .next t ∧ (t = s ∨
      (divOf s c < wantDiv s c ∧ t.obj = (divStepped s c (divOf s c + 1)).obj) ∨
      (wantDiv s c < divOf s c ∧ t.obj = (divStepped s c (divOf s c - 1)).obj)) := by
  have hcur : (if c then divC s else divT s) = divOf s c := by cases c <;> rfl
  unfold execDivisorStep
  extract_lets cur want frozen forced soon waits set
  have hset : ∀ (u : State) n, u.obj = s.obj → (set u n).obj = (divStepped s c n).obj := fun u n hu => by
    simp only [set, divStepped, bump, bumpBy, setNum, setObj, num, getObj, hu]
  have hc : cur = divOf s c := hcur
  refine ⟨_, rfl, ?_⟩
  split
  · exact .inl rfl
  · rename_i hstop
    split
    · rename_i hlt
      split
      · exact .inl rfl
      · refine .inr (.inl ⟨hc ▸ hlt, ?_⟩)
        rw [← hc]
        split
        · exact hset s _ rfl
        · rw [clockVolts_obj]
          exact hset s _ rfl
    · split
      · exact .inl rfl
      · have hne : want ≠ cur := fun e => hstop (by simp [e])
        refine .inr (.inr ⟨hc ▸ (by omega : want < cur), ?_⟩)
        rw [← hc]
        exact hset _ _ (clockVolts_obj ..)

/-- R708: at most one clock moves, by at most one position, towards the largest of its demands. -/
theorem execDivisorStep_moves {s t : State} {c : Bool} (hwf : Objects.wf s.obj = true) (h : execDivisorStep c s = .next t) :
    divOf t (!c) = divOf s (!c) ∧
      (divOf t c = divOf s c ∨ (divOf s c < wantDiv s c ∧ divOf t c = divOf s c + 1) ∨ (wantDiv s c < divOf s c ∧ divOf t c + 1 = divOf s c)) := by
  obtain ⟨u, hu, hcases⟩ := execDivisorStep_cases s c
  obtain rfl : u = t := by simpa using hu.symm.trans h
  obtain rfl | ⟨hlt, ho⟩ | ⟨hlt, ho⟩ := hcases
  · exact ⟨rfl, .inl rfl⟩
  · have hread : ∀ d, divOf u d = divOf (divStepped s c (divOf s c + 1)) d := fun d => num_congr ho _ _
    refine ⟨(hread _).trans (divOf_divStepped_not s c _), .inr (.inl ⟨hlt, (hread _).trans (divOf_divStepped hwf c _)⟩)⟩
  · have hread : ∀ d, divOf u d = divOf (divStepped s c (divOf s c - 1)) d := fun d => num_congr ho _ _
    refine ⟨(hread _).trans (divOf_divStepped_not s c _), .inr (.inr ⟨hlt, ?_⟩)⟩
    rw [hread, divOf_divStepped hwf]
    omega

/-- R708: within 10 µs of the last step a step does nothing. -/
theorem execDivisorStep_soon {s : State} {t0 : Nat} (c : Bool) (h0 : s.pwr.stepAt = some t0) (hs : s.det.now < t0 + usT 10) : execDivisorStep c s = .next s := by
  simp [execDivisorStep, h0, hs]

end Sys2Proof.Machine
open Sys2Proof Sys2Proof.Machine

/-- Settles O54. -/
theorem farAtomicElements : Obligations.FarAtomicElements := by
  refine ⟨fun t x y ht => ?_, fun t x y ht => ?_, fun x y _ _ => ?_, fun x y => ?_, fun t c x y => ⟨rfl, fun ht hc => ?_⟩, fun t c x y k => ?_,
    fun x y h => ?_, fun x y h => ?_⟩
  · rw [elemOp, elemAdd_int (atypeFloat_int ht)]
    interval_cases t <;> rfl
  · have hlt : ∀ x y, elemLt t x y = true ↔ x < y := fun x y => by rcases ht with rfl | rfl <;> exact decide_eq_true_iff
    exact map_elemMinMax id (atypeFloat_int (by omega)) hlt
  · exact map_elemMinMax (toSigned 32) (atypeFloat_int (by decide)) fun _ _ => decide_eq_true_iff
  · exact map_elemMinMax (toSigned 64) (atypeFloat_int (by decide)) fun _ _ => decide_eq_true_iff
  · have hw : atypeSize t = 4 := by interval_cases t <;> rfl
    rw [elemOp, hw, Nat.mod_eq_of_lt hc]
  · exact ⟨Nat.testBit_and .., Nat.testBit_or .., Nat.testBit_xor ..⟩
  · exact ⟨elemMinMax_nan (t := 4) rfl h false, elemMinMax_nan (t := 4) rfl h true⟩
  · exact ⟨elemMinMax_nan (t := 5) rfl h false, elemMinMax_nan (t := 5) rfl h true⟩

/-- Settles O55. -/
theorem divisorsMoveOnePosition : Obligations.DivisorsMoveOnePosition :=
  ⟨fun _ _ hwf h => execDivisorStep_moves (c := false) hwf h, fun _ _ hwf h => execDivisorStep_moves (c := true) hwf h,
    fun _ _ c h0 hs => execDivisorStep_soon c h0 hs⟩
end

section
/-! The commit of the staging map (R151, R152), and what a reset loses and keeps (R733). -/
namespace Sys2Proof.Machine

theorem exec_mapCommit (w : Writer) (v : Bytes) (s : State) : exec (.mapCommit w v) s = endWrite w (writeCommit s v) := rfl

theorem exec_mapStageCopyEnd (s : State) : exec .mapStageCopyEnd s = .next (fin (copyEnd s)) := rfl

/-- R91: a refused write is answered with its abort code and changes nothing else. -/
theorem endWrite_refuse (w : Writer) (s : State) (abort : Nat) : endWrite w (refuse s abort) = .next (refused w abort s) := rfl

/-- A request that waits for no epoch, there being none, is not woken. -/
theorem wakeRetries_none {s : State} (h : s.acc.issued = []) : wakeRetries s = s := by
  have hacc : { s.acc with issued := [] } = s.acc := by rw [← h]
  simp only [wakeRetries, h, List.map_nil, List.length_nil, sendReady, hacc]

/-- R151: outside a copy the copy's end has nothing to do. -/
theorem copyEnd_idle {s : State} (h : s.route.copying = false) : copyEnd s = s := by simp [copyEnd, h]

/-- R151: a commit with no copy going on and no request of the node's own. -/
theorem commitMap_idle {s : State} (e : Nat) (hc : s.route.copying = false) (hi : s.acc.issued = []) :
    commitMap s e = { s with route := { s.route with active := s.route.staging, epoch := e, prev := some (s.route.epoch, s.det.now), copying := true } } := by
  unfold commitMap
  rw [copyEnd_idle hc]
  exact wakeRetries_none hi

/-- R151: the end of the copy, with no write of the staging bank held. -/
theorem copyEnd_noHeld {s : State} (hc : s.route.copying = true) (hh : s.route.heldStage = []) :
    copyEnd s = { s with route := { s.route with staging := s.route.active, copying := false } } := by
  simp [copyEnd, hc, hh, forS]

/-- R152: an epoch is good exactly when it is the current one, or the one it replaced while its grace runs. -/
theorem epochOk_iff (s : State) (e : Nat) :
    (epochOk s e).1 = true ↔ e = s.route.epoch ∨ ∃ t, s.route.prev = some (e, t) ∧ s.det.now < t + usT (num s 0x2201 2) := by
  unfold epochOk
  split
  · simp [*]
  · rename_i hne
    split
    · rename_i p t hp
      split
      · rename_i hin
        simp only [Bool.and_eq_true, decide_eq_true_eq] at hin
        simp [hp, hin.1, hin.2]
      · rename_i hout
        simp only [Bool.and_eq_true, decide_eq_true_eq, not_and] at hout
        simp only [Bool.false_eq_true, hne, hp, Option.some.injEq, Prod.mk.injEq, false_or, false_iff, not_exists, not_and, and_imp]
        exact fun u hpe htu => htu ▸ hout hpe.symm
    · rename_i hp
      simp [hne, hp]

/-- A reset writes RESET_CAUSE over what `wipe` leaves, and the sled is looked for again after a power-on or a reset of the sled's own. -/
theorem deviceReset_eq (s : State) (c : Nat) : ∃ pwr : PwrState,
    deviceReset s c = { setNum (wipe s (c != 1)) 0x1003 9 c with pwr := pwr } ∧ pwr.flash = s.pwr.flash := by
  unfold deviceReset
  extract_lets u
  split
  · exact ⟨_, rfl, rfl⟩
  · exact ⟨_, rfl, rfl⟩

end Sys2Proof.Machine
open Sys2Proof Sys2Proof.Machine

/-- Settles O52. -/
theorem mapCommitFollowsTheEpoch : Obligations.MapCommitFollowsTheEpoch := by
  refine ⟨fun w v s hl he => ?_, fun w v s hl he hc hi => ?_, fun s hc hh => ?_, epochOk_iff⟩
  · rw [exec_mapCommit, writeCommit, if_neg (not_not_intro hl), if_pos he, endWrite_refuse]
  · rw [exec_mapCommit, writeCommit, if_neg (not_not_intro hl), if_neg (not_not_intro he), endWrite_applied, commitMap_idle _ hc hi]
  · rw [exec_mapStageCopyEnd, copyEnd_noHeld hc hh]

/-- Settles O59. -/
theorem resetsLoseAndKeep : Obligations.ResetsLoseAndKeep := by
  intro s c
  obtain ⟨pwr, ht, hflash⟩ := deviceReset_eq s c
  rw [ht]
  refine ⟨rfl, rfl, rfl, rfl, rfl, rfl, rfl, rfl, rfl, rfl, rfl, hflash, rfl, fun hc => ?_, fun hc => ?_⟩
  · simp [wipe, hc]
  · simp [wipe, hc]
end

section
/-! What the power and thermal loops (R720 to R725) and a host's SPDM, IDE_KM and mailbox exchanges (R595, R623) leave as it is. -/
namespace Sys2Proof.Machine

/-- A command answers a next state, and the state meets `P`. -/
inductive Answers (P : State → Prop) : Res → Prop
  | next {t : State} (h : P t) : Answers P (.next t)

/-- What a command that answers comes to. -/
theorem Answers.of_next {P : State → Prop} {r : Res} {t : State} (h : Answers P r) (e : r = .next t) : P t := by
  subst e
  cases h
  assumption

/-- A state without what the power and thermal loops may change: outputs, free values, objects, the Bell Board and the power state. -/
def unpowered (s : State) : State := { s with out := [], free := 0, obj := [], bell := BellState.reset, pwr := PwrState.reset }

theorem sameContents_of_unpowered {s t : State} (h : unpowered t = unpowered s) : SameContents s t ∧ t.ports = s.ports := by
  have get {α : Type} (π : State → α) : π (unpowered t) = π (unpowered s) := congrArg π h
  exact ⟨⟨get State.mem, get State.poison, get State.regions, get State.windows, get State.route, get State.acc, get State.tier, get State.coh, get State.ord,
    get State.ver, get State.pb, get State.sec, get State.eng, get State.flt, get State.det, get State.pending⟩, get State.ports⟩

/-- An update of outputs, free values, objects, the Bell Board and the power state leaves the rest as it is. -/
theorem unpowered_same (s : State) {out : List Out} {free : Nat} {obj : Sparse Val} {bell : BellState} {pwr : PwrState} :
    unpowered ⟨s.pending, out, free, obj, s.pb, s.mem, s.poison, s.regions, s.windows, s.route, s.acc, s.tier, s.coh, s.ord, s.ver, s.sec, s.det, bell, s.flt, s.eng,
      s.ports, pwr⟩ = unpowered s := rfl

/-! The operations that the loops use. -/

@[simp] theorem unpowered_setNum (s : State) (i k n : Nat) : unpowered (setNum s i k n) = unpowered s := unpowered_same s
@[simp] theorem unpowered_setBlob (s : State) (i k : Nat) (b : Bytes) : unpowered (setBlob s i k b) = unpowered s := unpowered_same s
@[simp] theorem unpowered_bumpBy (s : State) (i k n : Nat) : unpowered (bumpBy s i k n) = unpowered s := unpowered_same s
@[simp] theorem unpowered_bump (s : State) (i k : Nat) : unpowered (bump s i k) = unpowered s := unpowered_same s
@[simp] theorem unpowered_pwr (s : State) (x : PwrState) : unpowered { s with pwr := x } = unpowered s := unpowered_same s
@[simp] theorem unpowered_setVolt (s : State) (d v : Nat) : unpowered (setVolt s d v) = unpowered s := unpowered_same s
@[simp] theorem unpowered_setPowerDemand (s : State) (x : Nat × Nat) : unpowered (setPowerDemand s x) = unpowered s := unpowered_same s

/-- A loop whose every step leaves the rest as it is does so. -/
theorem unpowered_forS {α : Type} {f : State → α → State} (hf : ∀ s a, unpowered (f s a) = unpowered s) (l : List α) (s : State) : unpowered (forS l s f) = unpowered s :=
  forS_induct (P := fun t => unpowered t = unpowered s) (fun _ _ h => (hf _ _).trans h) l rfl

@[simp] theorem unpowered_msixRise (s : State) (p k : Nat) : unpowered (msixRise s p k) = unpowered s :=
  unpowered_forS (f := fun s n => { s with out := .msix n k :: s.out }) (fun _ _ => rfl) _ s

@[simp] theorem unpowered_latch (s : State) (src : Nat) : unpowered (latch s src) = unpowered s := by
  unfold latch
  extract_lets rise u
  split
  · exact unpowered_msixRise ..
  · rfl

@[simp] theorem unpowered_noteFault (s : State) (code res part status addr : Nat) (detail : Bytes) : unpowered (noteFault s code res part status addr detail) = unpowered s := by
  simp only [noteFault, recordFault, apply_ite unpowered, unpowered_latch, unpowered_setBlob, unpowered_setNum, unpowered_bump, ite_self]

@[simp] theorem unpowered_clockVolts (s : State) (c : Bool) (div : Nat) : unpowered (clockVolts s c div) = unpowered s :=
  unpowered_forS (f := fun t d => setVolt t d (learnedMv t d div)) (fun _ _ => rfl) _ s

@[simp] theorem unpowered_raiseLevel (s : State) (d : Nat) : unpowered (raiseLevel s d) = unpowered s := by
  simp only [raiseLevel, apply_ite unpowered, unpowered_pwr, ite_self]

@[simp] theorem unpowered_levelPeriod (s : State) (low : List Nat) (d : Nat) : unpowered (levelPeriod s low d) = unpowered s := by
  unfold levelPeriod
  extract_lets p stamp
  split
  · rfl
  · split
    · rfl
    · split
      · rfl
      · simp only [apply_ite unpowered, unpowered_pwr, ite_self]

@[simp] theorem unpowered_avsDom (s : State) (d margin : Nat) : unpowered (avsDom s d margin) = unpowered s := by
  simp only [avsDom, apply_ite unpowered, unpowered_bump, unpowered_setVolt, unpowered_pwr, ite_self]

/-! The commands. -/

theorem execAvsPeriod_frame (margins : List (Nat × Nat)) (low : List Nat) (s : State) : Answers (unpowered · = unpowered s) (execAvsPeriod margins low s) := by
  unfold execAvsPeriod
  split
  · exact .next rfl
  · exact .next ((unpowered_forS (fun _ _ => unpowered_levelPeriod ..) _ _).trans (unpowered_forS (fun _ _ => unpowered_avsDom ..) _ _))

theorem execDivisorStep_frame (c : Bool) (s : State) : Answers (unpowered · = unpowered s) (execDivisorStep c s) := by
  refine .next ?_
  simp only [apply_ite unpowered, unpowered_clockVolts, unpowered_bump, unpowered_pwr, unpowered_setNum, ite_self]

theorem execPl2Eval_frame (meanMw : Nat) (s : State) : Answers (unpowered · = unpowered s) (execPl2Eval meanMw s) := by
  unfold execPl2Eval
  extract_lets early p u
  have hu : unpowered u = unpowered s := by simp [u, apply_ite unpowered]
  refine .next ?_
  split
  · exact hu
  · split
    · simp [hu]
    · exact hu

theorem execPl2Sustained_frame (s : State) : Answers (unpowered · = unpowered s) (execPl2Sustained s) := by
  unfold execPl2Sustained
  refine .next ?_
  simp only [apply_ite unpowered, unpowered_latch, unpowered_bumpBy, unpowered_setPowerDemand, ite_self]

theorem execPl1Eval_frame (tauMw last10Mw : Nat) (s : State) : Answers (unpowered · = unpowered s) (execPl1Eval tauMw last10Mw s) := by
  unfold execPl1Eval
  extract_lets lim early p u act
  have hu : unpowered u = unpowered s := by simp [u, apply_ite unpowered]
  have hact : ∀ x, unpowered (act x) = unpowered s := fun x => by
    cases x with
    | none => exact hu
    | some y => simp [act, hu]
  refine .next ?_
  simp only [apply_ite unpowered, hact, hu, ite_self]

theorem execThrottleStep_frame (dom : Nat) (tempC : Int) (s : State) : Answers (unpowered · = unpowered s) (execThrottleStep dom tempC s) := by
  unfold execThrottleStep
  refine .next ?_
  split
  · rfl
  · extract_lets u
    split
    · rfl
    · rfl

theorem execThrottleStepUp_frame (hottestC : Int) (s : State) : Answers (unpowered · = unpowered s) (execThrottleStepUp hottestC s) := by
  unfold execThrottleStepUp
  refine .next ?_
  split
  · rfl
  · split
    · rfl
    · rfl

theorem execThermalTrip_frame (dom : Nat) (tempC : Int) (s : State) : Answers (unpowered · = unpowered s) (execThermalTrip dom tempC s) := by
  unfold execThermalTrip
  refine .next ?_
  simp only [apply_ite unpowered, unpowered_pwr, unpowered_noteFault, ite_self]

theorem execThermalTripClear_frame (hottestC : Int) (s : State) : Answers (unpowered · = unpowered s) (execThermalTripClear hottestC s) := by
  unfold execThermalTripClear
  refine .next ?_
  simp only [apply_ite unpowered, unpowered_pwr, ite_self]

theorem execPowerMargin_frame (dom : Nat) (s : State) : Answers (unpowered · = unpowered s) (execPowerMargin dom s) := by
  unfold execPowerMargin
  split
  · exact .next rfl
  · refine .next ?_
    simp only [unpowered_raiseLevel, unpowered_pwr, apply_ite unpowered, unpowered_latch, unpowered_noteFault, ite_self]

theorem execMarginStep_frame (dom : Nat) (s : State) : Answers (unpowered · = unpowered s) (execMarginStep dom s) := by
  unfold execMarginStep
  refine .next ?_
  split
  · simp only [apply_ite unpowered, unpowered_raiseLevel, ite_self]
  · rfl

/-- A command of the loops answers a state whose contents are those before it. -/
theorem exec_loopCommand {c : Instr} (s : State) (h : loopCommand c = true) : Answers (unpowered · = unpowered s) (exec c s) := by
  unfold loopCommand at h
  split at h
  · exact execAvsPeriod_frame ..
  · exact execDivisorStep_frame ..
  · exact execPl2Eval_frame ..
  · exact execPl2Sustained_frame ..
  · exact execPl1Eval_frame ..
  · exact execThrottleStep_frame ..
  · exact execThrottleStepUp_frame ..
  · exact execThermalTrip_frame ..
  · exact execThermalTripClear_frame ..
  · exact execPowerMargin_frame ..
  · exact execMarginStep_frame ..
  · cases h

end Sys2Proof.Machine
open Sys2Proof Sys2Proof.Machine

/-- Settles O57. -/
theorem loopsChangeNoContents : Obligations.LoopsChangeNoContents :=
  fun _ s _ hc ht => sameContents_of_unpowered ((exec_loopCommand s hc).of_next ht)
end

section
/-! What a host's SPDM, IDE_KM and mailbox exchanges (R595, R623) leave as it is. -/
namespace Sys2Proof.Machine

/-- A state without what a host's exchanges may change: outputs, free values, objects and the ports' functions. -/
def hostless (s : State) : State := { s with out := [], free := 0, obj := [], ports := [] }

theorem sameContents_of_hostless {s t : State} (h : hostless t = hostless s) : SameContents s t ∧ t.pwr = s.pwr ∧ t.bell = s.bell := by
  have get {α : Type} (π : State → α) : π (hostless t) = π (hostless s) := congrArg π h
  exact ⟨⟨get State.mem, get State.poison, get State.regions, get State.windows, get State.route, get State.acc, get State.tier, get State.coh, get State.ord,
    get State.ver, get State.pb, get State.sec, get State.eng, get State.flt, get State.det, get State.pending⟩, get State.pwr, get State.bell⟩

/-- An update of outputs, free values, objects and ports leaves the rest as it is. -/
theorem hostless_same (s : State) {out : List Out} {free : Nat} {obj : Sparse Val} {ports : Sparse PortDyn} :
    hostless ⟨s.pending, out, free, obj, s.pb, s.mem, s.poison, s.regions, s.windows, s.route, s.acc, s.tier, s.coh, s.ord, s.ver, s.sec, s.det, s.bell, s.flt, s.eng,
      ports, s.pwr⟩ = hostless s := rfl

/-! The operations that the exchanges use. -/

@[simp] theorem hostless_hostSays (s : State) (p code : Nat) (d : Bytes) : hostless (hostSays s p code d) = hostless s := hostless_same s
@[simp] theorem hostless_spdmError (s : State) (p why : Nat) : hostless (spdmError s p why) = hostless s := hostless_same s
@[simp] theorem hostless_setHost (s : State) (p : Nat) (f : HostFn → HostFn) : hostless (setHost s p f) = hostless s := hostless_same s
@[simp] theorem hostless_setBlob (s : State) (i k : Nat) (b : Bytes) : hostless (setBlob s i k b) = hostless s := hostless_same s
@[simp] theorem hostless_keysMade (s : State) (n : Nat) : hostless (keysMade s n) = hostless s := hostless_same s
@[simp] theorem hostless_keysGone (s : State) (n : Nat) : hostless (keysGone s n) = hostless s := hostless_same s
@[simp] theorem hostless_drawBytes (s : State) (n : Nat) : hostless (drawBytes s n).2 = hostless s := hostless_same s
@[simp] theorem hostless_mailFree (s : State) (n : Nat) : hostless (mailFree s n).2 = hostless s := hostless_same s

@[simp] theorem hostless_ideSettle (s : State) (p : Nat) : hostless (ideSettle s p) = hostless s := by
  simp only [ideSettle, hostless_setBlob, hostless_setHost]

/-! Who may ask: a request that is not taken changes nothing, or is answered with an error. -/

theorem onDoe_frame {s f : State} {p : Nat} (hf : hostless f = hostless s) : Answers (hostless · = hostless s) (onDoe s p f) := by
  refine .next ?_
  simp only [apply_ite hostless, hf, ite_self]

theorem onSpdm_frame {s f : State} {p : Nat} (hf : hostless f = hostless s) : Answers (hostless · = hostless s) (onSpdm s p f) :=
  onDoe_frame (by simp only [apply_ite hostless, hf, hostless_spdmError, ite_self])

theorem onKm_frame {s f : State} {p : Nat} {cxl : Bool} (hf : hostless f = hostless s) : Answers (hostless · = hostless s) (onKm s p cxl f) :=
  onDoe_frame (by simp only [apply_ite hostless, hf, hostless_spdmError, ite_self])

theorem onMail_frame {s f : State} {p : Nat} (hf : hostless f = hostless s) : Answers (hostless · = hostless s) (onMail s p f) := by
  refine .next ?_
  simp only [apply_ite hostless, hf, ite_self]

/-- A command of a host's exchanges answers a state whose contents are those before it. -/
theorem exec_hostExchange {c : Instr} (s : State) (h : hostExchange c = true) : Answers (hostless · = hostless s) (exec c s) := by
  unfold hostExchange at h
  split at h
  next p => exact onDoe_frame (by simp)
  next p => exact onDoe_frame (by simp [apply_ite hostless])
  next p offered => exact onDoe_frame (by simp [apply_ite hostless])
  next p => exact onSpdm_frame (by simp)
  next p slot off len => exact onSpdm_frame (by simp [apply_ite hostless])
  next p slot => exact onSpdm_frame (by simp [apply_ite hostless])
  next p index signed => exact onSpdm_frame (by simp [apply_ite hostless])
  next p slot => exact onSpdm_frame (by simp [apply_ite hostless])
  next p ok => exact onSpdm_frame (by simp [apply_ite hostless])
  next p => exact onSpdm_frame (by simp [apply_ite hostless])
  next p => exact onKm_frame (by simp)
  next p cxl tx => exact onKm_frame (by simp [apply_ite hostless])
  next p cxl tx => exact onKm_frame (by simp [apply_ite hostless])
  next p cxl tx => exact onKm_frame (by simp)
  next p => exact onMail_frame (by simp)
  next p => exact onMail_frame (by simp)
  next p off len => exact onMail_frame (by simp)
  next p => exact onMail_frame (by simp)
  next p count => exact onMail_frame (by simp)
  next p => exact onMail_frame (by simp)
  next p => exact onMail_frame (by simp)
  next => cases h

end Sys2Proof.Machine

open Sys2Proof Sys2Proof.Machine

/-- Settles O58. -/
theorem hostExchangesChangeNoContents : Obligations.HostExchangesChangeNoContents :=
  fun _ s _ hc ht => sameContents_of_hostless ((exec_hostExchange s hc).of_next ht)
end

section
/-! What a malformed frame, a repeated REQUEST and one beyond the limit come to (R79, R89, R93). -/
namespace Sys2Proof.Machine

theorem badFrame_iff (f : Frame) : badFrame f = true ↔ (f.tr = .eth ∧ f.version ≠ 1) ∨ f.ftype = 0 ∨ 10 < f.ftype := by
  simp [badFrame, or_assoc]

/-- R79: a frame that is malformed is counted, whatever type was expected. -/
theorem takeFrame_bad {s : State} {f : Frame} (t : Nat) (g : State → Nat → State) (hup : pbpUp s f.tr f.via = true) (hbad : badFrame f = true) :
    takeFrame s f t g = discardFrame s 3 := by
  simp [takeFrame, hup, hbad]

/-- R79: a malformed REQUEST is counted by the command of its OPCODE (log entry 142). -/
theorem takeRequest_bad {s : State} {f : Frame} {op : Nat} (g : State → Nat → State) (hup : pbpUp s f.tr f.via = true) (hbad : badFrame f = true)
    (hop : pbOpcode f = op) : takeRequest s f op g = discardFrame s 3 := by
  unfold takeRequest
  rw [takeFrame_bad _ _ hup hbad]
  simp [hop]

/-- What a session in use holds after a taken frame. -/
theorem getSess_afterFrame {s : State} {f : Frame} {k : Nat} (hu : (getSess s k).inUse = true) :
    getSess (afterFrame s f k) k = { getSess s k with clientSeq := f.seq, lastFrame := s.det.now, framesIn := (getSess s k).framesIn + 1 } :=
  getSess_setSess_used _ _ _ hu

/-- R93: a REQUEST whose TAG has a kept response is answered with it, and does not run again. -/
theorem takeRequest_kept {s : State} {f : Frame} {op k : Nat} {r : Response} (g : State → Nat → State) (hf : frameTaken s f 5 k = true)
    (hr : (getSess s k).kept.find? (fun r => r.tag == pbTag f) = some r) (hop : pbOpcode f = op) :
    takeRequest s f op g = sendFrame (afterFrame s f k) k (.response r) := by
  unfold takeRequest
  rw [takeFrame_taken s f 5 k _ hf]
  simp [getSess_afterFrame (frameTaken_used s f 5 k hf), hr, hop]

/-- R89: a REQUEST beyond the session's limit is answered BUSY and counted. -/
theorem takeRequest_busy {s : State} {f : Frame} {op k : Nat} (g : State → Nat → State) (hf : frameTaken s f 5 k = true)
    (hr : (getSess s k).kept.find? (fun r => r.tag == pbTag f) = none) (hlim : (if isI3c k then 1 else 8) ≤ (getSess s k).outstanding) (hop : pbOpcode f = op) :
    takeRequest s f op g =
      sendFrame (bump (afterFrame s f k) 0x1111 4) k (.response { opcode := pbOpcode f, tag := pbTag f, abort := 0x0C, body := [] }) := by
  unfold takeRequest
  rw [takeFrame_taken s f 5 k _ hf]
  simp [getSess_afterFrame (frameTaken_used s f 5 k hf), hr, hlim, hop]

theorem execPbpHello_bad {s : State} {f : Frame} (hup : pbpUp s f.tr f.via = true) (hbad : badFrame f = true) :
    execPbpHello f s = .next (discardFrame s 3) := by
  simp [execPbpHello, hup, hbad]

theorem execPbpProve_bad {s : State} {f : Frame} (hup : pbpUp s f.tr f.via = true) (hbad : badFrame f = true) :
    execPbpProve f s = .next (discardFrame s 3) := by
  simp [execPbpProve, hup, hbad]

end Sys2Proof.Machine

open Sys2Proof Sys2Proof.Machine

/-- Settles O44: every command of a frame sees first whether the frame is malformed. -/
theorem malformedFramesAreCounted : Obligations.MalformedFramesAreCounted := by
  intro f s hup hmal
  have hbad := (badFrame_iff f).mpr hmal
  have request {op : Nat} (g : State → Nat → State) (hop : pbOpcode f = op) := takeRequest_bad g hup hbad hop
  exact ⟨execPbpHello_bad hup hbad, execPbpProve_bad hup hbad, congrArg Host.Outcome.next (takeFrame_bad _ _ hup hbad), congrArg Host.Outcome.next (takeFrame_bad _ _ hup hbad),
    fun hop => congrArg Host.Outcome.next (request _ hop), fun _ hop => congrArg (fun t => Host.Outcome.next (fin t)) (request _ hop),
    fun hop => congrArg Host.Outcome.next (request _ hop), fun hop => congrArg Host.Outcome.next (request _ hop),
    fun _ hop => congrArg Host.Outcome.next (request _ hop), fun _ hop => congrArg Host.Outcome.next (request _ hop),
    fun hop => congrArg Host.Outcome.next (request _ hop), fun hop => congrArg Host.Outcome.next (request _ hop), fun hop => congrArg Host.Outcome.next (request _ hop),
    fun _ hop => congrArg (fun t => Host.Outcome.next (fin t)) (request _ hop)⟩

/-- Settles O45: the kept responses are looked at before the limit, and both before the operation. -/
theorem keptResponsesAnswerAgain : Obligations.KeptResponsesAnswerAgain := by
  refine ⟨fun f k r s hf hr => ?_, fun f k s hf hr hlim hop => congrArg Host.Outcome.next (takeRequest_busy _ hf hr hlim hop)⟩
  have again {op : Nat} (g : State → Nat → State) (hop : pbOpcode f = op) := takeRequest_kept g hf hr hop
  exact ⟨fun hop => congrArg Host.Outcome.next (again _ hop), fun hop => congrArg Host.Outcome.next (again _ hop),
    fun _ hop => congrArg (fun t => Host.Outcome.next (fin t)) (again _ hop), fun _ hop => congrArg Host.Outcome.next (again _ hop),
    fun hop => congrArg Host.Outcome.next (again _ hop)⟩
end

section
/-! Every step keeps what it must, and every command answers: one predicate for both. -/
namespace Sys2Proof.Machine
/-- With the queue and the fuse values `k` given, the state is `Sound` for them; with none given, any state will do. One set of lemmas then says both what every step keeps and that
every command answers. -/
def Steady (κ : Option (List Instr × Hem)) (s : State) : Prop := ∀ k, κ = some k → Sound k s

theorem steady_none (s : State) : Steady none s := fun _ h => nomatch h

theorem steady_some {k : List Instr × Hem} {s : State} : Steady (some k) s ↔ Sound k s :=
  ⟨fun h => h k rfl, fun h _ e => Option.some.inj e ▸ h⟩

variable {κ : Option (List Instr × Hem)}
/-- An update of the state that leaves the queue, and keeps memory, the objects and the fuses as `Steady` asks. -/
theorem Steady.sameBut {s : State} {out : List Out} {free : Nat} {obj : Sparse Val} {pb : PbState} {mem : List Host.Cell} {poison : List Nat} {regions : Sparse Region}
    {windows : Sparse Window} {route : RouteState} {acc : AccState} {tier : TierState} {coh : CohState} {ord : OrdState} {ver : VerState}
        {sec : SecState} {det : DetState}
    {bell : BellState} {flt : FaultState} {eng : EngState} {ports : Sparse PortDyn} {pwr : PwrState} (hs : Steady κ s)
    (hmem : Memory.wf s.mem = true → Memory.wf mem = true) (hobj : Objects.wf s.obj = true → Objects.wf obj = true) (hsec : sec.hem.fused = s.sec.hem.fused) :
    Steady κ ⟨s.pending, out, free, obj, pb, mem, poison, regions, windows, route, acc, tier, coh, ord, ver, sec, det, bell, flt, eng,
      ports, pwr⟩ := by
  intro k hk
  obtain ⟨hq, hf, hm, ho⟩ := hs k hk
  exact ⟨hq, hsec.trans hf, hmem hm, hobj ho⟩

/-- An update of the state that leaves the queue, memory, the objects and the Hem. -/
theorem Steady.same {s : State} {out : List Out} {free : Nat} {pb : PbState} {poison : List Nat} {regions : Sparse Region}
    {windows : Sparse Window} {route : RouteState} {acc : AccState} {tier : TierState} {coh : CohState} {ord : OrdState} {ver : VerState}
        {parts : Sparse Partition} {landTags : Sparse Nat} {unlocked opened : Bool} {idle : List Nat} {det : DetState}
    {bell : BellState} {flt : FaultState} {eng : EngState} {ports : Sparse PortDyn} {pwr : PwrState} (hs : Steady κ s) :
    Steady κ ⟨s.pending, out, free, s.obj, pb, s.mem, poison, regions, windows, route, acc, tier, coh, ord, ver,
        ⟨s.sec.hem, parts, landTags, unlocked, opened, idle⟩, det, bell, flt, eng,
      ports, pwr⟩ := hs.sameBut id id rfl

/-- An update of the state that keeps memory in canonical form. -/
theorem Steady.sameMem {s : State} {out : List Out} {free : Nat} {pb : PbState} {mem : List Host.Cell} {poison : List Nat} {regions : Sparse Region}
    {windows : Sparse Window} {route : RouteState} {acc : AccState} {tier : TierState} {coh : CohState} {ord : OrdState} {ver : VerState} {det : DetState}
    {bell : BellState} {flt : FaultState} {eng : EngState} {ports : Sparse PortDyn} {pwr : PwrState} (hs : Steady κ s)
    (hmem : Memory.wf s.mem = true → Memory.wf mem = true) :
    Steady κ ⟨s.pending, out, free, s.obj, pb, mem, poison, regions, windows, route, acc, tier, coh, ord, ver, s.sec, det, bell, flt, eng,
      ports, pwr⟩ := hs.sameBut hmem id rfl

/-- An update of the state that keeps the objects in canonical form. -/
theorem Steady.sameObj {s : State} {out : List Out} {free : Nat} {obj : Sparse Val} {pb : PbState} {poison : List Nat} {regions : Sparse Region}
    {windows : Sparse Window} {route : RouteState} {acc : AccState} {tier : TierState} {coh : CohState} {ord : OrdState} {ver : VerState}
        {parts : Sparse Partition} {landTags : Sparse Nat} {unlocked opened : Bool} {idle : List Nat} {det : DetState}
    {bell : BellState} {flt : FaultState} {eng : EngState} {ports : Sparse PortDyn} {pwr : PwrState} (hs : Steady κ s)
    (hobj : Objects.wf s.obj = true → Objects.wf obj = true) :
    Steady κ ⟨s.pending, out, free, obj, pb, s.mem, poison, regions, windows, route, acc, tier, coh, ord, ver,
        ⟨s.sec.hem, parts, landTags, unlocked, opened, idle⟩, det, bell, flt, eng,
      ports, pwr⟩ := hs.sameBut id hobj rfl

/-- An update of the state that keeps the fuses. -/
theorem Steady.sameFuses {s : State} {out : List Out} {free : Nat} {pb : PbState} {poison : List Nat} {regions : Sparse Region}
    {windows : Sparse Window} {route : RouteState} {acc : AccState} {tier : TierState} {coh : CohState} {ord : OrdState} {ver : VerState}
        {sec : SecState} {det : DetState}
    {bell : BellState} {flt : FaultState} {eng : EngState} {ports : Sparse PortDyn} {pwr : PwrState} (hs : Steady κ s)
    (hsec : sec.hem.fused = s.sec.hem.fused) :
    Steady κ ⟨s.pending, out, free, s.obj, pb, s.mem, poison, regions, windows, route, acc, tier, coh, ord, ver, sec, det, bell, flt, eng,
      ports, pwr⟩ := hs.sameBut id id hsec

theorem Steady.ite {s t : State} {c : Prop} {_ : Decidable c} (hs : Steady κ s) (ht : Steady κ t) : Steady κ (if c then s else t) := by split <;> assumption
theorem Steady.ite2 {α : Type} {s t : α × State} {c : Prop} {_ : Decidable c} (hs : Steady κ s.2) (ht : Steady κ t.2) : Steady κ (if c then s else t).2 := by split <;> assumption
theorem Steady.ite22 {α β : Type} {s t : α × β × State} {c : Prop} {_ : Decidable c} (hs : Steady κ s.2.2) (ht : Steady κ t.2.2) : Steady κ (if c then s else t).2.2 := by split <;> assumption
theorem Steady.foldl {α : Type} {s : State} (hs : Steady κ s) {f : State → α → State} {l : List α} (hf : ∀ s a, Steady κ s → Steady κ
    (f s a)) : Steady κ (l.foldl f s) := by
  induction l generalizing s with
  | nil => exact hs
  | cons a l ih => exact ih (hf s a hs)
/-- An optional answer, if there is one, carries a state that is `Steady`: `π` is that state. -/
inductive OptKeeps {α : Type} (κ : Option (List Instr × Hem)) (π : α → State) : Option α → Prop
  | none : OptKeeps κ π Option.none
  | some {a : α} (h : Steady κ (π a)) : OptKeeps κ π (Option.some a)

theorem OptKeeps.of_some {α : Type} {π : α → State} {o : Option α} {a : α} (h : OptKeeps κ π o) (e : o = Option.some a) : Steady κ (π a) := by
  subst e; cases h; assumption
theorem OptKeeps.ite {α : Type} {π : α → State} {o q : Option α} {c : Prop} {_ : Decidable c} (ho : OptKeeps κ π o) (hq : OptKeeps κ π q) :
    OptKeeps κ π (if c then o else q) := by split <;> assumption
theorem OptKeeps.map {α β : Type} {π : β → State} {o : Option α} {f : α → β} {ρ : α → State} (ho : OptKeeps κ ρ o) (hf : ∀ a, Steady κ (ρ a) → Steady κ (π (f a))) :
    OptKeeps κ π (o.map f) := by
  cases o with
  | none => exact .none
  | some a => exact .some (hf a (ho.of_some rfl))
theorem Steady.getD {s : State} (hs : Steady κ s) {o : Option State} (ho : OptKeeps κ (fun t => t) o) : Steady κ (o.getD s) := by
  cases o with
  | none => exact hs
  | some t => exact ho.of_some rfl
theorem Steady.foldl22 {α β γ : Type} {l : List α} {f : β × γ × State → α → β × γ × State} {r : β × γ × State} (hr : Steady κ r.2.2)
    (hf : ∀ r a, Steady κ r.2.2 → Steady κ (f r a).2.2) : Steady κ (l.foldl f r).2.2 := by
  induction l generalizing r with
  | nil => exact hr
  | cons a l ih => exact ih (hf r a hr)
theorem Steady.foldl2 {α β : Type} {l : List α} {f : β × State → α → β × State} {r : β × State} (hr : Steady κ r.2)
    (hf : ∀ r a, Steady κ r.2 → Steady κ (f r a).2) : Steady κ (l.foldl f r).2 := by
  induction l generalizing r with
  | nil => exact hr
  | cons a l ih => exact ih (hf r a hr)

theorem OptKeeps.mapAny {α β : Type} {π : β → State} {o : Option α} {f : α → β} (hf : ∀ a, Steady κ (π (f a))) : OptKeeps κ π (o.map f) := by
  cases o with
  | none => exact .none
  | some a => exact .some (hf a)
theorem Steady.ite222 {α β γ : Type} {s t : α × β × γ × State} {c : Prop} {_ : Decidable c} (hs : Steady κ s.2.2.2) (ht : Steady κ t.2.2.2) :
    Steady κ (if c then s else t).2.2.2 := by split <;> assumption
theorem Steady.ite2222 {α β γ δ : Type} {s t : α × β × γ × δ × State} {c : Prop} {_ : Decidable c} (hs : Steady κ s.2.2.2.2) (ht : Steady κ t.2.2.2.2) :
    Steady κ (if c then s else t).2.2.2.2 := by split <;> assumption
theorem Steady.ite1 {α : Type} {s t : State × α} {c : Prop} {_ : Decidable c} (hs : Steady κ s.1) (ht : Steady κ t.1) : Steady κ (if c then s else t).1 := by split <;> assumption
theorem Steady.foldl1 {α β : Type} {l : List α} {f : State × β → α → State × β} {r : State × β} (hr : Steady κ r.1)
    (hf : ∀ r a, Steady κ r.1 → Steady κ (f r a).1) : Steady κ (l.foldl f r).1 := by
  induction l generalizing r with
  | nil => exact hr
  | cons a l ih => exact ih (hf r a hr)
theorem Steady.foldl222 {α β γ δ : Type} {l : List α} {f : β × γ × δ × State → α → β × γ × δ × State} {r : β × γ × δ × State} (hr : Steady κ r.2.2.2)
    (hf : ∀ r a, Steady κ r.2.2.2 → Steady κ (f r a).2.2.2) : Steady κ (l.foldl f r).2.2.2 := by
  induction l generalizing r with
  | nil => exact hr
  | cons a l ih => exact ih (hf r a hr)
theorem Steady.foldMapS {α β : Type} {l : List α} {f : State → α → β × State} {s : State} (hs : Steady κ s)
    (hf : ∀ s a, Steady κ s → Steady κ (f s a).2) : Steady κ (foldMapS f s l).2 := by
  induction l generalizing s with
  | nil => exact hs
  | cons a l ih => exact ih (hf s a hs)

/-- A write to memory leaves a state that is `Steady`. -/
inductive Wrote.Keeps (κ : Option (List Instr × Hem)) : Wrote → Prop
  | done {status mirrored s} (hs : Steady κ s) : Wrote.Keeps κ (.done status mirrored s)
  | wait {w s} (hs : Steady κ s) : Wrote.Keeps κ (.wait w s)

/-- A write of a working version leaves a state that is `Steady`. -/
inductive VerWrote.Keeps (κ : Option (List Instr × Hem)) : VerWrote → Prop
  | done {s} (hs : Steady κ s) : VerWrote.Keeps κ (.done s)
  | baste : VerWrote.Keeps κ .baste
  | slot : VerWrote.Keeps κ .slot
  | bolt {b s} (hs : Steady κ s) : VerWrote.Keeps κ (.bolt b s)

/-- A read of a table walk leaves a state that is `Steady`. -/
inductive WalkRead.Keeps (κ : Option (List Instr × Hem)) : WalkRead → Prop
  | val {status v viol s} (hs : Steady κ s) : WalkRead.Keeps κ (.val status v viol s)
  | wait {b s} (hs : Steady κ s) : WalkRead.Keeps κ (.wait b s)

/-- A translation leaves a state that is `Steady`. -/
inductive Xlat.Keeps (κ : Option (List Instr × Hem)) : Xlat → Prop
  | ok {pa user r w d s} (hs : Steady κ s) : Xlat.Keeps κ (.ok pa user r w d s)
  | fault {cause level pte user walked viol s} (hs : Steady κ s) : Xlat.Keeps κ (.fault cause level pte user walked viol s)
  | wait {b s} (hs : Steady κ s) : Xlat.Keeps κ (.wait b s)

/-- A read of a context entry leaves a state that is `Steady`. -/
inductive CtxRead.Keeps (κ : Option (List Instr × Hem)) : CtxRead → Prop
  | entry {e viol s} (hs : Steady κ s) : CtxRead.Keeps κ (.entry e viol s)
  | stop {x} (hx : Xlat.Keeps κ x) : CtxRead.Keeps κ (.stop x)

/-- What a port says to a REQ leaves a state that is `Steady`. -/
inductive ReqGate.Keeps (κ : Option (List Instr × Hem)) : ReqGate → Prop
  | back {s} (hs : Steady κ s) : ReqGate.Keeps κ (.back s)
  | pass {s} (hs : Steady κ s) : ReqGate.Keeps κ (.pass s)

/-- A look-up of a versioned line leaves a state that is `Steady`. -/
inductive VerHit.Keeps (κ : Option (List Instr × Hem)) : VerHit → Prop
  | line {l s} (hs : Steady κ s) : VerHit.Keeps κ (.line l s)
  | stale : VerHit.Keeps κ .stale
  | home : VerHit.Keeps κ .home

/-- What the Vestibule says leaves a state that is `Steady`. -/
inductive Vestibule.Keeps (κ : Option (List Instr × Hem)) : Vestibule → Prop
  | back {status data s} (hs : Steady κ s) : Vestibule.Keeps κ (.back status data s)
  | pass {h s} (hs : Steady κ s) : Vestibule.Keeps κ (.pass h s)

/-- The outcome of a Pattern Book write leaves a state that is `Steady`. -/
inductive WriteOut.Keeps (κ : Option (List Instr × Hem)) : WriteOut → Prop
  | done {abort result s} (hs : Steady κ s) : WriteOut.Keeps κ (.done abort result s)
  | wait {s} (hs : Steady κ s) : WriteOut.Keeps κ (.wait s)

/-- A command answers a next state, and that state is `Steady`. -/
inductive Res.Keeps (κ : Option (List Instr × Hem)) : Res → Prop
  | next {s : State} (hs : Steady κ s) : Res.Keeps κ (.next s)

theorem Res.Keeps.exists_next {r : Res} (h : Res.Keeps κ r) : ∃ t, r = .next t ∧ Steady κ t := by
  cases h
  exact ⟨_, rfl, ‹_›⟩

theorem Res.Keeps.ite {a b : Res} {c : Prop} {_ : Decidable c} (ha : Res.Keeps κ a) (hb : Res.Keeps κ b) : Res.Keeps κ (if c then a else b) := by
  split <;> assumption

theorem Wrote.Keeps.of_done {x : Wrote} {status mirrored} {s : State} (hx : x.Keeps κ) (e : x = .done status mirrored s) : Steady κ s := by
  subst e; cases hx; assumption
theorem Wrote.Keeps.of_wait {x : Wrote} {w} {s : State} (hx : x.Keeps κ) (e : x = .wait w s) : Steady κ s := by
  subst e; cases hx; assumption
theorem Wrote.Keeps.ite {a b : Wrote} {c : Prop} {_ : Decidable c} (ha : a.Keeps κ) (hb : b.Keeps κ) : Wrote.Keeps κ (if c then a else b) := by
  split <;> assumption

theorem VerWrote.Keeps.of_done {x : VerWrote} {s : State} (hx : x.Keeps κ) (e : x = .done s) : Steady κ s := by
  subst e; cases hx; assumption
theorem VerWrote.Keeps.of_bolt {x : VerWrote} {b} {s : State} (hx : x.Keeps κ) (e : x = .bolt b s) : Steady κ s := by
  subst e; cases hx; assumption
theorem VerWrote.Keeps.ite {a b : VerWrote} {c : Prop} {_ : Decidable c} (ha : a.Keeps κ) (hb : b.Keeps κ) : VerWrote.Keeps κ (if c then a else b) := by
  split <;> assumption

theorem WalkRead.Keeps.of_val {x : WalkRead} {status v viol} {s : State} (hx : x.Keeps κ) (e : x = .val status v viol s) : Steady κ s := by
  subst e; cases hx; assumption
theorem WalkRead.Keeps.of_wait {x : WalkRead} {b} {s : State} (hx : x.Keeps κ) (e : x = .wait b s) : Steady κ s := by
  subst e; cases hx; assumption
theorem WalkRead.Keeps.ite {a b : WalkRead} {c : Prop} {_ : Decidable c} (ha : a.Keeps κ) (hb : b.Keeps κ) : WalkRead.Keeps κ (if c then a else b) := by
  split <;> assumption

theorem Xlat.Keeps.of_ok {x : Xlat} {pa user r w d} {s : State} (hx : x.Keeps κ) (e : x = .ok pa user r w d s) : Steady κ s := by
  subst e; cases hx; assumption
theorem Xlat.Keeps.of_fault {x : Xlat} {cause level pte user walked viol} {s : State} (hx : x.Keeps κ)
    (e : x = .fault cause level pte user walked viol s) : Steady κ s := by
  subst e; cases hx; assumption
theorem Xlat.Keeps.of_wait {x : Xlat} {b} {s : State} (hx : x.Keeps κ) (e : x = .wait b s) : Steady κ s := by
  subst e; cases hx; assumption
theorem Xlat.Keeps.ite {a b : Xlat} {c : Prop} {_ : Decidable c} (ha : a.Keeps κ) (hb : b.Keeps κ) : Xlat.Keeps κ (if c then a else b) := by
  split <;> assumption

theorem CtxRead.Keeps.of_entry {x : CtxRead} {e viol} {s : State} (hx : x.Keeps κ) (e : x = .entry e viol s) : Steady κ s := by
  subst e; cases hx; assumption
theorem CtxRead.Keeps.of_stop {z : CtxRead} {x : Xlat} (hz : z.Keeps κ) (e : z = .stop x) : x.Keeps κ := by
  subst e; cases hz; assumption
theorem CtxRead.Keeps.ite {a b : CtxRead} {c : Prop} {_ : Decidable c} (ha : a.Keeps κ) (hb : b.Keeps κ) : CtxRead.Keeps κ (if c then a else b) := by
  split <;> assumption

theorem ReqGate.Keeps.of_back {x : ReqGate} {s : State} (hx : x.Keeps κ) (e : x = .back s) : Steady κ s := by
  subst e; cases hx; assumption
theorem ReqGate.Keeps.of_pass {x : ReqGate} {s : State} (hx : x.Keeps κ) (e : x = .pass s) : Steady κ s := by
  subst e; cases hx; assumption
theorem ReqGate.Keeps.ite {a b : ReqGate} {c : Prop} {_ : Decidable c} (ha : a.Keeps κ) (hb : b.Keeps κ) : ReqGate.Keeps κ (if c then a else b) := by
  split <;> assumption

theorem VerHit.Keeps.of_line {x : VerHit} {l} {s : State} (hx : x.Keeps κ) (e : x = .line l s) : Steady κ s := by
  subst e; cases hx; assumption
theorem VerHit.Keeps.ite {a b : VerHit} {c : Prop} {_ : Decidable c} (ha : a.Keeps κ) (hb : b.Keeps κ) : VerHit.Keeps κ (if c then a else b) := by
  split <;> assumption

theorem Vestibule.Keeps.of_back {x : Vestibule} {status data} {s : State} (hx : x.Keeps κ) (e : x = .back status data s) : Steady κ s := by
  subst e; cases hx; assumption
theorem Vestibule.Keeps.of_pass {x : Vestibule} {h} {s : State} (hx : x.Keeps κ) (e : x = .pass h s) : Steady κ s := by
  subst e; cases hx; assumption
theorem Vestibule.Keeps.ite {a b : Vestibule} {c : Prop} {_ : Decidable c} (ha : a.Keeps κ) (hb : b.Keeps κ) : Vestibule.Keeps κ (if c then a else b) := by
  split <;> assumption

theorem WriteOut.Keeps.of_done {x : WriteOut} {abort result} {s : State} (hx : x.Keeps κ) (e : x = .done abort result s) : Steady κ s := by
  subst e; cases hx; assumption
theorem WriteOut.Keeps.of_wait {x : WriteOut} {s : State} (hx : x.Keeps κ) (e : x = .wait s) : Steady κ s := by
  subst e; cases hx; assumption
theorem WriteOut.Keeps.ite {a b : WriteOut} {c : Prop} {_ : Decidable c} (ha : a.Keeps κ) (hb : b.Keeps κ) : WriteOut.Keeps κ (if c then a else b) := by
  split <;> assumption

/-- A value may be taken as any value that it equals. -/
theorem forget {α : Sort*} {P : Prop} (v : α) (h : ∀ x, v = x → P) : P := h v rfl

theorem Steady.of_snd {α : Type} {p : α × State} {a : α} {t : State} (h : Steady κ p.2) (e : p = (a, t)) : Steady κ t := by subst e; exact h
end Sys2Proof.Machine
end

section
/-! What the model's `Ops` part leaves `Steady`. -/
namespace Sys2Proof.Machine
variable {κ : Option (List Instr × Hem)}

theorem Steady.setObj {s : State} {i k : ℕ} {v : Val} (hs : Steady κ s) : Steady κ (Machine.setObj s i k v) :=
  hs.sameObj (objPut_wf _ _)

theorem Steady.setNum {s : State} {i k n : ℕ} (hs : Steady κ s) : Steady κ (Machine.setNum s i k n) :=
  hs.setObj

theorem Steady.setBlob {s : State} {i k : ℕ} {b : Bytes} (hs : Steady κ s) : Steady κ (Machine.setBlob s i k b) :=
  hs.setObj

theorem Steady.bumpBy {s : State} {i k n : ℕ} (hs : Steady κ s) : Steady κ (Machine.bumpBy s i k n) :=
  hs.setNum

theorem Steady.bump {s : State} {i k : ℕ} (hs : Steady κ s) : Steady κ (Machine.bump s i k) :=
  hs.bumpBy

theorem Steady.setPort {s : State} {p : ℕ} {x : PortDyn} (hs : Steady κ s) : Steady κ (Machine.setPort s p x) :=
  hs.same

theorem Steady.portCount {s : State} {p off n : ℕ} (hs : Steady κ s) : Steady κ (Machine.portCount s p off n) :=
  hs.setBlob

theorem Steady.meterPort {s : State} {index part n : ℕ} (hs : Steady κ s) : Steady κ (Machine.meterPort s index part n) :=
  hs.bumpBy

theorem Steady.queueTx {s : State} {p cls : ℕ} {part : Option ℕ} {m : WireMsg} (hs : Steady κ s) : Steady κ (Machine.queueTx s p cls part m) := by
  unfold Machine.queueTx
  split
  · refine Steady.setPort ?_
    split
    · exact hs.meterPort
    · exact hs
  · exact hs

theorem Steady.compatCount {s : State} {p off n : ℕ} (hs : Steady κ s) : Steady κ (Machine.compatCount s p off n) :=
  hs.setBlob

theorem Steady.hostComplete {s : State} {p tag kind status addr : ℕ} {d : Bytes} (hs : Steady κ s) : Steady κ (Machine.hostComplete s p tag kind status addr d) := by
  unfold Machine.hostComplete
  extract_lets out fails s1 poison s2 x __src s3
  have hs1 : Steady κ s1 := Steady.ite hs.compatCount hs
  have hs2 : Steady κ s2 := Steady.ite hs.compatCount hs
  have hs3 : Steady κ s3 := Steady.ite hs.setPort hs
  split
  · exact hs1.same
  · exact hs2.same
  · exact hs3.same
  · exact hs

theorem Steady.portComplete {s : State} {h : Head} {status epoch : ℕ} {d : Bytes} (hs : Steady κ s) : Steady κ (Machine.portComplete s h status epoch d) := by
  unfold Machine.portComplete
  extract_lets x s1
  have hs1 : Steady κ s1 := hs.setPort
  split
  · exact hs
  · exact Steady.ite ((Steady.ite hs1 hs1.meterPort).hostComplete) hs1.queueTx

theorem Steady.emit {s : State} {o : Out} (hs : Steady κ s) : Steady κ (Machine.emit s o) := by
  unfold Machine.emit
  extract_lets s1 me
  have hs1 : Steady κ s1 := hs.same
  split
  · exact hs1.portComplete
  · exact Steady.ite hs1 hs1.queueTx
  · split
    · exact hs1
    · split
      · exact hs1.queueTx
      · exact hs1
  · exact hs1.queueTx
  · exact hs1

theorem Steady.freshFree {s : State} (hs : Steady κ s) : Steady κ (Machine.freshFree s).2 :=
  hs.same

theorem Steady.msixRise {s : State} {p k : ℕ} (hs : Steady κ s) : Steady κ (Machine.msixRise s p k) :=
  hs.foldl fun _ _ hs1 => hs1.same

theorem Steady.latch {s : State} {src : ℕ} (hs : Steady κ s) : Steady κ (Machine.latch s src) :=
  Steady.ite hs.same.msixRise hs.same

theorem Steady.setPart {s : State} {p : ℕ} {x : Partition} (hs : Steady κ s) : Steady κ (Machine.setPart s p x) :=
  hs.same

theorem Steady.setRegion {s : State} {r : ℕ} {x : Region} (hs : Steady κ s) : Steady κ (Machine.setRegion s r x) :=
  hs.same

theorem Steady.setBolt {s : State} {b : ℕ} {x : Bolt} (hs : Steady κ s) : Steady κ (Machine.setBolt s b x) :=
  hs.same

theorem Steady.markPoison {s : State} {a : ℕ} (hs : Steady κ s) : Steady κ (Machine.markPoison s a) :=
  hs.same

theorem Steady.clearPoison {s : State} {a : ℕ} (hs : Steady κ s) : Steady κ (Machine.clearPoison s a) :=
  hs.same

theorem Steady.setPnum {s : State} {i p n : ℕ} (hs : Steady κ s) : Steady κ (Machine.setPnum s i p n) :=
  hs.setNum

theorem Steady.pbumpBy {s : State} {i p n : ℕ} (hs : Steady κ s) : Steady κ (Machine.pbumpBy s i p n) :=
  hs.bumpBy

theorem Steady.setArrNum {s : State} {base i n : ℕ} (hs : Steady κ s) : Steady κ (Machine.setArrNum s base i n) :=
  hs.setNum

theorem Steady.setArrBlob {s : State} {base i : ℕ} {b : Bytes} (hs : Steady κ s) : Steady κ (Machine.setArrBlob s base i b) :=
  hs.setBlob

theorem Steady.runBump {s : State} {off : ℕ} (hs : Steady κ s) : Steady κ (Machine.runBump s off) :=
  hs.setBlob

theorem Steady.runFlag {s : State} {k : ℕ} (hs : Steady κ s) : Steady κ (Machine.runFlag s k) :=
  hs.setBlob

theorem Steady.markV {s : State} {off p : ℕ} (hs : Steady κ s) : Steady κ (Machine.markV s off p) :=
  Steady.ite hs.runBump.pbumpBy hs

theorem Steady.violation {s : State} {cid : Option ℕ} {first : Bytes} (hs : Steady κ s) : Steady κ (Machine.violation s cid first) := by
  unfold Machine.violation
  extract_lets s1 s2 rec_
  have hs1 : Steady κ s1 := hs.bump
  have hs2 : Steady κ s2 := by
    dsimp only [s2]
    split
    · exact hs1.pbumpBy
    · exact hs1
  exact Steady.ite hs2 hs2.setNum.setBlob

theorem Steady.whenS {b : Bool} {s : State} {f : State → State} (hs : Steady κ s) (hf : ∀ x1, Steady κ x1 → Steady κ (f x1)) : Steady κ (Machine.whenS b s f) :=
  Steady.ite (hf _ hs) hs

theorem Steady.forS {α : Type} {l : List α} {s : State} {f : State → α → State} (hs : Steady κ s) (hf : ∀ x1 x2, Steady κ x1 → Steady κ
    (f x1 x2)) : Steady κ (Machine.forS l s f) :=
  hs.foldl fun _ _ hs1 => hf _ _ hs1
end Sys2Proof.Machine
end

section
/-! What the model's `Reset` part leaves `Steady`. -/
namespace Sys2Proof.Machine
variable {κ : Option (List Instr × Hem)}

theorem Steady.wipe {s : State} {records : Bool} (hs : Steady κ s) : Steady κ (Machine.wipe s records) := by
  intro k hk
  obtain ⟨hq, hf, -, ho⟩ := hs k hk
  exact ⟨hq, hf, rfl, objFilter_wf _ ho⟩

theorem Steady.deviceReset {s : State} {cause : ℕ} (hs : Steady κ s) : Steady κ (Machine.deviceReset s cause) :=
  Steady.ite hs.wipe.setNum.same hs.wipe.setNum

theorem Steady.limpReset {s : State} (hs : Steady κ s) : Steady κ (Machine.limpReset s) :=
  Steady.ite hs.deviceReset hs
end Sys2Proof.Machine
end

section
/-! What the model's `Flags` part leaves `Steady`. -/
namespace Sys2Proof.Machine
variable {κ : Option (List Instr × Hem)}

theorem Steady.setWindow {s : State} {res : ℕ} {w : RecWindow} (hs : Steady κ s) : Steady κ (Machine.setWindow s res w) :=
  hs.same

theorem Steady.recordFault {s : State} {code res part level status addr : ℕ} {detail : Bytes} (hs : Steady κ s) : Steady κ
    (Machine.recordFault s code res part level status addr detail) :=
  Steady.ite ((Steady.ite hs.bump.bump.setNum hs.bump.bump.setNum.setNum.setBlob).latch) (Steady.ite hs.bump.bump.setNum hs.bump.bump.setNum.setNum.setBlob)

theorem Steady.noteFault {s : State} {code res part status addr : ℕ} {detail : Bytes} (hs : Steady κ s) : Steady κ
    (Machine.noteFault s code res part status addr detail) :=
  hs.recordFault

theorem Steady.sendNotice {s : State} {port code unit data : ℕ} (hs : Steady κ s) : Steady κ (Machine.sendNotice s port code unit data) :=
  hs.emit

theorem Steady.enterLimp {s : State} {res code : ℕ} (hs : Steady κ s) : Steady κ (Machine.enterLimp s res code) :=
  (hs.noteFault.setNum.setNum.same.forS (fun _ _ hs1 => hs1.setNum)).forS (fun _ _ hs1 => hs1.sendNotice)

theorem Steady.holdOut {s : State} {res : ℕ} (hs : Steady κ s) : Steady κ (Machine.holdOut s res) :=
  (Steady.ite hs.runFlag hs).setWindow

theorem Steady.beyondLast {s : State} {res code : ℕ} (hs : Steady κ s) : Steady κ (Machine.beyondLast s res code).2 := by
  have hout : Steady κ (Machine.holdOut s res) := hs.holdOut
  have hlimp : Steady κ (Machine.holdOut (Machine.enterLimp s res code) res) := hs.enterLimp.holdOut
  have hdue : Steady κ (Machine.holdOut { s with flt := { s.flt with limpResetDue := true } } res) := Steady.holdOut hs.same
  simp only [Machine.beyondLast]
  exact Steady.ite2 (Steady.ite2 (Steady.ite2 hdue hout) hlimp) hout

theorem Steady.queueRecovery {s : State} {e : RecEntry} (hs : Steady κ s) : Steady κ (Machine.queueRecovery s e) :=
  hs.same.setNum

theorem Steady.openWindow {s : State} {res level code : ℕ} {closes : Option ℕ} (hs : Steady κ s) : Steady κ (Machine.openWindow s res level code closes) :=
  hs.setWindow

theorem Steady.logRecovery {s : State} {e : RecEntry} (hs : Steady κ s) : Steady κ (Machine.logRecovery s e) :=
  hs.same.bump

theorem Steady.enterLadder {s : State} {res n code : ℕ} (hs : Steady κ s) : Steady κ (Machine.enterLadder s res n code).2 := by
  unfold Machine.enterLadder
  exact Steady.ite2 hs.beyondLast.noteFault (Steady.ite2 (((Steady.ite hs.noteFault hs).openWindow).logRecovery) ((Steady.ite hs.noteFault hs).queueRecovery))

theorem Steady.detectFault {s : State} {code res n part status addr : ℕ} {detail : Bytes} (hs : Steady κ s) : Steady κ
    (Machine.detectFault s code res n part status addr detail) :=
  hs.enterLadder.recordFault
end Sys2Proof.Machine
end

section
/-! What the model's `Tiers` part leaves `Steady`. -/
namespace Sys2Proof.Machine
variable {κ : Option (List Instr × Hem)}

theorem Steady.learnEndEarly {s : State} (hs : Steady κ s) : Steady κ (Machine.learnEndEarly s) :=
  Steady.ite hs.same.bump hs

theorem Steady.mapTag {s : State} {b tag : ℕ} (hs : Steady κ s) : Steady κ (Machine.mapTag s b tag) :=
  hs.same

theorem Steady.mapTouch {s : State} {b : ℕ} (hs : Steady κ s) : Steady κ (Machine.mapTouch s b) :=
  Steady.ite hs hs.same.bump

theorem Steady.homeBolt {s : State} {b r q t slot : ℕ} (hs : Steady κ s) : Steady κ (Machine.homeBolt s b r q t slot) :=
  hs.setBolt.mapTag

theorem Steady.allocBolt {s : State} {b r q : ℕ} (hs : Steady κ s) : OptKeeps κ (fun t => t) (Machine.allocBolt s b r q) := by
  unfold Machine.allocBolt
  extract_lets g
  split
  · exact OptKeeps.none
  · exact OptKeeps.some hs.homeBolt

theorem Steady.freeSlot {s : State} {t slot part : ℕ} (hs : Steady κ s) : Steady κ (Machine.freeSlot s t slot part) :=
  Steady.ite hs hs.same

theorem Steady.abandonMove {s : State} {b : ℕ} (hs : Steady κ s) : Steady κ (Machine.abandonMove s b) := by
  unfold Machine.abandonMove
  split
  · exact hs
  · exact hs.same.bump.setBolt.freeSlot

theorem Steady.releaseBolt {s : State} {b : ℕ} (hs : Steady κ s) : Steady κ (Machine.releaseBolt s b) :=
  Steady.ite hs.abandonMove (hs.abandonMove.same.setBolt.mapTag.freeSlot.sameMem (memZero_wf _ _))

theorem Steady.releaseBolts {s : State} {first n : ℕ} (hs : Steady κ s) : Steady κ (Machine.releaseBolts s first n) :=
  hs.forS (fun _ _ hs1 => hs1.releaseBolt)

theorem Steady.countAccess {s : State} {b q : ℕ} (hs : Steady κ s) : Steady κ (Machine.countAccess s b q) :=
  Steady.ite hs.mapTouch hs.mapTouch.same.setBolt

theorem Steady.startMove {s : State} {b t slot : ℕ} {c : MoveCause} (hs : Steady κ s) : Steady κ (Machine.startMove s b t slot c) :=
  Steady.ite hs hs.same.setBolt

theorem Steady.lineWritten {s : State} {ln : ℕ} (hs : Steady κ s) : Steady κ (Machine.lineWritten s ln) :=
  hs.same

theorem Steady.lineRewritten {s : State} {a : ℕ} (hs : Steady κ s) : Steady κ (Machine.lineRewritten s a) :=
  Steady.ite hs hs.setBolt

theorem Steady.countMove {s : State} {from_ to_ : ℕ} (hs : Steady κ s) : Steady κ (Machine.countMove s from_ to_) :=
  Steady.ite hs.bump (Steady.ite hs.bump (Steady.ite hs.bump (Steady.ite hs.bump hs)))

theorem Steady.cutover {s : State} {b : ℕ} (hs : Steady κ s) : Steady κ (Machine.cutover s b) := by
  unfold Machine.cutover
  split
  · exact hs
  · exact hs.same.countMove.pbumpBy.setBolt

theorem Steady.pickCool {s : State} {t q limit : ℕ} {ok : ℕ → Bool} (hs : Steady κ s) : Steady κ (Machine.pickCool s t q limit ok).2 :=
  Steady.ite hs hs.bumpBy

theorem Steady.queueDecision {s : State} {b what : ℕ} (hs : Steady κ s) : Steady κ (Machine.queueDecision s b what) :=
  Steady.ite hs hs.same

theorem Steady.demoteOne {s : State} {b : ℕ} {c : MoveCause} (hs : Steady κ s) : Steady κ (Machine.demoteOne s b c) := by
  unfold Machine.demoteOne
  extract_lets x
  split
  · exact hs
  · extract_lets r
    have hr : Steady κ r.2 := hs.pickCool
    split
    · exact hr.startMove
    · exact hr

theorem Steady.demoteQuotaNow {s : State} {p t : ℕ} (hs : Steady κ s) : Steady κ (Machine.demoteQuotaNow s p t) := by
  unfold Machine.demoteQuotaNow
  split
  · split
    · exact hs.demoteOne
    · exact hs
  · exact hs

theorem Steady.askMoveUp {s : State} {b : ℕ} (hs : Steady κ s) : Steady κ (Machine.askMoveUp s b) :=
  Steady.ite hs hs.same

theorem Steady.openMoveUp {s : State} {b : ℕ} (hs : Steady κ s) : Steady κ (Machine.openMoveUp s b) := by
  unfold Machine.openMoveUp
  extract_lets x ch running t overrun __src
  split
  · exact hs
  · split
    · exact hs.learnEndEarly
    · extract_lets s1
      have hs1 : Steady κ s1 := hs.same.startMove
      split
      · exact hs1
      · split
        · exact hs1.queueDecision
        · split
          · exact hs1.demoteOne
          · exact hs1

theorem Steady.reachFrom {s : State} {q a : ℕ} (hs : Steady κ s) : Steady κ (Machine.reachFrom s q a) :=
  Steady.ite hs hs.countAccess

theorem Steady.meterTier {s : State} {a p : ℕ} {write : Bool} (hs : Steady κ s) : Steady κ (Machine.meterTier s a p write) :=
  Steady.ite hs (Steady.ite hs hs.pbumpBy)

theorem Steady.touchFrom {s : State} {q p a : ℕ} {write : Bool} (hs : Steady κ s) : Steady κ (Machine.touchFrom s q p a write) :=
  Steady.ite hs hs.countAccess.meterTier

theorem Steady.touch {s : State} {kind unit cid a : ℕ} {write : Bool} (hs : Steady κ s) : Steady κ (Machine.touch s kind unit cid a write) :=
  hs.touchFrom

theorem Steady.noSlot {s : State} (hs : Steady κ s) : Steady κ (Machine.noSlot s) :=
  Steady.ite hs.learnEndEarly.bump hs.learnEndEarly.bump.same.noteFault

theorem Steady.ensureBolt {s : State} {r a kind unit : ℕ} (hs : Steady κ s) : OptKeeps κ (fun t => t) (Machine.ensureBolt s r a kind unit) :=
  .ite (.some hs) hs.allocBolt

theorem Steady.slotsBack {s : State} (hs : Steady κ s) : Steady κ (Machine.slotsBack s) :=
  Steady.ite hs.same hs

theorem Steady.lateLine {s : State} {ln q : ℕ} (hs : Steady κ s) : Steady κ (Machine.lateLine s ln q) :=
  hs.same
end Sys2Proof.Machine
end

section
/-! What the model's `Coherence` part leaves `Steady`. -/
namespace Sys2Proof.Machine
variable {κ : Option (List Instr × Hem)}

theorem Steady.dirSet {s : State} {ln : ℕ} {e : DirEntry} (hs : Steady κ s) : Steady κ (Machine.dirSet s ln e) :=
  hs.same

theorem Steady.dirDel {s : State} {ln : ℕ} (hs : Steady κ s) : Steady κ (Machine.dirDel s ln) :=
  hs.same

theorem Steady.txnSet {s : State} {ln : ℕ} {t : Txn} (hs : Steady κ s) : Steady κ (Machine.txnSet s ln t) :=
  hs.same

theorem Steady.txnDel {s : State} {ln : ℕ} (hs : Steady κ s) : Steady κ (Machine.txnDel s ln) :=
  hs.same

theorem Steady.setAgent {s : State} {a : ℕ} {x : Agent} (hs : Steady κ s) : Steady κ (Machine.setAgent s a x) :=
  hs.same

theorem Steady.toAgent {s : State} {cls op a : ℕ} {m : CohMsg} (hs : Steady κ s) : Steady κ (Machine.toAgent s cls op a m) :=
  hs.emit

theorem Steady.sendDataHome {s : State} {a ln tag cid grant status : ℕ} {d : Bytes} (hs : Steady κ s) : Steady κ (Machine.sendDataHome s a ln tag cid grant status d) :=
  hs.toAgent

theorem Steady.sendMemory {s : State} {a ln tag cid grant status : ℕ} (hs : Steady κ s) : Steady κ (Machine.sendMemory s a ln tag cid grant status) :=
  hs.meterTier.sendDataHome

theorem Steady.sendCmp {s : State} {a ln tag cid grant status : ℕ} (hs : Steady κ s) : Steady κ (Machine.sendCmp s a ln tag cid grant status) :=
  hs.toAgent

theorem Steady.sendWbAck {s : State} {a ln : ℕ} (hs : Steady κ s) : Steady κ (Machine.sendWbAck s a ln) :=
  hs.toAgent

theorem Steady.protocolError {s : State} {a op cls port : ℕ} (hs : Steady κ s) : Steady κ (Machine.protocolError s a op cls port) :=
  hs.bump.noteFault

theorem Steady.lineSlot {s : State} {a ln : ℕ} (hs : Steady κ s) : Steady κ (Machine.lineSlot s a ln) := by
  unfold Machine.lineSlot
  extract_lets late
  split
  · split
    · exact hs
    · split
      · rename_i e5
        exact Steady.ite ((((hs.allocBolt.of_some e5).bump).askMoveUp).lateLine) (hs.allocBolt.of_some e5)
      · exact hs.noSlot.lateLine
  · exact hs.bump.askMoveUp.lateLine
  · exact hs

theorem Steady.lineWrite {s : State} {a ln : ℕ} {d : Bytes} {poison : Bool} (hs : Steady κ s) : Steady κ (Machine.lineWrite s a ln d poison) := by
  unfold Machine.lineWrite
  split
  · exact hs.setPart
  · extract_lets s1 s2 s3 s4 s5 __src
    have hs1 : Steady κ s1 := hs.lineSlot
    have hs2 : Steady κ s2 := hs1.touchFrom
    have hs3 : Steady κ s3 := hs2.sameMem (memWrite_wf _ _)
    have hs4 : Steady κ s4 := hs3.lineWritten.lineRewritten
    have hs5 : Steady κ s5 := Steady.ite hs4.markPoison hs4.clearPoison
    split
    · exact Steady.ite hs5.same hs5
    · exact hs5

theorem Steady.sendSnoop {s : State} {ln op a tag cid fwd : ℕ} (hs : Steady κ s) : Steady κ (Machine.sendSnoop s ln op a tag cid fwd) :=
  (hs.whenS (fun _ hs1 => hs1.bump)).toAgent

theorem Steady.waitTxn {s : State} {w : WaitTxn} (hs : Steady κ s) : Steady κ (Machine.waitTxn s w) :=
  hs.same

theorem Steady.dropHolder {s : State} {ln a : ℕ} (hs : Steady κ s) : Steady κ (Machine.dropHolder s ln a) := by
  unfold Machine.dropHolder
  split
  · exact hs
  · split
    · exact Steady.ite hs.dirDel hs
    · exact Steady.ite hs.dirDel hs.dirSet
    · exact hs.dirSet
    · exact hs

theorem Steady.unsweep {s : State} {p : ℕ × ℕ → Bool} (hs : Steady κ s) : Steady κ (Machine.unsweep s p) :=
  hs.same

theorem Steady.addSharer {s : State} {ln a : ℕ} {asLead : Bool} {part : ℕ} (hs : Steady κ s) : Steady κ (Machine.addSharer s ln a asLead part) := by
  unfold Machine.addSharer
  split
  · exact hs.dirSet
  · extract_lets e sh
    split
    · exact hs.unsweep.dirSet
    · exact Steady.ite hs.unsweep.dirSet hs.dirSet

theorem Steady.setOwner {s : State} {ln a part : ℕ} (hs : Steady κ s) : Steady κ (Machine.setOwner s ln a part) :=
  hs.dirSet

theorem Steady.ownError {s : State} {a op : ℕ} (hs : Steady κ s) : Steady κ (Machine.ownError s a op) :=
  hs.protocolError

theorem Steady.lostStatus {s : State} {pol : Bool} (hs : Steady κ s) : Steady κ (Machine.lostStatus s pol).2 := by
  unfold Machine.lostStatus
  exact Steady.ite2 hs.bump hs.bump

theorem Steady.endTxn {s : State} {ln : ℕ} (hs : Steady κ s) : Steady κ (Machine.endTxn s ln) := by
  unfold Machine.endTxn
  split
  · exact hs
  · refine Steady.forS hs.txnDel (fun _ _ hs2 => ?_)
    split
    · exact hs2.bump.sendWbAck
    · exact Steady.ite hs2.bump.sendWbAck ((Steady.ite (Steady.ite hs2.lineWrite hs2) ((Steady.ite hs2.lineWrite hs2).dropHolder)).sendWbAck)

theorem Steady.readyHeld {s : State} {seq st : ℕ} {d : Option Bytes} (hs : Steady κ s) : Steady κ (Machine.readyHeld s seq st d) :=
  hs.same

theorem Steady.tryEnd {s : State} {ln : ℕ} (hs : Steady κ s) : Steady κ (Machine.tryEnd s ln) := by
  unfold Machine.tryEnd
  split
  · exact hs
  · exact Steady.ite hs.endTxn hs

theorem Steady.goneGrant {s : State} {ln : ℕ} (hs : Steady κ s) : Steady κ (Machine.goneGrant s ln) := by
  unfold Machine.goneGrant
  split
  · exact hs
  · split
    · exact hs
    · extract_lets s1
      have hs1 : Steady κ s1 := hs.txnSet
      split
      · exact Steady.ite hs1.dirSet.noteFault.latch hs1.dropHolder
      · exact hs1

theorem Steady.homeGrant {s : State} {ln grant : ℕ} {cmp : Bool} {data : Option (Bytes × Bool)} (hs : Steady κ s) : Steady κ (Machine.homeGrant s ln grant cmp data) := by
  unfold Machine.homeGrant
  split
  · exact hs
  · split
    · exact hs.dropHolder.endTxn
    · refine Steady.tryEnd ?_
      refine Steady.txnSet ?_
      split
      · exact hs.sendCmp
      · split
        · exact hs.sendDataHome
        · exact hs.sendMemory

theorem Steady.sweep {s : State} {ln a : ℕ} (hs : Steady κ s) : Steady κ (Machine.sweep s ln a) := by
  unfold Machine.sweep
  split
  · exact Steady.ite hs.same hs
  · exact hs

theorem Steady.afterRecalls {s : State} {ln : ℕ} (hs : Steady κ s) : Steady κ (Machine.afterRecalls s ln) := by
  unfold Machine.afterRecalls
  split
  · exact hs
  · split
    · exact hs
    · split
      · split
        · exact hs.sendSnoop.txnSet
        · exact hs.setOwner.homeGrant
      · split
        · exact hs.sendSnoop.txnSet
        · exact hs.setOwner.homeGrant
      · exact hs.dirDel.readyHeld.endTxn
      · exact hs.dirDel.readyHeld.endTxn
      · exact hs.dirDel.endTxn
      · exact hs.dirDel.endTxn
      · split
        · exact (Steady.ite hs.dirDel hs).endTxn
        · exact hs.endTxn
      · exact hs.sweep.endTxn
      · exact hs

theorem Steady.beginRecalls {s : State} {w : WaitTxn} {targets : List ℕ} {fwd : Option ℕ} {status : ℕ} (hs : Steady κ s) : Steady κ
    (Machine.beginRecalls s w targets fwd status) :=
  ((hs.forS (fun _ _ hs1 => hs1.sendSnoop)).txnSet).afterRecalls

theorem Steady.beginSnoop {s : State} {w : WaitTxn} {op a : ℕ} (hs : Steady κ s) : Steady κ (Machine.beginSnoop s w op a) :=
  hs.sendSnoop.txnSet

theorem Steady.beginPlain {s : State} {w : WaitTxn} {status : ℕ} (hs : Steady κ s) : Steady κ (Machine.beginPlain s w status) :=
  hs.txnSet

theorem Steady.makeRoom {s : State} {ln : ℕ} (hs : Steady κ s) : Steady κ (Machine.makeRoom s ln).2 := by
  unfold Machine.makeRoom
  split
  · exact hs
  · split
    · exact hs
    · exact Steady.ite2 hs.bump.dirDel (Steady.ite2 hs hs.bump.beginRecalls)

theorem Steady.countReq {s : State} {k : TxnKind} (hs : Steady κ s) : Steady κ (Machine.countReq s k) := by
  unfold Machine.countReq
  split
  · exact hs.bump
  · exact hs.bump
  · exact hs.bump
  · exact hs.bump
  · exact hs.bump
  · exact hs.bump
  · exact hs

theorem Steady.serveI {s : State} {w : WaitTxn} {status : ℕ} (hs : Steady κ s) : Steady κ (Machine.serveI s w status) := by
  unfold Machine.serveI
  split
  · exact hs.sendMemory
  · exact Steady.ite hs.makeRoom.setOwner.beginPlain.homeGrant hs.makeRoom.waitTxn
  · exact Steady.ite hs.makeRoom.setOwner.beginPlain.homeGrant hs.makeRoom.waitTxn
  · exact Steady.ite hs.makeRoom.setOwner.beginPlain.homeGrant hs.makeRoom.waitTxn
  · exact hs.readyHeld
  · exact hs.readyHeld
  · exact hs.readyHeld
  · exact hs

theorem Steady.beginTxn {s : State} {w0 : WaitTxn} (hs : Steady κ s) : Steady κ (Machine.beginTxn s w0) := by
  unfold Machine.beginTxn
  split
  · exact hs.waitTxn
  · extract_lets w sn r s1
    have hr : Steady κ r.2 := hs.lostStatus
    have hs1 : Steady κ s1 := hs.ownError
    split
    · exact hs.waitTxn
    · split
      · exact hs.serveI
      · split
        · exact hs.beginRecalls
        · split
          · split
            · exact hs
            · exact hs
            · exact hs.bump.dirDel
            · exact hr.dirDel.serveI
          · exact Steady.ite ((Steady.ite hs1 hs1.dirDel).serveI) (Steady.ite hs.beginRecalls hs.beginSnoop)
          · extract_lets lead s2 own
            have hs2 : Steady κ s2 := Steady.ite hs.ownError hs
            split
            · exact Steady.ite hs2.beginSnoop hs2.addSharer.beginPlain.homeGrant
            · exact hs2.beginRecalls
            · exact Steady.ite hs2.beginRecalls hs2.beginRecalls
            · exact hs2.sendMemory
            · exact hs2.readyHeld
            · exact hs2.beginRecalls

theorem Steady.submitTxn {s : State} {w : WaitTxn} (hs : Steady κ s) : Steady κ (Machine.submitTxn s w) :=
  Steady.ite hs.waitTxn hs.beginTxn

theorem Steady.serveAfterHolder {s : State} {ln op a : ℕ} (hs : Steady κ s) : Steady κ (Machine.serveAfterHolder s ln op a) := by
  unfold Machine.serveAfterHolder
  split
  · exact hs
  · extract_lets s1
    have hs1 : Steady κ s1 := hs.dropHolder
    split
    · exact Steady.ite hs1.addSharer.homeGrant hs1.setOwner.homeGrant
    · exact hs1.setOwner.homeGrant
    · exact Steady.ite hs1.homeGrant hs1.readyHeld.endTxn
    · exact hs1.afterRecalls

theorem Steady.keptFirst {s : State} {ln a : ℕ} {t : Txn} (hs : Steady κ s) : Steady κ (Machine.keptFirst s ln a t).2 := by
  unfold Machine.keptFirst
  split
  · exact (hs.whenS (fun _ hs2 => hs2.lineWrite)).sendWbAck
  · exact hs

theorem Steady.snoopAnswer {s : State} {ln a prev : ℕ} {wbPending : Bool} {data : Option (Bytes × Bool)} (hs : Steady κ s) : Steady κ
    (Machine.snoopAnswer s ln a prev wbPending data) := by
  unfold Machine.snoopAnswer
  split
  · exact hs
  next t ht =>
    split
    · exact hs
    next op x hx =>
      extract_lets t' wr
      have hwr : ∀ t, Steady κ t → Steady κ (wr t) := fun t ht => by
        unfold wr
        split
        · exact ht.lineWrite
        · exact ht
      split
      · split
        · exact Steady.serveAfterHolder (Steady.txnSet (Steady.sendWbAck (Steady.ite hs.lineWrite hs)))
        · exact hs.txnSet
      · split
        next t1 s1 h1 =>
        have h1 : Steady κ s1 := hs.keptFirst.of_snd h1
        split
        · refine Steady.ite h1.txnSet.serveAfterHolder (Steady.ite ?_ ?_)
          · refine Steady.homeGrant (Steady.addSharer ?_)
            split
            · exact Steady.ite h1.protocolError.txnSet.dirSet h1.protocolError.txnSet.dirSet
            · exact h1.protocolError.txnSet
          · refine Steady.tryEnd (Steady.goneGrant (Steady.txnSet (Steady.addSharer ?_)))
            split
            · exact Steady.ite (hwr _ h1).dirSet (hwr _ h1)
            · exact hwr _ h1
        · exact Steady.ite h1.txnSet.serveAfterHolder (Steady.ite h1.protocolError.txnSet.serveAfterHolder h1.setOwner.txnSet.goneGrant.tryEnd)
        · exact (hwr _ h1).dropHolder.txnSet.afterRecalls
        · exact Steady.ite h1.txnSet.homeGrant h1.txnSet.readyHeld.endTxn

theorem Steady.writeback {s : State} {ln a : ℕ} {dirty keep : Bool} {d : Bytes} {poison : Bool} (hs : Steady κ s) : Steady κ
    (Machine.writeback s ln a dirty keep d poison) := by
  unfold Machine.writeback
  extract_lets listed s1 s2 s3
  have hs1 : Steady κ s1 := Steady.ite hs.lineWrite hs
  have hs2 : Steady κ s2 := Steady.ite hs1 hs1.dropHolder
  have hs3 : Steady κ s3 := hs1.sendWbAck
  split
  · exact Steady.ite hs.bump.sendWbAck hs2.sendWbAck
  · split
    · exact hs3.txnSet.serveAfterHolder
    · exact Steady.ite hs.txnSet hs.bump.sendWbAck

theorem Steady.cmpAck {s : State} {ln a : ℕ} (hs : Steady κ s) : Steady κ (Machine.cmpAck s ln a) := by
  unfold Machine.cmpAck
  split
  · exact hs
  · exact Steady.ite hs.txnSet.tryEnd hs

theorem Steady.startWaiting {s : State} {ln : ℕ} (hs : Steady κ s) : Steady κ (Machine.startWaiting s ln) := by
  unfold Machine.startWaiting
  split
  · exact hs
  · split
    · exact hs
    · exact Steady.ite hs.same.beginTxn.same hs.same.beginTxn

theorem Steady.leaveTxn {s : State} {ln a : ℕ} {marked : Bool} (hs : Steady κ s) : Steady κ (Machine.leaveTxn s ln a marked) := by
  unfold Machine.leaveTxn
  split
  · exact hs
  · extract_lets op t r
    have hr : Steady κ r.2 := Steady.ite2 hs.lostStatus hs
    split
    · exact hs.txnSet.afterRecalls
    · exact hs.txnSet.afterRecalls
    · exact ((hs.whenS (fun _ hs4 => hs4.bump)).txnSet).serveAfterHolder
    · exact hs.txnSet.serveAfterHolder
    · exact hr.txnSet.serveAfterHolder

theorem Steady.recoverAgent {s : State} {a : ℕ} (hs : Steady κ s) : Steady κ (Machine.recoverAgent s a) := by
  unfold Machine.recoverAgent
  extract_lets part owned before __src __src1 s1 lines s2 acks s3 lost s4 s5 s6 n s7
  have hs1 : Steady κ s1 := hs.same.setAgent
  have hs2 : Steady κ s2 := hs1.forS (fun _ _ hs1 => hs1.leaveTxn)
  have hs3 : Steady κ s3 := hs2.forS (fun _ _ hs1 => hs1.cmpAck)
  have hs4 : Steady κ s4 := by
    dsimp only [s4]
    refine Steady.forS hs3 (fun _ _ hs2 => ?_)
    split
    · exact hs2.dirSet
    · exact hs2
  have hs5 : Steady κ s5 := by
    dsimp only [s5]
    refine Steady.forS hs4 (fun _ _ hs2 => ?_)
    split
    · exact Steady.ite hs2.dropHolder (Steady.ite hs2.dropHolder hs2)
    · exact hs2
  have hs6 : Steady κ s6 := hs5.setAgent.unsweep
  have hs7 : Steady κ s7 := Steady.ite hs6 hs6.noteFault
  exact hs7.latch
end Sys2Proof.Machine
end

section
/-! What the model's `Versions` part leaves `Steady`. -/
namespace Sys2Proof.Machine
variable {κ : Option (List Instr × Hem)}

theorem Steady.setVer {s : State} {r : ℕ} {v : VerRegion} (hs : Steady κ s) : Steady κ (Machine.setVer s r v) :=
  hs.same

theorem Steady.verWrite {s : State} {r : ℕ} {w : Work} {off : ℕ} {d : Bytes} {poison : Bool} {q : ℕ} (hs : Steady κ s) : VerWrote.Keeps κ
    (Machine.verWrite s r w off d poison q) := by
  unfold Machine.verWrite
  split
  · exact VerWrote.Keeps.done hs
  · extract_lets g page ln put src c from_
    split
    · exact VerWrote.Keeps.ite (VerWrote.Keeps.bolt hs) (VerWrote.Keeps.done hs.setVer.lineWritten)
    · split
      · exact VerWrote.Keeps.baste
      · extract_lets i a
        split
        · exact VerWrote.Keeps.bolt hs
        · split
          · exact VerWrote.Keeps.slot
          · rename_i e8
            exact VerWrote.Keeps.ite (VerWrote.Keeps.bolt ((OptKeeps.ite hs.allocBolt (OptKeeps.some hs)).of_some e8)) (VerWrote.Keeps.done
                (((((OptKeeps.ite hs.allocBolt (OptKeeps.some hs)).of_some e8).forS (fun _ _ hs9 => hs9.lineWritten)).bump).setVer))

theorem Steady.reclaimS {s : State} {r : ℕ} {before : List ℕ} (hs : Steady κ s) : Steady κ (Machine.reclaimS s r before) := by
  unfold Machine.reclaimS
  split
  · exact hs
  · exact hs.bumpBy.setVer

theorem Steady.setLease {s : State} {n : ℕ} {l : Lease} (hs : Steady κ s) : Steady κ (Machine.setLease s n l) :=
  hs.same

theorem Steady.createLease {s : State} {ep p : ℕ} (hs : Steady κ s) : OptKeeps κ (·.2) (Machine.createLease s ep p) := by
  unfold Machine.createLease
  split
  · exact OptKeeps.none
  · extract_lets taken ms
    split
    · exact OptKeeps.none
    · exact OptKeeps.some hs.setLease

theorem Steady.endLease {s : State} {ep p : ℕ} (hs : Steady κ s) : Steady κ (Machine.endLease s ep p) := by
  unfold Machine.endLease
  split
  · exact hs
  · exact Steady.ite hs.same hs

theorem Steady.needLease {s : State} {ep p : ℕ} (hs : Steady κ s) : Steady κ (Machine.needLease s ep p).2 := by
  unfold Machine.needLease
  split
  · exact Steady.ite2 hs hs
  · split
    · exact hs
    · rename_i e3
      exact hs.createLease.of_some e3

theorem Steady.vcOpenRead {s : State} {r cid ep arg : ℕ} (hs : Steady κ s) : Steady κ (Machine.vcOpenRead s r cid ep arg).2 := by
  unfold Machine.vcOpenRead
  split
  · exact hs
  · split
    · exact hs
    · extract_lets n had h v'
      split
      · exact hs
      · split
        · exact hs
        · split
          · exact hs.setVer.reclaimS
          · split
            · exact hs
            · split
              · rename_i e9
                exact hs.needLease.of_snd e9
              · rename_i e9
                exact ((hs.needLease.of_snd e9).setVer).reclaimS

theorem Steady.vcCloseRead {s : State} {r cid ep : ℕ} (hs : Steady κ s) : Steady κ (Machine.vcCloseRead s r cid ep).2 := by
  unfold Machine.vcCloseRead
  split
  · exact hs
  · exact Steady.ite2 hs (Steady.ite2 hs hs.setVer.reclaimS.endLease)

theorem Steady.vcOpenWork {s : State} {r cid ep arg : ℕ} (hs : Steady κ s) : Steady κ (Machine.vcOpenWork s r cid ep arg).2 := by
  unfold Machine.vcOpenWork
  split
  · exact hs
  · split
    · exact hs
    · extract_lets n v'
      split
      · exact hs
      · split
        · exact hs
        · split
          · exact hs
          · split
            · exact hs
            · split
              · exact hs
              · split
                · rename_i e10
                  exact hs.needLease.of_snd e10
                · rename_i e10
                  exact (hs.needLease.of_snd e10).setVer

theorem Steady.vcPublish {s : State} {r cid ep arg : ℕ} (hs : Steady κ s) : Steady κ (Machine.vcPublish s r cid ep arg).2 := by
  unfold Machine.vcPublish
  split
  · exact hs
  · split
    · exact hs
    · split
      · exact hs
      · exact Steady.ite2 hs (Steady.ite2 (Steady.ite2 hs hs.bump.setVer.reclaimS) hs.bump)

theorem Steady.vcRebase {s : State} {r cid ep arg : ℕ} (hs : Steady κ s) : Steady κ (Machine.vcRebase s r cid ep arg).2 := by
  unfold Machine.vcRebase
  split
  · exact hs
  · split
    · exact hs
    · split
      · exact hs
      · exact Steady.ite2 hs (Steady.ite2 hs (Steady.ite2 hs hs.bump.setVer.reclaimS))

theorem Steady.vcDiscard {s : State} {r cid ep : ℕ} (hs : Steady κ s) : Steady κ (Machine.vcDiscard s r cid ep).2 := by
  unfold Machine.vcDiscard
  split
  · exact hs
  · exact Steady.ite2 hs (Steady.ite2 hs hs.setVer.reclaimS.endLease)

theorem Steady.vcQuery {s : State} {r : ℕ} (hs : Steady κ s) : Steady κ (Machine.vcQuery s r).2 := by
  unfold Machine.vcQuery
  split
  · exact hs
  · exact hs

theorem Steady.vcRun {s : State} {r cid ep op arg : ℕ} (hs : Steady κ s) : Steady κ (Machine.vcRun s r cid ep op arg).2 := by
  unfold Machine.vcRun
  extract_lets a __src
  have ha : Steady κ a.2 := by
    dsimp only [a]
    split
    · exact hs.vcOpenRead
    · exact hs.vcCloseRead
    · exact hs.vcOpenWork
    · exact hs.vcPublish
    · exact hs.vcRebase
    · exact hs.vcDiscard
    · exact hs.vcQuery
  exact ha

theorem Steady.foldPage {s : State} {r page : ℕ} (hs : Steady κ s) : Steady κ (Machine.foldPage s r page) := by
  unfold Machine.foldPage
  split
  · exact hs
  next v hv =>
    extract_lets o
    split
    · exact Steady.ite hs hs.setVer
    next i hi =>
      refine Steady.ite hs ?_
      dsimp only
      split
      · exact hs
      next t ht =>
        have ht : Steady κ t := (OptKeeps.ite (π := fun t => t) hs.allocBolt (.some hs)).of_some ht
        refine Steady.ite ht.askMoveUp (Steady.ite ht.askMoveUp (Steady.setVer (Steady.foldl (Steady.bump ?_) fun u k hu => hu.lineWritten)))
        exact ht.sameMem (fun h => memPuts_wf _ _ _ (memZero_wf _ _ h))

theorem Steady.staleHandles {s : State} {ep p : ℕ} (hs : Steady κ s) : Steady κ (Machine.staleHandles s ep p) := by
  unfold Machine.staleHandles
  refine Steady.forS hs (fun _ _ hs1 => ?_)
  split
  · exact hs1
  · exact hs1.setVer.reclaimS

theorem Steady.freeStale {s : State} {ep p : ℕ} (hs : Steady κ s) : Steady κ (Machine.freeStale s ep p) := by
  unfold Machine.freeStale
  refine Steady.forS hs (fun _ _ hs1 => ?_)
  split
  · exact hs1
  · exact hs1.setVer

theorem Steady.expireLease {s : State} {n : ℕ} {agents : Bool} (hs : Steady κ s) : Steady κ (Machine.expireLease s n agents) := by
  unfold Machine.expireLease
  split
  · exact hs
  · exact ((((Steady.ite (hs.setLease.staleHandles.forS (fun _ _ hs2 => hs2.recoverAgent)) hs.setLease.staleHandles).bump).same).noteFault).latch

theorem Steady.freeLease {s : State} {n : ℕ} (hs : Steady κ s) : Steady κ (Machine.freeLease s n) := by
  unfold Machine.freeLease
  split
  · exact hs
  · exact hs.freeStale.same

theorem Steady.endPartHandles {s : State} {r p : ℕ} (hs : Steady κ s) : Steady κ (Machine.endPartHandles s r p) := by
  unfold Machine.endPartHandles
  split
  · exact hs
  · exact hs.setVer.reclaimS.forS (fun _ _ hs2 => hs2.endLease)

theorem Steady.dropVersions {s : State} {r : ℕ} (hs : Steady κ s) : Steady κ (Machine.dropVersions s r) := by
  unfold Machine.dropVersions
  split
  · exact hs
  · exact hs.same.forS (fun _ _ hs2 => hs2.endLease)
end Sys2Proof.Machine
end

section
/-! What the model's `Requests` part leaves `Steady`. -/
namespace Sys2Proof.Machine
variable {κ : Option (List Instr × Hem)}

theorem Steady.pickPort {s : State} {dst : ℕ} {op : MemOp} (hs : Steady κ s) : Steady κ (Machine.pickPort s dst op).2 := by
  unfold Machine.pickPort
  exact Steady.ite2 hs hs.freshFree

theorem Steady.poisonTrap {s : State} {core cause va part : ℕ} (hs : Steady κ s) : Steady κ (Machine.poisonTrap s core cause va part) :=
  hs.noteFault.emit

theorem Steady.completeReq {s : State} {h : Head} {status : ℕ} {d : Bytes} (hs : Steady κ s) : Steady κ (Machine.completeReq s h status d) := by
  unfold Machine.completeReq
  split
  · exact Steady.ite hs hs.emit
  · exact Steady.ite hs.poisonTrap hs.emit
  · exact hs

theorem Steady.deadTarget {s : State} {h : Head} {op : MemOp} (hs : Steady κ s) : Steady κ (Machine.deadTarget s h op) :=
  hs.bump.noteFault.latch

theorem Steady.pushDone {s : State} {t : IssFor} {status : ℕ} {d : Bytes} (hs : Steady κ s) : Steady κ (Machine.pushDone s t status d) :=
  hs.same

theorem Steady.sendIssued {s : State} {i : Issued} (hs : Steady κ s) : Steady κ (Machine.sendIssued s i) := by
  unfold Machine.sendIssued
  extract_lets __src drop p __src1 __src2 __src3 __src4
  have hdrop : Steady κ drop := hs.same
  have hp : Steady κ p.2 := hs.pickPort
  have h__src3 : Steady κ __src3 := hp
  split
  · exact hdrop.deadTarget.pushDone
  · split
    · exact hdrop.pushDone
    · split
      · split
        · exact hdrop.pushDone
        · split
          · exact hs
          · exact h__src3.same.emit
      · split
        · exact hdrop.pushDone
        · split
          · exact hs
          · exact h__src3.same.emit

theorem Steady.issueReq {s : State} {r : Req} {target : IssFor} {mirror : Option ℕ} (hs : Steady κ s) : Steady κ (Machine.issueReq s r target mirror) :=
  Steady.ite hs.same hs.same.sendIssued

theorem Steady.sendReady {x : ℕ} {y : State} (hy : Steady κ y) : Steady κ (Machine.sendReady x y) := by
  unfold Machine.sendReady
  split
  · exact hy
  · extract_lets go
    clear_value go
    split
    · exact hy
    · exact hy.sendIssued.sendReady

theorem Steady.wakeRetries {s : State} (hs : Steady κ s) : Steady κ (Machine.wakeRetries s) :=
  hs.same.sendReady

theorem Steady.finishIssued {s : State} {i : Issued} {status : ℕ} {d : Bytes} (hs : Steady κ s) : Steady κ (Machine.finishIssued s i status d) :=
  hs.same.pushDone.sendReady

theorem Steady.giveCredit {s : State} {p cls : ℕ} (hs : Steady κ s) : Steady κ (Machine.giveCredit s p cls) :=
  hs.setPort

theorem Steady.holdNew {s : State} {h : Held} (hs : Steady κ s) : Steady κ (Machine.holdNew s h) :=
  hs.same

theorem Steady.holdReqFor {s : State} {why : Why} {r : Req} {target : IssFor} (hs : Steady κ s) : Steady κ (Machine.holdReqFor s why r target) :=
  hs.holdNew

theorem Steady.settleCredit {s : State} {h : Held} {why : Why} (hs : Steady κ s) : Steady κ (Machine.settleCredit s h why).2 := by
  unfold Machine.settleCredit
  split
  · exact hs
  · exact hs
  · exact hs
  · exact hs.giveCredit

theorem Steady.rehold {s : State} {h : Held} {why : Why} {checked : Bool} (hs : Steady κ s) : Steady κ (Machine.rehold s h why checked) :=
  hs.settleCredit.same

theorem Steady.unhold {s : State} {h : Held} (hs : Steady κ s) : Steady κ (Machine.unhold s h) :=
  hs.settleCredit.same

theorem Steady.submitVia {s : State} {vpn : Option ℕ} {kind unit cid gfa : ℕ} {op : MemOp} {target : IssFor} (hs : Steady κ s) : Steady κ
    (Machine.submitVia s vpn kind unit cid gfa op target) :=
  Steady.ite hs.holdNew hs.issueReq

theorem Steady.submitOwn {s : State} {kind unit cid gfa : ℕ} {op : MemOp} {target : IssFor} (hs : Steady κ s) : Steady κ
    (Machine.submitOwn s kind unit cid gfa op target) :=
  hs.submitVia
end Sys2Proof.Machine
end

section
/-! What the model's `MemAccess` part leaves `Steady`. -/
namespace Sys2Proof.Machine
variable {κ : Option (List Instr × Hem)}

theorem Steady.dropRowLines {s : State} {p : ℕ → Bool} (hs : Steady κ s) : Steady κ (Machine.dropRowLines s p) :=
  hs.same

theorem Steady.landTake {s : State} {g : Region} {a : ℕ} (hs : Steady κ s) : Steady κ (Machine.landTake s g a) :=
  Steady.ite (((hs.sameMem (memZero_wf _ _)).same).clearPoison) hs

theorem Steady.degradePartner {s : State} {ep cause : ℕ} (hs : Steady κ s) : Steady κ (Machine.degradePartner s ep cause) :=
  hs.forS ((fun _ _ hs1 => ((((Steady.ite hs1.setArrBlob hs1).setArrNum).noteFault).same).forS (fun _ _ hs2 => hs2.pushDone)))

theorem Steady.mirrorLine {s : State} {r a : ℕ} {target : IssFor} (hs : Steady κ s) : Steady κ (Machine.mirrorLine s r a target) :=
  Steady.ite hs.degradePartner.pushDone hs.bump.issueReq

theorem Steady.advanceWrites {s : State} {a n : ℕ} (hs : Steady κ s) : Steady κ (Machine.advanceWrites s a n) :=
  hs.forS (fun _ _ hs1 => Steady.ite hs1.same hs1)

theorem Steady.rawWrite {s : State} {r a : ℕ} {d : Bytes} {poison : Bool} {target : IssFor} (hs : Steady κ s) : Steady κ (Machine.rawWrite s r a d poison target).2 := by
  unfold Machine.rawWrite
  extract_lets g __src s1 s2 s3 s4
  have hs1 : Steady κ s1 := hs.landTake
  have hs2 : Steady κ s2 := hs1.sameMem (memWrite_wf _ _)
  have hs3 : Steady κ s3 := Steady.ite hs2.markPoison (Steady.ite hs2.clearPoison.lineRewritten hs2)
  have hs4 : Steady κ s4 := (Steady.ite hs3 hs3.lineWritten).advanceWrites
  exact Steady.ite2 hs.setPart (Steady.ite2 hs4.mirrorLine hs4)

theorem Steady.verLoad {s : State} {r : ℕ} {v : VerRegion} {cid ep a n : ℕ} (hs : Steady κ s) : Steady κ (Machine.verLoad s r v cid ep a n).2.2 := by
  unfold Machine.verLoad
  extract_lets g
  split
  · exact hs.bump
  · exact hs

theorem Steady.readBytes {s : State} {r cid ep a n : ℕ} (hs : Steady κ s) : Steady κ (Machine.readBytes s r cid ep a n).2.2 := by
  unfold Machine.readBytes
  split
  · exact hs.verLoad
  · exact Steady.ite22 hs.same hs

theorem Steady.placedWrite {s : State} {r kind unit cid a : ℕ} {d : Bytes} {poison : Bool} {target : IssFor} (hs : Steady κ s) : Wrote.Keeps κ
    (Machine.placedWrite s r kind unit cid a d poison target) := by
  unfold Machine.placedWrite
  split
  · exact Wrote.Keeps.done hs.rawWrite
  · split
    · exact Wrote.Keeps.wait hs
    · extract_lets t x
      have ht : Steady κ t := by
        dsimp only [t]
        rename_i e5
        exact Steady.ite ((hs.ensureBolt.of_some e5).touch) (hs.ensureBolt.of_some e5)
      have hx : Steady κ x.2 := ht.rawWrite
      exact Wrote.Keeps.ite (Wrote.Keeps.wait ht.askMoveUp) (Wrote.Keeps.ite (Wrote.Keeps.wait ht) (Wrote.Keeps.done hx))

theorem Steady.writeBytes {s : State} {r kind unit cid ep a : ℕ} {d : Bytes} {poison : Bool} {target : IssFor} (hs : Steady κ s) : Wrote.Keeps κ
    (Machine.writeBytes s r kind unit cid ep a d poison target) := by
  unfold Machine.writeBytes
  split
  · split
    · exact Wrote.Keeps.done hs.bump
    · split
      · rename_i e4
        exact Wrote.Keeps.done (hs.verWrite.of_done e4)
      · exact Wrote.Keeps.wait hs
      · exact Wrote.Keeps.wait hs
      · rename_i e4
        exact Wrote.Keeps.wait ((hs.verWrite.of_bolt e4).askMoveUp)
    · exact Wrote.Keeps.done hs
  · exact Wrote.Keeps.ite (Wrote.Keeps.wait hs) hs.placedWrite

theorem Steady.basteWait {s : State} {r : ℕ} (hs : Steady κ s) : Steady κ (Machine.basteWait s r) :=
  hs.bump.noteFault

theorem Steady.countAtomic {s : State} {op : MemOp} {cid : ℕ} (hs : Steady κ s) : Steady κ (Machine.countAtomic s op cid) := by
  unfold Machine.countAtomic
  extract_lets s1 s2
  have hs1 : Steady κ s1 := hs.pbumpBy
  have hs2 : Steady κ s2 := hs1.bump
  split
  · exact Steady.ite hs2.bump hs2
  · exact hs1
end Sys2Proof.Machine
end

section
/-! What the model's `Media` part leaves `Steady`. -/
namespace Sys2Proof.Machine
variable {κ : Option (List Instr × Hem)}

theorem Steady.moveOut {s : State} {b : ℕ} {c : MoveCause} (hs : Steady κ s) : Steady κ (Machine.moveOut s b c) := by
  unfold Machine.moveOut
  extract_lets x u cand r
  have hr : Steady κ r.2 := by
    dsimp only [r]
    refine Steady.foldl2 ?_ (fun _ _ hs2 => ?_)
    · exact hs
    · split
      · exact hs2
      · exact hs2.pickCool
  split
  · exact hs
  · split
    · exact hr.startMove
    · exact hr

theorem Steady.addSlotErrors {s : State} {t slot n : ℕ} (hs : Steady κ s) : Steady κ (Machine.addSlotErrors s t slot n).2 :=
  hs.same

theorem Steady.retireSlot {s : State} {b : ℕ} (hs : Steady κ s) : Steady κ (Machine.retireSlot s b) :=
  Steady.ite hs (Steady.ite hs.noteFault hs.same.bump.moveOut)

theorem Steady.slotCorrected {s : State} {b n : ℕ} (hs : Steady κ s) : Steady κ (Machine.slotCorrected s b n) :=
  Steady.ite hs.addSlotErrors.retireSlot hs.addSlotErrors

theorem Steady.markBad {s : State} {a : ℕ} (hs : Steady κ s) : Steady κ (Machine.markBad s a) := by
  unfold Machine.markBad
  extract_lets s1
  have hs1 : Steady κ s1 := hs.markPoison
  split
  · exact hs1
  · split
    · exact hs1
    · exact hs1.setVer

theorem Steady.lineErrors {s : State} {b : ℕ} {corrected bad : List ℕ} (hs : Steady κ s) : Steady κ (Machine.lineErrors s b corrected bad) :=
  Steady.ite hs (Steady.ite (((hs.forS (fun _ _ hs1 => hs1.freshFree.bump.noteFault)).forS
      (fun _ _ hs1 => hs1.freshFree.bump.markBad.detectFault)).slotCorrected) ((((hs.forS (fun _ _ hs1 => hs1.freshFree.bump.noteFault)).forS
      (fun _ _ hs1 => hs1.freshFree.bump.markBad.detectFault)).addSlotErrors).retireSlot))

theorem Steady.cellarUnits {s : State} {b : ℕ} {units : List ℕ} (hs : Steady κ s) : Steady κ (Machine.cellarUnits s b units) :=
  hs.forS ((fun _ _ hs1 => (hs1.freshFree.bump.detectFault.forS (fun _ _ hs2 => hs2.markBad)).setBolt))

theorem Steady.cellarRetry {s : State} {b retries block : ℕ} (hs : Steady κ s) : Steady κ (Machine.cellarRetry s b retries block) :=
  hs.freshFree.bump.bump.noteFault

theorem Steady.flashOffset {s : State} {ch block : ℕ} {k : ℤ} (hs : Steady κ s) : Steady κ (Machine.flashOffset s ch block k) :=
  Steady.ite hs (Steady.ite hs.same hs.same)

theorem Steady.flashRetries {s : State} {b : ℕ} {l : List (ℕ × ℤ)} (hs : Steady κ s) : Steady κ (Machine.flashRetries s b l) :=
  (hs.forS (fun _ _ hs1 => hs1.cellarRetry.flashOffset)).slotCorrected

theorem Steady.readError {s : State} {a : ℕ} {e : ReadEcc} (hs : Steady κ s) : Steady κ (Machine.readError s a e) := by
  unfold Machine.readError
  extract_lets b k home f was s1
  have hf : Steady κ f.2 := hs.freshFree
  have hs1 : Steady κ s1 := hs.lineErrors
  split
  · exact hs
  · split
    · exact hs
    · exact Steady.ite hf.cellarRetry.slotCorrected hs.lineErrors
    · split
      · exact hs.cellarUnits
      · split
        · exact Steady.ite hs1.clearPoison.bump hs1
        · exact hs1
end Sys2Proof.Machine
end

section
/-! What the model's `Queues` part leaves `Steady`. -/
namespace Sys2Proof.Machine
variable {κ : Option (List Instr × Hem)}

theorem Steady.setQueue {s : State} {q : QueueId} {x : Queue} (hs : Steady κ s) : Steady κ (Machine.setQueue s q x) :=
  hs.same

theorem Steady.writeEntry {s : State} {q : QueueId} {e : Bytes} (hs : Steady κ s) : Steady κ (Machine.writeEntry s q e) :=
  Steady.ite hs (Steady.ite hs.setQueue (((Steady.ite hs.msixRise hs).setQueue).submitOwn))

theorem Steady.setDesc {s : State} {q : QueueId} {x : Desc} (hs : Steady κ s) : Steady κ (Machine.setDesc s q x) :=
  hs.setQueue

theorem Steady.issueAdds {s : State} {q : QueueId} {pos : ℕ} {ok : ArrDue → Bool} (hs : Steady κ s) : Steady κ (Machine.issueAdds s q pos ok) := by
  unfold Machine.issueAdds
  split
  · exact hs
  · exact hs.setDesc.forS ((fun _ _ hs2 => (Steady.ite hs2.bump hs2).submitVia))

theorem Steady.sendReport {s : State} {e : EntryRef} {d : Desc} (hs : Steady κ s) : Steady κ (Machine.sendReport s e d) :=
  hs.emit

theorem Steady.sendKnots {s : State} {q : QueueId} {pos : ℕ} (hs : Steady κ s) : Steady κ (Machine.sendKnots s q pos) := by
  unfold Machine.sendKnots
  split
  · exact hs
  · exact hs.setDesc.forS (fun _ _ hs2 => hs2.submitVia)

theorem Steady.tryComplete {s : State} {q : QueueId} {pos : ℕ} (hs : Steady κ s) : Steady κ (Machine.tryComplete s q pos) := by
  unfold Machine.tryComplete
  extract_lets k s1
  have hs1 : Steady κ s1 := hs.setQueue
  split
  · exact hs
  · split
    · split
      · exact hs.issueAdds
      · split
        · exact hs1.sendReport
        · exact hs1.writeEntry
    · exact hs

theorem Steady.endDesc {s : State} {d : DescRef} {status rcode result missing : ℕ} (hs : Steady κ s) : Steady κ (Machine.endDesc s d status rcode result missing) := by
  unfold Machine.endDesc
  split
  · exact hs
  · exact hs.setDesc.tryComplete

theorem Steady.descMirrored {s : State} {q : QueueId} {pos : ℕ} (hs : Steady κ s) : Steady κ (Machine.descMirrored s q pos) := by
  unfold Machine.descMirrored
  split
  · exact hs
  · exact hs.setDesc.tryComplete

theorem Steady.descDone {s : State} {q : QueueId} {pos dest n status : ℕ} (hs : Steady κ s) : Steady κ (Machine.descDone s q pos dest n status) := by
  unfold Machine.descDone
  split
  · exact hs
  · exact (Steady.ite ((Steady.ite hs.setDesc.pbumpBy.bumpBy hs.setDesc).sendKnots) (Steady.ite hs.setDesc.pbumpBy.bumpBy hs.setDesc)).tryComplete

theorem Steady.descAdded {s : State} {q : QueueId} {pos dest status : ℕ} (hs : Steady κ s) : Steady κ (Machine.descAdded s q pos dest status) := by
  unfold Machine.descAdded
  split
  · exact hs
  · exact hs.setDesc.tryComplete
end Sys2Proof.Machine
end

section
/-! What the model's `Barriers` part leaves `Steady`. -/
namespace Sys2Proof.Machine
variable {κ : Option (List Instr × Hem)}

theorem Steady.setBar {s : State} {b : ℕ} {x : Barrier} (hs : Steady κ s) : Steady κ (Machine.setBar s b x) :=
  hs.same

theorem Steady.barRelease {s : State} {b word : ℕ} (hs : Steady κ s) : Steady κ (Machine.barRelease s b word) :=
  hs.forS (fun _ _ hs1 => hs1.submitOwn)

theorem Steady.barNext {s : State} {b : ℕ} {x : Barrier} (hs : Steady κ s) : Steady κ (Machine.barNext s b x) :=
  hs.setBar

theorem Steady.barComplete {s : State} {b rank : ℕ} {x : Barrier} (hs : Steady κ s) : Steady κ (Machine.barComplete s b rank x) :=
  ((Steady.ite hs.latch hs).barRelease).barNext

theorem Steady.barArrive {s : State} {b v ep : ℕ} (hs : Steady κ s) : Steady κ (Machine.barArrive s b v ep).2 := by
  unfold Machine.barArrive
  exact Steady.ite2 hs (Steady.ite2 hs.setBar (Steady.ite2 hs.setBar (Steady.ite2 hs.barComplete hs.setBar)))

theorem Steady.barAbort {s : State} {b : ℕ} (hs : Steady κ s) : Steady κ (Machine.barAbort s b) :=
  hs.barRelease.barNext

theorem Steady.blkSettle {s : State} (hs : Steady κ s) : Steady κ (Machine.blkSettle s) :=
  hs.forS (fun _ _ hs1 => Steady.ite hs1.setNum hs1)

theorem Steady.setDom {s : State} {d st : ℕ} (hs : Steady κ s) : Steady κ (Machine.setDom s d st) :=
  Steady.ite (Steady.ite (((Steady.ite ((Steady.ite (((Steady.ite hs.runFlag hs).setNum).blkSettle) ((Steady.ite hs.runFlag hs).setNum)).latch)
      (Steady.ite (((Steady.ite hs.runFlag hs).setNum).blkSettle) ((Steady.ite hs.runFlag hs).setNum))).setNum).setPort) (Steady.ite ((Steady.ite
      (((Steady.ite hs.runFlag hs).setNum).blkSettle) ((Steady.ite hs.runFlag hs).setNum)).setNum) (Steady.ite
      (((Steady.ite hs.runFlag hs).setNum).blkSettle) ((Steady.ite hs.runFlag hs).setNum)))) (Steady.ite
      (((Steady.ite hs.runFlag hs).setNum).blkSettle) ((Steady.ite hs.runFlag hs).setNum))

theorem Steady.releasePad {s : State} {d : ℕ} (hs : Steady κ s) : Steady κ (Machine.releasePad s d) :=
  Steady.ite hs.setDom hs

theorem Steady.releaseAllPads {s : State} (hs : Steady κ s) : Steady κ (Machine.releaseAllPads s) :=
  hs.forS (fun _ _ hs1 => hs1.releasePad)
end Sys2Proof.Machine
end

section
/-! What the model's `ControlWindow` part leaves `Steady`. -/
namespace Sys2Proof.Machine
variable {κ : Option (List Instr × Hem)}

theorem Steady.violReqS {s : State} {h : Head} {op : MemOp} {kind region : ℕ} (hs : Steady κ s) : Steady κ (Machine.violReqS s h op kind region) :=
  hs.violation

theorem Steady.setCw {s : State} {p : ℕ} {c : CwCommon} (hs : Steady κ s) : Steady κ (Machine.setCw s p c) :=
  hs.same

theorem Steady.dropRec {s : State} {p n : ℕ} (hs : Steady κ s) : Steady κ (Machine.dropRec s p n) :=
  hs.same

theorem Steady.setSlot {s : State} {p k : ℕ} {x : VcSlot} (hs : Steady κ s) : Steady κ (Machine.setSlot s p k x) :=
  hs.same

theorem Steady.startInval {s : State} (hs : Steady κ s) : Steady κ (Machine.startInval s) := by
  unfold Machine.startInval
  split
  · exact hs
  · exact Steady.ite hs hs.same

theorem Steady.invWrite {s : State} {p v : ℕ} (hs : Steady κ s) : Steady κ (Machine.invWrite s p v) :=
  Steady.ite hs.setCw hs.same.startInval

theorem Steady.endHeld {s : State} {q : QueueId} {d : Desc} {status : ℕ} (hs : Steady κ s) : Steady κ (Machine.endHeld s q d status) :=
  Steady.ite hs.setDesc hs.setDesc.tryComplete

theorem Steady.resolveRec {s : State} {p n action : ℕ} (hs : Steady κ s) : Steady κ (Machine.resolveRec s p n action) := by
  unfold Machine.resolveRec
  split
  · exact hs
  · exact Steady.ite (hs.dropRec.same.forS ((fun _ _ hs2 => hs2.forS ((fun _ _ hs3 => Steady.ite (Steady.ite hs3.setDesc.same hs3.endHeld) hs3))))) hs

theorem Steady.vcCommand {s : State} {h : Head} {p slot v : ℕ} (hs : Steady κ s) : Steady κ (Machine.vcCommand s h p slot v).2 := by
  unfold Machine.vcCommand
  exact Steady.ite2 hs.setSlot (Steady.ite2 hs.violReqS.setSlot (Steady.ite2 hs.setSlot hs.vcRun.setSlot))

theorem Steady.leaseRenewWrite {s : State} {h : Head} {p v : ℕ} (hs : Steady κ s) : Steady κ (Machine.leaseRenewWrite s h p v).2 := by
  unfold Machine.leaseRenewWrite
  extract_lets ep d
  split
  · exact hs
  · split
    · split
      · exact Steady.ite hs.freeLease hs
      · exact hs
    · split
      · exact hs
      · exact Steady.ite2 hs ((Steady.ite hs.bump hs).setLease)

theorem Steady.cwCommonWrite {s : State} {p off v : ℕ} (hs : Steady κ s) : Steady κ (Machine.cwCommonWrite s p off v) := by
  unfold Machine.cwCommonWrite
  extract_lets c
  split
  · exact hs.setCw
  · exact hs.setCw
  · exact hs.setCw
  · exact hs.invWrite
  · exact hs.setCw
  · exact hs.setCw
  · exact hs.setCw
  · exact hs.resolveRec
  · exact Steady.ite (Steady.ite hs.releaseAllPads hs.releasePad) hs
  · exact hs

theorem Steady.cwWrite {s : State} {h : Head} {p off v : ℕ} (hs : Steady κ s) : Steady κ (Machine.cwWrite s h p off v).2 := by
  unfold Machine.cwWrite
  extract_lets ep o k x k1 __src
  have hx : Steady κ x.2 := hs.barArrive
  split
  · exact hs.cwCommonWrite
  · split
    · exact Steady.ite2 hs.setQueue (Steady.ite2 (Steady.ite2 (Steady.ite hx.violReqS hx) hs) hs)
    · exact Steady.ite2 (Steady.ite2 hs.vcCommand (Steady.ite2 hs.setSlot hs)) (Steady.ite2 hs.leaseRenewWrite hs)
end Sys2Proof.Machine
end

section
/-! What the model's `Translate` part leaves `Steady`. -/
namespace Sys2Proof.Machine
variable {κ : Option (List Instr × Hem)}

theorem Steady.readNow {s : State} {r cid ep a n : ℕ} (hs : Steady κ s) : Steady κ (Machine.readNow s r cid ep a n).2.2 := by
  unfold Machine.readNow
  exact Steady.ite22 hs hs.readBytes

theorem Steady.homeRead {s : State} {r cid ep a n : ℕ} (hs : Steady κ s) : Steady κ (Machine.homeRead s r cid ep a n).2.2 := by
  unfold Machine.homeRead
  split
  · exact Steady.ite22 hs.lostStatus.dirDel.readBytes hs.readNow
  · exact hs.readNow

theorem Steady.walkRead {s : State} {p kind unit a : ℕ} (hs : Steady κ s) : WalkRead.Keeps κ (Machine.walkRead s p kind unit a) := by
  unfold Machine.walkRead
  extract_lets cid me viol f __src __src1 s1
  have hf : Steady κ f.2 := hs.freshFree
  have h__src : Steady κ __src := hf
  have hs1 : Steady κ s1 := h__src.same
  split
  · exact WalkRead.Keeps.val hs
  · exact WalkRead.Keeps.val hs.violation
  · exact WalkRead.Keeps.ite (WalkRead.Keeps.val hs.violation) (WalkRead.Keeps.ite (WalkRead.Keeps.val hs) (WalkRead.Keeps.val hs))
  · split
    · exact WalkRead.Keeps.val hs.violation
    · exact WalkRead.Keeps.ite (WalkRead.Keeps.val hs.violation) (WalkRead.Keeps.ite (WalkRead.Keeps.val hs.deadTarget) (WalkRead.Keeps.val hs1.emit))
  · split
    · exact WalkRead.Keeps.val hs.violation
    · split
      · exact WalkRead.Keeps.val hs.violation
      · split
        · exact WalkRead.Keeps.val hs
        · split
          · exact WalkRead.Keeps.val hs
          · split
            · exact WalkRead.Keeps.wait hs
            · exact WalkRead.Keeps.val hs.touch.homeRead

theorem Steady.walk {p kind unit va : ℕ} {user read write : Bool} {x y : ℕ} {z : State} (hz : Steady κ z) : Xlat.Keeps κ
    (Machine.walk p kind unit va user read write x y z) := by
  unfold Machine.walk
  extract_lets a
  split
  · rename_i e3
    exact Xlat.Keeps.wait (hz.walkRead.of_wait e3)
  · extract_lets fault r w leaf next pa
    rename_i e5
    split
    · exact Xlat.Keeps.fault (hz.walkRead.of_val e5)
    · split
      · exact Xlat.Keeps.fault (hz.walkRead.of_val e5)
      · split
        · exact Xlat.Keeps.fault (hz.walkRead.of_val e5)
        · split
          · split
            · exact Xlat.Keeps.fault (hz.walkRead.of_val e5)
            · exact Xlat.Keeps.ite (Xlat.Keeps.fault (hz.walkRead.of_val e5)) (Xlat.Keeps.ite (Xlat.Keeps.fault (hz.walkRead.of_val e5))
                  (Xlat.Keeps.ite (Xlat.Keeps.ok (hz.walkRead.of_val e5)) (Xlat.Keeps.fault (hz.walkRead.of_val e5))))
          · split
            · exact Xlat.Keeps.fault (hz.walkRead.of_val e5)
            · exact (hz.walkRead.of_val e5).walk

theorem Steady.ctxWalk {s : State} {kind unit cid va e : ℕ} {viol : Option Bytes} {read write : Bool} (hs : Steady κ s) : Xlat.Keeps κ
    (Machine.ctxWalk s kind unit cid va e viol read write) :=
  Xlat.Keeps.ite (Xlat.Keeps.fault hs) (Xlat.Keeps.ite (Xlat.Keeps.fault hs) hs.bump.walk)

theorem Steady.ctxRead {s : State} {kind unit cid : ℕ} (hs : Steady κ s) : CtxRead.Keeps κ (Machine.ctxRead s kind unit cid) := by
  unfold Machine.ctxRead
  split
  · exact CtxRead.Keeps.entry hs
  · extract_lets p c asid
    split
    · exact CtxRead.Keeps.stop (Xlat.Keeps.fault hs)
    · split
      · rename_i e5
        exact CtxRead.Keeps.stop (Xlat.Keeps.wait (hs.walkRead.of_wait e5))
      · rename_i e5
        exact CtxRead.Keeps.ite (CtxRead.Keeps.stop (Xlat.Keeps.fault (hs.walkRead.of_val e5))) (CtxRead.Keeps.entry (hs.walkRead.of_val e5))

theorem Steady.xlatKeep {s : State} {e : XlatEntry} (hs : Steady κ s) : Steady κ (Machine.xlatKeep s e) :=
  hs.same

theorem Steady.translate {s : State} {kind unit cid va : ℕ} {read write : Bool} (hs : Steady κ s) : Xlat.Keeps κ (Machine.translate s kind unit cid va read write) := by
  unfold Machine.translate
  extract_lets vpn
  split
  · exact Xlat.Keeps.ok hs
  · split
    · rename_i e4
      exact hs.ctxRead.of_stop e4
    · rename_i e4
      split
      · rename_i e6
        exact Xlat.Keeps.ok ((((hs.ctxRead.of_entry e4).ctxWalk).of_ok e6).xlatKeep)
      · exact (hs.ctxRead.of_entry e4).ctxWalk

theorem Steady.notifyFault {s : State} {p : ℕ} (hs : Steady κ s) : Steady κ (Machine.notifyFault s p) :=
  Steady.ite hs.latch hs.latch.submitOwn

theorem Steady.attachFault {s : State} {t : Trap} (hs : Steady κ s) : Steady κ (Machine.attachFault s t).2 := by
  unfold Machine.attachFault
  extract_lets p rd __src mine n f
  split
  · exact hs.same
  · exact Steady.ite2 hs hs.same.notifyFault

theorem Steady.leaveRec {s : State} {p n : ℕ} (hs : Steady κ s) : Steady κ (Machine.leaveRec s p n) := by
  unfold Machine.leaveRec
  split
  · exact hs
  · exact Steady.ite hs.dropRec hs.same
end Sys2Proof.Machine
end

section
/-! What the model's `Access` part leaves `Steady`. -/
namespace Sys2Proof.Machine
variable {κ : Option (List Instr × Hem)}

theorem Steady.knotFault {s : State} {ep group kind : ℕ} (hs : Steady κ s) : Steady κ (Machine.knotFault s ep group kind) :=
  hs.noteFault

theorem Steady.setKnot {s : State} {k : KnotEntry} (hs : Steady κ s) : Steady κ (Machine.setKnot s k) :=
  hs.same

theorem Steady.freeKnot {s : State} {ep cid group : ℕ} (hs : Steady κ s) : Steady κ (Machine.freeKnot s ep cid group) :=
  Steady.ite hs hs.same

theorem Steady.knotEntry {s : State} {ep cid group : ℕ} (hs : Steady κ s) : OptKeeps κ (·.2) (Machine.knotEntry s ep cid group) := by
  unfold Machine.knotEntry
  split
  · exact .some hs
  · exact .ite .none (.some hs.same)

theorem Steady.countSpan {s : State} {h : Head} {op : MemOp} {status : ℕ} (hs : Steady κ s) : Steady κ (Machine.countSpan s h op status) := by
  unfold Machine.countSpan
  split
  · split
    · exact hs
    · split
      · exact hs
      · exact hs.setKnot
  · exact hs

theorem Steady.finishReq {s : State} {h : Held} {status : ℕ} {d : Bytes} (hs : Steady κ s) : Steady κ (Machine.finishReq s h status d) :=
  Steady.ite hs.unhold.completeReq.countSpan hs.unhold.completeReq.countSpan.pushDone

theorem Steady.copyKnot {s : State} {r a : ℕ} (hs : Steady κ s) : Steady κ (Machine.copyKnot s r a) :=
  Steady.ite (Steady.ite hs.setArrBlob.setArrNum hs.setArrBlob) hs

theorem Steady.wrote {h : Held} {st0 : ℕ} {d : Bytes} {x : Wrote} (hx : Wrote.Keeps κ x) : Steady κ (Machine.wrote h st0 d x) := by
  unfold Machine.wrote
  split
  · exact Steady.ite ((hx.of_done rfl).rehold) ((hx.of_done rfl).finishReq)
  · extract_lets s
    have hs : Steady κ s := by
      dsimp only [s]
      split
      · exact (hx.of_wait rfl).basteWait
      · exact (hx.of_wait rfl).noSlot
      · exact (hx.of_wait rfl).bump
      · exact (hx.of_wait rfl)
    exact hs.rehold

theorem Steady.atomicBytes {s : State} {r kind unit cid ep a : ℕ} {op : AOp} {t c : ℕ} {x : Bytes} {target : IssFor} (hs : Steady κ s) :
    (Machine.atomicBytes s r kind unit cid ep a op t c x target).2.Keeps κ := by
  unfold Machine.atomicBytes
  extract_lets old
  have hr : Steady κ old.2.2 := hs.readBytes
  split
  · exact .done hr
  · exact hr.writeBytes

theorem Steady.act {s : State} {h : Held} {r st0 : ℕ} {peek : Option Bytes} (hs : Steady κ s) : Steady κ (Machine.act s h r st0 peek) := by
  unfold Machine.act
  extract_lets hd copy cid ep a at_ s1 s2 put s3
  have h1 : Steady κ s1 := Steady.ite hs.reachFrom hs.touch
  have h2 : Steady κ s2 := Steady.ite h1.readError h1
  have hput : ∀ t d p, Steady κ t → (put t d p).Keeps κ := fun t d p ht => Wrote.Keeps.ite ht.placedWrite ht.writeBytes
  split
  · split
    · exact h2.finishReq
    · exact h2.readBytes.finishReq
  · exact Steady.wrote (hput _ _ _ h2)
  · extract_lets y
    have hy : y.2.Keeps κ := Steady.atomicBytes h2.dropRowLines
    split
    next m u hu =>
      have hu : Steady κ u := hy.of_done hu
      exact Steady.wrote (.done (Steady.ite hu.countAtomic.markV hu.countAtomic))
    · exact Steady.wrote hy
  · extract_lets y
    have hy : y.2.Keeps κ := Steady.atomicBytes h2
    split
    next m u hu => exact Steady.wrote (.done (hy.of_done hu).countAtomic)
    · exact Steady.wrote hy
  · exact Steady.wrote (hput _ _ _ (Steady.ite (Steady.ite h2.bump.copyKnot h2.bump) h2))

theorem Steady.kindCached {s : State} {r ln kind unit cid : ℕ} (hs : Steady κ s) : Steady κ (Machine.kindCached s r ln kind unit cid) :=
  hs.bump.noteFault

theorem Steady.dirStage {s : State} {h : Held} {r : ℕ} (hs : Steady κ s) : Steady κ (Machine.dirStage s h r) := by
  unfold Machine.dirStage
  extract_lets hd ln busy go coh s1 x
  have hs1 : Steady κ s1 := Steady.ite hs.bump hs
  have hx : Steady κ x.2 := hs1.lostStatus
  split
  · exact Steady.ite hx.dirDel.act (Steady.ite (Steady.ite hs1.rehold.submitTxn (Steady.ite hs1.rehold.submitTxn hs1.act)) hs1.kindCached.rehold.submitTxn)
  · exact Steady.ite hs1.rehold.submitTxn hs1.act

theorem Steady.prepare {s : State} {h : Held} {r : ℕ} (hs : Steady κ s) : Steady κ (Machine.prepare s h r) := by
  unfold Machine.prepare
  extract_lets hd w
  split
  · exact Steady.ite hs.finishReq hs.bump.askMoveUp.rehold
  · exact Steady.ite hs.rehold (Steady.ite hs.rehold (Steady.ite hs.noSlot.rehold hs.dirStage))

theorem Steady.knotGate {s : State} {h : Held} {r : ℕ} (hs : Steady κ s) : Steady κ (Machine.knotGate s h r) := by
  unfold Machine.knotGate
  split
  · split
    · exact hs.prepare
    · extract_lets hd ep
      split
      · exact hs.bump.knotFault.finishReq
      · rename_i e5
        exact Steady.ite ((hs.knotEntry.of_some e5).prepare) (Steady.ite (((hs.knotEntry.of_some e5).knotFault).finishReq) (Steady.ite
            ((((hs.knotEntry.of_some e5).setKnot).prepare).freeKnot) (((hs.knotEntry.of_some e5).unhold).setKnot)))
  · exact hs.prepare

theorem Steady.serveControl {s : State} {h : Held} {p off : ℕ} (hs : Steady κ s) : Steady κ (Machine.serveControl s h p off) := by
  unfold Machine.serveControl
  extract_lets hd
  split
  · exact hs.violReqS.finishReq
  · split
    · exact hs.finishReq
    · split
      · exact hs.finishReq
      · exact Steady.ite hs.cwWrite.finishReq hs.finishReq
      · exact hs.finishReq

theorem Steady.serve {s : State} {h : Held} (hs : Steady κ s) : Steady κ (Machine.serve s h) := by
  unfold Machine.serve
  extract_lets hd op
  split
  · exact hs.finishReq
  · exact hs.finishReq
  · exact hs.violReqS.finishReq
  · exact hs.serveControl
  · split
    · exact Steady.ite hs.finishReq (Steady.ite hs.finishReq hs.knotGate)
    · split
      · exact hs.violReqS.finishReq
      · extract_lets h1
        split
        · exact hs.violReqS.finishReq
        · split
          · exact hs.finishReq
          · split
            · exact hs.finishReq
            · clear_value op
              split
              · exact Steady.ite hs.finishReq (Steady.ite hs.runBump.finishReq hs.prepare)
              · exact hs.knotGate

theorem Steady.issueCompat {s : State} {r : Req} {port : ℕ} {target : IssFor} (hs : Steady κ s) : Steady κ (Machine.issueCompat s r port target) :=
  hs.same.emit

theorem Steady.forward {s : State} {h : Held} {w : Window} (hs : Steady κ s) : Steady κ (Machine.forward s h w) :=
  Steady.ite hs.rehold.issueCompat hs.rehold.issueReq

theorem Steady.holdFault {s : State} {h : Held} {t : Trap} (hs : Steady κ s) : Steady κ (Machine.holdFault s h t) := by
  unfold Machine.holdFault
  split
  · rename_i e2
    exact (hs.attachFault.of_snd e2).rehold
  · rename_i e2
    exact ((hs.attachFault.of_snd e2).bump).rehold

theorem Steady.takeOn {s : State} {h0 : Held} (hs : Steady κ s) : Steady κ (Machine.takeOn s h0) := by
  unfold Machine.takeOn
  extract_lets h op __src rest
  have hrest : Steady κ rest := hs.same
  split
  · exact hs.violReqS.finishReq
  · exact hs.finishReq
  · split
    · exact hs.rehold
    · split
      · exact hs.rehold
      · split
        · exact hs.forward
        · exact hs.serve

theorem Steady.takeIn {s : State} {h : Held} (hs : Steady κ s) : Steady κ (Machine.takeIn s h) := by
  unfold Machine.takeIn
  extract_lets hd op __src
  split
  · split
    · rename_i e4
      exact (hs.translate.of_ok e4).takeOn
    · rename_i e4
      exact (hs.translate.of_fault e4).holdFault
    · rename_i e4
      exact (((hs.translate.of_wait e4).bump).askMoveUp).rehold
  · exact hs.takeOn

theorem Steady.advance {s : State} {h : Held} (hs : Steady κ s) : Steady κ (Machine.advance s h) := by
  unfold Machine.advance
  split
  · exact hs.finishReq
  · split
    · split
      · exact hs.act
      · exact hs.finishReq
    · exact hs.takeIn
  · split
    · split
      · exact hs.prepare
      · exact hs.finishReq
    · exact hs.takeIn

theorem Steady.rebuildDone {s : State} {r b status : ℕ} (hs : Steady κ s) : Steady κ (Machine.rebuildDone s r b status) :=
  Steady.ite hs (Steady.ite hs.degradePartner (Steady.ite hs.setArrBlob.setArrNum hs.setArrBlob))

theorem Steady.syncSample {s : State} {t1 mark status : ℕ} {d : Bytes} (hs : Steady κ s) : Steady κ (Machine.syncSample s t1 mark status d) :=
  Steady.ite hs hs.same

theorem Steady.settleOne {s : State} {t : IssFor} {status : ℕ} {d : Bytes} (hs : Steady κ s) : Steady κ (Machine.settleOne s t status d) := by
  unfold Machine.settleOne
  split
  · exact hs
  · exact hs.syncSample
  · split
    · exact hs
    · split
      · exact hs.finishReq
      · exact hs.finishReq
  · exact hs.descDone
  · exact hs.descAdded
  · exact hs.descMirrored
  · exact hs.rebuildDone

theorem Steady.holdDesc {s0 : State} {t : Trap} {d : DescRef} (hs0 : Steady κ s0) : Steady κ (Machine.holdDesc s0 t d) := by
  unfold Machine.holdDesc
  split
  · exact hs0
  · extract_lets s s1 x __src s2
    have hs : Steady κ s := by
      dsimp only [s]
      split
      · exact hs0.violation
      · exact hs0
    have hs1 : Steady κ s1 := Steady.ite hs.bump hs
    have hs2 : Steady κ s2 := hs1.same
    split
    · rename_i e4
      exact (hs2.attachFault.of_snd e4).setDesc
    · rename_i e4
      exact ((hs2.attachFault.of_snd e4).bump).setDesc

theorem Steady.againDesc {s : State} {d : DescRef} (hs : Steady κ s) : Steady κ (Machine.againDesc s d) := by
  unfold Machine.againDesc
  split
  · exact hs
  · split
    · exact hs
    · split
      · rename_i e4
        exact (hs.translate.of_fault e4).holdDesc
      · rename_i e4
        exact (hs.translate.of_ok e4).setDesc
      · rename_i e4
        exact ((hs.translate.of_wait e4).askMoveUp).setDesc

theorem Steady.finLoop {x : ℕ} {y : State} (hy : Steady κ y) : Steady κ (Machine.finLoop x y) := by
  unfold Machine.finLoop
  split
  · exact hy
  · split
    · exact hy.same.settleOne.finLoop
    · split
      · extract_lets __src s
        have hs : Steady κ s := hy.same
        split
        · exact (Steady.ite hs.mirrorLine hs).finLoop
        · exact hs.finLoop
      · split
        · exact hy.advance.finLoop
        · exact hy.same.againDesc.finLoop
        · exact hy

theorem Steady.fin {s : State} (hs : Steady κ s) : Steady κ (Machine.fin s) :=
  hs.finLoop.slotsBack.limpReset

theorem Steady.vestibule {s : State} {h : Head} {op : MemOp} (hs : Steady κ s) : Vestibule.Keeps κ (Machine.vestibule s h op) := by
  unfold Machine.vestibule
  extract_lets e s1 dc cid h' s2
  have hs1 : Steady κ s1 := Steady.ite hs.bump hs
  have hs2 : Steady κ s2 := hs1.meterPort
  exact Vestibule.Keeps.ite (Vestibule.Keeps.back hs.bump) (Vestibule.Keeps.ite (Vestibule.Keeps.back hs2.violReqS) (Vestibule.Keeps.ite
      (Vestibule.Keeps.back hs2) (Vestibule.Keeps.pass hs2)))

theorem Steady.backCredit {s : State} {p : ℕ} {owed : Option ℕ} (hs : Steady κ s) : Steady κ (Machine.backCredit s p owed) := by
  unfold Machine.backCredit
  split
  · exact hs.giveCredit
  · exact hs

theorem Steady.arriveBy {s : State} {owed : Option ℕ} {h : Head} {op : MemOp} (hs : Steady κ s) : Steady κ (Machine.arriveBy s owed h op) := by
  unfold Machine.arriveBy
  split
  · exact Steady.ite hs.holdReqFor hs.issueReq
  · split
    · exact hs.backCredit
    · extract_lets __src s1
      have hs1 : Steady κ s1 := Steady.ite hs hs.setPort
      split
      · rename_i e5
        exact ((hs1.vestibule.of_back e5).backCredit).completeReq
      · rename_i e5
        exact Steady.ite (((hs1.vestibule.of_pass e5).backCredit).completeReq) ((hs1.vestibule.of_pass e5).holdNew)

theorem Steady.arrive {s : State} {h : Head} {op : MemOp} (hs : Steady κ s) : Steady κ (Machine.arrive s h op) :=
  hs.arriveBy

theorem Steady.takeReq {s : State} {h : Head} {op : MemOp} (hs : Steady κ s) : Res.Keeps κ (Machine.takeReq s h op) :=
  Res.Keeps.next hs.arrive.fin
end Sys2Proof.Machine
end

section
/-! What the model's `PbCore` part leaves `Steady`. -/
namespace Sys2Proof.Machine
variable {κ : Option (List Instr × Hem)}

theorem Steady.setSess {s : State} {slot : ℕ} {x : Session} (hs : Steady κ s) : Steady κ (Machine.setSess s slot x) :=
  hs.same

theorem Steady.sendFrame {s : State} {slot : ℕ} {f : PbpFrame} (hs : Steady κ s) : Steady κ (Machine.sendFrame s slot f) :=
  Steady.ite hs.setSess.emit hs.setSess.emit

theorem Steady.respond {s : State} {slot tag opcode abort : ℕ} {body : Bytes} (hs : Steady κ s) : Steady κ (Machine.respond s slot tag opcode abort body) :=
  Steady.ite hs ((Steady.ite hs.setSess.bump hs.setSess).sendFrame)

theorem Steady.respondSub {s : State} {slot tag sub abort result : ℕ} (hs : Steady κ s) : Steady κ (Machine.respondSub s slot tag sub abort result) := by
  unfold Machine.respondSub
  extract_lets x rest
  split
  · exact hs.respond
  · exact Steady.ite hs.setSess.respond hs.setSess

theorem Steady.respondWrite {s : State} {slot tag abort result : ℕ} (hs : Steady κ s) : Steady κ (Machine.respondWrite s slot tag abort result) :=
  hs.respondSub

theorem Steady.refuse {s : State} {abort : ℕ} (hs : Steady κ s) : WriteOut.Keeps κ (Machine.refuse s abort) :=
  WriteOut.Keeps.done hs

theorem Steady.applied {s : State} (hs : Steady κ s) : WriteOut.Keeps κ (Machine.applied s) :=
  WriteOut.Keeps.done hs

theorem Steady.answerWaiting {s : State} {w : WaitingWrite} {abort : ℕ} (hs : Steady κ s) : Steady κ (Machine.answerWaiting s w abort) :=
  Steady.ite (Steady.ite hs.respondSub hs.respond) hs

theorem Steady.sendEvent {s : State} {slot : ℕ} {e : Event} (hs : Steady κ s) : Steady κ (Machine.sendEvent s slot e) :=
  Steady.ite hs (Steady.ite hs.setSess hs.setSess.sendFrame)

theorem Steady.flushEvents {s : State} {slot : ℕ} (hs : Steady κ s) : Steady κ (Machine.flushEvents s slot) :=
  hs.setSess.forS (fun _ _ hs1 => hs1.sendEvent)

theorem Steady.changeEvent {s : State} {slot sid kind index sub tag : ℕ} {extra : Bytes} (hs : Steady κ s) : Steady κ
    (Machine.changeEvent s slot sid kind index sub tag extra) :=
  Steady.ite hs.sendEvent hs

theorem Steady.endSession {s : State} {slot reason : ℕ} (hs : Steady κ s) : Steady κ (Machine.endSession s slot reason) :=
  Steady.ite hs ((((Steady.ite ((Steady.ite hs.sendFrame hs).same) (Steady.ite hs.sendFrame hs)).same).bumpBy).setSess)

theorem Steady.endWrite {w : Writer} {x : WriteOut} (hx : WriteOut.Keeps κ x) : Res.Keeps κ (Machine.endWrite w x) := by
  unfold Machine.endWrite
  split
  · exact Res.Keeps.next (((hx.of_done rfl).respondWrite).fin)
  · exact Res.Keeps.next ((hx.of_wait rfl).fin)
end Sys2Proof.Machine
end

section
/-! What the model's `Regions` part leaves `Steady`. -/
namespace Sys2Proof.Machine
variable {κ : Option (List Instr × Hem)}

theorem Steady.createRegion {s : State} {r : ℕ} {g : Region} (hs : Steady κ s) : Steady κ (Machine.createRegion s r g) :=
  Steady.ite ((Steady.ite (((Steady.ite (hs.sameMem (memZero_wf _ _)) hs).setRegion).setVer) ((Steady.ite (hs.sameMem
      (memZero_wf _ _)) hs).setRegion)).setArrNum) (Steady.ite (((Steady.ite (hs.sameMem (memZero_wf _ _)) hs).setRegion).setVer) ((Steady.ite
      (hs.sameMem (memZero_wf _ _)) hs).setRegion))

theorem Steady.noticeTo {s : State} {ep code unit data : ℕ} (hs : Steady κ s) : Steady κ (Machine.noticeTo s ep code unit data) :=
  Steady.ite hs hs.sendNotice

theorem Steady.sendBinds {s : State} (hs : Steady κ s) : Steady κ (Machine.sendBinds s) :=
  hs.forS (fun _ _ hs1 => Steady.ite hs1 hs1.same.noticeTo)

theorem Steady.startBind {s : State} {r : ℕ} {g : Region} {create : Bool} {w : Option WaitingWrite} (hs : Steady κ s) : Steady κ (Machine.startBind s r g create w) :=
  hs.same.sendBinds

theorem Steady.sendUnbind {s : State} {r : ℕ} {g : Region} (hs : Steady κ s) : Steady κ (Machine.sendUnbind s r g) :=
  hs.noticeTo

theorem Steady.beginRecall {s : State} (hs : Steady κ s) : Steady κ (Machine.beginRecall s) := by
  unfold Machine.beginRecall
  split
  · exact hs
  · exact hs.forS (fun _ _ hs2 => hs2.submitTxn)

theorem Steady.askRecall {s : State} {c : Recall} (hs : Steady κ s) : Steady κ (Machine.askRecall s c) :=
  Steady.ite hs.same.beginRecall hs.same

theorem Steady.setChanged {s : State} {r : ℕ} {g : Region} (hs : Steady κ s) : Steady κ (Machine.setChanged s r g) :=
  hs.setRegion.forS (fun _ _ hs1 => hs1.endPartHandles)

theorem Steady.changeRegion {s : State} {r : ℕ} {g : Region} {w : Option WaitingWrite} (hs : Steady κ s) : Steady κ (Machine.changeRegion s r g w) := by
  unfold Machine.changeRegion
  extract_lets o lost call s1
  have hs1 : Steady κ s1 := hs.setChanged
  split
  · split
    · exact hs1.answerWaiting
    · exact hs1
  · exact (hs.forS (fun _ _ hs3 => hs3.askRecall)).askRecall

theorem Steady.releaseRegion {s : State} {r : ℕ} (hs : Steady κ s) : Steady κ (Machine.releaseRegion s r) :=
  ((((Steady.ite ((Steady.ite hs.sendUnbind hs).setArrNum) (Steady.ite hs.sendUnbind hs)).forS
      (fun _ _ hs1 => Steady.ite hs1.bump.dirDel hs1.submitTxn)).dropVersions).forS (fun _ _ hs1 => hs1.abandonMove)).setRegion

theorem Steady.writeRegion {s : State} {w : Writer} {r : ℕ} {b : Bytes} (hs : Steady κ s) : WriteOut.Keeps κ (Machine.writeRegion s w r b) := by
  unfold Machine.writeRegion
  extract_lets o g prim s1
  have hs1 : Steady κ s1 := Steady.ite ((Steady.ite hs.sendUnbind hs).setArrNum) (Steady.ite hs.setArrNum hs)
  split
  · exact hs.refuse
  · split
    · exact hs.refuse
    · split
      · exact hs.refuse
      · split
        · exact WriteOut.Keeps.ite hs.setRegion.applied (WriteOut.Keeps.ite hs.refuse (WriteOut.Keeps.ite (WriteOut.Keeps.wait hs.startBind) hs.createRegion.applied))
        · exact WriteOut.Keeps.ite (WriteOut.Keeps.ite hs.refuse hs.releaseRegion.applied) (WriteOut.Keeps.ite hs.refuse (WriteOut.Keeps.ite
              (WriteOut.Keeps.wait hs.startBind) (WriteOut.Keeps.wait hs1.changeRegion)))

theorem Steady.endRelease {s : State} {r : ℕ} (hs : Steady κ s) : Steady κ (Machine.endRelease s r) :=
  ((Steady.ite (hs.sameMem (memZero_wf _ _)) hs.releaseBolts).same).setRegion

theorem Steady.writeWindow {s : State} {k : ℕ} {b : Bytes} (hs : Steady κ s) : WriteOut.Keeps κ (Machine.writeWindow s k b) :=
  WriteOut.Keeps.ite hs.refuse (WriteOut.Keeps.ite hs.refuse hs.same.applied)
end Sys2Proof.Machine
end

section
/-! What the model's `AddressMap` part leaves `Steady`. -/
namespace Sys2Proof.Machine
variable {κ : Option (List Instr × Hem)}

theorem Steady.stageRoutes {s : State} {b : Bytes} (hs : Steady κ s) : Steady κ (Machine.stageRoutes s b) :=
  hs.same

theorem Steady.stageWrite {s : State} {b : Bytes} (hs : Steady κ s) : Steady κ (Machine.stageWrite s b).2 := by
  unfold Machine.stageWrite
  exact Steady.ite2 hs (Steady.ite2 hs hs.stageRoutes)

theorem Steady.writeStage {s : State} {w : Writer} {b : Bytes} (hs : Steady κ s) : WriteOut.Keeps κ (Machine.writeStage s w b) :=
  WriteOut.Keeps.ite hs.refuse (WriteOut.Keeps.ite (WriteOut.Keeps.wait hs.same) (WriteOut.Keeps.done hs.stageWrite))

theorem Steady.copyEnd {s : State} (hs : Steady κ s) : Steady κ (Machine.copyEnd s) :=
  Steady.ite hs (hs.same.forS (fun _ _ hs1 => hs1.stageWrite.respondWrite))

theorem Steady.commitMap {s : State} {epoch : ℕ} (hs : Steady κ s) : Steady κ (Machine.commitMap s epoch) :=
  hs.copyEnd.same.wakeRetries

theorem Steady.writeCommit {s : State} {b : Bytes} (hs : Steady κ s) : WriteOut.Keeps κ (Machine.writeCommit s b) :=
  WriteOut.Keeps.ite hs.refuse (WriteOut.Keeps.ite hs.refuse hs.commitMap.applied)

theorem Steady.cwStore {s : State} {h : Head} {off v : ℕ} (hs : Steady κ s) : Steady κ (Machine.cwStore s h off v) :=
  hs.arrive

theorem Steady.leaveWait {s : State} {h : Held} (hs : Steady κ s) : Steady κ (Machine.leaveWait s h) := by
  unfold Machine.leaveWait
  refine Steady.same ?_
  split
  · exact hs.leaveRec
  · exact hs

theorem Steady.mirrorFail {s : State} {i : Issued} {r : ℕ} (hs : Steady κ s) : Steady κ (Machine.mirrorFail s i r) :=
  Steady.ite hs.degradePartner.finishIssued hs.degradePartner

theorem Steady.timeoutDesc {s : State} {d : DescRef} {x : Desc} (hs : Steady κ s) : Steady κ (Machine.timeoutDesc s d x) := by
  unfold Machine.timeoutDesc
  extract_lets since s1 hd
  have hs1 : Steady κ s1 := by
    dsimp only [s1]
    split
    · exact hs.leaveRec
    · exact hs
  clear_value since
  split
  · exact hs
  · exact Steady.ite hs hs1.deadTarget.endHeld

theorem Steady.timeoutHeld {s : State} {h : Held} (hs : Steady κ s) : Steady κ (Machine.timeoutHeld s h) :=
  Steady.ite hs (Steady.ite (Steady.ite hs.leaveWait.finishReq hs) hs.leaveWait.deadTarget.finishReq)

theorem Steady.timeoutRef {s : State} {r : ReqRef} (hs : Steady κ s) : Steady κ (Machine.timeoutRef s r) := by
  unfold Machine.timeoutRef
  split
  · split
    · exact hs
    · split
      · exact hs
      · split
        · exact hs.mirrorFail
        · exact hs.deadTarget.finishIssued
  · split
    · exact hs
    · exact hs.timeoutHeld
  · split
    · exact hs
    · exact Steady.ite hs hs.same.deadTarget.emit
  · split
    · exact hs
    · exact hs.timeoutDesc

theorem Steady.takeRetry {s : State} {i : Issued} {epoch : ℕ} (hs : Steady κ s) : Steady κ (Machine.takeRetry s i epoch) :=
  hs.same.wakeRetries

theorem Steady.execRegionCreate {w : Writer} {region : ℕ} {value : Bytes} {s : State} (hs : Steady κ s) : Res.Keeps κ (Machine.execRegionCreate w region value s) :=
  Steady.endWrite hs.writeRegion

theorem Steady.execRegionChange {w : Writer} {region : ℕ} {value : Bytes} {s : State} (hs : Steady κ s) : Res.Keeps κ (Machine.execRegionChange w region value s) :=
  Steady.endWrite hs.writeRegion

theorem Steady.execRegionRelease {w : Writer} {region : ℕ} {value : Bytes} {s : State} (hs : Steady κ s) : Res.Keeps κ (Machine.execRegionRelease w region value s) :=
  Steady.endWrite hs.writeRegion

theorem Steady.execRegionReleaseEnd {region : ℕ} {s : State} (hs : Steady κ s) : Res.Keeps κ (Machine.execRegionReleaseEnd region s) :=
  Res.Keeps.next (Steady.ite hs.endRelease.fin hs)

theorem Steady.execWindowWrite {w : Writer} {window : ℕ} {value : Bytes} {s : State} (hs : Steady κ s) : Res.Keeps κ (Machine.execWindowWrite w window value s) :=
  Steady.endWrite hs.writeWindow

theorem Steady.execRouteStage {w : Writer} {value : Bytes} {s : State} (hs : Steady κ s) : Res.Keeps κ (Machine.execRouteStage w value s) :=
  Steady.endWrite hs.writeStage

theorem Steady.execMapCommit {w : Writer} {value : Bytes} {s : State} (hs : Steady κ s) : Res.Keeps κ (Machine.execMapCommit w value s) :=
  Steady.endWrite hs.writeCommit

theorem Steady.execMapStageCopyEnd {s : State} (hs : Steady κ s) : Res.Keeps κ (Machine.execMapStageCopyEnd s) :=
  Res.Keeps.next hs.copyEnd.fin

theorem Steady.execMapGraceEnd {s : State} (hs : Steady κ s) : Res.Keeps κ (Machine.execMapGraceEnd s) := by
  unfold Machine.execMapGraceEnd
  refine Res.Keeps.next ?_
  split
  · exact Steady.ite hs.same hs
  · exact hs

theorem Steady.execCwInvAsid {h : Head} {asid : ℕ} {s : State} (hs : Steady κ s) : Res.Keeps κ (Machine.execCwInvAsid h asid s) :=
  Res.Keeps.next hs.cwStore.fin

theorem Steady.execCwInvAllAsid {h : Head} {s : State} (hs : Steady κ s) : Res.Keeps κ (Machine.execCwInvAllAsid h s) :=
  Res.Keeps.next hs.cwStore.fin

theorem Steady.execCwInvByVa {h : Head} {asid : ℕ} {allAsid : Bool} {s : State} (hs : Steady κ s) : Res.Keeps κ (Machine.execCwInvByVa h asid allAsid s) :=
  Res.Keeps.next hs.cwStore.fin

theorem Steady.execInvComplete {s : State} (hs : Steady κ s) : Res.Keeps κ (Machine.execInvComplete s) := by
  unfold Machine.execInvComplete
  refine Res.Keeps.next ?_
  split
  · exact hs
  · exact Steady.ite hs.same.setCw.startInval hs.startInval

theorem Steady.execCwFrResume {h : Head} {record : ℕ} {s : State} (hs : Steady κ s) : Res.Keeps κ (Machine.execCwFrResume h record s) :=
  Res.Keeps.next hs.cwStore.fin

theorem Steady.execCwFrTerminate {h : Head} {record : ℕ} {s : State} (hs : Steady κ s) : Res.Keeps κ (Machine.execCwFrTerminate h record s) :=
  Res.Keeps.next hs.cwStore.fin

theorem Steady.execFrRecordFreed {s : State} (hs : Steady κ s) : Res.Keeps κ (Machine.execFrRecordFreed s) := by
  unfold Machine.execFrRecordFreed
  refine Res.Keeps.next ?_
  split
  · exact hs
  · split
    · exact hs
    · rename_i e5
      split
      · exact ((hs.attachFault.of_snd e5).rehold).fin
      · exact ((hs.attachFault.of_snd e5).setDesc).fin

theorem Steady.execRequestTimeout {r : ReqRef} {s : State} (hs : Steady κ s) : Res.Keeps κ (Machine.execRequestTimeout r s) :=
  Res.Keeps.next hs.timeoutRef.fin

theorem Steady.execHoldDiscard {seq : ℕ} {s : State} (hs : Steady κ s) : Res.Keeps κ (Machine.execHoldDiscard seq s) := by
  unfold Machine.execHoldDiscard
  refine Res.Keeps.next ?_
  split
  · exact hs
  · exact Steady.ite hs (Steady.ite hs.leaveWait.unhold.fin hs.leaveWait.rehold.fin)

theorem Steady.execRetryReceived {c : Completion} {s : State} (hs : Steady κ s) : Res.Keeps κ (Machine.execRetryReceived c s) := by
  unfold Machine.execRetryReceived
  refine Res.Keeps.next ?_
  split
  · exact hs
  · exact hs.takeRetry.fin
end Sys2Proof.Machine
end

section
/-! What the model's `MemoryRows` part leaves `Steady`. -/
namespace Sys2Proof.Machine
variable {κ : Option (List Instr × Hem)}

theorem Steady.takeCmp {s : State} {c : Completion} {kind : ℕ} (hs : Steady κ s) : Steady κ (Machine.takeCmp s c kind) := by
  unfold Machine.takeCmp
  split
  · exact hs
  · extract_lets s1 d
    have hs1 : Steady κ s1 := hs.meterPort
    split
    · exact hs1
    · split
      · exact hs1.takeRetry
      · split
        · exact Steady.ite hs1.finishIssued hs1.mirrorFail
        · exact hs1.finishIssued

theorem Steady.execOrdStore {h : Head} {data : Bytes} {s : State} (hs : Steady κ s) : Res.Keeps κ (Machine.execOrdStore h data s) :=
  hs.takeReq

theorem Steady.execAtomicAdd {h : Head} {atype rsvd : ℕ} {operands : Bytes} {s : State} (hs : Steady κ s) : Res.Keeps κ (Machine.execAtomicAdd h atype rsvd operands s) :=
  hs.takeReq

theorem Steady.execAtomicMin {h : Head} {atype rsvd : ℕ} {operands : Bytes} {s : State} (hs : Steady κ s) : Res.Keeps κ (Machine.execAtomicMin h atype rsvd operands s) :=
  hs.takeReq

theorem Steady.execAtomicMax {h : Head} {atype rsvd : ℕ} {operands : Bytes} {s : State} (hs : Steady κ s) : Res.Keeps κ (Machine.execAtomicMax h atype rsvd operands s) :=
  hs.takeReq

theorem Steady.execAtomicSwap {h : Head} {atype rsvd : ℕ} {operands : Bytes} {s : State} (hs : Steady κ s) : Res.Keeps κ
    (Machine.execAtomicSwap h atype rsvd operands s) :=
  hs.takeReq

theorem Steady.execAtomicCas {h : Head} {atype rsvd compare : ℕ} {operands : Bytes} {s : State} (hs : Steady κ s) : Res.Keeps κ
    (Machine.execAtomicCas h atype rsvd compare operands s) :=
  hs.takeReq

theorem Steady.execAtomicAnd {h : Head} {atype rsvd : ℕ} {operands : Bytes} {s : State} (hs : Steady κ s) : Res.Keeps κ (Machine.execAtomicAnd h atype rsvd operands s) :=
  hs.takeReq

theorem Steady.execAtomicOr {h : Head} {atype rsvd : ℕ} {operands : Bytes} {s : State} (hs : Steady κ s) : Res.Keeps κ (Machine.execAtomicOr h atype rsvd operands s) :=
  hs.takeReq

theorem Steady.execAtomicXor {h : Head} {atype rsvd : ℕ} {operands : Bytes} {s : State} (hs : Steady κ s) : Res.Keeps κ (Machine.execAtomicXor h atype rsvd operands s) :=
  hs.takeReq

theorem Steady.execReduceSum {h : Head} {rtype : ℕ} {data : Bytes} {s : State} (hs : Steady κ s) : Res.Keeps κ (Machine.execReduceSum h rtype data s) :=
  hs.takeReq

theorem Steady.execReduceMin {h : Head} {rtype : ℕ} {data : Bytes} {s : State} (hs : Steady κ s) : Res.Keeps κ (Machine.execReduceMin h rtype data s) :=
  hs.takeReq

theorem Steady.execReduceMax {h : Head} {rtype : ℕ} {data : Bytes} {s : State} (hs : Steady κ s) : Res.Keeps κ (Machine.execReduceMax h rtype data s) :=
  hs.takeReq

theorem Steady.execOrdLoad {h : Head} {len : ℕ} {s : State} (hs : Steady κ s) : Res.Keeps κ (Machine.execOrdLoad h len s) :=
  hs.takeReq

theorem Steady.execBlkWrite {h : Head} {group : ℕ} {span : Bool} {data : Bytes} {poison : Bool} {s : State} (hs : Steady κ s) : Res.Keeps κ
    (Machine.execBlkWrite h group span data poison s) :=
  hs.takeReq

theorem Steady.execBlkKnot {h : Head} {group : ℕ} {span : Bool} {count : ℕ} {data : Bytes} {s : State} (hs : Steady κ s) : Res.Keeps κ
    (Machine.execBlkKnot h group span count data s) :=
  hs.takeReq

theorem Steady.execKnotPerform {ep cid group : ℕ} {span : Bool} {s : State} (hs : Steady κ s) : Res.Keeps κ (Machine.execKnotPerform ep cid group span s) := by
  unfold Machine.execKnotPerform
  refine Res.Keeps.next ?_
  split
  · exact hs
  · split
    · exact Steady.ite hs hs.setKnot.rehold.fin.freeKnot
    · exact hs

theorem Steady.execKnotHoldTimeout {ep cid group : ℕ} {span : Bool} {s : State} (hs : Steady κ s) : Res.Keeps κ (Machine.execKnotHoldTimeout ep cid group span s) := by
  unfold Machine.execKnotHoldTimeout
  refine Res.Keeps.next ?_
  split
  · exact hs
  · split
    · exact Steady.ite hs hs.setKnot.finishReq.bump.knotFault.freeKnot.fin
    · exact hs

theorem Steady.execOrdCmp {c : Completion} {s : State} (hs : Steady κ s) : Res.Keeps κ (Machine.execOrdCmp c s) :=
  Res.Keeps.next hs.takeCmp.fin

theorem Steady.execBlkCmp {c : Completion} {s : State} (hs : Steady κ s) : Res.Keeps κ (Machine.execBlkCmp c s) :=
  Res.Keeps.next hs.takeCmp.fin

theorem Steady.execOrdData {c : Completion} {s : State} (hs : Steady κ s) : Res.Keeps κ (Machine.execOrdData c s) :=
  Res.Keeps.next hs.takeCmp.fin
end Sys2Proof.Machine
end

section
/-! What the model's `TierRows` part leaves `Steady`. -/
namespace Sys2Proof.Machine
variable {κ : Option (List Instr × Hem)}

theorem Steady.unqueue {s : State} {b what : ℕ} (hs : Steady κ s) : Steady κ (Machine.unqueue s b what) :=
  hs.same

theorem Steady.promoteTo {s : State} {b : ℕ} (hs : Steady κ s) : Steady κ (Machine.promoteTo s b).2 := by
  unfold Machine.promoteTo
  extract_lets r
  have hr : Steady κ r.2 := hs.pickCool
  split
  · exact hr.startMove
  · exact hr

theorem Steady.promoteNow {s : State} {b : ℕ} (hs : Steady κ s) : Steady κ (Machine.promoteNow s b).2 := by
  unfold Machine.promoteNow
  extract_lets x
  split
  · exact Steady.ite2 hs (Steady.ite2 hs.unqueue (Steady.ite2 hs.unqueue (Steady.ite2 hs.unqueue.promoteTo hs)))
  · split
    · exact hs
    · split
      · exact hs.promoteTo
      · split
        · exact hs
        · exact Steady.ite hs.demoteOne.queueDecision hs.demoteOne

theorem Steady.demotePolicyNow {s : State} {b : ℕ} (hs : Steady κ s) : Steady κ (Machine.demotePolicyNow s b) :=
  Steady.ite hs.demoteOne hs

theorem Steady.hintBolt {s : State} {tier b : ℕ} (hs : Steady κ s) : Steady κ (Machine.hintBolt s tier b) := by
  unfold Machine.hintBolt
  extract_lets x pol s1 r
  have hs1 : Steady κ s1 := Steady.ite hs.setBolt hs
  have hr : Steady κ r.2 := hs1.pickCool
  split
  · exact hs1
  · split
    · exact hr.startMove
    · exact hr

theorem Steady.doHint {s : State} {h : Hint} (hs : Steady κ s) : Steady κ (Machine.doHint s h) :=
  (hs.forS (fun _ _ hs1 => hs1.hintBolt)).bump

theorem Steady.doHints {s : State} (hs : Steady κ s) : Steady κ (Machine.doHints s) :=
  hs.same.forS (fun _ _ hs1 => hs1.doHint)

theorem Steady.releaseDecisions {s : State} (hs : Steady κ s) : Steady κ (Machine.releaseDecisions s) :=
  Steady.ite hs (((hs.forS (fun _ _ hs1 => Steady.ite hs1.promoteNow.unqueue hs1.promoteNow)).doHints).forS
      (fun _ _ hs1 => Steady.ite hs1.unqueue.demotePolicyNow hs1.unqueue.demoteQuotaNow))

theorem Steady.setAllowance {s : State} {lc : Bool} {n : ℤ} (hs : Steady κ s) : Steady κ (Machine.setAllowance s lc n) :=
  hs.same

theorem Steady.copyMove {s : State} {m : Move} (hs : Steady κ s) : Steady κ (Machine.copyMove s m) :=
  hs.setAllowance.same

theorem Steady.refill {s : State} {lc : Bool} (hs : Steady κ s) : Steady κ (Machine.refill s lc) :=
  hs.setAllowance

theorem Steady.copyTick {s : State} (hs : Steady κ s) : Steady κ (Machine.copyTick s) :=
  Steady.ite hs (hs.refill.refill.forS ((fun _ _ hs1 => hs1.forS (fun _ _ hs2 => hs2.copyMove))))

theorem Steady.lateSlot {s : State} {e : ℕ × ℕ} (hs : Steady κ s) : OptKeeps κ (fun t => t) (Machine.lateSlot s e) := by
  unfold Machine.lateSlot
  split
  · exact .none
  · split
    · exact .none
    · exact hs.allocBolt.map (fun _ hs3 => Steady.ite hs3.askMoveUp hs3.same)

theorem Steady.writeHint {s : State} {b : Bytes} (hs : Steady κ s) : WriteOut.Keeps κ (Machine.writeHint s b) :=
  WriteOut.Keeps.ite hs.refuse (WriteOut.Keeps.ite hs.refuse ((Steady.ite hs.same hs.same.doHints).applied))

theorem Steady.boolWrite {s : State} {b : Bytes} {f : Bool → WriteOut} (hs : Steady κ s) (hf : ∀ x1, WriteOut.Keeps κ (f x1)) : WriteOut.Keeps κ
    (Machine.boolWrite s b f) := by
  unfold Machine.boolWrite
  exact WriteOut.Keeps.ite (.done hs) (WriteOut.Keeps.ite (.done hs) (hf _))

theorem Steady.writePlaceReset {s : State} {b : Bytes} (hs : Steady κ s) : WriteOut.Keeps κ (Machine.writePlaceReset s b) :=
  hs.boolWrite ((fun _ => WriteOut.Keeps.ite hs.applied (((hs.forS (fun _ _ hs1 => hs1.setBolt)).same).applied)))

theorem Steady.writePlaceFreeze {s : State} {b : Bytes} (hs : Steady κ s) : WriteOut.Keeps κ (Machine.writePlaceFreeze s b) :=
  hs.boolWrite ((fun _ => (Steady.ite hs.setNum hs.setNum.doHints).applied))

theorem Steady.writeEvacuate {s : State} {b : Bytes} (hs : Steady κ s) : WriteOut.Keeps κ (Machine.writeEvacuate s b) :=
  WriteOut.Keeps.ite hs.refuse (WriteOut.Keeps.ite hs.refuse ((hs.setNum.forS (fun _ _ hs1 => hs1.moveOut)).applied))

theorem Steady.writeBoltQuery {s : State} {w : Writer} {b : Bytes} (hs : Steady κ s) : WriteOut.Keeps κ (Machine.writeBoltQuery s w b) :=
  WriteOut.Keeps.ite hs.refuse hs.setSess.applied

theorem Steady.scrubSlot {s : State} {tier slot : ℕ} (hs : Steady κ s) : Steady κ (Machine.scrubSlot s tier slot) :=
  hs.same

theorem Steady.setStream {s : State} {w : ℕ} {x : StreamRun} (hs : Steady κ s) : Steady κ (Machine.setStream s w x) :=
  hs.same

theorem Steady.pinBolt {s : State} {w b : ℕ} (hs : Steady κ s) : Steady κ (Machine.pinBolt s w b) :=
  Steady.ite hs hs.setBolt.setStream

theorem Steady.unpinBolts {s : State} {w : ℕ} {keep : ℕ → Bool} (hs : Steady κ s) : Steady κ (Machine.unpinBolts s w keep) :=
  (hs.forS (fun _ _ hs1 => hs1.setBolt)).setStream

theorem Steady.fetchBolts {s : State} {w k : ℕ} (hs : Steady κ s) : Steady κ (Machine.fetchBolts s w k) := by
  unfold Machine.fetchBolts
  refine Steady.forS hs (fun _ _ hs1 => ?_)
  extract_lets s1 x r
  have hs1 : Steady κ s1 := hs1.pinBolt
  have hr : Steady κ r.2 := hs1.pickCool
  split
  · exact hs1
  · split
    · exact hr.startMove
    · exact hr

theorem Steady.startFetch {s : State} {w : ℕ} (hs : Steady κ s) : Steady κ (Machine.startFetch s w) := by
  unfold Machine.startFetch
  extract_lets x
  split
  · exact hs
  · split
    · exact hs
    · exact hs.setStream.fetchBolts

theorem Steady.storeReady {s : State} {w : ℕ} (hs : Steady κ s) : Steady κ (Machine.storeReady s w) :=
  Steady.ite hs (Steady.ite hs.setStream.submitOwn hs.setStream)

theorem Steady.strStart {s : State} {w : ℕ} (hs : Steady κ s) : WriteOut.Keeps κ (Machine.strStart s w) :=
  WriteOut.Keeps.ite hs.refuse hs.unpinBolts.setStream.startFetch.applied

theorem Steady.strStop {s : State} {w : ℕ} (hs : Steady κ s) : WriteOut.Keeps κ (Machine.strStop s w) :=
  (Steady.ite hs.setStream hs).applied

theorem Steady.advanceTo {s : State} {w v0 : ℕ} (hs : Steady κ s) : Steady κ (Machine.advanceTo s w v0) :=
  Steady.ite hs hs.unpinBolts.setStream.startFetch.storeReady

theorem Steady.execAgeSweep {bolt : ℕ} {s : State} (hs : Steady κ s) : Res.Keeps κ (Machine.execAgeSweep bolt s) :=
  Res.Keeps.ite (Res.Keeps.next hs) (Res.Keeps.next (Steady.ite ((Steady.ite hs.setBolt.queueDecision hs.setBolt.unqueue).moveOut)
      (Steady.ite hs.setBolt.queueDecision hs.setBolt.unqueue)))

theorem Steady.execEvict {tier : ℕ} {s : State} (hs : Steady κ s) : Res.Keeps κ (Machine.execEvict tier s) := by
  unfold Machine.execEvict
  extract_lets p
  refine Res.Keeps.next ?_
  split
  · split
    · exact hs
    · exact Steady.ite hs.bump hs.demoteOne
  · exact hs

theorem Steady.execPromote {bolt : ℕ} {s : State} (hs : Steady κ s) : Res.Keeps κ (Machine.execPromote bolt s) :=
  Res.Keeps.next (Steady.ite hs (Steady.ite hs.unqueue.queueDecision (Steady.ite hs.promoteNow.unqueue hs.promoteNow)))

theorem Steady.execDemotePolicy {bolt : ℕ} {s : State} (hs : Steady κ s) : Res.Keeps κ (Machine.execDemotePolicy bolt s) :=
  Res.Keeps.next (Steady.ite hs (Steady.ite hs.queueDecision hs.demotePolicyNow))

theorem Steady.execDemoteQuota {part tier : ℕ} {s : State} (hs : Steady κ s) : Res.Keeps κ (Machine.execDemoteQuota part tier s) :=
  Res.Keeps.next (Steady.ite hs (Steady.ite hs.queueDecision hs.demoteQuotaNow))

theorem Steady.execDemandMoveUp {bolt : ℕ} {s : State} (hs : Steady κ s) : Res.Keeps κ (Machine.execDemandMoveUp bolt s) :=
  Res.Keeps.next (Steady.ite hs.openMoveUp hs)

theorem Steady.execMoveCutover {bolt badUnits : ℕ} {retries : List (ℕ × ℤ)} {s : State} (hs : Steady κ s) : Res.Keeps κ
    (Machine.execMoveCutover bolt badUnits retries s) := by
  unfold Machine.execMoveCutover
  refine Res.Keeps.next ?_
  split
  · exact hs
  · exact Steady.ite hs.abandonMove (Steady.ite hs (((Steady.ite (((Steady.ite hs.setAllowance hs).flashRetries).cellarUnits)
        (Steady.ite hs.setAllowance hs)).cutover).fin))

theorem Steady.execMoveSourceFree {tier slot : ℕ} {s : State} (hs : Steady κ s) : Res.Keeps κ (Machine.execMoveSourceFree tier slot s) := by
  unfold Machine.execMoveSourceFree
  refine Res.Keeps.next ?_
  split
  · exact hs
  · exact Steady.ite hs hs.same.freeSlot

theorem Steady.execLearnEnd {s : State} (hs : Steady κ s) : Res.Keeps κ (Machine.execLearnEnd s) :=
  Res.Keeps.next (Steady.ite hs.same hs)

theorem Steady.execAllocSlotFreed {s : State} (hs : Steady κ s) : Res.Keeps κ (Machine.execAllocSlotFreed s) := by
  refine .next ?_
  split
  · exact hs.advance.fin
  · split
    · rename_i e
      obtain ⟨x, -, hx⟩ := List.exists_of_findSome?_eq_some e
      exact (hs.lateSlot.of_some hx).fin
    · exact hs

theorem Steady.execPlaceHint {w : Writer} {value : Bytes} {s : State} (hs : Steady κ s) : Res.Keeps κ (Machine.execPlaceHint w value s) :=
  Steady.endWrite hs.writeHint

theorem Steady.execPlaceReset {w : Writer} {value : Bytes} {s : State} (hs : Steady κ s) : Res.Keeps κ (Machine.execPlaceReset w value s) :=
  Steady.endWrite hs.writePlaceReset

theorem Steady.execPlaceFreeze {w : Writer} {value : Bytes} {s : State} (hs : Steady κ s) : Res.Keeps κ (Machine.execPlaceFreeze w value s) :=
  Steady.endWrite hs.writePlaceFreeze

theorem Steady.execEvacuate {w : Writer} {value : Bytes} {s : State} (hs : Steady κ s) : Res.Keeps κ (Machine.execEvacuate w value s) :=
  Steady.endWrite hs.writeEvacuate

theorem Steady.execBoltQuery {w : Writer} {value : Bytes} {s : State} (hs : Steady κ s) : Res.Keeps κ (Machine.execBoltQuery w value s) :=
  Steady.endWrite hs.writeBoltQuery

theorem Steady.execPatrolScrub {bolt : ℕ} {found : ScrubFind} {s : State} (hs : Steady κ s) : Res.Keeps κ (Machine.execPatrolScrub bolt found s) :=
  Res.Keeps.next (Steady.ite hs hs.same.lineErrors)

theorem Steady.execTierThermal {larder : Bool} {unit : ℕ} {tempC : ℤ} {s : State} (hs : Steady κ s) : Res.Keeps κ (Machine.execTierThermal larder unit tempC s) :=
  Res.Keeps.ite (Res.Keeps.next hs) (Res.Keeps.next ((Steady.ite hs.same hs.same).latch))

theorem Steady.execStrStart {w : Writer} {window : ℕ} {s : State} (hs : Steady κ s) : Res.Keeps κ (Machine.execStrStart w window s) :=
  Steady.endWrite hs.strStart

theorem Steady.execStrStop {w : Writer} {window : ℕ} {s : State} (hs : Steady κ s) : Res.Keeps κ (Machine.execStrStop w window s) :=
  Steady.endWrite hs.strStop

theorem Steady.execStrStopEnd {window : ℕ} {s : State} (hs : Steady κ s) : Res.Keeps κ (Machine.execStrStopEnd window s) :=
  Res.Keeps.next (Steady.ite hs.unpinBolts.setStream hs)

theorem Steady.execStrAdvance {window : ℕ} {s : State} (hs : Steady κ s) : Res.Keeps κ (Machine.execStrAdvance window s) :=
  Res.Keeps.next (Steady.ite hs ((hs.setStream.forS (fun _ _ hs1 => hs1.advanceTo)).fin))

theorem Steady.execStrLayerFetched {window : ℕ} {s : State} (hs : Steady κ s) : Res.Keeps κ (Machine.execStrLayerFetched window s) := by
  unfold Machine.execStrLayerFetched
  extract_lets x
  refine Res.Keeps.next ?_
  split
  · exact hs
  · exact Steady.ite hs.setStream.storeReady.startFetch.fin hs.fetchBolts
end Sys2Proof.Machine
end

section
/-! What the model's `CohRows` part leaves `Steady`. -/
namespace Sys2Proof.Machine
variable {κ : Option (List Instr × Hem)}

theorem Steady.answerReq {s : State} {m : CohMsg} {cls op : ℕ} {x : CohMsg} (hs : Steady κ s) : Steady κ (Machine.answerReq s m cls op x) :=
  Steady.ite hs.same.queueTx hs.toAgent

theorem Steady.endReq {s : State} {m : CohMsg} {status : ℕ} (hs : Steady κ s) : Steady κ (Machine.endReq s m status) :=
  hs.answerReq

theorem Steady.zeroReq {s : State} {m : CohMsg} (hs : Steady κ s) : Steady κ (Machine.zeroReq s m) :=
  hs.answerReq

theorem Steady.reqViolation {s : State} {m : CohMsg} {k : TxnKind} {kind region : ℕ} (hs : Steady κ s) : Steady κ (Machine.reqViolation s m k kind region) :=
  hs.violation.zeroReq

theorem Steady.reqGate {s : State} {m : CohMsg} {k : TxnKind} (hs : Steady κ s) : ReqGate.Keeps κ (Machine.reqGate s m k) := by
  unfold Machine.reqGate
  split
  · exact ReqGate.Keeps.pass hs
  · exact ReqGate.Keeps.ite (ReqGate.Keeps.back hs.bump.endReq) (ReqGate.Keeps.ite (ReqGate.Keeps.back ((Steady.ite hs.bump hs).reqViolation))
        (ReqGate.Keeps.ite (ReqGate.Keeps.back ((Steady.ite hs.bump hs).endReq)) (ReqGate.Keeps.pass (Steady.ite hs.bump hs))))

theorem Steady.cohServe {s : State} {m : CohMsg} {k : TxnKind} (hs : Steady κ s) : Steady κ (Machine.cohServe s m k) := by
  unfold Machine.cohServe
  extract_lets ln s1
  have hs1 : Steady κ s1 := hs.countReq.reachFrom
  split
  · exact hs.zeroReq
  · exact hs.endReq
  · exact hs.reqViolation
  · exact Steady.ite hs.endReq hs.reqViolation
  · split
    · exact hs.reqViolation
    · split
      · exact hs.reqViolation
      · split
        · exact hs.endReq
        · split
          · exact hs.endReq
          · extract_lets w
            split
            · exact hs1.bump.askMoveUp.waitTxn
            · exact (Steady.ite hs1.readError hs1).submitTxn

theorem Steady.reqCredit {s : State} {m : CohMsg} {owed : Bool} (hs : Steady κ s) : Steady κ (Machine.reqCredit s m owed) :=
  Steady.ite hs.giveCredit hs

theorem Steady.reqWindow {s : State} {m : CohMsg} {k : TxnKind} (hs : Steady κ s) : Steady κ (Machine.reqWindow s m k) := by
  unfold Machine.reqWindow
  split
  · exact hs.reqViolation
  · exact Steady.ite hs.endReq hs.reqViolation

theorem Steady.reqOn {s : State} {owed : Bool} {m : CohMsg} {k : TxnKind} (hs : Steady κ s) : Steady κ (Machine.reqOn s owed m k) := by
  unfold Machine.reqOn
  split
  · exact hs.reqCredit.reqViolation
  · split
    · exact hs.reqCredit.reqWindow
    · exact Steady.ite hs.reqCredit.cohServe hs.same

theorem Steady.cohReqBy {s : State} {owed : Bool} {m : CohMsg} {k : TxnKind} (hs : Steady κ s) : Steady κ (Machine.cohReqBy s owed m k) := by
  unfold Machine.cohReqBy
  split
  · rename_i e2
    exact (hs.reqGate.of_back e2).reqCredit
  · rename_i e2
    exact (hs.reqGate.of_pass e2).reqOn

theorem Steady.cohReq {s : State} {m : CohMsg} {k : TxnKind} (hs : Steady κ s) : Steady κ (Machine.cohReq s m k) :=
  hs.cohReqBy

theorem Steady.answers {s : State} {a : ℕ} (hs : Steady κ s) : Steady κ (Machine.answers s a) :=
  Steady.ite hs.same (Steady.ite hs.setAgent hs)

theorem Steady.fromHolder {s : State} {m : CohMsg} {op cls : ℕ} {wb : Bool} {go : State → State} (hs : Steady κ s) (hgo : ∀ x1, Steady κ x1 → Steady κ
    (go x1)) : Steady κ (Machine.fromHolder s m op cls wb go) :=
  Steady.ite (Steady.ite hs.bump.answerReq hs.bump) (Steady.ite hs.protocolError (hgo _ hs))

theorem Steady.snoopReply {s : State} {m : CohMsg} {data : Option (Bytes × Bool)} {op cls : ℕ} (hs : Steady κ s) : Steady κ (Machine.snoopReply s m data op cls) := by
  unfold Machine.snoopReply
  refine Steady.fromHolder hs (fun _ hs1 => ?_)
  split
  · exact hs1.protocolError
  · exact Steady.ite hs1.answers.snoopAnswer hs1.protocolError

theorem Steady.takeCmpAck {s : State} {m : CohMsg} (hs : Steady κ s) : Steady κ (Machine.takeCmpAck s m) := by
  unfold Machine.takeCmpAck
  refine Steady.fromHolder hs (fun _ hs1 => ?_)
  split
  · exact hs1.protocolError
  · exact Steady.ite hs1.cmpAck hs1.protocolError

theorem Steady.takeWriteback {s : State} {m : CohMsg} {dirty : Bool} (hs : Steady κ s) : Steady κ (Machine.takeWriteback s m dirty) :=
  hs.fromHolder (fun _ hs1 => hs1.writeback)

theorem Steady.writeRecall {s : State} {w : Writer} {b : Bytes} (hs : Steady κ s) : WriteOut.Keeps κ (Machine.writeRecall s w b) :=
  WriteOut.Keeps.ite hs.refuse (WriteOut.Keeps.ite hs.refuse (WriteOut.Keeps.wait hs.askRecall))

theorem Steady.answerDetach {s : State} {a : ℕ} (hs : Steady κ s) : Steady κ (Machine.answerDetach s a) :=
  hs.same.forS (fun _ _ hs1 => hs1.answerWaiting)

theorem Steady.expelAgent {s : State} {a : ℕ} (hs : Steady κ s) : Steady κ (Machine.expelAgent s a) :=
  Steady.ite hs hs.recoverAgent.endLease.answerDetach

theorem Steady.writeExpel {s : State} {b : Bytes} (hs : Steady κ s) : WriteOut.Keeps κ (Machine.writeExpel s b) :=
  WriteOut.Keeps.ite hs.refuse (WriteOut.Keeps.ite hs.refuse hs.expelAgent.applied)

theorem Steady.detachLines {s : State} {a : ℕ} (hs : Steady κ s) : Steady κ (Machine.detachLines s a) :=
  hs.forS (fun _ _ hs1 => Steady.ite hs1 hs1.submitTxn)

theorem Steady.beginDetach {s : State} {a : ℕ} (hs : Steady κ s) : Steady κ (Machine.beginDetach s a) :=
  hs.unsweep.setAgent.detachLines

theorem Steady.writeAgent {s : State} {w : Writer} {a : ℕ} {b : Bytes} (hs : Steady κ s) : WriteOut.Keeps κ (Machine.writeAgent s w a b) := by
  unfold Machine.writeAgent
  extract_lets lo o n park t
  have ht : Steady κ t := hs.setAgent
  split
  · exact hs.refuse
  · split
    · exact hs.refuse
    · split
      · split
        · exact hs.applied
        · split
          · exact hs.refuse
          · split
            · exact ht.applied
            · split
              · rename_i e9
                exact (ht.createLease.of_some e9).applied
              · exact hs.refuse
      · exact WriteOut.Keeps.ite hs.refuse (WriteOut.Keeps.ite hs.applied (WriteOut.Keeps.ite (WriteOut.Keeps.wait hs.same) (WriteOut.Keeps.wait hs.beginDetach.same)))

theorem Steady.writeDirQuery {s : State} {w : Writer} {b : Bytes} (hs : Steady κ s) : WriteOut.Keeps κ (Machine.writeDirQuery s w b) :=
  WriteOut.Keeps.ite hs.refuse hs.setSess.applied

theorem Steady.execTrackerAllocate {bank : ℕ} {s : State} (hs : Steady κ s) : Res.Keeps κ (Machine.execTrackerAllocate bank s) := by
  unfold Machine.execTrackerAllocate
  refine Res.Keeps.next ?_
  split
  · exact hs
  · exact Steady.ite hs.rehold.fin hs
  · exact Steady.ite hs.same.reqOn.fin hs

theorem Steady.execRdS {m : CohMsg} {s : State} (hs : Steady κ s) : Res.Keeps κ (Machine.execRdS m s) :=
  Res.Keeps.next hs.cohReq.fin

theorem Steady.execRdOwn {m : CohMsg} {s : State} (hs : Steady κ s) : Res.Keeps κ (Machine.execRdOwn m s) :=
  Res.Keeps.next hs.cohReq.fin

theorem Steady.execUpgrade {m : CohMsg} {s : State} (hs : Steady κ s) : Res.Keeps κ (Machine.execUpgrade m s) :=
  Res.Keeps.next hs.cohReq.fin

theorem Steady.execRdPeek {m : CohMsg} {s : State} (hs : Steady κ s) : Res.Keeps κ (Machine.execRdPeek m s) :=
  Res.Keeps.next hs.cohReq.fin

theorem Steady.execSliceTxnStart {line : ℕ} {s : State} (hs : Steady κ s) : Res.Keeps κ (Machine.execSliceTxnStart line s) :=
  Res.Keeps.next (Steady.ite hs hs.startWaiting.fin)

theorem Steady.execSnpAck {m : CohMsg} {s : State} (hs : Steady κ s) : Res.Keeps κ (Machine.execSnpAck m s) :=
  Res.Keeps.next hs.snoopReply.fin

theorem Steady.execSnpData {m : CohMsg} {s : State} (hs : Steady κ s) : Res.Keeps κ (Machine.execSnpData m s) :=
  Res.Keeps.next hs.snoopReply.fin

theorem Steady.execCmpAck {m : CohMsg} {s : State} (hs : Steady κ s) : Res.Keeps κ (Machine.execCmpAck m s) :=
  Res.Keeps.next hs.takeCmpAck.fin

theorem Steady.execWbDirty {m : CohMsg} {s : State} (hs : Steady κ s) : Res.Keeps κ (Machine.execWbDirty m s) :=
  Res.Keeps.next hs.takeWriteback.fin

theorem Steady.execEvictClean {m : CohMsg} {s : State} (hs : Steady κ s) : Res.Keeps κ (Machine.execEvictClean m s) :=
  Res.Keeps.next hs.takeWriteback.fin

theorem Steady.execRegionRecall {w : Writer} {value : Bytes} {s : State} (hs : Steady κ s) : Res.Keeps κ (Machine.execRegionRecall w value s) :=
  Steady.endWrite hs.writeRecall

theorem Steady.execRegionRecallEnd {s : State} (hs : Steady κ s) : Res.Keeps κ (Machine.execRegionRecallEnd s) := by
  unfold Machine.execRegionRecallEnd
  refine Res.Keeps.next ?_
  split
  · exact hs
  · split
    · extract_lets __src s1 s2 s3
      have hs1 : Steady κ s1 := hs.same.bump
      have hs2 : Steady κ s2 := by
        dsimp only [s2]
        split
        · exact hs1.setChanged
        · exact hs1
      have hs3 : Steady κ s3 := by
        dsimp only [s3]
        split
        · exact hs2.answerWaiting
        · exact hs2
      exact hs3.beginRecall.fin
    · exact hs

theorem Steady.execSnpTimeout {line agent : ℕ} {s : State} (hs : Steady κ s) : Res.Keeps κ (Machine.execSnpTimeout line agent s) := by
  unfold Machine.execSnpTimeout
  refine Res.Keeps.next ?_
  split
  · exact hs
  · split
    · exact hs
    · exact Steady.ite hs (((Steady.ite hs.bump.same hs.bump.setAgent).noteFault).latch)

theorem Steady.execAgentExpel {w : Writer} {value : Bytes} {s : State} (hs : Steady κ s) : Res.Keeps κ (Machine.execAgentExpel w value s) :=
  Steady.endWrite hs.writeExpel

theorem Steady.execAgentAdmit {w : Writer} {agent : ℕ} {value : Bytes} {s : State} (hs : Steady κ s) : Res.Keeps κ (Machine.execAgentAdmit w agent value s) :=
  Steady.endWrite hs.writeAgent

theorem Steady.execAgentDetach {w : Writer} {agent : ℕ} {value : Bytes} {s : State} (hs : Steady κ s) : Res.Keeps κ (Machine.execAgentDetach w agent value s) :=
  Steady.endWrite hs.writeAgent

theorem Steady.execAgentDetachEnd {agent : ℕ} {s : State} (hs : Steady κ s) : Res.Keeps κ (Machine.execAgentDetachEnd agent s) :=
  Res.Keeps.next (Steady.ite hs (Steady.ite hs.setAgent.unsweep.endLease.answerDetach.fin hs.detachLines.fin))

theorem Steady.execDirEccError {line : ℕ} {s : State} (hs : Steady κ s) : Res.Keeps κ (Machine.execDirEccError line s) := by
  unfold Machine.execDirEccError
  extract_lets ln s1
  have hs1 : Steady κ s1 := hs.detectFault
  refine Res.Keeps.next ?_
  split
  · exact hs
  · exact hs1.submitTxn.fin

theorem Steady.execDirQuery {w : Writer} {value : Bytes} {s : State} (hs : Steady κ s) : Res.Keeps κ (Machine.execDirQuery w value s) :=
  Steady.endWrite hs.writeDirQuery
end Sys2Proof.Machine
end

section
/-! What the model's `Bell` part leaves `Steady`. -/
namespace Sys2Proof.Machine
variable {κ : Option (List Instr × Hem)}

theorem Steady.setRoute {s : State} {src v : ℕ} (hs : Steady κ s) : Steady κ (Machine.setRoute s src v) :=
  hs.same

theorem Steady.setService {s : State} {t src : ℕ} (hs : Steady κ s) : Steady κ (Machine.setService s t src) :=
  hs.same

theorem Steady.bellScan {s : State} (hs : Steady κ s) : Steady κ (Machine.bellScan s) :=
  hs.forS ((fun _ _ hs1 => Steady.ite (Steady.ite hs1 hs1.same) (Steady.ite hs1.same.bump hs1)))

theorem Steady.dropService {s : State} {c : ℕ} (hs : Steady κ s) : Steady κ (Machine.dropService s c) :=
  Steady.ite hs hs.setService.bump

theorem Steady.bellRemoveCore {s : State} {p c : ℕ} (hs : Steady κ s) : Steady κ (Machine.bellRemoveCore s p c) :=
  (hs.forS (fun _ _ hs1 => hs1.setRoute)).dropService

theorem Steady.bellCreate {s : State} {p : ℕ} (hs : Steady κ s) : Steady κ (Machine.bellCreate s p) :=
  hs.same

theorem Steady.bellFence {s : State} {p : ℕ} (hs : Steady κ s) : Steady κ (Machine.bellFence s p) :=
  hs.same.forS (fun _ _ hs1 => hs1.dropService)

theorem Steady.bellRoute {s : State} {viaPage : Bool} {src v : ℕ} (hs : Steady κ s) : Steady κ (Machine.bellRoute s viaPage src v) :=
  Steady.ite hs (Steady.ite hs.setRoute (Steady.ite hs.same hs))

theorem Steady.bellEnable {s : State} {l : List ℕ} {on : Bool} (hs : Steady κ s) : Steady κ (Machine.bellEnable s l on) :=
  hs.same

theorem Steady.bellMask {s : State} {l : List ℕ} {on : Bool} (hs : Steady κ s) : Steady κ (Machine.bellMask s l on) :=
  hs.same

theorem Steady.bellClear {s : State} {l : List ℕ} (hs : Steady κ s) : Steady κ (Machine.bellClear s l) :=
  hs.same

theorem Steady.bellComplete {s : State} {t v : ℕ} (hs : Steady κ s) : Steady κ (Machine.bellComplete s t v) :=
  Steady.ite hs.setService (Steady.ite hs.bump hs.bump.same)

theorem Steady.bellWrite {s : State} {off v : ℕ} (hs : Steady κ s) : Steady κ (Machine.bellWrite s off v) := by
  unfold Machine.bellWrite
  split
  · split
    · exact Steady.ite hs.same hs
    · exact hs.bellClear
    · exact hs.bellClear
    · exact hs.forS (fun _ _ hs3 => hs3.latch)
    · exact hs
  · split
    · exact hs.bellRoute
    · split
      · extract_lets l
        split
        · exact hs.bellEnable
        · exact hs.bellEnable
        · exact hs.bellMask
        · exact hs.bellMask
      · split
        · extract_lets p r l __src
          split
          · exact hs.bellRoute
          · clear_value r
            split
            · exact hs.bellEnable
            · exact hs.bellEnable
            · exact hs.bellMask
            · exact hs.bellMask
            · exact hs.bellClear
            · exact hs.forS (fun _ _ hs8 => hs8.latch)
            · exact Steady.ite hs.same hs
            · exact hs
        · split
          · extract_lets t __src
            split
            · exact hs.same
            · exact hs.bellComplete
            · exact hs
          · exact hs

theorem Steady.bellViolation {s : State} {cid opcode off : ℕ} (hs : Steady κ s) : Steady κ (Machine.bellViolation s cid opcode off) :=
  hs.violation

theorem Steady.bellStore {s : State} {core : ℕ} {mmode : Bool} {cid off v : ℕ} (hs : Steady κ s) : Steady κ (Machine.bellStore s core mmode cid off v) :=
  Steady.ite hs.bellWrite hs.bellViolation

theorem Steady.bellAccess {s : State} {core : ℕ} {mmode : Bool} {cid a len : ℕ} {data : Option Bytes} (hs : Steady κ s) : Steady κ
    (Machine.bellAccess s core mmode cid a len data).2.2 := by
  unfold Machine.bellAccess
  extract_lets off
  refine Steady.ite22 ?_ ?_
  · exact hs
  · split
    · dsimp only
      exact hs.bellStore
    · exact Steady.ite22 hs hs.bellViolation

theorem Steady.execBbDeliver {target : ℕ} {s : State} (hs : Steady κ s) : Res.Keeps κ (Machine.execBbDeliver target s) := by
  unfold Machine.execBbDeliver
  extract_lets src red s1 s2 s3
  have hs1 : Steady κ s1 := hs.setService.bump
  have hs2 : Steady κ s2 := Steady.ite hs1.bump hs1
  have hs3 : Steady κ s3 := by
    dsimp only [s3]
    split
    · exact hs2.pbumpBy
    · exact hs2
  exact Res.Keeps.ite (Res.Keeps.next hs.bellScan) (Res.Keeps.next hs3.emit.bellScan)

theorem Steady.execBbComplete {core : ℕ} {mmode : Bool} {target value : ℕ} {s : State} (hs : Steady κ s) : Res.Keeps κ
    (Machine.execBbComplete core mmode target value s) :=
  Res.Keeps.ite (Res.Keeps.next hs) (Res.Keeps.next hs.bellStore.bellScan)

theorem Steady.execBbRoute {core : ℕ} {viaPage : Bool} {source value : ℕ} {s : State} (hs : Steady κ s) : Res.Keeps κ (Machine.execBbRoute core viaPage source value s) :=
  Res.Keeps.ite (Res.Keeps.next hs) (Res.Keeps.next hs.bellStore.bellScan)

theorem Steady.execBbCauseSet {core value : ℕ} {s : State} (hs : Steady κ s) : Res.Keeps κ (Machine.execBbCauseSet core value s) :=
  Res.Keeps.next hs.bellStore.bellScan

theorem Steady.execBbPSoftSet {core part value : ℕ} {s : State} (hs : Steady κ s) : Res.Keeps κ (Machine.execBbPSoftSet core part value s) :=
  Res.Keeps.ite (Res.Keeps.next hs) (Res.Keeps.next hs.bellStore.bellScan)

theorem Steady.execBbWakeTimeout {target : ℕ} {s : State} (hs : Steady κ s) : Res.Keeps κ (Machine.execBbWakeTimeout target s) :=
  Res.Keeps.ite (Res.Keeps.next hs.bellScan) (Res.Keeps.next hs.same.bellScan)
end Sys2Proof.Machine
end

section
/-! What the model's `Hearth` part leaves `Steady`. -/
namespace Sys2Proof.Machine
variable {κ : Option (List Instr × Hem)}

theorem Steady.l2Set {s : State} {c ln : ℕ} {x : L2Line} (hs : Steady κ s) : Steady κ (Machine.l2Set s c ln x) :=
  hs.same

theorem Steady.l2Drop {s : State} {c ln : ℕ} (hs : Steady κ s) : Steady κ (Machine.l2Drop s c ln) :=
  hs.same

theorem Steady.fromCluster {s : State} {cls op c : ℕ} {m : CohMsg} (hs : Steady κ s) : Steady κ (Machine.fromCluster s cls op c m) :=
  hs.emit

theorem Steady.wakeCluster {s : State} {c : ℕ} (hs : Steady κ s) : Steady κ (Machine.wakeCluster s c) :=
  Steady.ite hs.setDom hs

theorem Steady.sendSnpAck {s : State} {c : ℕ} {m : CohMsg} {prev : ℕ} {wb : Bool} (hs : Steady κ s) : Steady κ (Machine.sendSnpAck s c m prev wb) :=
  hs.fromCluster

theorem Steady.sendSnpData {s : State} {c : ℕ} {m : CohMsg} {l : L2Line} (hs : Steady κ s) : Steady κ (Machine.sendSnpData s c m l) :=
  hs.fromCluster

theorem Steady.sendDataFwd {s : State} {c : ℕ} {m : CohMsg} {l : L2Line} {grant : ℕ} (hs : Steady κ s) : Steady κ (Machine.sendDataFwd s c m l grant) :=
  hs.fromCluster

theorem Steady.snoopCluster {s : State} {c : ℕ} {m : CohMsg} {op : ℕ} (hs : Steady κ s) : Steady κ (Machine.snoopCluster s c m op) := by
  unfold Machine.snoopCluster
  extract_lets s1 ln l s2 s3 __src __src1 s4
  have hs1 : Steady κ s1 := hs.wakeCluster
  have hs2 : Steady κ s2 := hs1.sendDataFwd
  have hs3 : Steady κ s3 := Steady.ite hs2.sendSnpData hs2.sendSnpAck
  have h__src : Steady κ __src := hs3.l2Set
  have hs4 : Steady κ s4 := Steady.ite hs1 hs1.sendDataFwd
  split
  · exact hs1.sendSnpAck
  · split
    · exact hs1.sendSnpAck
    · split
      · exact Steady.ite hs1.sendSnpAck h__src.same
      · exact hs4.sendSnpAck.l2Drop
      · exact (Steady.ite hs1.sendSnpData hs1.sendSnpAck).l2Drop
      · exact Steady.ite hs1.sendSnpData hs1.sendSnpAck

theorem Steady.coreData {s : State} {core status : ℕ} {d : Bytes} (hs : Steady κ s) : Steady κ (Machine.coreData s core status d) :=
  hs.emit

theorem Steady.breakOthers {s : State} {core ln : ℕ} (hs : Steady κ s) : Steady κ (Machine.breakOthers s core ln) :=
  hs.same

theorem Steady.corePerform {s : State} {core addr va cid status : ℕ} {op : CoreOp} {l : L2Line} (hs : Steady κ s) : Steady κ
    (Machine.corePerform s core addr va cid status op l).2 := by
  unfold Machine.corePerform
  extract_lets ln o __src s1
  have hs1 : Steady κ s1 := hs.same
  split
  · exact Steady.ite2 hs.poisonTrap hs.coreData
  · exact Steady.ite2 hs.poisonTrap hs.coreData
  · exact hs.breakOthers.coreData
  · exact Steady.ite2 hs.poisonTrap hs.breakOthers.coreData
  · exact Steady.ite2 hs.poisonTrap hs.same.coreData
  · exact Steady.ite2 hs1.breakOthers.coreData hs1.coreData
  · exact hs.breakOthers.coreData
  · exact hs.coreData

theorem Steady.dropPend {s : State} {p : L2Pend} (hs : Steady κ s) : Steady κ (Machine.dropPend s p) :=
  hs.same

theorem Steady.sentPend {s : State} {p : L2Pend} {b : Bool} (hs : Steady κ s) : Steady κ (Machine.sentPend s p b) :=
  hs.same

theorem Steady.cboServe {s : State} {p : L2Pend} {l : L2Line} {k : ℕ} (hs : Steady κ s) : Steady κ (Machine.cboServe s p l k) :=
  Steady.ite hs.l2Drop.coreData.dropPend (Steady.ite hs.coreData.dropPend (Steady.ite (Steady.ite hs.l2Set.fromCluster.sentPend hs.coreData.dropPend)
      ((Steady.ite hs.l2Drop.l2Set.fromCluster hs.l2Drop.l2Set.fromCluster).sentPend)))

theorem Steady.l2Run {x : ℕ} {y : State} {z w : ℕ} (hy : Steady κ y) : Steady κ (Machine.l2Run x y z w) := by
  unfold Machine.l2Run
  split
  · exact hy
  · extract_lets l
    split
    · exact hy
    · split
      · exact hy
      · split
        · exact hy.cboServe.l2Run
        · exact hy.cboServe.l2Run
        · exact hy.cboServe.l2Run
        · exact Steady.ite (((Steady.ite hy.corePerform hy.corePerform.l2Set).dropPend).l2Run) hy.fromCluster.sentPend

theorem Steady.l2Go {s : State} {c ln : ℕ} (hs : Steady κ s) : Steady κ (Machine.l2Go s c ln) :=
  hs.l2Run

theorem Steady.takeGrant {s : State} {c : ℕ} {m : CohMsg} {data : Option Bytes} (hs : Steady κ s) : Steady κ (Machine.takeGrant s c m data) := by
  unfold Machine.takeGrant
  extract_lets s1 ln asked o l __src s2 fill
  have hs1 : Steady κ s1 := hs.wakeCluster
  have hs2 : Steady κ s2 := hs1.l2Set.fromCluster
  split
  · clear_value asked
    split
    · exact hs2
    · exact Steady.ite hs2.dropPend.l2Go (Steady.ite hs2.sentPend.l2Go (((Steady.ite hs2.corePerform hs2.corePerform.l2Set).dropPend).l2Go))
  · clear_value asked
    split
    · exact hs1
    · exact Steady.ite hs1.dropPend.l2Go (Steady.ite hs1.dropPend.corePerform.l2Go hs1.dropPend.coreData.l2Go)

theorem Steady.coreCoherent {s : State} {core : ℕ} {h : Head} {op : CoreOp} (hs : Steady κ s) : Steady κ (Machine.coreCoherent s core h op) :=
  hs.same.l2Go

theorem Steady.verLine {s : State} {core : ℕ} {h : Head} {r : ℕ} (hs : Steady κ s) : VerHit.Keeps κ (Machine.verLine s core h r) := by
  unfold Machine.verLine
  extract_lets l me tag a t
  have ht : Steady κ t := hs.touch.readError
  split
  · exact VerHit.Keeps.ite (VerHit.Keeps.line hs) VerHit.Keeps.stale
  · split
    · exact VerHit.Keeps.home
    · split
      · exact VerHit.Keeps.home
      · split
        · exact VerHit.Keeps.home
        · exact VerHit.Keeps.line ht.verLoad

theorem Steady.tagViolation {s : State} {core : ℕ} {h : Head} {op : MemOp} (hs : Steady κ s) : Steady κ (Machine.tagViolation s core h op) :=
  hs.violReqS.coreData

theorem Steady.coreVersioned {s : State} {core : ℕ} {h : Head} {r : ℕ} {op : CoreOp} {cause : ℕ} {mop : MemOp} (hs : Steady κ s) : Steady κ
    (Machine.coreVersioned s core h r op cause mop) := by
  unfold Machine.coreVersioned
  extract_lets hd
  split
  · exact hs.arrive.fin
  · split
    · exact hs.arrive.fin
    · exact hs.tagViolation
    · rename_i e4
      exact ((hs.verLine.of_line e4).corePerform).l2Set

theorem Steady.coreCbo {s : State} {core : ℕ} {h : Head} {k : ℕ} (hs : Steady κ s) : Steady κ (Machine.coreCbo s core h k) :=
  Steady.ite hs (Steady.ite hs.wakeCluster.l2Drop.tagViolation (Steady.ite (Steady.ite
      (((Steady.ite hs.wakeCluster.l2Set hs.wakeCluster.l2Drop).arrive).fin) ((Steady.ite hs.wakeCluster.l2Set hs.wakeCluster.l2Drop).coreData))
      (Steady.ite hs.wakeCluster.coreCoherent hs.wakeCluster.coreData)))

theorem Steady.execSnpFwdS {cluster : ℕ} {m : CohMsg} {s : State} (hs : Steady κ s) : Res.Keeps κ (Machine.execSnpFwdS cluster m s) :=
  Res.Keeps.next hs.snoopCluster

theorem Steady.execSnpFwdOwn {cluster : ℕ} {m : CohMsg} {s : State} (hs : Steady κ s) : Res.Keeps κ (Machine.execSnpFwdOwn cluster m s) :=
  Res.Keeps.next hs.snoopCluster

theorem Steady.execSnpRecall {cluster : ℕ} {m : CohMsg} {s : State} (hs : Steady κ s) : Res.Keeps κ (Machine.execSnpRecall cluster m s) :=
  Res.Keeps.next hs.snoopCluster

theorem Steady.execSnpPeek {cluster : ℕ} {m : CohMsg} {s : State} (hs : Steady κ s) : Res.Keeps κ (Machine.execSnpPeek cluster m s) :=
  Res.Keeps.next hs.snoopCluster

theorem Steady.execDataHome {cluster : ℕ} {m : CohMsg} {s : State} (hs : Steady κ s) : Res.Keeps κ (Machine.execDataHome cluster m s) :=
  Res.Keeps.next hs.takeGrant.fin

theorem Steady.execDataFwd {cluster : ℕ} {m : CohMsg} {s : State} (hs : Steady κ s) : Res.Keeps κ (Machine.execDataFwd cluster m s) :=
  Res.Keeps.next hs.takeGrant.fin

theorem Steady.execCmp {cluster : ℕ} {m : CohMsg} {s : State} (hs : Steady κ s) : Res.Keeps κ (Machine.execCmp cluster m s) :=
  Res.Keeps.next hs.takeGrant.fin

theorem Steady.execWbAck {cluster : ℕ} {m : CohMsg} {s : State} (hs : Steady κ s) : Res.Keeps κ (Machine.execWbAck cluster m s) := by
  unfold Machine.execWbAck
  extract_lets s1 ln
  have hs1 : Steady κ s1 := hs.wakeCluster
  refine Res.Keeps.next ?_
  split
  · exact Steady.ite hs1.l2Set hs1
  · exact (((Steady.ite (Steady.ite hs1 (Steady.ite hs1.l2Set hs1)) ((Steady.ite hs1 (Steady.ite hs1.l2Set hs1)).coreData)).dropPend).l2Go).fin

theorem Steady.execHearthLoadStore {core : ℕ} {h : Head} {a : CoreAccess} {s : State} (hs : Steady κ s) : Res.Keeps κ (Machine.execHearthLoadStore core h a s) := by
  unfold Machine.execHearthLoadStore
  extract_lets x s1 mmode h1 b
  have hs1 : Steady κ s1 := hs.wakeCluster
  have hb : Steady κ b.2.2 := hs1.bellAccess
  split
  · exact Res.Keeps.next hs
  · split
    · exact Res.Keeps.next hb.emit.bellScan
    · refine Res.Keeps.next ?_
      split
      · exact hs1.coreCoherent
      · exact hs1.coreVersioned
      · exact hs1.arrive.fin

theorem Steady.execHearthAmo {core : ℕ} {h : Head} {op : AOp} {unsigned wide : Bool} {operand : ℕ} {s : State} (hs : Steady κ s) : Res.Keeps κ
    (Machine.execHearthAmo core h op unsigned wide operand s) := by
  unfold Machine.execHearthAmo
  split
  · exact Res.Keeps.next hs
  · extract_lets s1 h1
    have hs1 : Steady κ s1 := hs.wakeCluster
    refine Res.Keeps.next ?_
    split
    · exact hs1.coreCoherent
    · exact hs1.arrive.fin

theorem Steady.execHearthLr {core : ℕ} {h : Head} {wide : Bool} {s : State} (hs : Steady κ s) : Res.Keeps κ (Machine.execHearthLr core h wide s) := by
  unfold Machine.execHearthLr
  split
  · exact Res.Keeps.next hs
  · extract_lets s1 h1
    have hs1 : Steady κ s1 := hs.wakeCluster
    refine Res.Keeps.next ?_
    split
    · exact hs1.coreCoherent
    · exact hs1.coreVersioned
    · exact hs1.arrive.fin

theorem Steady.execHearthSc {core : ℕ} {h : Head} {wide : Bool} {operand : ℕ} {s : State} (hs : Steady κ s) : Res.Keeps κ
    (Machine.execHearthSc core h wide operand s) := by
  unfold Machine.execHearthSc
  split
  · exact Res.Keeps.next hs
  · extract_lets s1 h1 __src
    have hs1 : Steady κ s1 := hs.wakeCluster
    refine Res.Keeps.next ?_
    split
    · exact hs1.coreCoherent
    · exact hs1.same.coreData

theorem Steady.execCboFlush {core : ℕ} {h : Head} {s : State} (hs : Steady κ s) : Res.Keeps κ (Machine.execCboFlush core h s) :=
  Res.Keeps.next hs.coreCbo

theorem Steady.execCboClean {core : ℕ} {h : Head} {s : State} (hs : Steady κ s) : Res.Keeps κ (Machine.execCboClean core h s) :=
  Res.Keeps.next hs.coreCbo

theorem Steady.execCboInval {core : ℕ} {h : Head} {s : State} (hs : Steady κ s) : Res.Keeps κ (Machine.execCboInval core h s) :=
  Res.Keeps.next hs.coreCbo

theorem Steady.execCboZero {core : ℕ} {h : Head} {s : State} (hs : Steady κ s) : Res.Keeps κ (Machine.execCboZero core h s) := by
  unfold Machine.execCboZero
  split
  · exact Res.Keeps.next hs
  · extract_lets s1 __src h'
    have hs1 : Steady κ s1 := hs.wakeCluster
    refine Res.Keeps.next ?_
    split
    · exact hs1.coreCoherent
    · exact hs1.coreVersioned
    · exact hs1.arrive.fin

theorem Steady.execHearthFence {core : ℕ} {predIO succIO predRW succRW : Bool} {s : State} (hs : Steady κ s) : Res.Keeps κ
    (Machine.execHearthFence core predIO succIO predRW succRW s) :=
  Res.Keeps.next (Steady.ite hs (Steady.ite hs.same hs))
end Sys2Proof.Machine
end

section
/-! What the model's `EngMem` part leaves `Steady`. -/
namespace Sys2Proof.Machine
variable {κ : Option (List Instr × Hem)}

theorem Steady.stallOn {s : State} {x : Stall} (hs : Steady κ s) : Steady κ (Machine.stallOn s x) :=
  Steady.ite hs hs.same

theorem Steady.engAddr {s : State} {c : EngCtx} {a : ℕ} {write : Bool} (hs : Steady κ s) : Steady κ (Machine.engAddr s c a write).2 := by
  unfold Machine.engAddr
  split
  · exact hs
  · split
    · exact hs
    · split
      · rename_i e4
        exact hs.translate.of_ok e4
      · rename_i e4
        exact (hs.translate.of_wait e4).stallOn
      · rename_i e4
        exact (hs.translate.of_fault e4).same

theorem Steady.engAnswers {hd : Head} {port key n : ℕ} {x : List Reply} {y : State} (hy : Steady κ y) : Steady κ (Machine.engAnswers hd port key n x y).2.2 := by
  unfold Machine.engAnswers
  split
  · exact hy.deadTarget
  · exact Steady.ite22 hy.meterPort.same.emit.engAnswers (Steady.ite22 hy.meterPort.engAnswers (Steady.ite22 hy.meterPort hy.meterPort))

theorem Steady.engRemote {s : State} {c : EngCtx} {hd : Head} {compat : Option ℕ} {n : ℕ} (hs : Steady κ s) : Steady κ (Machine.engRemote s c hd compat n).2.2 := by
  unfold Machine.engRemote
  extract_lets ports tag __src
  dsimp only
  split
  · exact hs.deadTarget
  · split
    · exact hs.deadTarget
    · split
      · exact hs.stallOn
      · split
        · exact hs.stallOn
        · exact hs.same.emit.engAnswers

theorem Steady.engWindow {s : State} {c : EngCtx} {hd : Head} {n : ℕ} (hs : Steady κ s) : Steady κ (Machine.engWindow s c hd n).2.2 := by
  unfold Machine.engWindow
  split
  · exact hs.violReqS
  · exact hs
  · exact Steady.ite22 hs.engRemote hs.engRemote

theorem Steady.engHome {s : State} {c : EngCtx} {r a n : ℕ} (hs : Steady κ s) : Steady κ (Machine.engHome s c r a n).2.2 :=
  hs.touch.readError.homeRead

theorem Steady.engLocal {s : State} {c : EngCtx} {hd : Head} {n : ℕ} (hs : Steady κ s) : Steady κ (Machine.engLocal s c hd n).2.2 := by
  unfold Machine.engLocal
  extract_lets a ln busy e lost
  split
  · exact hs.violReqS
  · extract_lets kind s1
    have hs1 : Steady κ s1 := Steady.ite hs.bump hs
    split
    · exact hs.violReqS
    · split
      · exact hs
      · split
        · exact hs
        · split
          · exact hs.stallOn
          · split
            · exact hs.stallOn
            · split
              · exact hs.stallOn
              · split
                · exact hs.stallOn
                · split
                  · exact hs.stallOn
                  · clear_value e
                    split
                    · exact Steady.ite22 hs1.touch hs1.engHome
                    · exact hs1.engHome

theorem Steady.engReadAt {s : State} {c : EngCtx} {gfa n : ℕ} (hs : Steady κ s) : Steady κ (Machine.engReadAt s c gfa n).2.2 := by
  unfold Machine.engReadAt
  extract_lets hd
  split
  · exact hs
  · split
    · exact hs.engRemote
    · split
      · exact hs
      · exact hs.violReqS
      · exact Steady.ite22 hs.violReqS (Steady.ite22 hs hs)
      · exact hs.engWindow
      · exact hs.engLocal

theorem Steady.engChunks {c : EngCtx} {x : ℕ} {y : State} {z w : ℕ} (hy : Steady κ y) : Steady κ (Machine.engChunks c x y z w).2 := by
  unfold Machine.engChunks
  split
  · exact hy
  · split
    · exact hy
    · extract_lets k x
      have hx : Steady κ x.2 := hy.engAddr
      split
      · exact hx
      · exact hx.engReadAt.engChunks

theorem Steady.engRead {s : State} {c : EngCtx} {a n : ℕ} (hs : Steady κ s) : Steady κ (Machine.engRead s c a n).2.2 :=
  hs.engChunks

theorem Steady.engReadList {s : State} {c : EngCtx} {a z n : ℕ} (hs : Steady κ s) : Steady κ (Machine.engReadList s c a z n).2.2.2 :=
  hs.engChunks

theorem Steady.engReadNat {s : State} {c : EngCtx} {a n : ℕ} (hs : Steady κ s) : Steady κ (Machine.engReadNat s c a n).2.2 :=
  hs.engRead

theorem Steady.descWaits {s : State} {c : EngCtx} (hs : Steady κ s) : Steady κ (Machine.descWaits s c) := by
  unfold Machine.descWaits
  split
  · exact hs
  · split
    · exact hs
    · exact hs.setDesc

theorem Steady.engSubmit {s : State} {c : EngCtx} {a gfa : ℕ} {op : MemOp} (hs : Steady κ s) : Steady κ (Machine.engSubmit s c a gfa op) :=
  hs.descWaits.submitVia.fin

theorem Steady.engWriteGo {c : EngCtx} {blk : Option (ℕ × Bool)} {poison : Bool} {x : ℕ} {y : State} {z : ℕ} {w : Bytes} (hy : Steady κ y) : Steady κ
    (Machine.engWriteGo c blk poison x y z w) := by
  unfold Machine.engWriteGo
  split
  · exact hy
  · split
    · exact hy
    · extract_lets k x
      have hx : Steady κ x.2 := hy.engAddr
      split
      · exact hx
      · exact hx.engSubmit.engWriteGo

theorem Steady.engWrite {s : State} {c : EngCtx} {a : ℕ} {d : Bytes} (hs : Steady κ s) : Steady κ (Machine.engWrite s c a d) :=
  hs.engWriteGo

theorem Steady.engWriteBlk {s : State} {c : EngCtx} {a : ℕ} {d : Bytes} (hs : Steady κ s) : Steady κ (Machine.engWriteBlk s c a d) :=
  hs.engWriteGo

theorem Steady.engOp {s : State} {c : EngCtx} {a : ℕ} {op : MemOp} (hs : Steady κ s) : Steady κ (Machine.engOp s c a op) := by
  unfold Machine.engOp
  extract_lets x
  have hx : Steady κ x.2 := hs.engAddr
  split
  · exact hx
  · exact hx.engSubmit

theorem Steady.addArrival {s : State} {c : EngCtx} {a : ℕ} (hs : Steady κ s) : Steady κ (Machine.addArrival s c a) := by
  unfold Machine.addArrival
  extract_lets x
  have hx : Steady κ x.2 := hs.engAddr
  split
  · split
    · exact hx
    · exact hx.setDesc
  · exact hx

theorem Steady.askStall {s0 : State} {x : Stall} (hs0 : Steady κ s0) : Steady κ (Machine.askStall s0 x) := by
  unfold Machine.askStall
  split
  · exact hs0.askMoveUp
  · exact (Steady.ite (hs0.getD hs0.allocBolt) hs0).askMoveUp
  · exact Steady.ite hs0 hs0.kindCached.same.submitTxn
  · exact hs0

theorem Steady.stallDesc {s0 : State} {x : Stall} {d : DescRef} (hs0 : Steady κ s0) : Steady κ (Machine.stallDesc s0 x d) := by
  unfold Machine.stallDesc
  extract_lets s
  have hs : Steady κ s := hs0.askStall
  split
  · exact hs
  · exact (Steady.ite hs.bump hs).setDesc

theorem Steady.stopped {s0 s : State} {d : DescRef} (hs0 : Steady κ s0) (hs : Steady κ s) : OptKeeps κ (fun t => t) (Machine.stopped s0 s d) := by
  unfold Machine.stopped
  split
  · exact .some hs0.holdDesc.fin
  · exact .some hs0.stallDesc.fin
  · exact .none

theorem Steady.stoppedAlone {s0 s : State} (hs0 : Steady κ s0) (hs : Steady κ s) : OptKeeps κ (fun t => t) (Machine.stoppedAlone s0 s) := by
  unfold Machine.stoppedAlone
  split
  · exact .some ((Steady.ite hs0.askStall hs0.askStall.bump).fin)
  · exact .ite (.some hs0) .none

theorem Steady.unstall {s : State} {d : DescRef} (hs : Steady κ s) : Steady κ (Machine.unstall s d) := by
  unfold Machine.unstall
  split
  · exact Steady.ite hs.setDesc hs
  · exact hs

theorem Steady.lineLater {s : State} {b ln q : ℕ} (hs : Steady κ s) : Steady κ (Machine.lineLater s b ln q) :=
  hs.bump.askMoveUp.lateLine

theorem Steady.descStatus {s : State} {c : EngCtx} {st : ℕ} (hs : Steady κ s) : Steady κ (Machine.descStatus s c st) := by
  unfold Machine.descStatus
  split
  · split
    · exact hs.setDesc
    · exact hs
  · exact hs

theorem Steady.descMirrorWaits {s : State} {c : EngCtx} {m : Bool} (hs : Steady κ s) : Steady κ (Machine.descMirrorWaits s c m) := by
  unfold Machine.descMirrorWaits
  split
  · split
    · exact Steady.ite hs.setDesc hs
    · exact hs
  · exact hs

theorem Steady.ownWrite {s : State} {c : EngCtx} {r a : ℕ} {d : Bytes} (hs : Steady κ s) : OptKeeps κ (fun t => t) (Machine.ownWrite s c r a d) := by
  unfold Machine.ownWrite
  extract_lets b q tgt put
  split
  · exact OptKeeps.ite OptKeeps.none (OptKeeps.some hs.touch.rawWrite.descMirrorWaits.noSlot.lateLine)
  · rename_i e3
    exact OptKeeps.ite (OptKeeps.some ((((hs.ensureBolt.of_some e3).touch).rawWrite).descMirrorWaits)) (OptKeeps.ite (OptKeeps.ite
        (OptKeeps.some hs.descStatus) (OptKeeps.ite (OptKeeps.some hs.stallOn) (OptKeeps.some
        (((((hs.ensureBolt.of_some e3).touch).rawWrite).descMirrorWaits).lineLater)))) (OptKeeps.ite (OptKeeps.some hs.stallOn) (OptKeeps.some
        ((((hs.ensureBolt.of_some e3).touch).rawWrite).descMirrorWaits))))

theorem Steady.runDesc {s0 : State} {d : DescRef} {f : State → Ran × State} (hs0 : Steady κ s0) (hf : ∀ x1, Steady κ x1 → Steady κ
    (f x1).2) : Steady κ (Machine.runDesc s0 d f) := by
  unfold Machine.runDesc
  extract_lets r
  have hr : Steady κ r.2 := hf _ hs0
  split
  · rename_i e3
    exact (hs0.stopped hr).of_some e3
  · exact hr.unstall.endDesc.fin

theorem Steady.partDesc {s0 : State} {d : DescRef} {f : State → State} (hs0 : Steady κ s0) (hf : ∀ x1, Steady κ x1 → Steady κ (f x1)) : Steady κ
    (Machine.partDesc s0 d f) := by
  unfold Machine.partDesc
  extract_lets s
  have hs : Steady κ s := hf _ hs0
  split
  · rename_i e3
    exact (hs0.stopped hs).of_some e3
  · exact hs.unstall.fin

theorem Steady.denyDesc {s : State} {d : DescRef} {r : Ran} (hs : Steady κ s) : Steady κ (Machine.denyDesc s d r) :=
  hs.endDesc.fin
end Sys2Proof.Machine
end

section
/-! What the model's `OrderRows` part leaves `Steady`. -/
namespace Sys2Proof.Machine
variable {κ : Option (List Instr × Hem)}

theorem Steady.runFence {s : State} {d : DescRef} {mode : ℕ} (hs : Steady κ s) : Steady κ (Machine.runFence s d mode) := by
  unfold Machine.runFence
  split
  · exact hs
  · exact Steady.ite (Steady.ite hs.denyDesc hs) (Steady.ite hs (Steady.ite hs.denyDesc hs.setDesc))

theorem Steady.flushGo {c : EngCtx} {p x : ℕ} {y : State} {z w : ℕ} (hy : Steady κ y) : Steady κ (Machine.flushGo c p x y z w) := by
  unfold Machine.flushGo
  split
  · exact hy
  · split
    · exact hy
    · extract_lets k x s __src
      have hx : Steady κ x.2 := hy.engAddr
      have hs : Steady κ s := hx
      split
      · exact hx
      · exact (Steady.ite hs.same hs).flushGo

theorem Steady.execFenceAcquire {d : DescRef} {s : State} (hs : Steady κ s) : Res.Keeps κ (Machine.execFenceAcquire d s) :=
  Res.Keeps.next hs.runFence

theorem Steady.execFenceRelease {d : DescRef} {s : State} (hs : Steady κ s) : Res.Keeps κ (Machine.execFenceRelease d s) :=
  Res.Keeps.next hs.runFence

theorem Steady.execFenceFull {d : DescRef} {s : State} (hs : Steady κ s) : Res.Keeps κ (Machine.execFenceFull d s) :=
  Res.Keeps.next hs.runFence

theorem Steady.execFenceComplete {q : QueueId} {s : State} (hs : Steady κ s) : Res.Keeps κ (Machine.execFenceComplete q s) := by
  unfold Machine.execFenceComplete
  refine Res.Keeps.next ?_
  split
  · exact hs
  · exact Steady.ite hs.denyDesc hs

theorem Steady.execFlushRange {d : DescRef} {s : State} (hs : Steady κ s) : Res.Keeps κ (Machine.execFlushRange d s) := by
  unfold Machine.execFlushRange
  refine Res.Keeps.next ?_
  split
  · exact hs
  · exact Steady.ite hs.denyDesc (hs.runDesc (fun _ hs4 => hs4.bump.flushGo))
end Sys2Proof.Machine
end

section
/-! What the model's `VersionRows` part leaves `Steady`. -/
namespace Sys2Proof.Machine
variable {κ : Option (List Instr × Hem)}

theorem Steady.writeVerView {s : State} {r : ℕ} {b : Bytes} (hs : Steady κ s) : WriteOut.Keeps κ (Machine.writeVerView s r b) := by
  unfold Machine.writeVerView
  split
  · exact hs.refuse
  · split
    · exact hs.refuse
    · split
      · exact hs.setVer.applied
      · exact hs.setArrNum.applied

theorem Steady.writeVerQuery {s : State} {w : Writer} {b : Bytes} (hs : Steady κ s) : WriteOut.Keeps κ (Machine.writeVerQuery s w b) :=
  WriteOut.Keeps.ite hs.refuse hs.setSess.applied

theorem Steady.writeLeaseQuery {s : State} {w : Writer} {b : Bytes} (hs : Steady κ s) : WriteOut.Keeps κ (Machine.writeLeaseQuery s w b) :=
  WriteOut.Keeps.ite hs.refuse (WriteOut.Keeps.ite hs.refuse hs.setSess.applied)

theorem Steady.writeLeaseExpire {s : State} {b : Bytes} (hs : Steady κ s) : WriteOut.Keeps κ (Machine.writeLeaseExpire s b) := by
  unfold Machine.writeLeaseExpire
  split
  · exact hs.refuse
  · split
    · exact hs.refuse
    · split
      · exact hs.applied
      · exact (Steady.ite hs.expireLease hs).applied

theorem Steady.vcStore {h : Head} {slot op region asid : ℕ} {s : State} (hs : Steady κ s) : Res.Keeps κ (Machine.vcStore h slot op region asid s) :=
  Res.Keeps.next hs.cwStore.fin

theorem Steady.execVcOpenRead {h : Head} {slot region asid : ℕ} {s : State} (hs : Steady κ s) : Res.Keeps κ (Machine.execVcOpenRead h slot region asid s) :=
  hs.vcStore

theorem Steady.execVcCloseRead {h : Head} {slot region asid : ℕ} {s : State} (hs : Steady κ s) : Res.Keeps κ (Machine.execVcCloseRead h slot region asid s) :=
  hs.vcStore

theorem Steady.execVcOpenWork {h : Head} {slot region asid : ℕ} {s : State} (hs : Steady κ s) : Res.Keeps κ (Machine.execVcOpenWork h slot region asid s) :=
  hs.vcStore

theorem Steady.execVcPublish {h : Head} {slot region asid : ℕ} {s : State} (hs : Steady κ s) : Res.Keeps κ (Machine.execVcPublish h slot region asid s) :=
  hs.vcStore

theorem Steady.execVcRebase {h : Head} {slot region asid : ℕ} {s : State} (hs : Steady κ s) : Res.Keeps κ (Machine.execVcRebase h slot region asid s) :=
  hs.vcStore

theorem Steady.execVcDiscardWork {h : Head} {slot region asid : ℕ} {s : State} (hs : Steady κ s) : Res.Keeps κ (Machine.execVcDiscardWork h slot region asid s) :=
  hs.vcStore

theorem Steady.execVcQuery {h : Head} {slot region asid : ℕ} {s : State} (hs : Steady κ s) : Res.Keeps κ (Machine.execVcQuery h slot region asid s) :=
  hs.vcStore

theorem Steady.execVerFold {region page : ℕ} {s : State} (hs : Steady κ s) : Res.Keeps κ (Machine.execVerFold region page s) :=
  Res.Keeps.next (Steady.ite hs.foldPage.fin hs)

theorem Steady.execBastePageFreed {region : ℕ} {s : State} (hs : Steady κ s) : Res.Keeps κ (Machine.execBastePageFreed region s) := by
  unfold Machine.execBastePageFreed
  refine Res.Keeps.next ?_
  split
  · exact hs
  · split
    · exact hs
    · split
      · exact hs
      · exact hs.same.fin

theorem Steady.execVerView {w : Writer} {region : ℕ} {value : Bytes} {s : State} (hs : Steady κ s) : Res.Keeps κ (Machine.execVerView w region value s) :=
  Steady.endWrite hs.writeVerView

theorem Steady.execVerQuery {w : Writer} {value : Bytes} {s : State} (hs : Steady κ s) : Res.Keeps κ (Machine.execVerQuery w value s) :=
  Steady.endWrite hs.writeVerQuery

theorem Steady.execLeaseQuery {w : Writer} {value : Bytes} {s : State} (hs : Steady κ s) : Res.Keeps κ (Machine.execLeaseQuery w value s) :=
  Steady.endWrite hs.writeLeaseQuery

theorem Steady.execLeaseRenew {h : Head} {duration : ℕ} {s : State} (hs : Steady κ s) : Res.Keeps κ (Machine.execLeaseRenew h duration s) :=
  Res.Keeps.next hs.cwStore.fin

theorem Steady.execLeaseAckExpired {h : Head} {s : State} (hs : Steady κ s) : Res.Keeps κ (Machine.execLeaseAckExpired h s) :=
  Res.Keeps.next hs.cwStore.fin

theorem Steady.execLeaseDeadline {lease : ℕ} {s : State} (hs : Steady κ s) : Res.Keeps κ (Machine.execLeaseDeadline lease s) := by
  unfold Machine.execLeaseDeadline
  refine Res.Keeps.next ?_
  split
  · exact hs
  · exact Steady.ite hs.setLease hs

theorem Steady.execLeaseExpiry {lease : ℕ} {s : State} (hs : Steady κ s) : Res.Keeps κ (Machine.execLeaseExpiry lease s) := by
  unfold Machine.execLeaseExpiry
  refine Res.Keeps.next ?_
  split
  · exact hs
  · exact Steady.ite hs.expireLease.fin hs

theorem Steady.execStaleHoldEnd {lease : ℕ} {s : State} (hs : Steady κ s) : Res.Keeps κ (Machine.execStaleHoldEnd lease s) := by
  unfold Machine.execStaleHoldEnd
  refine Res.Keeps.next ?_
  split
  · exact hs
  · exact Steady.ite hs.freeLease hs

theorem Steady.execLeaseExpire {w : Writer} {value : Bytes} {s : State} (hs : Steady κ s) : Res.Keeps κ (Machine.execLeaseExpire w value s) :=
  Steady.endWrite hs.writeLeaseExpire
end Sys2Proof.Machine
end

section
/-! What the model's `BobTable` part leaves `Steady`. -/
namespace Sys2Proof.Machine
variable {κ : Option (List Instr × Hem)}

theorem Steady.tabGate {s : State} {c : EngCtx} {t : ℕ} {sel : VerSel} {off n : ℕ} (hs : Steady κ s) : Steady κ (Machine.tabGate s c t sel off n) := by
  unfold Machine.tabGate
  split
  · exact hs
  · split
    · exact hs.stallOn
    · exact hs

theorem Steady.tabMedia {s : State} {c : EngCtx} {t : ℕ} {sel : VerSel} {off n : ℕ} (hs : Steady κ s) : Steady κ (Machine.tabMedia s c t sel off n) := by
  unfold Machine.tabMedia
  refine Steady.forS hs (fun _ _ hs1 => ?_)
  extract_lets a s1
  have hs1 : Steady κ s1 := hs1.touch
  split
  · exact hs1.readError
  · exact hs1

theorem Steady.tabWriteLine {s : State} {c : EngCtx} {t : ℕ} {sel : VerSel} {off : ℕ} {d : Bytes} (hs : Steady κ s) : OptKeeps κ (fun t => t)
    (Machine.tabWriteLine s c t sel off d) := by
  unfold Machine.tabWriteLine
  extract_lets r
  split
  · split
    · split
      · split
        · rename_i e6
          exact OptKeeps.some (hs.verWrite.of_done e6)
        · exact OptKeeps.some (Steady.ite hs.descStatus hs.stallOn)
        · exact OptKeeps.none
      · exact OptKeeps.none
    · exact OptKeeps.none
  · exact hs.ownWrite

theorem Steady.tabWriteGo {c : EngCtx} {t : ℕ} {sel : VerSel} {x : ℕ} {y : State} {z : ℕ} {w : Bytes} (hy : Steady κ y) : OptKeeps κ (fun t => t)
    (Machine.tabWriteGo c t sel x y z w) := by
  unfold Machine.tabWriteGo
  split
  · exact OptKeeps.some hy
  · split
    · exact OptKeeps.some hy
    · extract_lets k
      split
      · exact OptKeeps.none
      · rename_i e5
        exact (hy.tabWriteLine.of_some e5).tabWriteGo

theorem Steady.tabWrite {s : State} {c : EngCtx} {t : ℕ} {sel : VerSel} {off : ℕ} {d : Bytes} (hs : Steady κ s) : OptKeeps κ (fun t => t)
    (Machine.tabWrite s c t sel off d) :=
  hs.tabWriteGo

theorem Steady.setRowEnt {s : State} {c : EngCtx} {t : ℕ} {sel : VerSel} {row : ℕ} {e : RowEnt} (hs : Steady κ s) : OptKeeps κ (fun t => t)
    (Machine.setRowEnt s c t sel row e) :=
  hs.tabWrite

theorem Steady.findRec_ {s : State} {c : EngCtx} {t : ℕ} {sel : VerSel} {fmt band : ℕ} (hs : Steady κ s) : OptKeeps κ (·.2.2) (Machine.findRec_ s c t sel fmt band) := by
  unfold Machine.findRec_
  extract_lets d z per used code bolts slotIn here lo hi
  clear_value here
  split
  · exact OptKeeps.some hs
  · split
    · exact OptKeeps.none
    · exact OptKeeps.ite OptKeeps.none (hs.tabWrite.map (fun _ hs4 => hs4))

theorem Steady.dropRows {s : State} {t off n : ℕ} (hs : Steady κ s) : Steady κ (Machine.dropRows s t off n) :=
  hs.dropRowLines

theorem Steady.dropTable {s : State} {t : ℕ} (hs : Steady κ s) : Steady κ (Machine.dropTable s t) :=
  hs.dropRowLines

theorem Steady.leaveOld {s : State} {t : ℕ} {e : RowEnt} (hs : Steady κ s) : Steady κ (Machine.leaveOld s t e) :=
  Steady.ite hs hs.same

theorem Steady.newRecord {s : State} {c : EngCtx} {t : ℕ} {sel : VerSel} {row fmt band : ℕ} {hot : Bool} {xs : List ℕ} {dith : Option (ℕ → ℕ)}
    (hs : Steady κ s) : OptKeeps κ (fun t => t) (Machine.newRecord s c t sel row fmt band hot xs dith) := by
  unfold Machine.newRecord
  extract_lets e
  split
  · exact OptKeeps.none
  · extract_lets e'
    rename_i e5
    split
    · exact OptKeeps.none
    · rename_i e7
      exact ((((hs.findRec_.of_some e5).tabWrite).of_some e7).leaveOld).setRowEnt

theorem Steady.dirTouch {s : State} {w : RowWay} {row : ℕ} (hs : Steady κ s) : Steady κ (Machine.dirTouch s w row) :=
  Steady.ite hs hs.tabGate.tabMedia.same.bump

theorem Steady.rowLinesRead {s : State} {w : RowWay} {cached : Bool} {off n : ℕ} (hs : Steady κ s) : Steady κ (Machine.rowLinesRead s w cached off n) :=
  hs.forS ((fun _ _ hs1 => Steady.ite hs1.tabGate.tabMedia (Steady.ite hs1.bump hs1.tabGate.tabMedia.same)))

theorem Steady.rowTouch {s : State} {w : RowWay} {e : RowEnt} (hs : Steady κ s) : Steady κ (Machine.rowTouch s w e) :=
  hs.bumpBy.rowLinesRead

theorem Steady.raiseAcc {s : State} {c : EngCtx} {t row : ℕ} (hs : Steady κ s) : Steady κ (Machine.raiseAcc s c t row) :=
  Steady.ite hs (Steady.ite hs (hs.getD hs.setRowEnt))

theorem Steady.countHit {s : State} {t : ℕ} {invalid : Bool} (hs : Steady κ s) : Steady κ (Machine.countHit s t invalid) :=
  hs.setArrBlob.bump

theorem Steady.tabStart {s : State} {t : ℕ} (hs : Steady κ s) : WriteOut.Keeps κ (Machine.tabStart s t) :=
  WriteOut.Keeps.ite hs.applied (WriteOut.Keeps.ite hs.refuse ((((Steady.ite ((Steady.ite hs.setVer hs).same) (((Steady.ite hs.setVer hs).same).forS
      ((fun _ _ hs1 => Steady.ite hs1 (hs1.getD hs1.setRowEnt))))).setArrNum).runFlag).applied))

theorem Steady.tabStop {s : State} {t : ℕ} (hs : Steady κ s) : WriteOut.Keeps κ (Machine.tabStop s t) :=
  WriteOut.Keeps.ite hs.setArrNum.same.applied hs.applied

theorem Steady.writeTabCmd {s : State} {t : ℕ} {b : Bytes} (hs : Steady κ s) : WriteOut.Keeps κ (Machine.writeTabCmd s t b) := by
  unfold Machine.writeTabCmd
  split
  · exact hs.refuse
  · split
    · exact hs.tabStart
    · exact hs.tabStop
    · exact hs.refuse

theorem Steady.tabUnbind {s : State} {t : ℕ} (hs : Steady κ s) : Steady κ (Machine.tabUnbind s t) :=
  ((Steady.ite hs hs.runFlag).forS (fun _ _ hs1 => hs1.setBolt)).same

theorem Steady.writeTabDesc {s : State} {t : ℕ} {b : Bytes} (hs : Steady κ s) : WriteOut.Keeps κ (Machine.writeTabDesc s t b) :=
  WriteOut.Keeps.ite hs.refuse (WriteOut.Keeps.ite hs.refuse (((Steady.ite hs.tabUnbind.setArrNum hs).setArrBlob).applied))
end Sys2Proof.Machine
end

section
/-! What the model's `EngQueue` part leaves `Steady`. -/
namespace Sys2Proof.Machine
variable {κ : Option (List Instr × Hem)}

theorem Steady.acceptDesc {s : State} {q : QueueId} {d : Desc} (hs : Steady κ s) : Steady κ (Machine.acceptDesc s q d) :=
  hs.same.setQueue

theorem Steady.blkStart {s : State} {b : Blk} (hs : Steady κ s) : WriteOut.Keeps κ (Machine.blkStart s b) :=
  WriteOut.Keeps.ite hs.refuse (WriteOut.Keeps.ite hs.refuse hs.setNum.applied)

theorem Steady.blkStop {s : State} {b : Blk} (hs : Steady κ s) : WriteOut.Keeps κ (Machine.blkStop s b) :=
  WriteOut.Keeps.ite hs.setNum.applied hs.applied

theorem Steady.writeBlkCmd {s : State} {b : Blk} {v : Bytes} (hs : Steady κ s) : WriteOut.Keeps κ (Machine.writeBlkCmd s b v) := by
  unfold Machine.writeBlkCmd
  split
  · exact hs.refuse
  · split
    · exact hs.blkStart
    · exact hs.blkStop
    · exact hs.refuse

theorem Steady.blkStopEnd {s : State} {b : Blk} (hs : Steady κ s) : Steady κ (Machine.blkStopEnd s b) :=
  Steady.ite hs.setNum hs

theorem Steady.execQueueTailWrite {h : Head} {q : QueueId} {tail : ℕ} {s : State} (hs : Steady κ s) : Res.Keeps κ (Machine.execQueueTailWrite h q tail s) :=
  Res.Keeps.next hs.cwStore.fin

theorem Steady.execSlotReadComplete {q : QueueId} {env : List Reply} {s : State} (hs : Steady κ s) : Res.Keeps κ (Machine.execSlotReadComplete q env s) := by
  unfold Machine.execSlotReadComplete
  extract_lets k __src c x __src1 s1 holder d d1 s2 k' s3
  have hx : Steady κ x.2.2 := hs.engRead
  have hs1 : Steady κ s1 := hx
  have hs2 : Steady κ s2 := hs1.acceptDesc
  have hs3 : Steady κ s3 := hs2.setQueue
  refine Res.Keeps.next ?_
  split
  · exact hs
  · split
    · rename_i e6
      exact (hs.stoppedAlone hx).of_some e6
    · exact Steady.ite hx.setQueue (Steady.ite hs3 hs3.denyDesc)

theorem Steady.execCompletionRingSpace {q : QueueId} {s : State} (hs : Steady κ s) : Res.Keeps κ (Machine.execCompletionRingSpace q s) := by
  unfold Machine.execCompletionRingSpace
  extract_lets k
  refine Res.Keeps.next ?_
  split
  · exact hs
  · exact Steady.ite hs.setQueue (Steady.ite hs hs.setQueue.writeEntry.fin)
end Sys2Proof.Machine
end

section
/-! What the model's `BobLookup` part leaves `Steady`. -/
namespace Sys2Proof.Machine
variable {κ : Option (List Instr × Hem)}

theorem Steady.dealTo {s : State} {d : DescRef} {x : Desc} {e : ℕ} (hs : Steady κ s) : Steady κ (Machine.dealTo s d x e) :=
  hs.same.setDesc

theorem Steady.bobTake {s : State} {d : DescRef} {x : Desc} (hs : Steady κ s) : OptKeeps κ (·.2.2) (Machine.bobTake s d x) := by
  unfold Machine.bobTake
  extract_lets first
  split
  · exact OptKeeps.mapAny (fun _ => hs)
  · split
    · exact OptKeeps.ite (OptKeeps.some hs) OptKeeps.none
    · exact OptKeeps.ite (OptKeeps.mapAny (fun _ => hs.dealTo)) OptKeeps.none

theorem Steady.readLists {s : State} {c : EngCtx} {x : Desc} {idx32 : Bool} {n bags : ℕ} (hs : Steady κ s) : Steady κ (Machine.readLists s c x idx32 n bags).2.2 := by
  unfold Machine.readLists
  split
  · exact hs
  · extract_lets b i o w m
    have hi : Steady κ i.2.2.2 := hs.engReadList
    have ho : Steady κ o.2.2.2 := Steady.ite222 hi hi.engReadList
    exact Steady.ite222 ho ho.engReadList

theorem Steady.defaultContrib {s : State} {w : RowWay} {weight : ℕ} (hs : Steady κ s) : Steady κ (Machine.defaultContrib s w weight).2 :=
  hs.rowLinesRead

theorem Steady.readRow {s : State} {w : RowWay} {row : Option ℕ} {weight : ℕ} (hs : Steady κ s) : Steady κ (Machine.readRow s w row weight).2 := by
  unfold Machine.readRow
  extract_lets zero __src
  split
  · exact hs
  · split
    · exact hs.countHit.defaultContrib
    · exact Steady.ite2 hs.dirTouch (Steady.ite2 hs.dirTouch.countHit.defaultContrib (Steady.ite2 hs.dirTouch.engRead hs.dirTouch.rowTouch.raiseAcc))

theorem Steady.writeBag {s : State} {c : EngCtx} {b : Bytes} {col bag dim : ℕ} {bad : Bool} {a : List ℕ} (hs : Steady κ s) : Steady κ
    (Machine.writeBag s c b col bag dim bad a) :=
  (hs.whenS (fun _ hs1 => hs1.bump)).engWriteBlk

theorem Steady.tabViolation {s : State} {t : ℕ} {c : EngCtx} (hs : Steady κ s) : Steady κ (Machine.tabViolation s t c) :=
  hs.violation

theorem Steady.gatherBag {s : State} {w : RowWay} {idx wt : Bytes} {idx32 : Bool} {lo hi : ℕ} (hs : Steady κ s) : Steady κ
    (Machine.gatherBag s w idx wt idx32 lo hi).2.2 :=
  hs.foldl22 fun _ _ hs1 => hs1.readRow

theorem Steady.shareColumn {s : State} {w : RowWay} {b : Bytes} {l : Lists} (hs : Steady κ s) : Steady κ (Machine.shareColumn s w b l).2 :=
  hs.foldl2 fun _ _ hs1 => hs1.gatherBag.writeBag

theorem Steady.fanOut {s : State} {d : DescRef} {x : Desc} {t : ℕ} {l : Lists} {batch : ℕ → List SubIdx} (hs : Steady κ s) : Steady κ
    (Machine.fanOut s d x t l batch) := by
  unfold Machine.fanOut
  extract_lets s1
  have hs1 : Steady κ s1 := hs.forS (fun _ _ hs1 => hs1.bumpBy.emit)
  split
  · exact hs1
  · exact hs1.setDesc

theorem Steady.poolBatch {s : State} {w : RowWay} {pool : ℕ} {l : List SubIdx} (hs : Steady κ s) : Steady κ (Machine.poolBatch s w pool l).2.2.2 := by
  unfold Machine.poolBatch
  refine Steady.foldl222 hs fun r bag hr => ?_
  exact Steady.foldl22 (r := ([], 0, r.2.2.2)) hr fun q e hq => hq.readRow

theorem Steady.combineRows {s : State} {c : EngCtx} {t : ℕ} {x : Desc} (hs : Steady κ s) : Steady κ (Machine.combineRows s c t x).2.2 :=
  hs.foldl22 fun _ _ hs1 => hs1.writeBag

theorem Steady.runLookup {s0 : State} {d : DescRef} {x : Desc} {t eng : ℕ} {env : List Reply} (hs0 : Steady κ s0) : Steady κ (Machine.runLookup s0 d x t eng env) := by
  unfold Machine.runLookup
  extract_lets b fl c pool wide vs y right w l s mine n bags bad inv s1 owed s2 s3 s4 r
  have hy : Steady κ y.2.2 := hs0.readLists
  have hs : Steady κ s := hy.fanOut
  have hmine : Steady κ mine.2.2.2 := hs.poolBatch
  have hinv : Steady κ inv.2 := hmine.foldMapS fun _ _ hs1 => hs1.foldMapS fun _ _ hs2 => hs2.countHit.defaultContrib
  have hs1 : Steady κ s1 := hinv
  have hs2 : Steady κ s2 := hy.bump.bumpBy
  have hs3 : Steady κ s3 := Steady.ite hs2.fanOut hs2
  have hs4 : Steady κ s4 := Steady.ite hs3.addArrival hs3
  have hr : Steady κ r.2 := (hs4.whenS (fun _ hs1 => hs1.tabViolation)).shareColumn
  split
  · split
    · split
      · rename_i e5
        exact (hs0.stopped hy).of_some e5
      · exact hy.fanOut.denyDesc
    · exact hs0.denyDesc
  · split
    · refine Steady.runDesc hs0 (fun _ hs4 => ?_)
      extract_lets p s5 s6
      have hp : Steady κ p.2.2.2 := (hs4.whenS (fun _ hs6 => hs6.tabViolation)).poolBatch
      have hs5 : Steady κ s5 := hp.bumpBy
      have hs6 : Steady κ s6 := by
        dsimp only [s6]
        split
        · exact hs5.setDesc
        · exact hs5
      exact hs6
    · split
      · rename_i e5
        exact (hs0.stopped hy).of_some e5
      · split
        · exact hs0.denyDesc
        · split
          · refine Steady.partDesc hs0 (fun _ hs7 => ?_)
            split
            · exact hs1
            · exact hs1.setDesc
          · exact hs0.runDesc (fun _ hs7 => hr)

theorem Steady.finishRows {s0 : State} {d : DescRef} {x : Desc} (hs0 : Steady κ s0) : Steady κ (Machine.finishRows s0 d x) :=
  hs0.runDesc ((fun _ hs1 => (Steady.ite hs1.bump.bumpBy.addArrival hs1.bump.bumpBy).combineRows))

theorem Steady.execBnStart {w : Writer} {s : State} (hs : Steady κ s) : Res.Keeps κ (Machine.execBnStart w s) :=
  Steady.endWrite hs.writeBlkCmd

theorem Steady.execBnStop {w : Writer} {s : State} (hs : Steady κ s) : Res.Keeps κ (Machine.execBnStop w s) :=
  Steady.endWrite hs.writeBlkCmd

theorem Steady.execBnStopEnd {s : State} (hs : Steady κ s) : Res.Keeps κ (Machine.execBnStopEnd s) :=
  Res.Keeps.next hs.blkStopEnd

theorem Steady.execTabStart {w : Writer} {table : ℕ} {s : State} (hs : Steady κ s) : Res.Keeps κ (Machine.execTabStart w table s) :=
  Steady.endWrite hs.writeTabCmd

theorem Steady.execTabStop {w : Writer} {table : ℕ} {s : State} (hs : Steady κ s) : Res.Keeps κ (Machine.execTabStop w table s) :=
  Steady.endWrite hs.writeTabCmd

theorem Steady.execTabStopEnd {table : ℕ} {s : State} (hs : Steady κ s) : Res.Keeps κ (Machine.execTabStopEnd table s) :=
  Res.Keeps.next (Steady.ite hs.setArrNum hs)

theorem Steady.execChunkDeal {d : DescRef} {engine : ℕ} {s : State} (hs : Steady κ s) : Res.Keeps κ (Machine.execChunkDeal d engine s) := by
  unfold Machine.execChunkDeal
  refine Res.Keeps.next ?_
  split
  · exact hs
  · exact Steady.ite hs.dealTo hs

theorem Steady.execLookup {d : DescRef} {env : List Reply} {s : State} (hs : Steady κ s) : Res.Keeps κ (Machine.execLookup d env s) := by
  unfold Machine.execLookup
  refine Res.Keeps.next ?_
  split
  · exact hs
  · extract_lets t
    split
    · exact hs.denyDesc
    · split
      · exact hs.denyDesc
      · split
        · exact hs
        · rename_i e8
          exact (hs.bobTake.of_some e8).runLookup
end Sys2Proof.Machine
end

section
/-! What the model's `BobRows` part leaves `Steady`. -/
namespace Sys2Proof.Machine
variable {κ : Option (List Instr × Hem)}

theorem Steady.setBob {s : State} {b : BobState} (hs : Steady κ s) : Steady κ (Machine.setBob s b) :=
  hs.same

theorem Steady.startRowMove {s : State} {t row fmt band : ℕ} {hot : Bool} (hs : Steady κ s) : OptKeeps κ (fun t => t) (Machine.startRowMove s t row fmt band hot) := by
  unfold Machine.startRowMove
  extract_lets c e xs
  split
  · exact OptKeeps.none
  · rename_i e3
    split
    · exact OptKeeps.none
    · rename_i e5
      exact ((((hs.findRec_.of_some e3).tabWrite).of_some e5).setBob).setRowEnt

theorem Steady.cutOver {s : State} {m : RowMove} (hs : Steady κ s) : Steady κ (Machine.cutOver s m) := by
  unfold Machine.cutOver
  extract_lets c e e' s1 __src s2
  have hs1 : Steady κ s1 := by
    dsimp only [s1]
    split
    · exact hs.getD hs.bump.tabWrite
    · exact hs
  have hs2 : Steady κ s2 := hs1.setBob
  exact hs2.getD hs2.leaveOld.setRowEnt

theorem Steady.sourceRow {s : State} {c : EngCtx} {t : ℕ} {b : Bytes} {k : ℕ} (hs : Steady κ s) : Steady κ (Machine.sourceRow s c t b k).2.2 :=
  hs.engRead

theorem Steady.loadRows {c : EngCtx} {t : ℕ} {sel : VerSel} {b : Bytes} {fmt : ℕ} {x : List ℕ} {y : State} {z w : ℕ} (hy : Steady κ y) : Steady κ
    (Machine.loadRows c t sel b fmt x y z w).2.2.2 := by
  induction x generalizing y z w with
  | nil => exact hy
  | cons k rest ih =>
    unfold Machine.loadRows
    extract_lets i row x s e
    have hx : Steady κ x.2.2 := hy.sourceRow
    have hs : Steady κ s := by
      unfold s
      split
      · exact hx.cutOver
      · exact hx
    refine Steady.ite222 (ih hy) (Steady.ite222 hs (Steady.ite222 (ih hs) ?_))
    split
    · exact hs
    next t ht => exact ih (hs.newRecord.of_some ht)

theorem Steady.runTabLoad {s0 : State} {d : DescRef} {x : Desc} {t eng : ℕ} {env : List Reply} (hs0 : Steady κ s0) : Steady κ (Machine.runTabLoad s0 d x t eng env) := by
  unfold Machine.runTabLoad
  extract_lets b c fmt fan
  split
  · exact (Steady.ite hs0.fanOut hs0).denyDesc
  · split
    · exact (Steady.ite hs0.tabViolation.fanOut hs0.tabViolation).denyDesc
    · split
      · exact (Steady.ite hs0.fanOut hs0).denyDesc
      · refine Steady.runDesc hs0 (fun _ hs5 => ?_)
        extract_lets s y y1
        have hs : Steady κ s := Steady.ite hs5.fanOut hs5
        have hy : Steady κ y.2.2 := hs.sourceRow
        have hy1 : Steady κ y1.2.2.2 := hs.loadRows
        split
        · split
          · exact hy
          · split
            · rename_i e11
              exact (hy.tabWrite.of_some e11).dropTable
            · exact hy
        · exact hy1

theorem Steady.bobReady {s : State} {d : DescRef} {op : ℕ} {form : ℕ → Bytes → Bool} {run : State → Desc → ℕ → ℕ → State} (hs : Steady κ s)
    (hrun : ∀ x1 x2 x3 x4, Steady κ x1 → Steady κ (run x1 x2 x3 x4)) : Steady κ (Machine.bobReady s d op form run) := by
  unfold Machine.bobReady
  split
  · exact hs
  · extract_lets t
    split
    · exact hs.denyDesc
    · split
      · exact hs.denyDesc
      · split
        · exact hs
        · rename_i e6
          exact hrun _ _ _ _ (hs.bobTake.of_some e6)

theorem Steady.heatRows {c : EngCtx} {t : ℕ} {x : List ℕ} {y : State} (hy : Steady κ y) : OptKeeps κ (fun t => t) (Machine.heatRows c t x y) := by
  unfold Machine.heatRows
  split
  · exact OptKeeps.some hy
  · extract_lets e s xs
    have hs : Steady κ s := hy.tabGate.tabMedia
    split
    · exact hy.heatRows
    · split
      · exact hy.heatRows
      · split
        · exact OptKeeps.none
        · rename_i e6
          exact (hs.newRecord.of_some e6).heatRows

theorem Steady.setPins {s : State} {t : ℕ} {bolts : List ℕ} (hs : Steady κ s) : Steady κ (Machine.setPins s t bolts) := by
  unfold Machine.setPins
  extract_lets base old new s1 s2 s3 __src
  have hs1 : Steady κ s1 := hs.forS (fun _ _ hs1 => hs1.setBolt)
  have hs2 : Steady κ s2 := hs1.forS (fun _ _ hs1 => hs1.setBolt)
  have hs3 : Steady κ s3 := by
    dsimp only [s3]
    refine Steady.forS hs2 (fun _ _ hs2 => ?_)
    split
    · exact hs2
    · split
      · exact hs2.pickCool.startMove
      · exact hs2.pickCool
  exact hs3.setBob

theorem Steady.runRefreshHot {s0 : State} {d : DescRef} {x : Desc} {t eng : ℕ} {env : List Reply} (hs0 : Steady κ s0) : Steady κ
    (Machine.runRefreshHot s0 d x t eng env) := by
  unfold Machine.runRefreshHot
  extract_lets b c n idx s all valid bad mine owner sel res list
  have hidx : Steady κ idx.2.2 := by
    dsimp only [idx]
    split
    · exact hs0
    · exact hs0.engRead
  have hs : Steady κ s := Steady.ite hidx.fanOut hidx
  split
  · rename_i e3
    exact (hs0.stopped hidx).of_some e3
  · split
    · exact hs.tabViolation.denyDesc
    · split
      · exact hs.denyDesc
      · split
        · exact hs.denyDesc
        · refine Steady.runDesc hs (fun _ hs6 => ?_)
          split
          · exact Steady.ite2 hs6 hs6.setPins.dropTable
          · split
            · exact hs6
            · rename_i e10
              exact Steady.ite2 hs6 (((((hs6.heatRows.of_some e10).forS (fun _ _ hs11 => hs11.getD hs11.setRowEnt)).getD
                  (((hs6.heatRows.of_some e10).forS (fun _ _ hs11 => hs11.getD hs11.setRowEnt)).tabWrite)).setPins).dropTable)

theorem Steady.runVersion {s : State} {d : DescRef} {op : ℕ} (hs : Steady κ s) : Steady κ (Machine.runVersion s d op) := by
  unfold Machine.runVersion
  split
  · exact hs
  · extract_lets b t c r arg a
    have ha : Steady κ a.2 := hs.vcRun
    split
    · exact hs
    · split
      · exact hs.denyDesc
      · exact Steady.ite hs.denyDesc (Steady.ite hs.tabViolation.denyDesc (Steady.ite hs.denyDesc (Steady.ite hs ha.denyDesc)))

theorem Steady.sweepTable {s : State} {t : ℕ} (hs : Steady κ s) : Steady κ (Machine.sweepTable s t) :=
  (hs.forS ((fun _ _ hs1 => Steady.ite hs1 (Steady.ite hs1 (hs1.getD hs1.setRowEnt))))).setBob

theorem Steady.reencodeNow {s : State} {t row fmt : ℕ} (hs : Steady κ s) : Steady κ (Machine.reencodeNow s t row fmt) := by
  unfold Machine.reencodeNow
  extract_lets __src s1 e
  have hs1 : Steady κ s1 := hs.setBob
  split
  · exact hs1
  · split
    · exact hs1.bump
    · rename_i e4
      exact (hs1.startRowMove.of_some e4).bump

theorem Steady.reencBudget {s : State} (hs : Steady κ s) : Steady κ (Machine.reencBudget s).2 :=
  hs.setBob

theorem Steady.execRecordCutover {table row : ℕ} {s : State} (hs : Steady κ s) : Res.Keeps κ (Machine.execRecordCutover table row s) := by
  unfold Machine.execRecordCutover
  refine Res.Keeps.next ?_
  split
  · exact hs
  · exact hs.cutOver.fin

theorem Steady.execOldRecordFree {table bolt slot : ℕ} {s : State} (hs : Steady κ s) : Res.Keeps κ (Machine.execOldRecordFree table bolt slot s) :=
  Res.Keeps.next (Steady.ite hs (Steady.ite hs.dropRows.setBob ((hs.dropRows.setBob.getD hs.dropRows.setBob.tabWrite).fin)))

theorem Steady.execTabLoad {d : DescRef} {env : List Reply} {s : State} (hs : Steady κ s) : Res.Keeps κ (Machine.execTabLoad d env s) :=
  Res.Keeps.next (hs.bobReady (fun _ _ _ _ hs1 => hs1.runTabLoad))

theorem Steady.execRefreshHot {d : DescRef} {env : List Reply} {s : State} (hs : Steady κ s) : Res.Keeps κ (Machine.execRefreshHot d env s) :=
  Res.Keeps.next (hs.bobReady (fun _ _ _ _ hs1 => Steady.ite hs1 hs1.runRefreshHot))

theorem Steady.execVersionOpenRead {d : DescRef} {s : State} (hs : Steady κ s) : Res.Keeps κ (Machine.execVersionOpenRead d s) :=
  Res.Keeps.next hs.runVersion

theorem Steady.execVersionCloseRead {d : DescRef} {s : State} (hs : Steady κ s) : Res.Keeps κ (Machine.execVersionCloseRead d s) :=
  Res.Keeps.next hs.runVersion

theorem Steady.execVersionQuery {d : DescRef} {s : State} (hs : Steady κ s) : Res.Keeps κ (Machine.execVersionQuery d s) :=
  Res.Keeps.next hs.runVersion

theorem Steady.execVersionOpenWork {d : DescRef} {s : State} (hs : Steady κ s) : Res.Keeps κ (Machine.execVersionOpenWork d s) :=
  Res.Keeps.next hs.runVersion

theorem Steady.execVersionPublish {d : DescRef} {s : State} (hs : Steady κ s) : Res.Keeps κ (Machine.execVersionPublish d s) :=
  Res.Keeps.next hs.runVersion

theorem Steady.execVersionRebase {d : DescRef} {s : State} (hs : Steady κ s) : Res.Keeps κ (Machine.execVersionRebase d s) :=
  Res.Keeps.next hs.runVersion

theorem Steady.execVersionDiscardWork {d : DescRef} {s : State} (hs : Steady κ s) : Res.Keeps κ (Machine.execVersionDiscardWork d s) :=
  Res.Keeps.next hs.runVersion

theorem Steady.execReencSweep {s : State} (hs : Steady κ s) : Res.Keeps κ (Machine.execReencSweep s) :=
  Res.Keeps.next (Steady.ite hs (((hs.forS (fun _ _ hs1 => hs1.sweepTable)).setBob).fin))

theorem Steady.execRowReencode {table row : ℕ} {s : State} (hs : Steady κ s) : Res.Keeps κ (Machine.execRowReencode table row s) := by
  unfold Machine.execRowReencode
  refine Res.Keeps.next ?_
  split
  · exact hs
  · exact Steady.ite hs (Steady.ite hs.reencBudget.reencodeNow.markV.fin hs)
end Sys2Proof.Machine
end

section
/-! What the model's `BobUpdate` part leaves `Steady`. -/
namespace Sys2Proof.Machine
variable {κ : Option (List Instr × Hem)}

theorem Steady.setStep {s : State} {y : Step} (hs : Steady κ s) : Steady κ (Machine.setStep s y) :=
  hs.setBob

theorem Steady.dropStep {s : State} {t n : ℕ} (hs : Steady κ s) : Steady κ (Machine.dropStep s t n) :=
  hs.setBob

theorem Steady.fanPlain {s : State} {d : DescRef} {x : Desc} {t : ℕ} (hs : Steady κ s) : Steady κ (Machine.fanPlain s d x t) :=
  hs.whenS (fun _ hs1 => hs1.fanOut)

theorem Steady.runStepOpen {s0 : State} {d : DescRef} {x : Desc} {t eng : ℕ} (hs0 : Steady κ s0) : Steady κ (Machine.runStepOpen s0 d x t eng) := by
  unfold Machine.runStepOpen
  extract_lets b c s n rows exact_ cells p __src
  have hs : Steady κ s := hs0.fanPlain
  split
  · exact hs.tabViolation.denyDesc
  · split
    · exact hs.denyDesc
    · split
      · exact hs.denyDesc
      · split
        · exact hs.denyDesc
        · split
          · exact hs.denyDesc
          · exact hs.setBob.denyDesc

theorem Steady.addBag {t : ℕ} {c : EngCtx} {b : Bytes} {l : Lists} {r : AccWalk × State} {bag : ℕ} (hr : Steady κ r.2) : Steady κ (Machine.addBag t c b l r bag).2 := by
  unfold Machine.addBag
  exact Steady.ite2 hr (Steady.ite2 hr.engReadList hr.engReadList)

theorem Steady.taintStep {s : State} {y : Step} (hs : Steady κ s) : Steady κ (Machine.taintStep s y) :=
  hs.setStep.bump.noteFault

theorem Steady.runAccumulate {s0 : State} {d : DescRef} {x : Desc} {t eng : ℕ} {env : List Reply} (hs0 : Steady κ s0) : Steady κ
    (Machine.runAccumulate s0 d x t eng env) := by
  unfold Machine.runAccumulate
  extract_lets b fl c n bags l fan s
  have hl : Steady κ l.2.2 := hs0.readLists
  have hs : Steady κ s := hl.whenS (fun _ hs1 => hs1.fanOut)
  split
  · rename_i e3
    exact (hs0.stopped hl).of_some e3
  · split
    · exact hs0.denyDesc
    · split
      · exact ((hl.whenS (fun _ hs5 => hs5.fanOut)).tabViolation).denyDesc
      · split
        · exact (hl.whenS (fun _ hs6 => hs6.fanOut)).denyDesc
        · split
          · exact (hl.whenS (fun _ hs7 => hs7.fanOut)).denyDesc
          · split
            · exact (hl.whenS (fun _ hs8 => hs8.fanOut)).denyDesc
            · split
              · exact ((hl.whenS (fun _ hs9 => hs9.fanOut)).runBump).denyDesc
              · refine Steady.runDesc hs0 (fun _ hs9 => ?_)
                extract_lets w a s1 s2 s3 res
                have hw : Steady κ w.2 := hs.foldl2 fun _ _ hs11 => hs11.addBag
                have hs1 : Steady κ s1 := hw
                have hs2 : Steady κ s2 := hs1.setStep.bump.bumpBy
                have hs3 : Steady κ s3 := Steady.ite hs2 hs2.markV
                exact Steady.ite2 hs1 (Steady.ite2 hs3.taintStep hs3)

theorem Steady.runSeal {s0 : State} {d : DescRef} {x : Desc} {t eng : ℕ} (hs0 : Steady κ s0) : Steady κ (Machine.runSeal s0 d x t eng) := by
  unfold Machine.runSeal
  extract_lets b c s
  have hs : Steady κ s := hs0.fanPlain
  split
  · exact hs.tabViolation.denyDesc
  · split
    · exact hs.denyDesc
    · split
      · exact hs.dropStep.denyDesc
      · split
        · exact hs.denyDesc
        · extract_lets s1
          have hs1 : Steady κ s1 := hs.setStep
          split
          · exact hs1
          · exact hs1.setDesc.fin

theorem Steady.writeG {s : State} {c : EngCtx} {t row g : ℕ} (hs : Steady κ s) : OptKeeps κ (fun t => t) (Machine.writeG s c t row g) :=
  hs.ownWrite

theorem Steady.sealWrite {s : State} {c : EngCtx} {t : ℕ} {sel : VerSel} {row fmt : ℕ} {e : RowEnt} {xs : List ℕ} {dith : Option (ℕ → ℕ)}
    (hs : Steady κ s) : OptKeeps κ (fun t => t) (Machine.sealWrite s c t sel row fmt e xs dith) :=
  .ite hs.tabWrite hs.newRecord

theorem Steady.sealMoving {s : State} {c : EngCtx} {t row : ℕ} {m : RowMove} {xs : List ℕ} {dith : Option (ℕ → ℕ)} (hs : Steady κ s) : OptKeeps κ
    (fun t => t) (Machine.sealMoving s c t row m xs dith) :=
  .ite hs.cutOver.sealWrite (hs.tabWrite.map (fun _ hs1 => hs1.setBob))

theorem OptKeeps.bind {α β : Type} {π : α → State} {ρ : β → State} {o : Option α} {f : α → Option β} (ho : OptKeeps κ π o)
    (hf : ∀ a, Steady κ (π a) → OptKeeps κ ρ (f a)) : OptKeeps κ ρ (o.bind f) := by
  cases o with
  | none => exact .none
  | some a => exact hf a (ho.of_some rfl)

theorem Steady.sealRow {c : EngCtx} {t : ℕ} {sel : VerSel} {b : Bytes} {y : Step} {s : State} {r : StepRow} (hs : Steady κ s) : Steady κ
    (Machine.sealRow c t sel b y s r).2.2 := by
  unfold Machine.sealRow
  extract_lets e dim at_ none_ s1 old g s2 bad xs v o fmt dith sw mv u
  refine Steady.ite22 hs (Steady.ite22 hs (Steady.ite22 hs (Steady.ite22 hs (Steady.ite22 hs ?_))))
  have h1 : Steady κ s1 := Steady.ite hs hs.tabGate.tabMedia
  have hg : Steady κ g.2.2 := Steady.ite22 h1.engReadNat h1
  have h2 : Steady κ s2 := hg
  have hsw : OptKeeps κ (fun t => t) sw := OptKeeps.ite h2.writeG (.some h2)
  have hu : OptKeeps κ (fun t => t) u := by
    unfold u
    clear_value mv
    refine hsw.bind fun t ht => ?_
    split
    · exact Steady.sealMoving ht
    · exact Steady.sealWrite ht
  clear_value u s2
  refine Steady.ite22 h2 ?_
  split
  · exact h2
  next t => exact Steady.raiseAcc (hu.of_some rfl)

theorem Steady.boundarySweep {s : State} {t : ℕ} (hs : Steady κ s) : Steady κ (Machine.boundarySweep s t) := by
  unfold Machine.boundarySweep
  extract_lets s1
  have hs1 : Steady κ s1 := hs.sweepTable
  split
  · exact hs1
  · refine Steady.forS hs1 (fun _ _ hs3 => ?_)
    extract_lets e s2
    have hs2 : Steady κ s2 := hs3.reencodeNow
    split
    · exact Steady.ite hs2 hs2.cutOver.runBump
    · exact hs2

theorem Steady.tableBoundary {s : State} {t : ℕ} (hs : Steady κ s) : Steady κ (Machine.tableBoundary s t) :=
  Steady.ite hs.setBob.boundarySweep hs.setBob

theorem Steady.placeBoundary {s : State} (hs : Steady κ s) : Steady κ (Machine.placeBoundary s) :=
  Steady.ite hs.bump.releaseDecisions hs.bump

theorem Steady.sealRows {c : EngCtx} {t : ℕ} {sel : VerSel} {b : Bytes} {y : Step} {s : State} (hs : Steady κ s) : Steady κ (Machine.sealRows c t sel b y s).2.2.2 :=
  hs.foldl222 fun _ _ hs1 => hs1.sealRow

theorem Steady.applySeal {s : State} {x : Desc} {c : EngCtx} {t : ℕ} {sel : VerSel} {y : Step} (hs : Steady κ s) : Steady κ (Machine.applySeal s x c t sel y).2 := by
  unfold Machine.applySeal
  extract_lets b q s1 count sats s2 s3 s4 max_ rep s5 s6 s7
  have hq : Steady κ q.2.2.2 := hs.sealRows
  have hs1 : Steady κ s1 := hq
  have hs2 : Steady κ s2 := hs1.bump.bumpBy.bumpBy.bumpBy
  have hs3 : Steady κ s3 := hs2.bumpBy.bumpBy.bumpBy
  have hs4 : Steady κ s4 := hs3.whenS (fun _ hs1 => hs1.noteFault)
  have hs5 : Steady κ s5 := hs4.engWrite
  have hs6 : Steady κ s6 := hs5.tableBoundary.dropTable
  have hs7 : Steady κ s7 := hs6.getD hs6.tabWrite
  exact hs7.dropStep.placeBoundary

theorem Steady.runStepDiscard {s0 : State} {d : DescRef} {x : Desc} {t eng : ℕ} (hs0 : Steady κ s0) : Steady κ (Machine.runStepDiscard s0 d x t eng) := by
  unfold Machine.runStepDiscard
  extract_lets b c n s
  have hs : Steady κ s := hs0.fanPlain
  split
  · exact Steady.ite hs0 (Steady.ite hs.tabViolation.denyDesc hs.dropStep.bump.denyDesc)
  · exact Steady.ite hs.tabViolation.denyDesc hs.denyDesc

theorem Steady.loseBank {s : State} {bank : ℕ} (hs : Steady κ s) : Steady κ (Machine.loseBank s bank) := by
  unfold Machine.loseBank
  extract_lets hit s1 __src s2
  have hs1 : Steady κ s1 := hs.setNum
  have hs2 : Steady κ s2 := hs1.setBob
  clear_value hit
  split
  · exact hs2.noteFault
  · exact hs2.forS (fun _ _ hs3 => hs3.noteFault)

theorem Steady.scrubBank {s : State} {bank : ℕ} (hs : Steady κ s) : Steady κ (Machine.scrubBank s bank) :=
  Steady.ite hs.setNum hs

theorem Steady.execStepOpen {d : DescRef} {s : State} (hs : Steady κ s) : Res.Keeps κ (Machine.execStepOpen d s) :=
  Res.Keeps.next (hs.bobReady (fun _ _ _ _ hs1 => hs1.runStepOpen))

theorem Steady.execAccumulate {d : DescRef} {env : List Reply} {s : State} (hs : Steady κ s) : Res.Keeps κ (Machine.execAccumulate d env s) :=
  Res.Keeps.next (hs.bobReady (fun _ _ _ _ hs1 => hs1.runAccumulate))

theorem Steady.execSeal {d : DescRef} {s : State} (hs : Steady κ s) : Res.Keeps κ (Machine.execSeal d s) :=
  Res.Keeps.next (hs.bobReady (fun _ _ _ _ hs1 => hs1.runSeal))

theorem Steady.execSealApply {d : DescRef} {s : State} (hs : Steady κ s) : Res.Keeps κ (Machine.execSealApply d s) := by
  unfold Machine.execSealApply
  refine Res.Keeps.next ?_
  split
  · exact hs
  · extract_lets b t
    split
    · exact hs
    · split
      · split
        · exact hs
        · extract_lets c
          split
          · exact hs.dropStep.denyDesc
          · exact hs.runDesc (fun _ hs10 => hs10.applySeal)
      · exact hs.denyDesc
      · exact hs

theorem Steady.execStepDiscard {d : DescRef} {s : State} (hs : Steady κ s) : Res.Keeps κ (Machine.execStepDiscard d s) :=
  Res.Keeps.next (hs.bobReady (fun _ _ _ _ hs1 => hs1.runStepDiscard))

theorem Steady.execAccBankFail {bank : ℕ} {power : Bool} {s : State} (hs : Steady κ s) : Res.Keeps κ (Machine.execAccBankFail bank power s) :=
  Res.Keeps.next (Steady.ite hs (Steady.ite hs.loseBank hs.loseBank.detectFault.scrubBank))
end Sys2Proof.Machine
end

section
/-! What the model's `TapeImage` part leaves `Steady`. -/
namespace Sys2Proof.Machine
variable {κ : Option (List Instr × Hem)}

theorem Steady.setTape {s : State} {t : TapeState} (hs : Steady κ s) : Steady κ (Machine.setTape s t) :=
  hs.same

theorem Steady.askAreas {s : State} {x : ℕ} (hs : Steady κ s) : Steady κ (Machine.askAreas s x) :=
  hs.forS (fun _ _ hs1 => Steady.ite hs1 hs1.bump.askMoveUp)

theorem Steady.vecTouch {s : State} {x unit off n : ℕ} (hs : Steady κ s) : Steady κ (Machine.vecTouch s x unit off n) :=
  hs.forS (fun _ _ hs1 => hs1.touch)

theorem Steady.vecWriteGo {x unit y : ℕ} {z : State} {w : ℕ} {u : Bytes} (hz : Steady κ z) : Steady κ (Machine.vecWriteGo x unit y z w u) := by
  unfold Machine.vecWriteGo
  split
  · exact hz
  · exact Steady.ite hz ((hz.getD hz.ownWrite).vecWriteGo)

theorem Steady.vecWrite {s : State} {x off : ℕ} {d : Bytes} (hs : Steady κ s) : Steady κ (Machine.vecWrite s x off d) :=
  hs.vecWriteGo

theorem Steady.setVecEnt {s : State} {x l : ℕ} {e : VecEnt} (hs : Steady κ s) : Steady κ (Machine.setVecEnt s x l e) :=
  hs.vecWrite

theorem Steady.wipePages {s : State} {x : ℕ} {ps : List ℕ} (hs : Steady κ s) : Steady κ (Machine.wipePages s x ps) :=
  hs.forS ((fun _ _ hs1 => hs1.sameMem (memZero_wf _ _)))

theorem Steady.placeRun {s : State} {x lane first y : ℕ} (hs : Steady κ s) : OptKeeps κ (fun t => t) (Machine.placeRun s x lane first y) := by
  unfold Machine.placeRun
  split
  · exact OptKeeps.some hs
  · split
    · exact OptKeeps.none
    · rename_i e3
      exact OptKeeps.ite (OptKeeps.some (hs.placeRun.of_some e3)) (OptKeeps.ite OptKeeps.none (OptKeeps.mapAny (fun _ => (hs.placeRun.of_some e3).homeBolt)))

theorem Steady.writeVersion {s : State} {x lane first : ℕ} {d : Bytes} (hs : Steady κ s) : Steady κ (Machine.writeVersion s x lane first d) :=
  hs.forS (fun _ _ hs1 => hs1.touch.rawWrite)

theorem Steady.freeRun {s : State} {x lane first n : ℕ} (hs : Steady κ s) : Steady κ (Machine.freeRun s x lane first n) :=
  hs.forS (fun _ _ hs1 => hs1.releaseBolt)

theorem Steady.setVecNode {s : State} {x n : ℕ} {v : VecNode} (hs : Steady κ s) : Steady κ (Machine.setVecNode s x n v) :=
  hs.vecWrite

theorem Steady.startHints {s : State} {x : ℕ} (hs : Steady κ s) : Steady κ (Machine.startHints s x) :=
  Steady.ite hs.same hs.same.doHints

theorem Steady.vecStart {s : State} {x : ℕ} (hs : Steady κ s) : WriteOut.Keeps κ (Machine.vecStart s x) :=
  WriteOut.Keeps.ite hs.applied (WriteOut.Keeps.ite hs.refuse hs.setNum.runFlag.startHints.applied)

theorem Steady.vecStop {s : State} {x : ℕ} (hs : Steady κ s) : WriteOut.Keeps κ (Machine.vecStop s x) :=
  WriteOut.Keeps.ite hs.setNum.setTape.applied hs.applied

theorem Steady.writeVecCmd {s : State} {x : ℕ} {b : Bytes} (hs : Steady κ s) : WriteOut.Keeps κ (Machine.writeVecCmd s x b) := by
  unfold Machine.writeVecCmd
  split
  · exact hs.refuse
  · split
    · exact hs.vecStart
    · exact hs.vecStop
    · exact hs.refuse

theorem Steady.freeVersion {s : State} {f : VecFree} (hs : Steady κ s) : Steady κ (Machine.freeVersion s f) :=
  hs.setTape.freeRun.wipePages

theorem Steady.abandonMerge {s : State} {m : VecMerge} (hs : Steady κ s) : Steady κ (Machine.abandonMerge s m) := by
  unfold Machine.abandonMerge
  refine Steady.setVecEnt ?_
  split
  · exact hs.setTape.freeRun.vecWrite
  · exact hs.setTape.freeRun

theorem Steady.vecUnbind {s : State} {x : ℕ} (hs : Steady κ s) : Steady κ (Machine.vecUnbind s x) :=
  ((Steady.ite ((hs.forS (fun _ _ hs1 => hs1.abandonMerge)).forS (fun _ _ hs1 => hs1.freeVersion)) (((hs.forS (fun _ _ hs1 => hs1.abandonMerge)).forS
      (fun _ _ hs1 => hs1.freeVersion)).runFlag)).setNum).setTape

theorem Steady.writeVecDesc {s : State} {x : ℕ} {b : Bytes} (hs : Steady κ s) : WriteOut.Keeps κ (Machine.writeVecDesc s x b) :=
  WriteOut.Keeps.ite hs.refuse (WriteOut.Keeps.ite hs.refuse (((Steady.ite hs.vecUnbind hs).setBlob).applied))

theorem Steady.tapeReady {s : State} {d : DescRef} {op : ℕ} {form : ℕ → Bytes → Bool} {run : Desc → ℕ → State} (hs : Steady κ s)
    (hrun : ∀ x1 x2, Steady κ (run x1 x2)) : Steady κ (Machine.tapeReady s d op form run) := by
  unfold Machine.tapeReady
  split
  · exact hs
  · split
    · exact hs
    · extract_lets x
      split
      · exact hs.denyDesc
      · exact Steady.ite hs.denyDesc (Steady.ite (hrun _ _) hs.askAreas)

theorem Steady.vecViolation {s : State} {x : ℕ} {c : EngCtx} (hs : Steady κ s) : Steady κ (Machine.vecViolation s x c) :=
  hs.violation

theorem Steady.execTpStart {w : Writer} {s : State} (hs : Steady κ s) : Res.Keeps κ (Machine.execTpStart w s) :=
  Steady.endWrite hs.writeBlkCmd

theorem Steady.execTpStop {w : Writer} {s : State} (hs : Steady κ s) : Res.Keeps κ (Machine.execTpStop w s) :=
  Steady.endWrite hs.writeBlkCmd

theorem Steady.execTpStopEnd {s : State} (hs : Steady κ s) : Res.Keeps κ (Machine.execTpStopEnd s) :=
  Res.Keeps.next (Steady.ite hs.blkStopEnd hs)

theorem Steady.execVecStart {w : Writer} {index : ℕ} {s : State} (hs : Steady κ s) : Res.Keeps κ (Machine.execVecStart w index s) :=
  Steady.endWrite hs.writeVecCmd

theorem Steady.execVecStop {w : Writer} {index : ℕ} {s : State} (hs : Steady κ s) : Res.Keeps κ (Machine.execVecStop w index s) :=
  Steady.endWrite hs.writeVecCmd
end Sys2Proof.Machine
end

section
/-! What the model's `TapeSearch` part leaves `Steady`. -/
namespace Sys2Proof.Machine
variable {κ : Option (List Instr × Hem)}

theorem Steady.probeSet {s : State} {x : ℕ} {stable : Bool} {q : List ℕ} {nprobe ef : ℕ} (hs : Steady κ s) : Steady κ (Machine.probeSet s x stable q nprobe ef).2 := by
  unfold Machine.probeSet
  exact Steady.ite2 ((((hs.forS (fun _ _ hs1 => hs1.vecTouch)).forS (fun _ _ hs1 => hs1.vecTouch)).bumpBy).bumpBy) hs

theorem Steady.readQueries {s : State} {c : EngCtx} {b : Bytes} {dim : ℕ} (hs : Steady κ s) : Steady κ (Machine.readQueries s c b dim).2.2.2 :=
  hs.foldl222 fun _ _ hs1 => hs1.engRead

theorem Steady.vecFan {s : State} {d : DescRef} {y : Desc} {x : ℕ} {qs : Bytes} {bad : List ℕ} (hs : Steady κ s) : Steady κ (Machine.vecFan s d y x qs bad) := by
  unfold Machine.vecFan
  extract_lets ms s1
  have hs1 : Steady κ s1 := hs.forS (fun _ _ hs1 => hs1.emit)
  split
  · exact hs1
  · exact hs1.setDesc

theorem Steady.finishSearch {s0 : State} {d : DescRef} {y : Desc} {env : List Reply} (hs0 : Steady κ s0) : Steady κ (Machine.finishSearch s0 d y env) :=
  Steady.ite hs0.endDesc.fin (hs0.runDesc ((fun _ hs1 => (Steady.ite hs1.addArrival hs1).forS (fun _ _ hs2 => hs2.engWriteBlk))))

theorem Steady.roundQueries {s : State} {x : ℕ} {e : DescRef × Desc} (hs : Steady κ s) : Steady κ (Machine.roundQueries s x e).2 := by
  unfold Machine.roundQueries
  exact hs.foldl2 fun _ _ hs1 => Steady.ite2 hs1.probeSet hs1

theorem Steady.setRound {s : State} {r : Round} (hs : Steady κ s) : Steady κ (Machine.setRound s r) :=
  hs.setTape

theorem Steady.serviceLaunches {s : State} {parts : List ℕ} (hs : Steady κ s) : Steady κ (Machine.serviceLaunches s parts) :=
  hs.forS (fun _ _ hs1 => hs1.freshFree.freshFree.bumpBy.pbumpBy)

theorem Steady.passFault {s : State} {ds : List DescRef} {status rcode : ℕ} (hs : Steady κ s) : Steady κ (Machine.passFault s ds status rcode) := by
  unfold Machine.passFault
  refine Steady.forS hs (fun _ _ hs1 => ?_)
  split
  · exact hs1
  · exact hs1.setDesc

theorem Steady.offer {x l : ℕ} {it : VecItem} {side bad : Bool} {r : RoundQuery × State} (hr : Steady κ r.2) : Steady κ (Machine.offer x l it side bad r).2 := by
  unfold Machine.offer
  exact Steady.ite2 hr hr.freshFree

theorem Steady.runPass {s : State} {x l eng : ℕ} {qs : List RoundQuery} (hs : Steady κ s) : Steady κ (Machine.runPass s x l eng qs).2 := by
  unfold Machine.runPass
  extract_lets e its owner lines s1 s2 s3 s4 s5
  have hs1 : Steady κ s1 := hs.forS (fun _ _ hs1 => hs1.vecTouch)
  have hs2 : Steady κ s2 := hs1.forS (fun _ _ hs1 => hs1.touch)
  have hs3 : Steady κ s3 := Steady.ite hs2.passFault hs2
  have hs4 : Steady κ s4 := hs3.bump.bumpBy
  have hs5 : Steady κ s5 := hs4.forS (fun _ _ hs1 => hs1.pbumpBy)
  exact hs5.foldMapS fun _ _ hs2 => hs2.foldl2 fun _ _ hs3 => hs3.offer

theorem Steady.rescore {x : ℕ} {c : EngCtx} {rerank : Bool} {q : RoundQuery} {a : VecCand} {s : State} (hs : Steady κ s) : Steady κ
    (Machine.rescore x c rerank q a s).2.2 := by
  unfold Machine.rescore
  exact Steady.ite22 hs (Steady.ite22 hs.engRead hs.engRead)

theorem Steady.queryEnd {x k : ℕ} {c : EngCtx} {rerank : Bool} {q : RoundQuery} {s : State} (hs : Steady κ s) : Steady κ (Machine.queryEnd x k c rerank q s).2.2.2 :=
  hs.foldl22 fun _ _ hs1 => hs1.rescore

theorem Steady.searchEnd {s : State} {x : ℕ} {qs : List RoundQuery} {d : DescRef} {env : List Reply} (hs : Steady κ s) : Steady κ (Machine.searchEnd s x qs d env) := by
  unfold Machine.searchEnd
  split
  · exact hs
  next y hy =>
    extract_lets b p c mine r u
    have hr : Steady κ r.2.2.2 := by
      refine Steady.foldl222 hs fun z q hz => ?_
      dsimp only
      exact hz.queryEnd
    have hu : Steady κ u := hr.bumpBy.pbumpBy
    clear_value u
    split
    · exact hu
    · exact Steady.ite hu.setDesc.finishSearch hu.setDesc

theorem Steady.execSearch {d : DescRef} {env : List Reply} {s : State} (hs : Steady κ s) : Res.Keeps κ (Machine.execSearch d env s) := by
  unfold Machine.execSearch
  refine Res.Keeps.next ?_
  split
  · exact hs
  · split
    · exact hs.finishSearch
    · refine Steady.tapeReady hs (fun _ _ => ?_)
      extract_lets b c q stable forced b' s1 s2 right lists y' s3 s4
      have hq : Steady κ q.2.2.2 := by
        dsimp only [q]
        split
        · exact hs
        · exact hs.readQueries
      have hs1 : Steady κ s1 := hq
      have hs2 : Steady κ s2 := Steady.ite (Steady.ite hs1.bump.runBump hs1.markV) hs1
      have hs3 : Steady κ s3 := (Steady.ite hs2.bump hs2.vecViolation).setDesc
      have hs4 : Steady κ s4 := Steady.ite hs3.vecFan hs3
      split
      · exact hs
      · split
        · rename_i e9
          exact (hs.stopped hq).of_some e9
        · clear_value right
          split
          · exact Steady.ite hs4.finishSearch hs4.fin
          · exact hs4.fin

theorem Steady.execRoundOpen {index : ℕ} {s : State} (hs : Steady κ s) : Res.Keeps κ (Machine.execRoundOpen index s) := by
  unfold Machine.execRoundOpen
  refine Res.Keeps.next ?_
  extract_lets w t s1 s2 q s3 __src
  have hs1 : Steady κ s1 := hs.forS (fun _ _ hs3 => hs3.setDesc)
  have hs2 : Steady κ s2 := Steady.ite hs1 (hs1.forS (fun _ _ hs3 => hs3.vecTouch))
  have hq : Steady κ q.2 := hs2.foldl2 fun _ _ hs3 => hs3.roundQueries
  have hs3 : Steady κ s3 := hq.serviceLaunches.bump
  clear_value w
  split
  · exact hs
  · exact Steady.ite hs (Steady.ite hs.askAreas hs3.setTape)

theorem Steady.execPassStart {index engine : ℕ} {s : State} (hs : Steady κ s) : Res.Keeps κ (Machine.execPassStart index engine s) := by
  unfold Machine.execPassStart
  refine Res.Keeps.next ?_
  split
  · exact hs
  · split
    · exact hs
    · exact Steady.ite hs.askAreas (Steady.ite hs.passFault.setRound hs.runPass.setRound)

theorem Steady.execRoundEnd {index : ℕ} {env : List Reply} {s : State} (hs : Steady κ s) : Res.Keeps κ (Machine.execRoundEnd index env s) := by
  unfold Machine.execRoundEnd
  refine Res.Keeps.next ?_
  split
  · exact hs
  · split
    · exact hs
    · extract_lets __src t t1
      have ht : Steady κ t := hs.setTape
      have ht1 : Steady κ t1 := ht.forS (fun _ _ hs5 => hs5.searchEnd)
      split
      · rename_i e7
        exact (hs.stoppedAlone ht1).of_some e7
      · exact ht1.fin
end Sys2Proof.Machine
end

section
/-! What the model's `TapeEdit` part leaves `Steady`. -/
namespace Sys2Proof.Machine
variable {κ : Option (List Instr × Hem)}

theorem Steady.putChainEnt {s : State} {x page slot : ℕ} {i : VecItem} (hs : Steady κ s) : Steady κ (Machine.putChainEnt s x page slot i) :=
  hs.vecWrite

theorem Steady.setUsed {s : State} {x page n : ℕ} (hs : Steady κ s) : Steady κ (Machine.setUsed s x page n) :=
  hs.vecWrite

theorem Steady.appendItem {s : State} {x l : ℕ} {i : VecItem} (hs : Steady κ s) : OptKeeps κ (fun t => t) (Machine.appendItem s x l i) := by
  unfold Machine.appendItem
  extract_lets e last used
  clear_value last
  revert last
  refine id fun last => ?_
  extract_lets used
  split
  · refine OptKeeps.ite (.some (Steady.setUsed (Steady.putChainEnt hs))) (OptKeeps.mapAny fun q => ?_)
    exact hs.vecWrite.putChainEnt.vecWrite
  · refine OptKeeps.mapAny fun q => ?_
    exact hs.vecWrite.putChainEnt.setVecEnt

theorem Steady.noteMerge {s : State} {x l : ℕ} (hs : Steady κ s) : Steady κ (Machine.noteMerge s x l) :=
  Steady.ite hs (Steady.ite hs.setTape hs)

theorem Steady.readRecord {s : State} {c : EngCtx} {a cb : ℕ} (hs : Steady κ s) : Steady κ (Machine.readRecord s c a cb).2.2.2 :=
  hs.engRead

theorem Steady.insertGo {x : ℕ} {c : EngCtx} {b : Bytes} {y : List ℕ} {z w u : ℕ} {v : State} (hv : Steady κ v) : Steady κ
    (Machine.insertGo x c b y z w u v).2.2.2.2 := by
  unfold Machine.insertGo
  split
  · exact hv
  · extract_lets y s l st
    have hy : Steady κ y.2.2.2 := hv.readRecord
    have hs : Steady κ s := hy
    split
    · exact hs
    · split
      · exact hs.insertGo
      · split
        · exact hs.insertGo
        · split
          · exact hs
          · rename_i e7
            exact ((hs.appendItem.of_some e7).noteMerge).insertGo

theorem Steady.tombPositions {s : State} {x l : ℕ} {ps : List ℕ} (hs : Steady κ s) : OptKeeps κ (fun t => t) (Machine.tombPositions s x l ps) :=
  OptKeeps.ite (OptKeeps.some hs) (OptKeeps.mapAny (fun _ => ((Steady.ite hs hs.wipePages).forS (fun _ _ hs1 => hs1.vecWrite)).setVecEnt))

theorem Steady.deleteOne {s : State} {x l id : ℕ} (hs : Steady κ s) : OptKeeps κ (·.2) (Machine.deleteOne s x l id) :=
  (((hs.forS (fun _ _ hs1 => hs1.touch)).forS (fun _ _ hs1 => hs1.vecWrite)).tombPositions).map (fun _ hs1 => hs1.noteMerge)

theorem Steady.deleteGo {x : ℕ} {rs : List (ℕ × ℕ × ℕ)} {n m : ℕ} {z : State} (hz : Steady κ z) : Steady κ (Machine.deleteGo x rs n m z).2.2.2 := by
  unfold Machine.deleteGo
  refine Steady.foldl222 ?_ (fun _ _ hs1 => ?_)
  · exact hz
  · split
    · exact hs1
    · split
      · exact hs1
      · split
        · exact hs1
        · split
          · exact hs1
          · split
            · exact hs1
            · rename_i e8
              exact hs1.deleteOne.of_some e8
            · rename_i e8
              exact hs1.deleteOne.of_some e8

theorem Steady.deleteRecords {s : State} {c : EngCtx} {b : Bytes} (hs : Steady κ s) : Steady κ (Machine.deleteRecords s c b).2 :=
  hs.foldMapS fun _ _ hs1 => hs1.engRead

theorem Steady.beginVersion {s : State} {x l lane : ℕ} {items : List VecItem} {load : Option DescRef} (hs : Steady κ s) : OptKeeps κ (fun t => t)
    (Machine.beginVersion s x l lane items load) := by
  unfold Machine.beginVersion
  extract_lets e n
  split
  · exact OptKeeps.none
  · split
    · exact OptKeeps.none
    · rename_i e4
      exact OptKeeps.some ((((hs.placeRun.of_some e4).writeVersion).setTape).setVecEnt)

theorem Steady.loadItems {s : State} {c : EngCtx} {b : Bytes} {cb : ℕ} (hs : Steady κ s) : Steady κ (Machine.loadItems s c b cb).2.2 :=
  hs.foldMapS fun _ _ hs1 => hs1.readRecord

theorem Steady.freeNode {s : State} {x n : ℕ} (hs : Steady κ s) : Steady κ (Machine.freeNode s x n) :=
  hs.freeRun.wipePages.setVecEnt.setVecNode

theorem Steady.graphMerge {s : State} {x : ℕ} (hs : Steady κ s) : Steady κ (Machine.graphMerge s x) :=
  ((hs.forS (fun _ _ hs1 => Steady.ite hs1 hs1.setVecNode)).forS (fun _ _ hs1 => hs1.freeNode)).setTape

theorem Steady.graphEdit {s : State} {d : DescRef} {op : ℕ} {env : List Reply} {run : State → EngCtx → ℕ → Bytes → ℕ → ℕ → VecNode → Ran × State}
    (hs : Steady κ s) (hrun : ∀ x1 x2 x3 x4 x5 x6 x7, Steady κ x1 → Steady κ (run x1 x2 x3 x4 x5 x6 x7).2) : Steady κ
    (Machine.graphEdit s d op env run) := by
  unfold Machine.graphEdit
  split
  · exact hs
  · exact Steady.ite hs (hs.tapeReady ((fun _ _ => Steady.ite hs.vecViolation.denyDesc (Steady.ite hs.denyDesc (hs.runDesc (fun _ hs2 => hrun _ _ _ _ _ _ _ hs2))))))

theorem Steady.retireNode {s : State} {_c : EngCtx} {x : ℕ} {_b : Bytes} {n gen : ℕ} {v : VecNode} (hs : Steady κ s) : Steady κ
    (Machine.retireNode s _c x _b n gen v).2 := by
  unfold Machine.retireNode
  exact Steady.ite2 hs (Steady.ite2 hs hs.setVecNode)

theorem Steady.addNode {s : State} {c : EngCtx} {x : ℕ} {b : Bytes} {n gen : ℕ} {v : VecNode} (hs : Steady κ s) : Steady κ (Machine.addNode s c x b n gen v).2 := by
  unfold Machine.addNode
  exact Steady.ite2 hs (Steady.ite2 hs.engRead hs.engRead.vecWrite.setVecNode)

theorem Steady.linkNode {s : State} {c : EngCtx} {x : ℕ} {b : Bytes} {n gen : ℕ} {v : VecNode} (hs : Steady κ s) : Steady κ (Machine.linkNode s c x b n gen v).2 := by
  unfold Machine.linkNode
  exact Steady.ite2 hs (Steady.ite2 hs.engRead hs.engRead.setVecNode)

theorem Steady.execInsert {d : DescRef} {env : List Reply} {s : State} (hs : Steady κ s) : Res.Keeps κ (Machine.execInsert d env s) :=
  Res.Keeps.next (hs.tapeReady ((fun _ _ => Steady.ite hs.vecViolation.denyDesc (hs.runDesc (fun _ hs1 => hs1.insertGo.bumpBy)))))

theorem Steady.execDelete {d : DescRef} {env : List Reply} {s : State} (hs : Steady κ s) : Res.Keeps κ (Machine.execDelete d env s) := by
  refine .next (hs.tapeReady fun y x => ?_)
  extract_lets c r z' off st rc
  have hr : Steady κ r.2 := hs.deleteRecords
  split
  · exact hs.vecViolation.denyDesc
  · split
    · rename_i e
      exact (hs.stopped hr).of_some e
    · split
      · exact hs
      · exact hs.runDesc fun t ht => hr.deleteGo.bumpBy

theorem Steady.execListLoad {d : DescRef} {env : List Reply} {s : State} (hs : Steady κ s) : Res.Keeps κ (Machine.execListLoad d env s) := by
  unfold Machine.execListLoad
  refine Res.Keeps.next ?_
  refine Steady.tapeReady hs (fun _ _ => ?_)
  extract_lets b c l e lane r
  have hr : Steady κ r.2.2 := hs.loadItems
  split
  · exact hs.vecViolation.denyDesc
  · split
    · exact hs
    · split
      · exact hs.denyDesc
      · split
        · rename_i e9
          exact (hs.stopped hr).of_some e9
        · split
          · exact hr.denyDesc
          · split
            · exact hr.bump.denyDesc
            · rename_i e11
              split
              · exact hr.beginVersion.of_some e11
              · exact ((hr.beginVersion.of_some e11).setDesc).fin

theorem Steady.execAreaLoad {d : DescRef} {env : List Reply} {s : State} (hs : Steady κ s) : Res.Keeps κ (Machine.execAreaLoad d env s) := by
  refine .next (hs.tapeReady fun y x => ?_)
  extract_lets b c a z off
  split
  · exact hs.vecViolation.denyDesc
  · split
    · exact hs
    · refine hs.runDesc fun t ht => ?_
      extract_lets r st d'
      have hr : Steady κ r.2 := ht.foldMapS fun _ _ h => h.engRead
      split
      · exact hr
      · split
        · exact hr
        · exact hr.vecWrite

theorem Steady.execMerge {d : DescRef} {s : State} (hs : Steady κ s) : Res.Keeps κ (Machine.execMerge d s) := by
  unfold Machine.execMerge
  refine Res.Keeps.next ?_
  refine Steady.tapeReady hs (fun _ _ => ?_)
  extract_lets b c l f __src s1
  have hf : Steady κ f.2 := hs.graphMerge.freshFree
  have hs1 : Steady κ s1 := Steady.ite hs hs.setTape
  split
  · exact hs.vecViolation.denyDesc
  · split
    · exact Steady.ite hs hf.denyDesc
    · split
      · exact hs1
      · exact hs1.setDesc.fin

theorem Steady.execMergeStart {engine : ℕ} {s : State} (hs : Steady κ s) : Res.Keeps κ (Machine.execMergeStart engine s) := by
  unfold Machine.execMergeStart
  refine Res.Keeps.next ?_
  split
  · exact hs
  · split
    · exact hs
    · split
      · exact hs.bump.setTape
      · rename_i e6
        exact ((hs.beginVersion.of_some e6).setTape).fin

theorem Steady.execMergeSwap {index list : ℕ} {s : State} (hs : Steady κ s) : Res.Keeps κ (Machine.execMergeSwap index list s) := by
  unfold Machine.execMergeSwap
  refine Res.Keeps.next ?_
  split
  · exact hs
  · extract_lets e v f __src s1 empty s2 s3 r
    have hs1 : Steady κ s1 := hs.setTape
    have hs2 : Steady κ s2 := hs1.setVecEnt
    have hs3 : Steady κ s3 := hs2.noteMerge
    split
    · exact hs3.endDesc.fin
    · exact (hs3.bump.forS (fun _ _ hs6 => hs6.endDesc)).fin

theorem Steady.execMergeFree {index list : ℕ} {s : State} (hs : Steady κ s) : Res.Keeps κ (Machine.execMergeFree index list s) := by
  unfold Machine.execMergeFree
  refine Res.Keeps.next ?_
  split
  · exact hs
  · exact hs.freeVersion

theorem Steady.execGraphRetire {d : DescRef} {s : State} (hs : Steady κ s) : Res.Keeps κ (Machine.execGraphRetire d s) :=
  Res.Keeps.next (hs.graphEdit (fun _ _ _ _ _ _ _ hs1 => hs1.retireNode))

theorem Steady.execGraphAdd {d : DescRef} {env : List Reply} {s : State} (hs : Steady κ s) : Res.Keeps κ (Machine.execGraphAdd d env s) :=
  Res.Keeps.next (hs.graphEdit (fun _ _ _ _ _ _ _ hs1 => hs1.addNode))

theorem Steady.execGraphLink {d : DescRef} {env : List Reply} {s : State} (hs : Steady κ s) : Res.Keeps κ (Machine.execGraphLink d env s) :=
  Res.Keeps.next (hs.graphEdit (fun _ _ _ _ _ _ _ hs1 => hs1.linkNode))
end Sys2Proof.Machine
end

section
/-! What the model's `FanOut` part leaves `Steady`. -/
namespace Sys2Proof.Machine
variable {κ : Option (List Instr × Hem)}

theorem Steady.membersIn {s : State} {d : DescRef} {x : Desc} {env : List Reply} (hs : Steady κ s) : Steady κ (Machine.membersIn s d x env) :=
  Steady.ite hs (Steady.ite hs.finishRows (Steady.ite (Steady.ite hs.finishSearch hs) hs.tryComplete.fin))

theorem Steady.missMembers {s : State} {d : DescRef} {x : Desc} {index sub : ℕ} (hs : Steady κ s) : Steady κ (Machine.missMembers s d x index sub) :=
  hs.bump.setDesc.membersIn

theorem Steady.acceptShare {s : State} {m : FanMsg} (hs : Steady κ s) : Steady κ (Machine.acceptShare s m) :=
  hs.acceptDesc

theorem Steady.acceptHeldShares {s : State} {b : Blk} (hs : Steady κ s) : Steady κ (Machine.acceptHeldShares s b) :=
  hs.same.forS (fun _ _ hs1 => hs1.acceptShare)

theorem Steady.execMemberReport {d : DescRef} {m : MemberMsg} {s : State} (hs : Steady κ s) : Res.Keeps κ (Machine.execMemberReport d m s) := by
  unfold Machine.execMemberReport
  refine Res.Keeps.next ?_
  split
  · exact hs
  · exact Steady.ite hs hs.setDesc.membersIn

theorem Steady.execMemberMissingTimeout {d : DescRef} {s : State} (hs : Steady κ s) : Res.Keeps κ (Machine.execMemberMissingTimeout d s) := by
  unfold Machine.execMemberMissingTimeout
  refine Res.Keeps.next ?_
  split
  · exact hs
  · exact Steady.ite hs hs.missMembers

theorem Steady.execTapeMemberTimeout {d : DescRef} {s : State} (hs : Steady κ s) : Res.Keeps κ (Machine.execTapeMemberTimeout d s) := by
  unfold Machine.execTapeMemberTimeout
  refine Res.Keeps.next ?_
  split
  · exact hs
  · exact Steady.ite hs hs.missMembers

theorem Steady.runShare {s : State} {d : DescRef} {op : ℕ} {env : List Reply} (hs : Steady κ s) : Res.Keeps κ (Machine.runShare s d op env) := by
  unfold Machine.runShare
  split
  · exact hs.execLookup
  · exact hs.execTabLoad
  · exact hs.execRefreshHot
  · exact hs.execStepOpen
  · exact hs.execAccumulate
  · exact hs.execSeal
  · exact hs.execStepDiscard
  · exact hs.execSearch
  · exact Res.Keeps.next hs

theorem Steady.execFanoutReceive {m : FanMsg} {env : List Reply} {s : State} (hs : Steady κ s) : Res.Keeps κ (Machine.execFanoutReceive m env s) :=
  Res.Keeps.ite (Res.Keeps.next hs) (Res.Keeps.ite (Res.Keeps.next hs.same) hs.acceptShare.runShare)
end Sys2Proof.Machine
end

section
/-! What the model's `TdCore` part leaves `Steady`. -/
namespace Sys2Proof.Machine
variable {κ : Option (List Instr × Hem)}

theorem Steady.setTd {s : State} {t : TdState} (hs : Steady κ s) : Steady κ (Machine.setTd s t) :=
  hs.same

theorem Steady.setArray {s : State} {a : ℕ} {x : TdArray} (hs : Steady κ s) : Steady κ (Machine.setArray s a x) :=
  hs.setTd

theorem Steady.setLaunch {s : State} {l : Launch} (hs : Steady κ s) : Steady κ (Machine.setLaunch s l) :=
  hs.setTd

theorem Steady.freeBytes {s : State} {n : ℕ} (hs : Steady κ s) : Steady κ (Machine.freeBytes s n).2 :=
  hs.same

theorem Steady.tdGetAt {s : State} {cid a : ℕ} {racing : List TdLoc} {l : TdLoc} (hs : Steady κ s) : Steady κ (Machine.tdGetAt s cid a racing l).2.2 := by
  unfold Machine.tdGetAt
  exact Steady.ite22 hs.violation (Steady.ite22 hs.freeBytes hs)

theorem Steady.tdGet {s : State} {j : TdJob} {l : TdLoc} (hs : Steady κ s) : Steady κ (Machine.tdGet s j l).2.2 :=
  hs.tdGetAt

theorem Steady.tdPut {s : State} {j : TdJob} {l : TdLoc} {d : Bytes} {poison : Bool} (hs : Steady κ s) : Steady κ (Machine.tdPut s j l d poison) :=
  (Steady.ite hs.same hs).setArray

theorem Steady.setRun {s : State} {d : DescRef} {p : ℕ} {r : PartRun} (hs : Steady κ s) : Steady κ (Machine.setRun s d p r) := by
  unfold Machine.setRun
  split
  · exact hs.setLaunch
  · exact hs

theorem Steady.jobDone {s : State} {j : TdJob} (hs : Steady κ s) : Steady κ (Machine.jobDone s j) :=
  hs.setRun.bump

theorem Steady.settleStores {s : State} {d : DescRef} {p : ℕ} (hs : Steady κ s) : Steady κ (Machine.settleStores s d p) := by
  unfold Machine.settleStores
  split
  · exact hs
  · split
    · exact hs
    · exact hs.setRun

theorem Steady.launchStatus {s : State} {d : DescRef} {st : ℕ} (hs : Steady κ s) : Steady κ (Machine.launchStatus s d st) := by
  unfold Machine.launchStatus
  split
  · exact hs.setDesc
  · exact hs

theorem Steady.tdStep {s : State} {a cls op : ℕ} {f : State → TdJob → Bool × State} {ended : State → TdJob → ℕ → State} (hs : Steady κ s)
    (hf : ∀ x1 x2, Steady κ x1 → Steady κ (f x1 x2).2) (hended : ∀ x1 x2 x3, Steady κ x1 → Steady κ (ended x1 x2 x3)) : Steady κ
    (Machine.tdStep s a cls op f ended) := by
  unfold Machine.tdStep
  split
  · exact hs
  next l0 p0 z hp =>
    extract_lets s1
    have h1 : Steady κ s1 := hs.settleStores
    split
    · exact h1
    next j hj =>
      split
      · exact h1
      next x hx =>
        extract_lets y go s2
        have hgo : Steady κ (go ()) := by
          unfold go
          have hy : Steady κ y.2 := hf _ _ h1
          split
          next t ht =>
            have ht : Steady κ t := (h1.stopped hy).of_some ht
            split
            · exact ht.setDesc
            · exact ht
          · exact Steady.fin (Steady.ite hy.jobDone.unstall hy)
        refine Steady.ite hgo (Steady.ite h1 ?_)
        split
        · exact hgo
        · exact Steady.ite h1 (Steady.fin (Steady.jobDone (hended _ _ _ h1.setDesc)))

theorem Steady.tileOnce {s0 s : State} {b : Option ℕ} {q : ℕ} (hs0 : Steady κ s0) (hs : Steady κ s) : Steady κ (Machine.tileOnce s0 s b q) := by
  unfold Machine.tileOnce
  split
  · exact hs
  · exact Steady.ite hs hs.setBolt

theorem Steady.tdPlain {s : State} {a cls op : ℕ} {f : State → TdJob → Bool × State} (hs : Steady κ s) (hf : ∀ x1 x2, Steady κ x1 → Steady κ
    (f x1 x2).2) : Res.Keeps κ (Machine.tdPlain s a cls op f) :=
  Res.Keeps.next (hs.tdStep (fun _ _ hs1 => hf _ _ hs1) (fun _ _ _ hs1 => hs1))

theorem Steady.execTdStart {w : Writer} {s : State} (hs : Steady κ s) : Res.Keeps κ (Machine.execTdStart w s) :=
  Steady.endWrite hs.writeBlkCmd

theorem Steady.execTdStop {w : Writer} {s : State} (hs : Steady κ s) : Res.Keeps κ (Machine.execTdStop w s) :=
  Steady.endWrite hs.writeBlkCmd

theorem Steady.execTdStopEnd {s : State} (hs : Steady κ s) : Res.Keeps κ (Machine.execTdStopEnd s) :=
  Res.Keeps.next hs.blkStopEnd
end Sys2Proof.Machine
end

section
/-! What the model's `TdInstr` part leaves `Steady`. -/
namespace Sys2Proof.Machine
variable {κ : Option (List Instr × Hem)}

theorem Steady.tdGets {s : State} {j : TdJob} {ls : List TdLoc} (hs : Steady κ s) : Steady κ (Machine.tdGets s j ls).2.2 :=
  hs.foldMapS fun _ _ hs1 => hs1.tdGet

theorem Steady.tdLoad {env : List Reply} {s : State} {j : TdJob} (hs : Steady κ s) : Steady κ (Machine.tdLoad env s j).2 := by
  unfold Machine.tdLoad
  exact Steady.ite2 hs.tdPut.launchStatus (((hs.tileOnce (hs.foldMapS fun _ _ hs1 => hs1.engChunks)).tdPut).launchStatus)

theorem Steady.tdLoadEnded {s : State} {j : TdJob} {x : ℕ} (hs : Steady κ s) : Steady κ (Machine.tdLoadEnded s j x) :=
  hs.tdPut

theorem Steady.tdStore {s : State} {j : TdJob} (hs : Steady κ s) : Steady κ (Machine.tdStore s j).2 := by
  unfold Machine.tdStore
  exact Steady.ite2 hs.launchStatus (hs.tileOnce (hs.tdGet.foldl1 fun _ _ hs1 => hs1.engWriteGo))

theorem Steady.tdMma {zero : Bool} {s : State} {j : TdJob} (hs : Steady κ s) : Steady κ (Machine.tdMma zero s j).2 := by
  unfold Machine.tdMma
  extract_lets v mx bank x b r
  have hx : Steady κ x.2.2 := hs.tdGets
  have hb : Steady κ b.2.2 := Steady.ite22 hx hx.tdGet
  exact hb.tdPut.bump

theorem Steady.tdAccZero {s : State} {j : TdJob} (hs : Steady κ s) : Steady κ (Machine.tdAccZero s j).2 :=
  hs.tdPut

theorem Steady.tdAccCopy {s : State} {j : TdJob} (hs : Steady κ s) : Steady κ (Machine.tdAccCopy s j).2 :=
  hs.tdGet.tdPut

theorem Steady.tdAccAdd {s : State} {j : TdJob} (hs : Steady κ s) : Steady κ (Machine.tdAccAdd s j).2 :=
  hs.tdGets.tdPut

theorem Steady.tdAccLoad {s : State} {j : TdJob} (hs : Steady κ s) : Steady κ (Machine.tdAccLoad s j).2 :=
  hs.tdGets.tdPut

theorem Steady.tdPeer {s : State} {j : TdJob} {p : ℕ} (hs : Steady κ s) : Steady κ (Machine.tdPeer s j p).2.2 := by
  unfold Machine.tdPeer
  split
  · exact hs
  · split
    · exact hs
    · exact hs.tdGetAt

theorem Steady.tdPull {ps : List ℕ} {s : State} {j : TdJob} (hs : Steady κ s) : Steady κ (Machine.tdPull ps s j) := by
  unfold Machine.tdPull
  exact Steady.tdPut (Steady.foldl22 hs.tdGet fun r p hr => hr.tdPeer)

theorem Steady.tdAccPull {s : State} {j : TdJob} (hs : Steady κ s) : Steady κ (Machine.tdAccPull s j).2 :=
  hs.tdPull

theorem Steady.countV {s : State} {j : TdJob} (hs : Steady κ s) : Steady κ (Machine.countV s j) := by
  unfold Machine.countV
  extract_lets s1 s2
  have hs1 : Steady κ s1 := hs.bump
  have hs2 : Steady κ s2 := by
    dsimp only [s2]
    split
    · exact hs1.setLaunch
    · exact hs1
  split
  · exact hs2
  · exact hs2.runBump
  · exact hs2.bump.runBump

theorem Steady.tdAccPullAny {arrivals : List ℕ} {s : State} {j : TdJob} (hs : Steady κ s) : Steady κ (Machine.tdAccPullAny arrivals s j).2 :=
  Steady.ite hs.tdPull.countV hs.tdPull

theorem Steady.tdMapBank {f : ℕ → ℕ → ℕ → ℕ} {s : State} {j : TdJob} (hs : Steady κ s) : Steady κ (Machine.tdMapBank f s j).2 :=
  hs.tdGet.tdPut

theorem Steady.tdMapVec {f : ℕ → ℕ → ℕ → (ℕ → ℕ) → ℕ} {s : State} {j : TdJob} (hs : Steady κ s) : Steady κ (Machine.tdMapVec f s j).2 :=
  hs.tdGets.tdPut

theorem Steady.tdReduce {sum : Bool} {s : State} {j : TdJob} (hs : Steady κ s) : Steady κ (Machine.tdReduce sum s j).2 :=
  hs.tdGet.same.tdPut

theorem Steady.tdVload {s : State} {j : TdJob} (hs : Steady κ s) : Steady κ (Machine.tdVload s j).2 :=
  hs.tdGets.tdPut

theorem Steady.tdCvt {s : State} {j : TdJob} (hs : Steady κ s) : Steady κ (Machine.tdCvt s j).2 := by
  unfold Machine.tdCvt
  exact Steady.ite2 hs.tdGet.tdPut.tdPut (Steady.ite hs.tdGet.same.tdPut.tdPut hs.tdGet.same.tdPut)

theorem Steady.tdWaitLocal {s : State} {j : TdJob} (hs : Steady κ s) : Steady κ (Machine.tdWaitLocal s j).2 :=
  hs

theorem Steady.tdWaitLaunch {s : State} {j : TdJob} (hs : Steady κ s) : Steady κ (Machine.tdWaitLaunch s j).2 := by
  unfold Machine.tdWaitLaunch
  split
  · exact hs
  · exact hs

theorem Steady.tdWaitMem {env : List Reply} {s : State} {j : TdJob} (hs : Steady κ s) : Steady κ (Machine.tdWaitMem env s j).2 := by
  unfold Machine.tdWaitMem
  exact Steady.ite2 hs.launchStatus hs.engReadNat.launchStatus

theorem Steady.tdSignalLaunch {s : State} {j : TdJob} (hs : Steady κ s) : Steady κ (Machine.tdSignalLaunch s j).2 := by
  unfold Machine.tdSignalLaunch
  split
  · exact hs.setLaunch
  · exact hs

theorem Steady.tdSignalMem {add : Bool} {s : State} {j : TdJob} (hs : Steady κ s) : Steady κ (Machine.tdSignalMem add s j).2 := by
  unfold Machine.tdSignalMem
  exact Steady.ite2 hs (Steady.ite2 hs.launchStatus (Steady.ite2 hs.engOp hs.engWrite))

theorem Steady.tdNothing {s : State} {x : TdJob} {y : ℕ} (hs : Steady κ s) : Steady κ (Machine.tdNothing s x y) :=
  hs

theorem Steady.execTdLoadTile {array : ℕ} {env : List Reply} {s : State} (hs : Steady κ s) : Res.Keeps κ (Machine.execTdLoadTile array env s) :=
  Res.Keeps.next (hs.tdStep (fun _ _ hs1 => hs1.tdLoad) (fun _ _ _ hs1 => hs1.tdLoadEnded))

theorem Steady.execTdLoadScale {array : ℕ} {env : List Reply} {s : State} (hs : Steady κ s) : Res.Keeps κ (Machine.execTdLoadScale array env s) :=
  Res.Keeps.next (hs.tdStep (fun _ _ hs1 => hs1.tdLoad) (fun _ _ _ hs1 => hs1.tdLoadEnded))

theorem Steady.execTdMma {array : ℕ} {s : State} (hs : Steady κ s) : Res.Keeps κ (Machine.execTdMma array s) :=
  hs.tdPlain (fun _ _ hs1 => hs1.tdMma)

theorem Steady.execTdMmaZero {array : ℕ} {s : State} (hs : Steady κ s) : Res.Keeps κ (Machine.execTdMmaZero array s) :=
  hs.tdPlain (fun _ _ hs1 => hs1.tdMma)

theorem Steady.execTdAccZero {array : ℕ} {s : State} (hs : Steady κ s) : Res.Keeps κ (Machine.execTdAccZero array s) :=
  hs.tdPlain (fun _ _ hs1 => hs1.tdAccZero)

theorem Steady.execTdAccCopy {array : ℕ} {s : State} (hs : Steady κ s) : Res.Keeps κ (Machine.execTdAccCopy array s) :=
  hs.tdPlain (fun _ _ hs1 => hs1.tdAccCopy)

theorem Steady.execTdAccAdd {array : ℕ} {s : State} (hs : Steady κ s) : Res.Keeps κ (Machine.execTdAccAdd array s) :=
  hs.tdPlain (fun _ _ hs1 => hs1.tdAccAdd)

theorem Steady.execTdAccLoad {array : ℕ} {s : State} (hs : Steady κ s) : Res.Keeps κ (Machine.execTdAccLoad array s) :=
  hs.tdPlain (fun _ _ hs1 => hs1.tdAccLoad)

theorem Steady.execTdPull {array : ℕ} {s : State} (hs : Steady κ s) : Res.Keeps κ (Machine.execTdPull array s) :=
  hs.tdPlain (fun _ _ hs1 => hs1.tdAccPull)

theorem Steady.execTdPullAny {array : ℕ} {arrivals : List ℕ} {s : State} (hs : Steady κ s) : Res.Keeps κ (Machine.execTdPullAny array arrivals s) :=
  hs.tdPlain (fun _ _ hs1 => hs1.tdAccPullAny)

theorem Steady.execTdCvt {array : ℕ} {s : State} (hs : Steady κ s) : Res.Keeps κ (Machine.execTdCvt array s) :=
  hs.tdPlain (fun _ _ hs1 => hs1.tdCvt)

theorem Steady.execTdMuls {array : ℕ} {s : State} (hs : Steady κ s) : Res.Keeps κ (Machine.execTdMuls array s) :=
  hs.tdPlain (fun _ _ hs1 => hs1.tdMapBank)

theorem Steady.execTdAdds {array : ℕ} {s : State} (hs : Steady κ s) : Res.Keeps κ (Machine.execTdAdds array s) :=
  hs.tdPlain (fun _ _ hs1 => hs1.tdMapBank)

theorem Steady.execTdRelu {array : ℕ} {s : State} (hs : Steady κ s) : Res.Keeps κ (Machine.execTdRelu array s) :=
  hs.tdPlain (fun _ _ hs1 => hs1.tdMapBank)

theorem Steady.execTdGelu {array : ℕ} {s : State} (hs : Steady κ s) : Res.Keeps κ (Machine.execTdGelu array s) :=
  hs.tdPlain (fun _ _ hs1 => hs1.tdMapBank)

theorem Steady.execTdExp {array : ℕ} {s : State} (hs : Steady κ s) : Res.Keeps κ (Machine.execTdExp array s) :=
  hs.tdPlain (fun _ _ hs1 => hs1.tdMapBank)

theorem Steady.execTdRmax {array : ℕ} {s : State} (hs : Steady κ s) : Res.Keeps κ (Machine.execTdRmax array s) :=
  hs.tdPlain (fun _ _ hs1 => hs1.tdReduce)

theorem Steady.execTdRsum {array : ℕ} {s : State} (hs : Steady κ s) : Res.Keeps κ (Machine.execTdRsum array s) :=
  hs.tdPlain (fun _ _ hs1 => hs1.tdReduce)

theorem Steady.execTdSubr {array : ℕ} {s : State} (hs : Steady κ s) : Res.Keeps κ (Machine.execTdSubr array s) :=
  hs.tdPlain (fun _ _ hs1 => hs1.tdMapVec)

theorem Steady.execTdDivr {array : ℕ} {s : State} (hs : Steady κ s) : Res.Keeps κ (Machine.execTdDivr array s) :=
  hs.tdPlain (fun _ _ hs1 => hs1.tdMapVec)

theorem Steady.execTdAddv {array : ℕ} {s : State} (hs : Steady κ s) : Res.Keeps κ (Machine.execTdAddv array s) :=
  hs.tdPlain (fun _ _ hs1 => hs1.tdMapVec)

theorem Steady.execTdMulv {array : ℕ} {s : State} (hs : Steady κ s) : Res.Keeps κ (Machine.execTdMulv array s) :=
  hs.tdPlain (fun _ _ hs1 => hs1.tdMapVec)

theorem Steady.execTdVload {array : ℕ} {s : State} (hs : Steady κ s) : Res.Keeps κ (Machine.execTdVload array s) :=
  hs.tdPlain (fun _ _ hs1 => hs1.tdVload)

theorem Steady.execTdItof {array : ℕ} {s : State} (hs : Steady κ s) : Res.Keeps κ (Machine.execTdItof array s) :=
  hs.tdPlain (fun _ _ hs1 => hs1.tdMapBank)

theorem Steady.execTdStoreTile {array : ℕ} {s : State} (hs : Steady κ s) : Res.Keeps κ (Machine.execTdStoreTile array s) :=
  Res.Keeps.next (hs.tdStep (fun _ _ hs1 => hs1.tdStore) (fun _ _ _ hs1 => hs1.tdNothing))

theorem Steady.execTdStoreScale {array : ℕ} {s : State} (hs : Steady κ s) : Res.Keeps κ (Machine.execTdStoreScale array s) :=
  Res.Keeps.next (hs.tdStep (fun _ _ hs1 => hs1.tdStore) (fun _ _ _ hs1 => hs1.tdNothing))

theorem Steady.execTdWaitLocal {array : ℕ} {s : State} (hs : Steady κ s) : Res.Keeps κ (Machine.execTdWaitLocal array s) :=
  hs.tdPlain (fun _ _ hs1 => hs1.tdWaitLocal)

theorem Steady.execTdWaitLaunch {array : ℕ} {s : State} (hs : Steady κ s) : Res.Keeps κ (Machine.execTdWaitLaunch array s) :=
  hs.tdPlain (fun _ _ hs1 => hs1.tdWaitLaunch)

theorem Steady.execTdWaitMem {array : ℕ} {env : List Reply} {s : State} (hs : Steady κ s) : Res.Keeps κ (Machine.execTdWaitMem array env s) :=
  Res.Keeps.next (hs.tdStep (fun _ _ hs1 => hs1.tdWaitMem) (fun _ _ _ hs1 => hs1.tdNothing))

theorem Steady.execTdSignalLaunch {array : ℕ} {s : State} (hs : Steady κ s) : Res.Keeps κ (Machine.execTdSignalLaunch array s) :=
  hs.tdPlain (fun _ _ hs1 => hs1.tdSignalLaunch)

theorem Steady.execTdSignalStore {array : ℕ} {s : State} (hs : Steady κ s) : Res.Keeps κ (Machine.execTdSignalStore array s) :=
  Res.Keeps.next (hs.tdStep (fun _ _ hs1 => hs1.tdSignalMem) (fun _ _ _ hs1 => hs1.tdNothing))

theorem Steady.execTdSignalAdd {array : ℕ} {s : State} (hs : Steady κ s) : Res.Keeps κ (Machine.execTdSignalAdd array s) :=
  Res.Keeps.next (hs.tdStep (fun _ _ hs1 => hs1.tdSignalMem) (fun _ _ _ hs1 => hs1.tdNothing))
end Sys2Proof.Machine
end

section
/-! What the model's `TdRun` part leaves `Steady`. -/
namespace Sys2Proof.Machine
variable {κ : Option (List Instr × Hem)}

theorem Steady.readHeader {s : State} {d : DescRef} {b : Bytes} {env : List Reply} (hs : Steady κ s) : Steady κ (Machine.readHeader s d b env).2.2 :=
  hs.engRead

theorem Steady.readPart {s : State} {d : DescRef} {b h : Bytes} {env : List Reply} {a p : ℕ} (hs : Steady κ s) : Steady κ (Machine.readPart s d b h env a p).2.2 :=
  hs.engRead

theorem Steady.loadPart {s : State} {l : Launch} {a p : ℕ} (hs : Steady κ s) : Steady κ (Machine.loadPart s l a p).2 := by
  unfold Machine.loadPart
  extract_lets tag r __src
  split
  · exact hs
  · exact hs.setArray.bump

theorem Steady.dealParts {s : State} {l : Launch} (hs : Steady κ s) : Steady κ (Machine.dealParts s l).2 :=
  hs.foldl2 fun _ _ hs1 => hs1.loadPart

theorem Steady.startLaunch {s : State} {l : Launch} {late : Bool} (hs : Steady κ s) : Steady κ (Machine.startLaunch s l late) :=
  (Steady.ite hs.bump.bump hs.bump).setLaunch

theorem Steady.readyLaunch {s : State} {l : Launch} {b : Bytes} (hs : Steady κ s) : Steady κ (Machine.readyLaunch s l b) :=
  Steady.ite hs.startLaunch (Steady.ite hs.setLaunch hs.startLaunch)

theorem Steady.dropLaunch {s : State} {d : DescRef} (hs : Steady κ s) : Steady κ (Machine.dropLaunch s d) :=
  hs.setTd

theorem Steady.denyLaunch {s : State} {d : DescRef} {r : Ran} (hs : Steady κ s) : Steady κ (Machine.denyLaunch s d r) :=
  hs.dropLaunch.denyDesc

theorem Steady.loadLaunch {s0 s : State} {d : DescRef} {x : Desc} {l : Launch} {h : Bytes} {env : List Reply} (hs0 : Steady κ s0)
    (hs : Steady κ s) : Steady κ (Machine.loadLaunch s0 s d x l h env) := by
  unfold Machine.loadLaunch
  extract_lets c adr addr id sorted tag rd s1 image st s2 y s3
  have hadr : Steady κ adr.2 := hs.engAddr
  have hrd : Steady κ rd.2 := by
    dsimp only [rd]
    refine Steady.foldMapS ?_ (fun _ _ hs2 => ?_)
    · exact hadr
    · split
      · exact hs2
      · exact hs2.readPart
  have hs1 : Steady κ s1 := hrd.unstall
  have hs2 : Steady κ s2 := hs1.launchStatus
  have hy : Steady κ y.2 := hs2.dealParts
  have hs3 : Steady κ s3 := by
    dsimp only [s3]
    split
    · exact hy.setDesc
    · exact hy
  split
  · rename_i e3
    exact (hs0.stopped hrd).of_some e3
  · exact Steady.ite hs2.bump.denyLaunch hs3.readyLaunch.fin

theorem Steady.countCycles {s : State} {d : DescRef} {a : ℕ} (hs : Steady κ s) : Steady κ (Machine.countCycles s d a) := by
  unfold Machine.countCycles
  refine Steady.pbumpBy ?_
  refine Steady.bumpBy ?_
  split
  · exact hs.same.setLaunch
  · exact hs.same

theorem Steady.fenceLaunches {s : State} {p : ℕ} (hs : Steady κ s) : Steady κ (Machine.fenceLaunches s p) :=
  hs.setTd

theorem Steady.execLaunch {d : DescRef} {env : List Reply} {s : State} (hs : Steady κ s) : Res.Keeps κ (Machine.execLaunch d env s) := by
  unfold Machine.execLaunch
  refine Res.Keeps.next ?_
  split
  · exact hs
  · split
    · exact hs
    · split
      · exact hs.denyDesc
      · split
        · exact hs.denyDesc
        · extract_lets h s1
          have hh : Steady κ h.2.2 := hs.readHeader
          have hs1 : Steady κ s1 := hh.unstall
          split
          · rename_i e9
            exact (hs.stopped hh).of_some e9
          · exact Steady.ite hs1.denyDesc hs1.setDesc.fin

theorem Steady.execLaunchPick {d : DescRef} {env : List Reply} {s : State} (hs : Steady κ s) : Res.Keeps κ (Machine.execLaunchPick d env s) := by
  unfold Machine.execLaunchPick
  refine Res.Keeps.next ?_
  split
  · exact hs
  · split
    · exact hs
    · split
      · split
        · exact Steady.ite hs.dealParts.setLaunch hs
        · extract_lets h s1 l s11
          have hh : Steady κ h.2.2 := hs.readHeader
          have hs1 : Steady κ s1 := hh.unstall.launchStatus
          have hs11 : Steady κ s11 := hs1.setLaunch
          split
          · rename_i e9
            exact (hs.stopped hh).of_some e9
          · exact Steady.ite hs1.denyLaunch (Steady.ite hs1.bump.denyLaunch (Steady.ite hs11.fin (hs.loadLaunch hs11)))
      · extract_lets rivals h s1 l __src s11
        have hh : Steady κ h.2.2 := hs.readHeader
        have hs1 : Steady κ s1 := hh.unstall.launchStatus
        have hs11 : Steady κ s11 := hs1.setTd
        split
        · exact hs
        · split
          · rename_i e9
            exact (hs.stopped hh).of_some e9
          · exact Steady.ite hs1.denyDesc (Steady.ite hs1.bump.denyDesc (Steady.ite hs11.fin (hs.loadLaunch hs11)))

theorem Steady.execSyncStartReached {d : DescRef} {s : State} (hs : Steady κ s) : Res.Keeps κ (Machine.execSyncStartReached d s) := by
  unfold Machine.execSyncStartReached
  refine Res.Keeps.next ?_
  split
  · exact Steady.ite hs.startLaunch hs
  · exact hs

theorem Steady.execTdEnd {array : ℕ} {s : State} (hs : Steady κ s) : Res.Keeps κ (Machine.execTdEnd array s) := by
  unfold Machine.execTdEnd
  refine Steady.tdPlain hs (fun _ _ hs1 => ?_)
  split
  · exact hs1
  · extract_lets __src s1 s2
    have hs1 : Steady κ s1 := hs1.setRun
    have hs2 : Steady κ s2 := hs1.countCycles
    split
    · exact hs2.dealParts.setLaunch
    · exact hs2

theorem Steady.execLaunchEnd {d : DescRef} {s : State} (hs : Steady κ s) : Res.Keeps κ (Machine.execLaunchEnd d s) := by
  unfold Machine.execLaunchEnd
  refine Res.Keeps.next ?_
  split
  · exact Steady.ite hs.dropLaunch.endDesc.fin hs
  · exact hs

theorem Steady.execWatchdogExpire {d : DescRef} {s : State} (hs : Steady κ s) : Res.Keeps κ (Machine.execWatchdogExpire d s) := by
  unfold Machine.execWatchdogExpire
  refine Res.Keeps.next ?_
  split
  · exact Steady.ite (((((hs.forS (fun _ _ hs4 => hs4.countCycles)).bump).dropLaunch).endDesc).fin) hs
  · exact hs
end Sys2Proof.Machine
end

section
/-! What the model's `Shuttle` part leaves `Steady`. -/
namespace Sys2Proof.Machine
variable {κ : Option (List Instr × Hem)}

theorem Steady.readFlagged {s : State} {c : EngCtx} {a n : ℕ} (hs : Steady κ s) : Steady κ (Machine.readFlagged s c a n).2 :=
  hs.engChunks

theorem Steady.spanParts {c : EngCtx} {x : ℕ} {y : State} {z w : ℕ} (hy : Steady κ y) : Steady κ (Machine.spanParts c x y z w).2 := by
  unfold Machine.spanParts
  split
  · exact hy
  · split
    · exact hy
    · extract_lets k x y1
      have hx : Steady κ x.2 := hy.engAddr
      have hy1 : Steady κ y1.2 := hx.spanParts
      split
      · exact hx
      · exact hy1

theorem Steady.overlapFree {s : State} {src : List (ℕ × ℕ)} {gfa : ℕ} {d : List (Byte × ℕ)} (hs : Steady κ s) : Steady κ (Machine.overlapFree s src gfa d).2 := by
  unfold Machine.overlapFree
  exact Steady.ite2 hs.same hs

theorem Steady.pieceLines {r : PieceRun} {x : ℕ} {y : State} {z : ℕ} {w : List (Byte × ℕ)} {u : ℕ} (hy : Steady κ y) : Steady κ (Machine.pieceLines r x y z w u).2 := by
  unfold Machine.pieceLines
  split
  · exact hy
  · split
    · exact hy
    · extract_lets k __src x
      have hx : Steady κ x.2 := hy.engAddr
      split
      · exact hx
      · extract_lets o s bad run bytes poison whole y1
        have ho : Steady κ o.2 := hx.overlapFree
        have hs : Steady κ s := ho
        have hy1 : Steady κ y1.2 := by
          dsimp only [y1]
          split
          · exact hs
          · split
            · split
              · split
                · exact hs.setDesc
                · exact hs
              · exact hs
            · exact Steady.ite2 hs.engSubmit hs.engSubmit
        exact hy1.pieceLines

theorem Steady.takeGroup {s : State} {e g : ℕ} (hs : Steady κ s) : Steady κ (Machine.takeGroup s e g) :=
  hs.same

theorem Steady.pieceDone {s : State} {d : DescRef} {p : ℕ} (hs : Steady κ s) : Steady κ (Machine.pieceDone s d p) := by
  unfold Machine.pieceDone
  split
  · exact hs.setDesc
  · exact hs

theorem Steady.endShuttle {s : State} {d : DescRef} (hs : Steady κ s) : Steady κ (Machine.endShuttle s d) := by
  unfold Machine.endShuttle
  split
  · exact hs
  · split
    · exact hs.sendKnots.fin
    · extract_lets s1
      have hs1 : Steady κ s1 := hs.sendKnots.fin
      split
      · exact hs1.endDesc.fin
      · exact hs1

theorem Steady.shStatus {s : State} {d : DescRef} {st : ℕ} (hs : Steady κ s) : Steady κ (Machine.shStatus s d st) := by
  unfold Machine.shStatus
  split
  · exact hs.setDesc
  · exact hs

theorem Steady.openArrival {s : State} {d : DescRef} {x : Desc} {m gfa : ℕ} (hs : Steady κ s) : Steady κ (Machine.openArrival s d x m gfa) :=
  Steady.ite hs.addArrival hs

theorem Steady.runPiece {s : State} {d : DescRef} {x : Desc} {p engine : ℕ} {env : List Reply} (hs : Steady κ s) : Steady κ (Machine.runPiece s d x p engine env) := by
  unfold Machine.runPiece
  dsimp only
  generalize hs1 : Machine.openArrival _ _ _ _ _ = s1
  have h1 : Steady κ s1 := hs1 ▸ hs.openArrival
  generalize hsp : Machine.spanParts _ _ _ _ _ = sp
  have h2 : Steady κ sp.2 := hsp ▸ h1.spanParts
  generalize hd : Machine.readFlagged _ _ _ _ = data
  have hdata : Steady κ data.2 := hd ▸ h2.readFlagged
  generalize ((if (descOp x == 81) = true then x.group.getD (pieceOf x p).1 0 * 2 ^ 48 else 0) + cpDst x.bytes + (pieceOf x p).2 * pieceBytes) = dst
  refine forget (Machine.engAddr data.2 (shCtx s d x.bytes engine (cpDstVa x.bytes) (shDest (pieceOf x p).1 (pieceOf x p).2 0) env)
    (dst + min pieceBytes (cpLen x.bytes - (pieceOf x p).2 * pieceBytes) - 1) true) fun tail ht => ?_
  have htail : Steady κ tail.2 := ht ▸ hdata.engAddr
  rw [ht]
  refine forget (if (cpKnot x.bytes && !(cpKnot x.bytes && noKnotPath tail.2 (tail.1.getD 0))) = true then nextGroup tail.2 engine else none) fun g hg => ?_
  rw [hg]
  clear hg
  refine Steady.pieceDone (Steady.shStatus (Steady.pieceLines ?_))
  have htaken : Steady κ (match g with | some v => Machine.takeGroup tail.2 engine v | none => tail.2) := by
    cases g with
    | none => exact htail
    | some v => exact htail.takeGroup
  refine Steady.ite (Steady.bump ?_) ?_
  · split
    · exact Steady.setDesc htaken
    · exact htaken
  · split
    · exact Steady.setDesc htaken
    · exact htaken

theorem Steady.reduceLines {c : EngCtx} {rop rt x : ℕ} {y : State} {z : ℕ} {w : List (Byte × ℕ)} (hy : Steady κ y) : Steady κ (Machine.reduceLines c rop rt x y z w) := by
  unfold Machine.reduceLines
  split
  · exact hy
  · split
    · exact hy
    · extract_lets k x l
      have hx : Steady κ x.2 := hy.engAddr
      split
      · exact hx
      · exact (Steady.ite hx hx.engSubmit).reduceLines

theorem Steady.runReduce {s : State} {d : DescRef} {x : Desc} {p engine : ℕ} {env : List Reply} (hs : Steady κ s) : Steady κ (Machine.runReduce s d x p engine env) :=
  hs.openArrival.readFlagged.reduceLines.shStatus.pieceDone

theorem Steady.peerEntry {s : State} {c : EngCtx} {b : Bytes} {r : ℕ} (hs : Steady κ s) : Steady κ (Machine.peerEntry s c b r).2.2 :=
  hs.engRead

theorem Steady.stageSend {s : State} {d : DescRef} {x : Desc} {engine : ℕ} {env : List Reply} (hs : Steady κ s) : Steady κ (Machine.stageSend s d x engine env) :=
  (Steady.ite (((((hs.peerEntry.readFlagged.foldMapS fun _ _ hs1 => hs1.readFlagged).shStatus).bump).openArrival).reduceLines)
      ((((((hs.peerEntry.readFlagged.foldMapS fun _ _ hs1 => hs1.readFlagged).shStatus).bump).peerEntry).addArrival).pieceLines)).pieceDone

theorem Steady.writeMcastGroup {s : State} {g : ℕ} {v : Bytes} (hs : Steady κ s) : WriteOut.Keeps κ (Machine.writeMcastGroup s g v) :=
  WriteOut.Keeps.ite hs.refuse (WriteOut.Keeps.ite hs.refuse hs.setArrBlob.applied)

theorem Steady.barStart {s : State} {b : ℕ} (hs : Steady κ s) : WriteOut.Keeps κ (Machine.barStart s b) :=
  WriteOut.Keeps.ite hs.applied (WriteOut.Keeps.ite hs.refuse hs.setBar.setArrNum.applied)

theorem Steady.barStop {s : State} {b : ℕ} (hs : Steady κ s) : Steady κ (Machine.barStop s b) :=
  Steady.ite hs.barAbort.setArrNum hs

theorem Steady.writeBarCmd {s : State} {b : ℕ} {v : Bytes} (hs : Steady κ s) : WriteOut.Keeps κ (Machine.writeBarCmd s b v) := by
  unfold Machine.writeBarCmd
  split
  · exact hs.refuse
  · split
    · exact hs.barStart
    · exact hs.barStop.applied
    · exact WriteOut.Keeps.ite hs.barAbort.applied hs.refuse
    · exact hs.refuse

theorem Steady.writeBarBlob {s : State} {base b : ℕ} {v : Bytes} (hs : Steady κ s) : WriteOut.Keeps κ (Machine.writeBarBlob s base b v) :=
  WriteOut.Keeps.ite hs.refuse (WriteOut.Keeps.ite hs.refuse hs.setArrBlob.applied)

theorem Steady.fenceBarriers {s : State} {p : ℕ} (hs : Steady κ s) : Steady κ (Machine.fenceBarriers s p) :=
  hs.forS (fun _ _ hs1 => Steady.ite hs1.barStop hs1)

theorem Steady.execPieceDeal {d : DescRef} {engine : ℕ} {s : State} (hs : Steady κ s) : Res.Keeps κ (Machine.execPieceDeal d engine s) := by
  unfold Machine.execPieceDeal
  refine Res.Keeps.next ?_
  split
  · exact hs
  · exact Steady.ite hs (Steady.ite hs (Steady.ite hs hs.same.setDesc))

theorem Steady.execCopy {d : DescRef} {piece : ℕ} {env : List Reply} {s : State} (hs : Steady κ s) : Res.Keeps κ (Machine.execCopy d piece env s) := by
  unfold Machine.execCopy
  refine Res.Keeps.next ?_
  split
  · exact hs
  · split
    · exact hs.denyDesc
    · split
      · exact hs
      · exact hs.partDesc ((fun _ hs6 => ((Steady.ite hs6.bump hs6).runPiece).endShuttle))

theorem Steady.execMcast {d : DescRef} {piece : ℕ} {env : List Reply} {s : State} (hs : Steady κ s) : Res.Keeps κ (Machine.execMcast d piece env s) := by
  unfold Machine.execMcast
  refine Res.Keeps.next ?_
  split
  · exact hs
  · split
    · exact hs.denyDesc
    · split
      · exact hs.denyDesc
      · split
        · exact hs
        · exact hs.partDesc ((fun _ hs7 => ((Steady.ite hs7.bump hs7).runPiece).endShuttle))

theorem Steady.execShReduce {d : DescRef} {piece : ℕ} {env : List Reply} {s : State} (hs : Steady κ s) : Res.Keeps κ (Machine.execShReduce d piece env s) := by
  unfold Machine.execShReduce
  refine Res.Keeps.next ?_
  split
  · exact hs
  · split
    · exact hs.denyDesc
    · split
      · exact hs
      · split
        · exact hs.runBump.denyDesc
        · split
          · exact hs
          · exact hs.partDesc ((fun _ hs8 => ((Steady.ite (((Steady.ite hs8.bump hs8).bump).markV) (Steady.ite hs8.bump hs8)).runReduce).endShuttle))

theorem Steady.execShReduceTree {d : DescRef} {env : List Reply} {s : State} (hs : Steady κ s) : Res.Keeps κ (Machine.execShReduceTree d env s) := by
  unfold Machine.execShReduceTree
  refine Res.Keeps.next ?_
  split
  · exact hs
  · split
    · exact hs.denyDesc
    · split
      · exact hs
      · split
        · exact hs
        · exact Steady.ite (hs.partDesc (fun _ hs7 => hs7.bump.stageSend.endShuttle)) hs.bump.setDesc

theorem Steady.execStageCounterReached {d : DescRef} {env : List Reply} {s : State} (hs : Steady κ s) : Res.Keeps κ (Machine.execStageCounterReached d env s) := by
  unfold Machine.execStageCounterReached
  refine Res.Keeps.next ?_
  split
  · exact hs
  · split
    · exact hs
    · exact Steady.ite hs (hs.partDesc (fun _ hs5 => Steady.ite hs5.peerEntry.engReadNat.stageSend.endShuttle hs5.peerEntry.engReadNat))

theorem Steady.execStageWaitTimeout {d : DescRef} {s : State} (hs : Steady κ s) : Res.Keeps κ (Machine.execStageWaitTimeout d s) := by
  unfold Machine.execStageWaitTimeout
  refine Res.Keeps.next ?_
  split
  · exact hs
  · exact Steady.ite hs.denyDesc hs

theorem Steady.execShWait {d : DescRef} {env : List Reply} {s : State} (hs : Steady κ s) : Res.Keeps κ (Machine.execShWait d env s) := by
  unfold Machine.execShWait
  refine Res.Keeps.next ?_
  split
  · exact hs
  · split
    · exact hs.denyDesc
    · split
      · exact hs
      · refine Steady.partDesc hs (fun _ hs6 => ?_)
        extract_lets s1 v s2
        have hs1 : Steady κ s1 := Steady.ite hs6.bump.setDesc hs6.setDesc
        have hv : Steady κ v.2.2 := hs1.engReadNat
        have hs2 : Steady κ s2 := hv
        split
        · exact hs2
        · split
          · exact hs2.endDesc
          · split
            · exact hs2.setDesc
            · exact hs2

theorem Steady.execWaitTimeout {d : DescRef} {s : State} (hs : Steady κ s) : Res.Keeps κ (Machine.execWaitTimeout d s) := by
  unfold Machine.execWaitTimeout
  refine Res.Keeps.next ?_
  split
  · exact hs
  · exact Steady.ite hs.bump.denyDesc hs

theorem Steady.execArrivalAdd {d : DescRef} {dest : ℕ} {s : State} (hs : Steady κ s) : Res.Keeps κ (Machine.execArrivalAdd d dest s) := by
  unfold Machine.execArrivalAdd
  refine Res.Keeps.next ?_
  split
  · exact hs
  · split
    · exact hs
    · exact Steady.ite hs (((Steady.ite hs.setDesc.bump hs.setDesc).submitVia).fin)

theorem Steady.execShStart {w : Writer} {s : State} (hs : Steady κ s) : Res.Keeps κ (Machine.execShStart w s) :=
  Steady.endWrite hs.writeBlkCmd

theorem Steady.execShStop {w : Writer} {s : State} (hs : Steady κ s) : Res.Keeps κ (Machine.execShStop w s) :=
  Steady.endWrite hs.writeBlkCmd

theorem Steady.execShStopEnd {s : State} (hs : Steady κ s) : Res.Keeps κ (Machine.execShStopEnd s) :=
  Res.Keeps.next hs.blkStopEnd

theorem Steady.execMcastGroup {w : Writer} {group : ℕ} {v : Bytes} {s : State} (hs : Steady κ s) : Res.Keeps κ (Machine.execMcastGroup w group v s) :=
  Res.Keeps.ite (Res.Keeps.next hs) (Steady.endWrite hs.writeMcastGroup)

theorem Steady.execBarStart {w : Writer} {barrier : ℕ} {s : State} (hs : Steady κ s) : Res.Keeps κ (Machine.execBarStart w barrier s) :=
  Res.Keeps.ite (Res.Keeps.next hs) (Steady.endWrite hs.writeBarCmd)

theorem Steady.execBarStop {w : Writer} {barrier : ℕ} {s : State} (hs : Steady κ s) : Res.Keeps κ (Machine.execBarStop w barrier s) :=
  Res.Keeps.ite (Res.Keeps.next hs) (Steady.endWrite hs.writeBarCmd)

theorem Steady.execBarAbort {w : Writer} {barrier : ℕ} {s : State} (hs : Steady κ s) : Res.Keeps κ (Machine.execBarAbort w barrier s) :=
  Res.Keeps.ite (Res.Keeps.next hs) (Steady.endWrite hs.writeBarCmd)

theorem Steady.execBarArrive {h : Head} {barrier v : ℕ} {s : State} (hs : Steady κ s) : Res.Keeps κ (Machine.execBarArrive h barrier v s) :=
  Res.Keeps.next hs.cwStore.fin

theorem Steady.execBarTimeout {barrier : ℕ} {s : State} (hs : Steady κ s) : Res.Keeps κ (Machine.execBarTimeout barrier s) :=
  Res.Keeps.next (Steady.ite hs hs.setBar.noteFault.latch)
end Sys2Proof.Machine
end

section
/-! What the model's `Mirror` part leaves `Steady`. -/
namespace Sys2Proof.Machine
variable {κ : Option (List Instr × Hem)}

theorem Steady.takeBind {s : State} {ep unit data : ℕ} (hs : Steady κ s) : Steady κ (Machine.takeBind s ep unit data) := by
  unfold Machine.takeBind
  extract_lets why
  split
  · exact hs.noticeTo
  · exact Steady.ite hs.noticeTo hs.releaseBolts.same.freshFree.setArrNum.setArrBlob.noticeTo

theorem Steady.refuseBind {s : State} {b : Bind} (hs : Steady κ s) : Steady κ (Machine.refuseBind s b) := by
  unfold Machine.refuseBind
  refine Steady.sendBinds ?_
  split
  · exact hs.same.answerWaiting
  · exact hs.same

theorem Steady.startRebuild {s : State} {r ep : ℕ} (hs : Steady κ s) : Steady κ (Machine.startRebuild s r ep) :=
  hs.setArrNum.setArrBlob

theorem Steady.acceptBind {s : State} {b : Bind} (hs : Steady κ s) : Steady κ (Machine.acceptBind s b) := by
  unfold Machine.acceptBind
  extract_lets ok __src s1 s2 o s3 s4
  have hs1 : Steady κ s1 := hs.same
  have hs2 : Steady κ s2 := hs1.createRegion.setArrNum
  have hs3 : Steady κ s3 := Steady.ite hs1.sendUnbind hs1
  have hs4 : Steady κ s4 := by
    dsimp only [s4]
    split
    · split
      · exact hs2.answerWaiting
      · exact hs2
    · exact hs3.changeRegion.startRebuild
  exact Steady.ite hs.refuseBind hs4.sendBinds

theorem Steady.takeBound {s : State} {ep data : ℕ} (hs : Steady κ s) : Steady κ (Machine.takeBound s ep data) := by
  unfold Machine.takeBound
  split
  · exact hs
  · exact Steady.ite hs.refuseBind hs.acceptBind

theorem Steady.takeRefused {s : State} {ep data : ℕ} (hs : Steady κ s) : Steady κ (Machine.takeRefused s ep data) := by
  unfold Machine.takeRefused
  split
  · exact hs
  · exact Steady.ite hs.refuseBind hs

theorem Steady.takeUnbind {s : State} {ep data : ℕ} (hs : Steady κ s) : Steady κ (Machine.takeUnbind s ep data) := by
  unfold Machine.takeUnbind
  split
  · exact hs
  · exact Steady.ite hs.setArrNum hs

theorem Steady.sendBolt {s : State} {r b : ℕ} (hs : Steady κ s) : Steady κ (Machine.sendBolt s r b) :=
  (Steady.ite hs.bumpBy.setArrBlob hs.bumpBy).forS (fun _ _ hs1 => hs1.issueReq)

theorem Steady.poisonBolts {s : State} {base b n : ℕ} (hs : Steady κ s) : Steady κ (Machine.poisonBolts s base b n) :=
  hs.same

theorem Steady.takeVersions {s : State} {r : ℕ} (hs : Steady κ s) : Steady κ (Machine.takeVersions s r) := by
  unfold Machine.takeVersions
  split
  · exact hs
  · exact hs.freshFree.freshFree.setVer

theorem Steady.writeTakeover {s : State} {b : Bytes} (hs : Steady κ s) : WriteOut.Keeps κ (Machine.writeTakeover s b) :=
  WriteOut.Keeps.ite hs.refuse (WriteOut.Keeps.ite hs.refuse
      (WriteOut.Keeps.ite hs.setArrNum.setArrNum.noteFault.takeVersions.setArrBlob.applied hs.setArrNum.setArrNum.noteFault.takeVersions.poisonBolts.setArrBlob.noteFault.applied))

theorem Steady.execMirrorBind {ep unit data : ℕ} {s : State} (hs : Steady κ s) : Res.Keeps κ (Machine.execMirrorBind ep unit data s) :=
  Res.Keeps.next hs.takeBind.fin

theorem Steady.execMirrorBound {ep _unit data : ℕ} {s : State} (hs : Steady κ s) : Res.Keeps κ (Machine.execMirrorBound ep _unit data s) :=
  Res.Keeps.next hs.takeBound.fin

theorem Steady.execMirrorRefused {ep _unit data : ℕ} {s : State} (hs : Steady κ s) : Res.Keeps κ (Machine.execMirrorRefused ep _unit data s) :=
  Res.Keeps.next hs.takeRefused.fin

theorem Steady.execMirrorUnbind {ep _unit data : ℕ} {s : State} (hs : Steady κ s) : Res.Keeps κ (Machine.execMirrorUnbind ep _unit data s) :=
  Res.Keeps.next hs.takeUnbind.fin

theorem Steady.execMirrorBindTimeout {region : ℕ} {s : State} (hs : Steady κ s) : Res.Keeps κ (Machine.execMirrorBindTimeout region s) := by
  unfold Machine.execMirrorBindTimeout
  refine Res.Keeps.next ?_
  split
  · exact hs
  · exact Steady.ite hs.refuseBind.fin hs

theorem Steady.execMirrorWrite {h : Head} {op : MemOp} {s : State} (hs : Steady κ s) : Res.Keeps κ (Machine.execMirrorWrite h op s) := by
  unfold Machine.execMirrorWrite
  refine Res.Keeps.next ?_
  split
  · exact hs.arrive.fin
  · exact hs.arrive.fin
  · exact hs

theorem Steady.execMirrorWriteTimeout {tag : ℕ} {s : State} (hs : Steady κ s) : Res.Keeps κ (Machine.execMirrorWriteTimeout tag s) := by
  unfold Machine.execMirrorWriteTimeout
  refine Res.Keeps.next ?_
  split
  · exact hs
  · split
    · exact hs
    · exact Steady.ite hs.mirrorFail.fin hs

theorem Steady.execMirrorRebindRetry {region : ℕ} {s : State} (hs : Steady κ s) : Res.Keeps κ (Machine.execMirrorRebindRetry region s) :=
  Res.Keeps.next (Steady.ite hs.same.startBind.fin hs)

theorem Steady.execRebuildBolt {region : ℕ} {s : State} (hs : Steady κ s) : Res.Keeps κ (Machine.execRebuildBolt region s) :=
  Res.Keeps.next (Steady.ite hs (Steady.ite hs.degradePartner.fin hs.sendBolt.fin))

theorem Steady.execMirrorTakeover {w : Writer} {value : Bytes} {s : State} (hs : Steady κ s) : Res.Keeps κ (Machine.execMirrorTakeover w value s) :=
  Steady.endWrite hs.writeTakeover
end Sys2Proof.Machine
end

section
/-! What the model's `PortState` part leaves `Steady`. -/
namespace Sys2Proof.Machine
variable {κ : Option (List Instr × Hem)}

theorem Steady.setPState {s : State} {p st : ℕ} (hs : Steady κ s) : Steady κ (Machine.setPState s p st) :=
  Steady.ite ((Steady.ite hs.setNum.setPort.setBlob hs.setNum.setPort).latch) (Steady.ite hs.setNum.setPort.setBlob hs.setNum.setPort)

theorem Steady.drawBytes {s : State} {n : ℕ} (hs : Steady κ s) : Steady κ (Machine.drawBytes s n).2 :=
  hs.freshFree

theorem Steady.keysMade {s : State} {n : ℕ} (hs : Steady κ s) : Steady κ (Machine.keysMade s n) :=
  hs.bumpBy

theorem Steady.keysGone {s : State} {n : ℕ} (hs : Steady κ s) : Steady κ (Machine.keysGone s n) :=
  hs.bumpBy

theorem Steady.formFlit {s : State} {p ftype : ℕ} {sealed : Bool} {cont seq linkOp : ℕ} {units : Bytes} (hs : Steady κ s) : Steady κ
    (Machine.formFlit s p ftype sealed cont seq linkOp units).2 := by
  unfold Machine.formFlit
  extract_lets x cw hdr y s1 u
  have hs1 : Steady κ s1 := hs.portCount
  split
  · exact hs1.setPort
  · exact hs1.setPort

theorem Steady.sendLink {s : State} {p op : ℕ} {payload : Bytes} (hs : Steady κ s) : Steady κ (Machine.sendLink s p op payload) :=
  hs.formFlit.emit

theorem Steady.portFault {s : State} {code p n : ℕ} {detail : Bytes} (hs : Steady κ s) : Steady κ (Machine.portFault s code p n detail) :=
  Steady.ite hs.beyondLast.noteFault.recordFault hs.recordFault

theorem Steady.portsStopEnd {s : State} (hs : Steady κ s) : Steady κ (Machine.portsStopEnd s) :=
  Steady.ite hs.setNum hs

theorem Steady.downFault {s : State} {p reason : ℕ} (hs : Steady κ s) : Steady κ (Machine.downFault s p reason) :=
  Steady.ite hs.noteFault.setWindow (Steady.ite hs.recordFault (Steady.ite hs.portFault (Steady.ite hs.recordFault.openWindow.queueRecovery hs.recordFault.openWindow)))

theorem Steady.forgetPort {s : State} {p : ℕ} (hs : Steady κ s) : Steady κ (Machine.forgetPort s p) :=
  hs.same

theorem Steady.functionReset {s : State} {p : ℕ} (hs : Steady κ s) : Steady κ (Machine.functionReset s p) :=
  hs.keysGone.forgetPort.setPort.setBlob

theorem Steady.portDown {s : State} {p reason : ℕ} {notice : Bool} (hs : Steady κ s) : Steady κ (Machine.portDown s p reason notice) :=
  ((((((((((Steady.ite ((Steady.ite hs.sendLink hs).functionReset)
      (Steady.ite hs.sendLink hs)).setNum).downFault).portCount).keysGone).same).forgetPort).setPort).setPState).portsStopEnd).sendReady

theorem Steady.holdDown {s : State} {p : ℕ} (hs : Steady κ s) : Steady κ (Machine.holdDown s p) :=
  Steady.ite hs.portDown hs

theorem Steady.startDetect {s : State} {p : ℕ} {byAttach : Bool} (hs : Steady κ s) : Steady κ (Machine.startDetect s p byAttach) :=
  hs.setPort.setPState

theorem Steady.startEq {s : State} {p : ℕ} (hs : Steady κ s) : Steady κ (Machine.startEq s p) :=
  Steady.ite ((Steady.ite hs hs.setBlob).setPort) (((Steady.ite hs hs.setBlob).setPort).setPState)

theorem Steady.enterFit {s : State} {p : ℕ} (hs : Steady κ s) : Steady κ (Machine.enterFit s p) :=
  ((Steady.ite hs hs.setPState).setPort).sendLink

theorem Steady.sendCtl {s : State} {p op tag dst : ℕ} {loc : Bool} {payload : Bytes} (hs : Steady κ s) : Steady κ (Machine.sendCtl s p op tag dst loc payload) :=
  hs.queueTx

theorem Steady.portDetach {s : State} {p : ℕ} (hs : Steady κ s) : Steady κ (Machine.portDetach s p) :=
  Steady.ite ((((Steady.ite hs hs.setPort).setPState).sendCtl).sendCtl) (Steady.ite hs hs.setPort)

theorem Steady.detachStep {s : State} {p : ℕ} (hs : Steady κ s) : Steady κ (Machine.detachStep s p) :=
  Steady.ite hs (Steady.ite (Steady.ite hs hs.portDown) (Steady.ite hs.setPort.sendCtl (Steady.ite hs.portDown hs)))

theorem Steady.goActive {s : State} {p : ℕ} (hs : Steady κ s) : Steady κ (Machine.goActive s p) :=
  (Steady.ite ((Steady.ite hs.setPort.setPState.setWindow hs.setPort.setPState).portDetach) (Steady.ite hs.setPort.setPState.setWindow hs.setPort.setPState)).sendReady

theorem Steady.enterKey {s : State} {p : ℕ} (hs : Steady κ s) : Steady κ (Machine.enterKey s p) :=
  Steady.ite hs.setPState.portDown hs.setPState.drawBytes.keysMade.setPort.sendLink

theorem Steady.takeFit {s : State} {p : ℕ} {b : Bytes} (hs : Steady κ s) : Steady κ (Machine.takeFit s p b) := by
  unfold Machine.takeFit
  extract_lets x here r old m
  split
  · exact hs
  · split
    · exact Steady.ite hs.portDown hs.setPort.sendLink
    · split
      · exact hs
      · exact Steady.ite (Steady.ite (Steady.ite hs.setBlob.goActive hs.portDown) (Steady.ite hs.setBlob.enterKey hs.setBlob.goActive))
            (Steady.ite hs.setPort.sendLink hs)

theorem Steady.keyPart2 {s : State} (hs : Steady κ s) : Steady κ (Machine.keyPart2 s).2 := by
  unfold Machine.keyPart2
  exact hs.drawBytes (n := 96)

theorem Steady.takePart1 {s : State} {p : ℕ} {b : Bytes} (hs : Steady κ s) : Steady κ (Machine.takePart1 s p b) := by
  unfold Machine.takePart1
  split
  · exact hs
  · split
    · exact hs
    · extract_lets b1 answer __src
      split
      · exact hs.setPort.keyPart2.sendLink
      · exact Steady.ite hs.keyPart2.sendLink hs.portDown

theorem Steady.takePart2 {s : State} {p : ℕ} {b : Bytes} (hs : Steady κ s) : Steady κ (Machine.takePart2 s p b) := by
  unfold Machine.takePart2
  split
  · exact hs
  · split
    · exact hs
    · split
      · exact hs
      · exact Steady.ite hs.portDown hs.freshFree.freshFree.keysMade.keysGone.setPort.goActive

theorem Steady.startRetrain {s : State} {p cause : ℕ} (hs : Steady κ s) : Steady κ (Machine.startRetrain s p cause) :=
  Steady.ite hs (Steady.ite ((((Steady.ite hs hs.sendLink).portCount).portFault).holdDown) (((((Steady.ite hs hs.sendLink).portCount).portFault).setPort).setPState))

theorem Steady.takeAck {s : State} {p ack : ℕ} (hs : Steady κ s) : Steady κ (Machine.takeAck s p ack) := by
  unfold Machine.takeAck
  extract_lets x
  split
  · exact hs
  · extract_lets rest upd x1 x2 s1
    have hs1 : Steady κ s1 := Steady.ite hs.bump hs
    split
    · exact Steady.ite hs1.setPort hs1.setPort.keysGone
    · exact hs1.setPort

theorem Steady.replayFrom {s : State} {p : ℕ} (hs : Steady κ s) : Steady κ (Machine.replayFrom s p) :=
  Steady.ite hs (Steady.ite hs.startRetrain hs.portCount.setPort)

theorem Steady.takeCredits {s : State} {p : ℕ} {l : List (ℕ × ℕ)} (hs : Steady κ s) : Steady κ (Machine.takeCredits s p l) :=
  hs.forS (fun _ _ hs1 => hs1.setPort)

theorem Steady.takeLinkHdr {s : State} {p : ℕ} {l : LinkHdr} (hs : Steady κ s) : Steady κ (Machine.takeLinkHdr s p l) :=
  Steady.ite (((Steady.ite hs.takeAck hs).takeCredits).replayFrom) ((Steady.ite hs.takeAck hs).takeCredits)

theorem Steady.authFail {s : State} {p : ℕ} {sealed : Bool} (hs : Steady κ s) : Steady κ (Machine.authFail s p sealed) :=
  hs.portCount.portFault.holdDown

theorem Steady.onLink {s : State} {p : ℕ} {l : LinkHdr} {f : State → State} (hs : Steady κ s) (hf : ∀ x1, Steady κ x1 → Steady κ (f x1)) : Res.Keeps κ
    (Machine.onLink s p l f) :=
  Res.Keeps.next (Steady.ite (Steady.ite hs.portCount.authFail ((hf _ hs.portCount.takeLinkHdr).fin)) hs)
end Sys2Proof.Machine
end

section
/-! What the model's `PortFlits` part leaves `Steady`. -/
namespace Sys2Proof.Machine
variable {κ : Option (List Instr × Hem)}

theorem Steady.takeNotice {s : State} {p ep code unit data : ℕ} (hs : Steady κ s) : Steady κ (Machine.takeNotice s p ep code unit data) := by
  unfold Machine.takeNotice
  extract_lets e s1
  have hs1 : Steady κ s1 := hs.setBlob.latch
  split
  · exact hs1.takeBind
  · exact hs1.takeBound
  · exact hs1.takeRefused
  · exact hs1.takeUnbind
  · exact hs1

theorem Steady.takeQuiesce {s : State} {p mask : ℕ} (hs : Steady κ s) : Steady κ (Machine.takeQuiesce s p mask) :=
  hs.setPort

theorem Steady.takeResume {s : State} {p : ℕ} (hs : Steady κ s) : Steady κ (Machine.takeResume s p) :=
  hs.setPort.sendReady

theorem Steady.takeDetachReq {s : State} {p : ℕ} (hs : Steady κ s) : Steady κ (Machine.takeDetachReq s p) :=
  Steady.ite hs.setPort.setPState.detachStep (Steady.ite hs.setPort.detachStep hs)

theorem Steady.takeDetachAck {s : State} {p : ℕ} (hs : Steady κ s) : Steady κ (Machine.takeDetachAck s p) :=
  Steady.ite hs.setPort.detachStep hs

theorem Steady.takeKeyUpdate {s : State} {p : ℕ} {nonce : Bytes} {gen : ℕ} (hs : Steady κ s) : Steady κ (Machine.takeKeyUpdate s p nonce gen) := by
  unfold Machine.takeKeyUpdate
  extract_lets x f s1
  have hf : Steady κ f.2 := hs.freshFree
  have hs1 : Steady κ s1 := hf.bump.keysMade.keysGone
  split
  · exact hs
  · exact Steady.ite hs.portDown hs1.setPort

theorem Steady.takeCtl {s : State} {p : ℕ} {m : WireMsg} (hs : Steady κ s) : Steady κ (Machine.takeCtl s p m) := by
  unfold Machine.takeCtl
  split
  · exact hs.sendCtl
  · exact hs.setPort
  · exact hs.takeQuiesce
  · exact hs.takeResume
  · exact hs.takeDetachReq
  · exact hs.takeDetachAck
  · exact hs.takeKeyUpdate
  · exact hs

theorem Steady.dropMsg {s : State} {p : ℕ} (hs : Steady κ s) : Steady κ (Machine.dropMsg s p) :=
  hs.portCount

theorem Steady.takeReqMsg {s : State} {p : ℕ} {m : WireMsg} (hs : Steady κ s) : Steady κ (Machine.takeReqMsg s p m) := by
  unfold Machine.takeReqMsg
  extract_lets c
  split
  · exact hs.cohReqBy
  · exact hs.giveCredit.protocolError

theorem Steady.takeRsp {s : State} {p : ℕ} {m : WireMsg} (hs : Steady κ s) : Steady κ (Machine.takeRsp s p m) := by
  unfold Machine.takeRsp
  extract_lets c
  split
  · exact hs.snoopReply
  · exact hs.takeCmpAck
  · exact hs.takeWriteback
  · exact hs.takeCmp
  · exact hs.takeCmp
  · exact hs.protocolError

theorem Steady.takeDat {s : State} {p : ℕ} {m : WireMsg} (hs : Steady κ s) : Steady κ (Machine.takeDat s p m) := by
  unfold Machine.takeDat
  extract_lets c
  split
  · exact hs.snoopReply
  · exact hs.takeWriteback
  · exact hs.takeCmp
  · exact hs.protocolError

theorem Steady.takeMem {s : State} {p : ℕ} {m : WireMsg} (hs : Steady κ s) : Steady κ (Machine.takeMem s p m) := by
  unfold Machine.takeMem
  extract_lets r h x s1
  have hs1 : Steady κ s1 := hs.setPort
  split
  · exact hs.arriveBy
  · split
    · exact hs.giveCredit
    · split
      · rename_i e5
        exact ((hs1.vestibule.of_back e5).giveCredit).completeReq
      · rename_i e5
        exact ((hs1.vestibule.of_pass e5).giveCredit).completeReq

theorem Steady.takeMsg {s : State} {p : ℕ} {b : Bytes} (hs : Steady κ s) : Steady κ (Machine.takeMsg s p b) := by
  unfold Machine.takeMsg
  extract_lets m cls drop keeps s1
  have hs1 : Steady κ s1 := Steady.ite hs hs.giveCredit
  split
  · exact hs1.dropMsg
  · clear_value cls
    split
    · exact hs1.takeCtl
    · exact hs1.takeReqMsg
    · exact hs1.takeRsp
    · exact hs1.takeDat
    · exact hs1.takeMem
    · exact hs1.takeMem
    · exact Steady.ite hs1.takeNotice hs1.dropMsg
    · exact hs1.dropMsg

theorem Steady.takeMsgs {p x : ℕ} {y : State} {z : Bytes} (hy : Steady κ y) : Steady κ (Machine.takeMsgs p x y z).1 := by
  unfold Machine.takeMsgs
  split
  · exact hy
  · exact Steady.ite1 hy (Steady.ite1 hy hy.takeMsg.takeMsgs)

theorem Steady.takeUnits {s : State} {p cont : ℕ} {u : Bytes} (hs : Steady κ s) : Steady κ (Machine.takeUnits s p cont u) :=
  Steady.ite (Steady.ite hs.takeMsgs hs.takeMsgs.setPort) (Steady.ite hs.setPort hs.setPort.takeMsg.takeMsgs.setPort)

theorem Steady.rxCheck {s : State} {p : ℕ} {f : RxFlit} (hs : Steady κ s) : Steady κ (Machine.rxCheck s p f).2.2 := by
  unfold Machine.rxCheck
  extract_lets d s1 l s2 x cnt
  have hs1 : Steady κ s1 := hs.portCount.portCount
  have hl : Steady κ l.2 := hs1.freshFree
  have hs2 : Steady κ s2 := Steady.ite hs1 hl.noteFault
  exact Steady.ite22 hs2.portCount (Steady.ite22 hs2 hs2.setPort)

theorem Steady.askReplay {s : State} {p : ℕ} (hs : Steady κ s) : Steady κ (Machine.askReplay s p) :=
  Steady.ite hs hs.setPort

theorem Steady.takeData {s : State} {p : ℕ} {f : RxFlit} (hs : Steady κ s) : Steady κ (Machine.takeData s p f) := by
  unfold Machine.takeData
  dsimp only
  refine forget (Machine.rxCheck s p f) fun c e => ?_
  have hc : Steady κ c.2.2 := e ▸ hs.rxCheck
  rw [e]
  refine Steady.ite hc.askReplay.portFault.holdDown (Steady.ite hc.askReplay.authFail (Steady.ite hc (Steady.ite hc.askReplay (Steady.detachStep ?_))))
  refine Steady.ite (Steady.replayFrom ?_) ?_
  all_goals
    refine Steady.takeUnits (Steady.takeCredits (Steady.ite (Steady.takeAck ?_) ?_))
    all_goals exact Steady.ite hc.setPort.keysGone hc.setPort

theorem Steady.takeIdle {s : State} {p : ℕ} {f : RxFlit} (hs : Steady κ s) : Steady κ (Machine.takeIdle s p f) := by
  unfold Machine.takeIdle
  dsimp only
  refine forget (Machine.rxCheck s p f) fun c e => ?_
  have hc : Steady κ c.2.2 := e ▸ hs.rxCheck
  rw [e]
  refine Steady.ite hc (Steady.ite hc.authFail (Steady.ite hc ?_))
  have hu : Steady κ (Machine.takeCredits (if flAckV c.2.1 then Machine.takeAck c.2.2 p (flAck c.2.1) else c.2.2) p (flCredits c.2.1)) :=
    Steady.takeCredits (Steady.ite hc.takeAck hc)
  exact Steady.detachStep (Steady.ite hu.replayFrom hu)

theorem Steady.flitBoundary {s : State} {p : ℕ} (hs : Steady κ s) : Steady κ (Machine.flitBoundary s p) := by
  unfold Machine.flitBoundary
  extract_lets x idle b f led __src y key r z
  have hr : Steady κ r.2 := hs.setPort.formFlit
  split
  · split
    · exact hs.portCount.setPort.emit
    · exact hs.formFlit.emit
  · exact Steady.ite hs.formFlit.emit (Steady.ite hs.formFlit.emit hr.setPort.emit)

theorem Steady.execDataFlit {port : ℕ} {f : RxFlit} {s : State} (hs : Steady κ s) : Res.Keeps κ (Machine.execDataFlit port f s) :=
  Res.Keeps.next (Steady.ite hs.takeData.fin hs)

theorem Steady.execIdleFlit {port : ℕ} {f : RxFlit} {s : State} (hs : Steady κ s) : Res.Keeps κ (Machine.execIdleFlit port f s) :=
  Res.Keeps.next (Steady.ite hs.takeIdle.fin hs)

theorem Steady.execAckTimeout {port : ℕ} {s : State} (hs : Steady κ s) : Res.Keeps κ (Machine.execAckTimeout port s) :=
  Res.Keeps.next (Steady.ite hs.replayFrom.fin hs)

theorem Steady.execFlitBoundary {port : ℕ} {s : State} (hs : Steady κ s) : Res.Keeps κ (Machine.execFlitBoundary port s) :=
  Res.Keeps.next (Steady.ite hs.flitBoundary.detachStep.fin hs)

theorem Steady.onMsg {s : State} {p : ℕ} {f : State → State} (hs : Steady κ s) (hf : ∀ x1, Steady κ x1 → Steady κ (f x1)) : Res.Keeps κ (Machine.onMsg s p f) :=
  Res.Keeps.next (Steady.ite ((hf _ hs).fin) hs)

theorem Steady.execPing {port src tag : ℕ} {loc : Bool} {s : State} (hs : Steady κ s) : Res.Keeps κ (Machine.execPing port src tag loc s) :=
  hs.onMsg (fun _ hs1 => hs1.sendCtl)

theorem Steady.execPong {port tag : ℕ} {s : State} (hs : Steady κ s) : Res.Keeps κ (Machine.execPong port tag s) :=
  hs.onMsg (fun _ hs1 => hs1.setPort)

theorem Steady.execQuiesce {port mask : ℕ} {s : State} (hs : Steady κ s) : Res.Keeps κ (Machine.execQuiesce port mask s) :=
  hs.onMsg (fun _ hs1 => hs1.takeQuiesce)

theorem Steady.execResume {port : ℕ} {s : State} (hs : Steady κ s) : Res.Keeps κ (Machine.execResume port s) :=
  hs.onMsg (fun _ hs1 => hs1.takeResume)

theorem Steady.execDetachReq {port : ℕ} {s : State} (hs : Steady κ s) : Res.Keeps κ (Machine.execDetachReq port s) :=
  hs.onMsg (fun _ hs1 => hs1.takeDetachReq)

theorem Steady.execDetachAck {port : ℕ} {s : State} (hs : Steady κ s) : Res.Keeps κ (Machine.execDetachAck port s) :=
  hs.onMsg (fun _ hs1 => hs1.takeDetachAck)

theorem Steady.execKeyUpdate {port : ℕ} {nonce : Bytes} {gen : ℕ} {s : State} (hs : Steady κ s) : Res.Keeps κ (Machine.execKeyUpdate port nonce gen s) :=
  hs.onMsg (fun _ hs1 => hs1.takeKeyUpdate)

theorem Steady.execNotice {port ep code unit data : ℕ} {s : State} (hs : Steady κ s) : Res.Keeps κ (Machine.execNotice port ep code unit data s) :=
  hs.onMsg (fun _ hs1 => hs1.takeNotice)

theorem Steady.execRekeyDue {port : ℕ} {s : State} (hs : Steady κ s) : Res.Keeps κ (Machine.execRekeyDue port s) := by
  unfold Machine.execRekeyDue
  extract_lets x n f
  have hn : Steady κ n.2 := hs.drawBytes
  have hf : Steady κ f.2 := hn.freshFree
  refine Res.Keeps.next ?_
  split
  · exact hs
  · exact Steady.ite hs hf.keysMade.setPort.sendCtl

theorem Steady.execCounterExhausted {port : ℕ} {s : State} (hs : Steady κ s) : Res.Keeps κ (Machine.execCounterExhausted port s) := by
  unfold Machine.execCounterExhausted
  refine Res.Keeps.next ?_
  split
  · exact Steady.ite hs.portDown.fin hs
  · exact hs
end Sys2Proof.Machine
end

section
/-! What the model's `PortRows` part leaves `Steady`. -/
namespace Sys2Proof.Machine
variable {κ : Option (List Instr × Hem)}

theorem Steady.portsStart {s : State} (hs : Steady κ s) : WriteOut.Keeps κ (Machine.portsStart s) :=
  WriteOut.Keeps.ite hs.refuse ((hs.setNum.forS (fun _ _ hs1 => hs1.releasePad)).applied)

theorem Steady.portsStop {s : State} (hs : Steady κ s) : WriteOut.Keeps κ (Machine.portsStop s) :=
  WriteOut.Keeps.ite hs.applied (((hs.setNum.forS (fun _ _ hs1 => Steady.ite hs1.portDetach hs1)).portsStopEnd).applied)

theorem Steady.writePortsCmd {s : State} {v : ℕ} (hs : Steady κ s) : WriteOut.Keeps κ (Machine.writePortsCmd s v) :=
  WriteOut.Keeps.ite hs.portsStart (WriteOut.Keeps.ite hs.portsStop hs.refuse)

theorem Steady.writeJoin {s : State} {b : Bytes} (hs : Steady κ s) : WriteOut.Keeps κ (Machine.writeJoin s b) :=
  WriteOut.Keeps.ite hs.refuse (WriteOut.Keeps.ite hs.refuse hs.commitMap.same.applied)

theorem Steady.attach {s : State} {p : ℕ} {byAttach : Bool} (hs : Steady κ s) : Steady κ (Machine.attach s p byAttach) :=
  Steady.ite hs (Steady.ite hs.setPState hs.startDetect)

theorem Steady.portAttach {s : State} {p : ℕ} (hs : Steady κ s) : WriteOut.Keeps κ (Machine.portAttach s p) :=
  hs.attach.applied

theorem Steady.portDetachCmd {s : State} {p : ℕ} (hs : Steady κ s) : WriteOut.Keeps κ (Machine.portDetachCmd s p) :=
  WriteOut.Keeps.ite hs.refuse (WriteOut.Keeps.ite (WriteOut.Keeps.ite hs.setPort.setPState.detachStep.applied hs.applied)
      (WriteOut.Keeps.ite hs.portDetach.applied hs.applied))

theorem Steady.portRetrainCmd {s : State} {p : ℕ} (hs : Steady κ s) : WriteOut.Keeps κ (Machine.portRetrainCmd s p) :=
  hs.startRetrain.applied

theorem Steady.portForceDown {s : State} {p : ℕ} (hs : Steady κ s) : WriteOut.Keeps κ (Machine.portForceDown s p) :=
  WriteOut.Keeps.ite hs.applied hs.portDown.applied

theorem Steady.writePortCmd {s : State} {p v : ℕ} (hs : Steady κ s) : WriteOut.Keeps κ (Machine.writePortCmd s p v) := by
  unfold Machine.writePortCmd
  split
  · exact hs.portAttach
  · exact hs.portDetachCmd
  · exact hs.portRetrainCmd
  · exact hs.portForceDown
  · exact hs.refuse

theorem Steady.eqFail {s : State} {p : ℕ} (hs : Steady κ s) : Steady κ (Machine.eqFail s p) :=
  hs.setPort.portDown

theorem Steady.eqStep {s : State} {p lane : ℕ} {post up : Bool} (hs : Steady κ s) : Steady κ (Machine.eqStep s p lane post up) :=
  Steady.ite hs.setBlob hs

theorem Steady.execPortsStart {w : Writer} {s : State} (hs : Steady κ s) : Res.Keeps κ (Machine.execPortsStart w s) :=
  Steady.endWrite hs.portsStart

theorem Steady.execPortsStop {w : Writer} {s : State} (hs : Steady κ s) : Res.Keeps κ (Machine.execPortsStop w s) :=
  Steady.endWrite hs.portsStop

theorem Steady.execJoinEpoch {w : Writer} {value : Bytes} {s : State} (hs : Steady κ s) : Res.Keeps κ (Machine.execJoinEpoch w value s) :=
  Steady.endWrite hs.writeJoin

theorem Steady.execPortAttach {w : Writer} {port : ℕ} {s : State} (hs : Steady κ s) : Res.Keeps κ (Machine.execPortAttach w port s) :=
  Steady.endWrite (WriteOut.Keeps.ite hs.portAttach hs.refuse)

theorem Steady.execPortDetach {w : Writer} {port : ℕ} {s : State} (hs : Steady κ s) : Res.Keeps κ (Machine.execPortDetach w port s) :=
  Steady.endWrite (WriteOut.Keeps.ite hs.portDetachCmd hs.refuse)

theorem Steady.execPortRetrainCmd {w : Writer} {port : ℕ} {s : State} (hs : Steady κ s) : Res.Keeps κ (Machine.execPortRetrainCmd w port s) :=
  Steady.endWrite (WriteOut.Keeps.ite hs.portRetrainCmd hs.refuse)

theorem Steady.execPortForceDown {w : Writer} {port : ℕ} {s : State} (hs : Steady κ s) : Res.Keeps κ (Machine.execPortForceDown w port s) :=
  Steady.endWrite (WriteOut.Keeps.ite hs.portForceDown hs.refuse)

theorem Steady.execAttachPoll {port : ℕ} {s : State} (hs : Steady κ s) : Res.Keeps κ (Machine.execAttachPoll port s) :=
  Res.Keeps.next (Steady.ite hs.setPort.attach hs)

theorem Steady.execDetectDone {port lanes : ℕ} {s : State} (hs : Steady κ s) : Res.Keeps κ (Machine.execDetectDone port lanes s) :=
  Res.Keeps.next (Steady.ite hs (Steady.ite (Steady.ite hs.setPort.setPState (Steady.ite hs.portDown.fin hs.setPort.setPState.portsStopEnd))
      (Steady.ite (Steady.ite hs.portDown.fin hs.setPort) hs)))

theorem Steady.execPollDone {port : ℕ} {s : State} (hs : Steady κ s) : Res.Keeps κ (Machine.execPollDone port s) :=
  Res.Keeps.next (Steady.ite hs.startEq hs)

theorem Steady.stateTimeout {s : State} {p st limit reason : ℕ} (hs : Steady κ s) : Res.Keeps κ (Machine.stateTimeout s p st limit reason) :=
  Res.Keeps.next (Steady.ite hs.portDown.fin hs)

theorem Steady.execPollTimeout {port : ℕ} {s : State} (hs : Steady κ s) : Res.Keeps κ (Machine.execPollTimeout port s) :=
  hs.stateTimeout

theorem Steady.execEqPhaseEnd {port : ℕ} {lanes : List EqLane} {good partnerGood : ℕ} {s : State} (hs : Steady κ s) : Res.Keeps κ
    (Machine.execEqPhaseEnd port lanes good partnerGood s) :=
  Res.Keeps.next (Steady.ite hs (Steady.ite hs.setBlob.setPort (Steady.ite hs.setBlob.setPort.eqFail.fin hs.setBlob.setPort.enterFit.fin)))

theorem Steady.execEqTimeout {port : ℕ} {s : State} (hs : Steady κ s) : Res.Keeps κ (Machine.execEqTimeout port s) :=
  Res.Keeps.next (Steady.ite hs.eqFail.fin hs)

theorem Steady.execFit {port : ℕ} {block : Bytes} {s : State} (hs : Steady κ s) : Res.Keeps κ (Machine.execFit port block s) :=
  Res.Keeps.next (Steady.ite hs.takeFit.fin hs)

theorem Steady.execFitTimeout {port : ℕ} {s : State} (hs : Steady κ s) : Res.Keeps κ (Machine.execFitTimeout port s) :=
  hs.stateTimeout

theorem Steady.execKeyPart1 {port : ℕ} {part : Bytes} {s : State} (hs : Steady κ s) : Res.Keeps κ (Machine.execKeyPart1 port part s) :=
  Res.Keeps.next (Steady.ite hs.takePart1.fin hs)

theorem Steady.execKeyPart2 {port : ℕ} {part : Bytes} {s : State} (hs : Steady κ s) : Res.Keeps κ (Machine.execKeyPart2 port part s) :=
  Res.Keeps.next (Steady.ite hs.takePart2.fin hs)

theorem Steady.execKeyResend {port : ℕ} {s : State} (hs : Steady κ s) : Res.Keeps κ (Machine.execKeyResend port s) := by
  unfold Machine.execKeyResend
  refine Res.Keeps.next ?_
  split
  · exact Steady.ite hs.setPort.sendLink hs
  · exact hs

theorem Steady.execKeyTimeout {port : ℕ} {s : State} (hs : Steady κ s) : Res.Keeps κ (Machine.execKeyTimeout port s) :=
  hs.stateTimeout

theorem Steady.execEqReq {port : ℕ} {l : LinkHdr} {lane : ℕ} {post up : Bool} {s : State} (hs : Steady κ s) : Res.Keeps κ (Machine.execEqReq port l lane post up s) :=
  hs.onLink ((fun _ hs1 => (Steady.ite hs1 hs1.eqStep).sendLink))

theorem Steady.execEqAck {port : ℕ} {l : LinkHdr} {_lane : ℕ} {_refused : Bool} {s : State} (hs : Steady κ s) : Res.Keeps κ (Machine.execEqAck port l _lane _refused s) :=
  hs.onLink (fun _ hs1 => hs1)

theorem Steady.execEyeHeightLow {port lane mv : ℕ} {post up : Bool} {s : State} (hs : Steady κ s) : Res.Keeps κ (Machine.execEyeHeightLow port lane mv post up s) :=
  Res.Keeps.next (Steady.ite hs hs.setBlob.setPort.sendLink)

theorem Steady.execRetrainReq {port : ℕ} {l : LinkHdr} {s : State} (hs : Steady κ s) : Res.Keeps κ (Machine.execRetrainReq port l s) :=
  hs.onLink (fun _ hs1 => hs1.startRetrain)

theorem Steady.execDownNotice {port : ℕ} {l : LinkHdr} {_reason : ℕ} {s : State} (hs : Steady κ s) : Res.Keeps κ (Machine.execDownNotice port l _reason s) :=
  hs.onLink (fun _ hs1 => hs1.portDown)

theorem Steady.execLossOfSignal {port : ℕ} {s : State} (hs : Steady κ s) : Res.Keeps κ (Machine.execLossOfSignal port s) :=
  Res.Keeps.next (Steady.ite hs.startRetrain.fin hs)

theorem Steady.execRetrainTimeout {port : ℕ} {s : State} (hs : Steady κ s) : Res.Keeps κ (Machine.execRetrainTimeout port s) :=
  hs.stateTimeout

theorem Steady.execDetachTimeout {port : ℕ} {s : State} (hs : Steady κ s) : Res.Keeps κ (Machine.execDetachTimeout port s) :=
  Res.Keeps.next (Steady.ite hs.portDown.fin hs)
end Sys2Proof.Machine
end

section
/-! What the model's `PortHost` part leaves `Steady`. -/
namespace Sys2Proof.Machine
variable {κ : Option (List Instr × Hem)}

theorem Steady.noteHost {s : State} {p tag kind : ℕ} (hs : Steady κ s) : Steady κ (Machine.noteHost s p tag kind) :=
  hs.setPort

theorem Steady.hostRefused {s : State} {p : ℕ} (hs : Steady κ s) : Steady κ (Machine.hostRefused s p) :=
  hs.compatCount

theorem Steady.hostRead {s : State} {p tag bar off len : ℕ} (hs : Steady κ s) : Steady κ (Machine.hostRead s p tag bar off len) := by
  unfold Machine.hostRead
  refine Steady.forS hs (fun _ _ hs1 => ?_)
  split
  · exact hs1.hostRefused.hostComplete
  · exact hs1.hostComplete
  · exact hs1.noteHost.arrive

theorem Steady.execFlr {port : ℕ} {s : State} (hs : Steady κ s) : Res.Keeps κ (Machine.execFlr port s) :=
  Res.Keeps.next (Steady.ite hs.functionReset hs)

theorem Steady.execCompatLinkState {port ltssm : ℕ} {up : Bool} {gen width : ℕ} {cxl : Bool} {s : State} (hs : Steady κ s) : Res.Keeps κ
    (Machine.execCompatLinkState port ltssm up gen width cxl s) :=
  Res.Keeps.next (Steady.ite hs (Steady.ite hs.setBlob.setBlob.setPState (Steady.ite hs.setBlob.functionReset.setPState.fin hs.setBlob)))

theorem Steady.execPcieMemRead {port tag bar off len : ℕ} {s : State} (hs : Steady κ s) : Res.Keeps κ (Machine.execPcieMemRead port tag bar off len s) :=
  Res.Keeps.next (Steady.ite hs (Steady.ite hs.hostRefused.hostComplete hs.hostRead.fin))

theorem Steady.execPcieMemWrite {port bar off : ℕ} {data : Bytes} {relaxed : Bool} {s : State} (hs : Steady κ s) : Res.Keeps κ
    (Machine.execPcieMemWrite port bar off data relaxed s) := by
  unfold Machine.execPcieMemWrite
  refine Res.Keeps.next ?_
  split
  · exact hs
  · split
    · exact hs.hostRefused
    · extract_lets pieces
      refine Steady.fin ?_
      refine Steady.forS hs (fun _ _ hs7 => ?_)
      extract_lets d
      split
      · exact hs7.hostRefused
      · exact hs7
      · exact hs7.noteHost.arrive

theorem Steady.execCxlMemRd {port tag addr : ℕ} {s : State} (hs : Steady κ s) : Res.Keeps κ (Machine.execCxlMemRd port tag addr s) :=
  Res.Keeps.next (Steady.ite hs (Steady.ite hs.hostRefused.hostComplete (Steady.ite hs.hostComplete hs.noteHost.arrive.fin)))

theorem Steady.execCxlMemWr {port tag addr : ℕ} {data : Bytes} {enables : ℕ} {s : State} (hs : Steady κ s) : Res.Keeps κ
    (Machine.execCxlMemWr port tag addr data enables s) :=
  Res.Keeps.next (Steady.ite hs (Steady.ite hs.hostRefused.hostComplete (Steady.ite hs.hostComplete (((hs.forS (fun _ _ hs1 => hs1.noteHost)).forS
      (fun _ _ hs1 => hs1.arrive)).fin))))

theorem Steady.execPcieCompletion {port tag cpl : ℕ} {poison : Bool} {data : Bytes} {s : State} (hs : Steady κ s) : Res.Keeps κ
    (Machine.execPcieCompletion port tag cpl poison data s) := by
  unfold Machine.execPcieCompletion
  refine Res.Keeps.next ?_
  split
  · exact hs
  · split
    · exact hs
    · exact hs.meterPort.finishIssued.detachStep.fin

theorem Steady.execPcieConfigRequest {port : ℕ} {write : Bool} {space off value : ℕ} {s : State} (hs : Steady κ s) : Res.Keeps κ
    (Machine.execPcieConfigRequest port write space off value s) :=
  Res.Keeps.next (Steady.ite hs (Steady.ite hs.setPort hs.same))

theorem Steady.execQueueCfgWrite {h : Head} {q : QueueId} {v : ℕ} {s : State} (hs : Steady κ s) : Res.Keeps κ (Machine.execQueueCfgWrite h q v s) :=
  Res.Keeps.next hs.cwStore.fin
end Sys2Proof.Machine
end

section
/-! What the model's `Partition` part leaves `Steady`. -/
namespace Sys2Proof.Machine
variable {κ : Option (List Instr × Hem)}

theorem Steady.setPartState {s : State} {p : ℕ} {x : Partition} (hs : Steady κ s) : Steady κ (Machine.setPartState s p x) :=
  hs.setPart.latch

theorem Steady.stopCore {s : State} {c : ℕ} (hs : Steady κ s) : Steady κ (Machine.stopCore s c) :=
  hs.same.emit

theorem Steady.startCore {s : State} {c pc : ℕ} (hs : Steady κ s) : Steady κ (Machine.startCore s c pc) :=
  hs.same.emit

theorem Steady.sweepPart {s : State} {p : ℕ} (hs : Steady κ s) : Steady κ (Machine.sweepPart s p) :=
  hs.same

theorem Steady.createPart {s : State} {p : ℕ} (hs : Steady κ s) : Steady κ (Machine.createPart s p) :=
  (((((Steady.ite hs.sweepPart hs).setPart).sameObj (objFilter_wf _)).keysMade).bellCreate).setPartState

theorem Steady.writePartCreate {s : State} {b : Bytes} (hs : Steady κ s) : WriteOut.Keeps κ (Machine.writePartCreate s b) :=
  WriteOut.Keeps.ite hs.refuse (WriteOut.Keeps.ite hs.refuse hs.createPart.applied)

theorem Steady.unbindRegion {s : State} {r : ℕ} (hs : Steady κ s) : Steady κ (Machine.unbindRegion s r) :=
  ((hs.forS (fun _ _ hs1 => Steady.ite hs1.tabUnbind.setArrNum.setArrBlob hs1)).forS (fun _ _ hs1 => Steady.ite hs1.vecUnbind.setBlob hs1)).forS
      (fun _ _ hs1 => Steady.ite hs1.unpinBolts.setStream.setBlob hs1)

theorem Steady.cancelPart {s : State} {p : ℕ} (hs : Steady κ s) : Steady κ (Machine.cancelPart s p) :=
  ((((hs.same.setTape.forS (fun _ _ hs1 => hs1.dropStep)).fenceLaunches).fenceBarriers).forS (fun _ _ hs1 => hs1.resolveRec)).forS (fun _ _ hs1 => hs1.expireLease)

theorem Steady.fenceL2Line {s : State} {p c ln : ℕ} {l : L2Line} (hs : Steady κ s) : Steady κ (Machine.fenceL2Line s p c ln l) :=
  Steady.ite hs (Steady.ite hs.l2Drop (Steady.ite hs hs.l2Drop.l2Set.fromCluster))

theorem Steady.fenceCaches {s : State} {p : ℕ} (hs : Steady κ s) : Steady κ (Machine.fenceCaches s p) :=
  (hs.forS (fun _ _ hs1 => hs1.fenceL2Line)).same

theorem Steady.fencePart {s : State} {p : ℕ} (hs : Steady κ s) : Steady κ (Machine.fencePart s p) :=
  (((((hs.setPartState.bellFence.forS (fun _ _ hs1 => hs1.stopCore)).cancelPart).fenceCaches).forS
      (fun _ _ hs1 => hs1.unbindRegion.releaseRegion)).forS (fun _ _ hs1 => hs1.abandonMove)).forS (fun _ _ hs1 => hs1.beginDetach)

theorem Steady.writePartRemove {s : State} {b : Bytes} (hs : Steady κ s) : WriteOut.Keeps κ (Machine.writePartRemove s b) :=
  WriteOut.Keeps.ite hs.refuse (WriteOut.Keeps.ite hs.refuse (WriteOut.Keeps.ite hs.applied hs.fencePart.applied))

theorem Steady.openDebug {s : State} (hs : Steady κ s) : Steady κ (Machine.openDebug s) :=
  Steady.ite hs.same hs

theorem Steady.endDrain {s : State} {p : ℕ} (hs : Steady κ s) : Steady κ (Machine.endDrain s p) := by
  unfold Machine.endDrain
  refine Steady.openDebug ?_
  refine Steady.forS ?_ (fun _ _ hs2 => Steady.ite hs2.endRelease hs2)
  refine Steady.setPartState ?_
  refine Steady.keysGone ?_
  refine Steady.forS ((hs.forS (fun _ _ hs5 => hs5.expelAgent)).same) (fun _ _ hs5 => ?_)
  split
  · exact Steady.ite hs5.setObj hs5
  · exact hs5

theorem Steady.writePartHearth {s : State} {p : ℕ} {b : Bytes} (hs : Steady κ s) : WriteOut.Keeps κ (Machine.writePartHearth s p b) :=
  WriteOut.Keeps.ite hs.refuse (WriteOut.Keeps.ite hs.refuse ((((hs.forS (fun _ _ hs1 => hs1.bellRemoveCore.stopCore)).setPnum).forS
      (fun _ _ hs1 => hs1.startCore)).applied))

theorem Steady.writeViolSticky {s : State} {b : Bytes} (hs : Steady κ s) : WriteOut.Keeps κ (Machine.writeViolSticky s b) := by
  unfold Machine.writeViolSticky
  split
  · exact hs.refuse
  · split
    · exact hs.setNum.setBlob.applied
    · exact hs.applied
    · exact hs.refuse

theorem Steady.debugUnlocked {s : State} (hs : Steady κ s) : Steady κ { s with sec := { s.sec with debugUnlocked := true } } := hs.same

theorem Steady.writeDebugUnlock {s : State} {b : Bytes} (hs : Steady κ s) : WriteOut.Keeps κ (Machine.writeDebugUnlock s b) := by
  unfold Machine.writeDebugUnlock
  refine WriteOut.Keeps.ite (.done hs) (WriteOut.Keeps.ite (.done hs) (WriteOut.Keeps.ite (.done hs) (WriteOut.Keeps.ite (.done hs) ?_)))
  extract_lets ps s1 x s2 s3 s4 sec
  have h1 : Steady κ s1 := Steady.foldl hs fun s p hs => hs.fencePart
  have h2 : Steady κ s2 := Steady.ite h1.keysGone.setPart h1
  have h3 : Steady κ s3 := Steady.foldl h2 fun s p hs => hs.portDown
  have h4 : Steady κ s4 := Steady.foldl h3 fun s p hs => Steady.ite hs hs.keysGone.setPort
  exact .done h4.debugUnlocked.openDebug

theorem Steady.writeArbFw {s : State} {b : Bytes} (hs : Steady κ s) : WriteOut.Keeps κ (Machine.writeArbFw s b) :=
  WriteOut.Keeps.ite hs.refuse (WriteOut.Keeps.ite hs.refuse (hs.sameFuses (by rfl)).applied)

theorem Steady.writeArbLoader {s : State} {b : Bytes} (hs : Steady κ s) : WriteOut.Keeps κ (Machine.writeArbLoader s b) :=
  WriteOut.Keeps.ite hs.refuse (WriteOut.Keeps.ite hs.refuse (hs.sameFuses (by rfl)).applied)

theorem Steady.execPartCreate {w : Writer} {value : Bytes} {s : State} (hs : Steady κ s) : Res.Keeps κ (Machine.execPartCreate w value s) :=
  Steady.endWrite hs.writePartCreate

theorem Steady.execPartRemove {w : Writer} {value : Bytes} {s : State} (hs : Steady κ s) : Res.Keeps κ (Machine.execPartRemove w value s) :=
  Steady.endWrite hs.writePartRemove

theorem Steady.execPartDrainEnd {part : ℕ} {s : State} (hs : Steady κ s) : Res.Keeps κ (Machine.execPartDrainEnd part s) :=
  Res.Keeps.ite (Res.Keeps.next hs.endDrain.fin) (Res.Keeps.next hs)

theorem Steady.execPartScrubEnd {part : ℕ} {s : State} (hs : Steady κ s) : Res.Keeps κ (Machine.execPartScrubEnd part s) :=
  Res.Keeps.ite (Res.Keeps.next hs.setPartState) (Res.Keeps.next hs)

theorem Steady.execSlotScrubbed {tier slot : ℕ} {s : State} (hs : Steady κ s) : Res.Keeps κ (Machine.execSlotScrubbed tier slot s) :=
  Res.Keeps.ite (Res.Keeps.next hs) (Res.Keeps.next hs.scrubSlot.fin)

theorem Steady.execPartHearth {w : Writer} {part : ℕ} {value : Bytes} {s : State} (hs : Steady κ s) : Res.Keeps κ (Machine.execPartHearth w part value s) :=
  Steady.endWrite hs.writePartHearth

theorem Steady.execViolSticky {w : Writer} {value : Bytes} {s : State} (hs : Steady κ s) : Res.Keeps κ (Machine.execViolSticky w value s) :=
  Steady.endWrite hs.writeViolSticky

theorem Steady.execDebugUnlock {w : Writer} {value : Bytes} {s : State} (hs : Steady κ s) : Res.Keeps κ (Machine.execDebugUnlock w value s) :=
  Steady.endWrite hs.writeDebugUnlock

theorem Steady.execArbAdvanceFw {w : Writer} {value : Bytes} {s : State} (hs : Steady κ s) : Res.Keeps κ (Machine.execArbAdvanceFw w value s) :=
  Steady.endWrite hs.writeArbFw

theorem Steady.execArbAdvanceLoader {w : Writer} {value : Bytes} {s : State} (hs : Steady κ s) : Res.Keeps κ (Machine.execArbAdvanceLoader w value s) :=
  Steady.endWrite hs.writeArbLoader

theorem Steady.execThimbleHealthFail {selfTest : Bool} {s : State} (hs : Steady κ s) : Res.Keeps κ (Machine.execThimbleHealthFail selfTest s) :=
  Res.Keeps.next hs.setNum.noteFault
end Sys2Proof.Machine
end

section
/-! What the model's `Determinism` part leaves `Steady`. -/
namespace Sys2Proof.Machine
variable {κ : Option (List Instr × Hem)}

theorem Steady.writeDetMode {s : State} {b : Bytes} (hs : Steady κ s) : WriteOut.Keeps κ (Machine.writeDetMode s b) :=
  WriteOut.Keeps.ite hs.refuse (WriteOut.Keeps.ite hs.refuse (WriteOut.Keeps.ite hs.refuse ((Steady.ite
      ((Steady.ite hs.setNum hs.setNum.runFlag).releaseDecisions) (Steady.ite hs.setNum hs.setNum.runFlag)).applied)))

theorem Steady.writeDetStep {s : State} {b : Bytes} (hs : Steady κ s) : WriteOut.Keeps κ (Machine.writeDetStep s b) :=
  WriteOut.Keeps.ite hs.refuse (WriteOut.Keeps.ite hs.refuse (((hs.forS (fun _ _ hs1 => hs1.tableBoundary)).placeBoundary).applied))

theorem Steady.writeRunReset {s : State} {b : Bytes} (hs : Steady κ s) : WriteOut.Keeps κ (Machine.writeRunReset s b) := by
  unfold Machine.writeRunReset
  split
  · exact hs.refuse
  · split
    · exact hs.applied
    · exact hs.setBlob.applied
    · exact hs.refuse

theorem Steady.writeSyncRole {s : State} {b : Bytes} (hs : Steady κ s) : WriteOut.Keeps κ (Machine.writeSyncRole s b) :=
  WriteOut.Keeps.ite hs.refuse (WriteOut.Keeps.ite hs.refuse (WriteOut.Keeps.ite hs.setNum.setNum.setNum.same.applied ((Steady.ite hs hs.setNum.setNum.same).applied)))

theorem Steady.startPassed {s : State} (hs : Steady κ s) : Steady κ (Machine.startPassed s) := by
  unfold Machine.startPassed
  refine Steady.forS hs (fun _ _ hs1 => ?_)
  split
  · exact Steady.ite hs1.startLaunch hs1
  · exact hs1

theorem Steady.syncStep {s : State} {z : ℤ} (hs : Steady κ s) : Steady κ (Machine.syncStep s z) :=
  hs.same.bump.startPassed

theorem Steady.applyOffset {s : State} {z : ℤ} (hs : Steady κ s) : Steady κ (Machine.applyOffset s z) := by
  unfold Machine.applyOffset
  extract_lets stepped ticks change rate rate1 s1 __src s2 in_ d s3 to_ __src1 __src2
  have hs1 : Steady κ s1 := hs.setNum.setNum
  have hs2 : Steady κ s2 := Steady.ite hs1.syncStep hs1.same
  have hs3 : Steady κ s3 := hs2.same
  have h__src1 : Steady κ __src1 := hs3.setNum
  split
  · exact Steady.ite hs3.setNum.same (Steady.ite hs3.setNum.same.bump hs3)
  · exact h__src1.same
  · exact Steady.ite hs3.setNum.same hs3

theorem Steady.syncAdvance {s : State} (hs : Steady κ s) : Steady κ (Machine.syncAdvance s) :=
  hs.same

theorem Steady.execDetStep {w : Writer} {value : Bytes} {s : State} (hs : Steady κ s) : Res.Keeps κ (Machine.execDetStep w value s) :=
  Steady.endWrite hs.writeDetStep

theorem Steady.execRunReset {w : Writer} {value : Bytes} {s : State} (hs : Steady κ s) : Res.Keeps κ (Machine.execRunReset w value s) :=
  Steady.endWrite hs.writeRunReset

theorem Steady.execSyncInterval {s : State} (hs : Steady κ s) : Res.Keeps κ (Machine.execSyncInterval s) := by
  unfold Machine.execSyncInterval
  split
  · exact Res.Keeps.next hs
  · extract_lets z __src s1 n __src1 s2 __src2 __src3
    have hs1 : Steady κ s1 := hs.same
    have hs2 : Steady κ s2 := hs1.same
    have h__src2 : Steady κ __src2 := hs2.setNum
    refine Res.Keeps.next ?_
    clear_value z
    split
    · exact hs1.applyOffset.fin
    · exact Steady.ite h__src2.same hs2

theorem Steady.execSyncSample {s : State} (hs : Steady κ s) : Res.Keeps κ (Machine.execSyncSample s) :=
  Res.Keeps.ite (Res.Keeps.next hs) (Res.Keeps.next hs.same.issueReq.fin)
end Sys2Proof.Machine
end

section
/-! What the model's `Recovery` part leaves `Steady`. -/
namespace Sys2Proof.Machine
variable {κ : Option (List Instr × Hem)}

theorem Steady.writeSticky {s : State} {code : ℕ} {b : Bytes} (hs : Steady κ s) : WriteOut.Keeps κ (Machine.writeSticky s code b) := by
  unfold Machine.writeSticky
  split
  · exact hs.refuse
  · split
    · exact hs.setNum.setBlob.applied
    · exact hs.applied
    · exact hs.refuse

theorem Steady.writeStickyClear {s : State} {b : Bytes} (hs : Steady κ s) : WriteOut.Keeps κ (Machine.writeStickyClear s b) := by
  unfold Machine.writeStickyClear
  split
  · exact hs.refuse
  · split
    · exact hs.applied
    · exact (hs.sameObj (objFilter_wf _)).applied
    · exact hs.refuse

theorem Steady.domLost {s : State} {d : ℕ} (hs : Steady κ s) : Steady κ (Machine.domLost s d) :=
  Steady.ite hs.same (Steady.ite hs.same (Steady.ite hs.setArray (Steady.ite hs.same (Steady.ite (hs.sameMem (memFilter_wf _)) hs))))

theorem Steady.loseTrackers {s : State} {bank : ℕ} (hs : Steady κ s) : Steady κ (Machine.loseTrackers s bank).2 :=
  ((hs.forS (fun _ _ hs1 => hs1.finishReq)).same).forS (fun _ _ hs1 => hs1.sendCmp)

theorem Steady.retrainChannel {s : State} {res : ℕ} (hs : Steady κ s) : Steady κ (Machine.retrainChannel s res) :=
  Steady.ite hs.same hs.same

theorem Steady.recoveryEffect {s : State} {e : RecEntry} (hs : Steady κ s) : Steady κ (Machine.recoveryEffect s e) := by
  unfold Machine.recoveryEffect
  extract_lets u x __src s1 __src1 d s2
  have hs1 : Steady κ s1 := hs.same.holdOut
  have hs2 : Steady κ s2 := hs.domLost.setDom
  split
  · exact Steady.ite hs.attach hs
  · exact Steady.ite hs.retrainChannel (hs1.forS (fun _ _ hs3 => hs3.moveOut))
  · exact Steady.ite hs.retrainChannel (hs1.forS (fun _ _ hs3 => hs3.moveOut))
  · exact Steady.ite hs.retrainChannel (hs1.forS (fun _ _ hs3 => hs3.moveOut))
  · exact hs.forS (fun _ _ hs3 => hs3.submitTxn)
  · exact hs.same.holdOut
  · exact hs.setNum.holdOut
  · exact hs.holdOut
  · exact Steady.ite hs2.holdOut hs2
  · exact hs

theorem Steady.writeRelease {s : State} {b : Bytes} (hs : Steady κ s) : WriteOut.Keeps κ (Machine.writeRelease s b) := by
  unfold Machine.writeRelease
  extract_lets res u __src s1 __src1 __src2 d s2
  have hs1 : Steady κ s1 := hs.setWindow
  have hs2 : Steady κ s2 := Steady.ite hs1.runFlag hs1
  split
  · exact hs.refuse
  · split
    · exact hs.applied
    · refine Steady.applied ?_
      split
      · exact hs1.same
      · exact hs1.same
      · exact hs1.same
      · exact hs1.same
      · exact hs1.setNum
      · exact Steady.ite hs2.setDom hs2
      · exact hs1

theorem Steady.writeResourceQuery {s : State} {w : Writer} {b : Bytes} (hs : Steady κ s) : WriteOut.Keeps κ (Machine.writeResourceQuery s w b) :=
  WriteOut.Keeps.ite hs.refuse hs.setSess.applied

theorem Steady.writeLimpCmd {s : State} {b : Bytes} (hs : Steady κ s) : WriteOut.Keeps κ (Machine.writeLimpCmd s b) := by
  unfold Machine.writeLimpCmd
  split
  · exact hs.refuse
  · split
    · exact (Steady.ite hs hs.enterLimp).applied
    · exact WriteOut.Keeps.ite hs.applied ((((hs.forS (fun _ _ hs3 => Steady.ite hs3 hs3.setNum)).same).setNum).applied)
    · exact hs.refuse

theorem Steady.quitRec {s : State} {x : Desc} (hs : Steady κ s) : Steady κ (Machine.quitRec s x) := by
  unfold Machine.quitRec
  split
  · exact hs
  · split
    · exact hs
    · exact Steady.ite hs.dropRec hs.same

theorem Steady.abortDesc {s : State} {d : DescRef} (hs : Steady κ s) : Steady κ (Machine.abortDesc s d) := by
  unfold Machine.abortDesc
  split
  · exact hs
  · extract_lets x s1 s2 s3
    have hs1 : Steady κ s1 := hs.quitRec.setDesc
    have hs2 : Steady κ s2 := by
      dsimp only [s2]
      split
      · split
        · exact hs1.taintStep
        · exact hs1
      · exact hs1
    have hs3 : Steady κ s3 := hs2.setDesc
    exact Steady.ite hs2.denyLaunch hs3.endDesc

theorem Steady.execStickyWrite {w : Writer} {code : ℕ} {value : Bytes} {s : State} (hs : Steady κ s) : Res.Keeps κ (Machine.execStickyWrite w code value s) :=
  Steady.endWrite (WriteOut.Keeps.ite hs.writeSticky hs.refuse)

theorem Steady.execStickyClearAll {w : Writer} {value : Bytes} {s : State} (hs : Steady κ s) : Res.Keeps κ (Machine.execStickyClearAll w value s) :=
  Steady.endWrite hs.writeStickyClear

theorem Steady.execTrackerBankLoss {bank : ℕ} {s : State} (hs : Steady κ s) : Res.Keeps κ (Machine.execTrackerBankLoss bank s) :=
  Res.Keeps.ite (Res.Keeps.next hs) (Res.Keeps.next hs.loseTrackers.detectFault.fin)

theorem Steady.execRecoveryStart {s : State} (hs : Steady κ s) : Res.Keeps κ (Machine.execRecoveryStart s) := by
  unfold Machine.execRecoveryStart
  split
  · exact Res.Keeps.next (((Steady.ite hs.same.setNum hs.same.setNum.openWindow).recoveryEffect).fin)
  · exact Res.Keeps.next hs

theorem Steady.execRecoveryEnd {s : State} (hs : Steady κ s) : Res.Keeps κ (Machine.execRecoveryEnd s) := by
  unfold Machine.execRecoveryEnd
  split
  · exact Res.Keeps.next hs
  · exact Res.Keeps.ite (Res.Keeps.next hs) (Res.Keeps.next (Steady.ite ((Steady.ite hs.same.logRecovery hs.same.logRecovery.setWindow).setDom)
        (Steady.ite hs.same.logRecovery hs.same.logRecovery.setWindow)))

theorem Steady.execWindowClose {res : ℕ} {s : State} (hs : Steady κ s) : Res.Keeps κ (Machine.execWindowClose res s) := by
  unfold Machine.execWindowClose
  refine Res.Keeps.next ?_
  split
  · exact Steady.ite hs.setWindow hs
  · exact hs

theorem Steady.execResourceRelease {w : Writer} {value : Bytes} {s : State} (hs : Steady κ s) : Res.Keeps κ (Machine.execResourceRelease w value s) :=
  Steady.endWrite hs.writeRelease

theorem Steady.execResourceQuery {w : Writer} {value : Bytes} {s : State} (hs : Steady κ s) : Res.Keeps κ (Machine.execResourceQuery w value s) :=
  Steady.endWrite hs.writeResourceQuery

theorem Steady.execLimpEnter {w : Writer} {s : State} (hs : Steady κ s) : Res.Keeps κ (Machine.execLimpEnter w s) :=
  Steady.endWrite hs.writeLimpCmd

theorem Steady.execLimpExit {w : Writer} {s : State} (hs : Steady κ s) : Res.Keeps κ (Machine.execLimpExit w s) :=
  Steady.endWrite hs.writeLimpCmd

theorem Steady.execEngineFault {kind unit : ℕ} {d : Option DescRef} {s : State} (hs : Steady κ s) : Res.Keeps κ (Machine.execEngineFault kind unit d s) := by
  unfold Machine.execEngineFault
  split
  · exact Res.Keeps.next hs
  · extract_lets x part tag s1
    have hs1 : Steady κ s1 := hs.detectFault
    refine Res.Keeps.next ?_
    refine Steady.fin ?_
    split
    · exact hs1.abortDesc
    · exact hs1
end Sys2Proof.Machine
end

section
/-! What the model's `Power` part leaves `Steady`. -/
namespace Sys2Proof.Machine
variable {κ : Option (List Instr × Hem)}

theorem Steady.setVolt {s : State} {d v : ℕ} (hs : Steady κ s) : Steady κ (Machine.setVolt s d v) :=
  hs.same

theorem Steady.forgetDom {s : State} {d : ℕ} (hs : Steady κ s) : Steady κ (Machine.forgetDom s d) :=
  hs.same

theorem Steady.switchOff {s : State} {d : ℕ} (hs : Steady κ s) : Steady κ (Machine.switchOff s d) :=
  (((Steady.ite hs.same hs).domLost).forgetDom).setDom

theorem Steady.powerUp {s : State} {d : ℕ} (hs : Steady κ s) : Steady κ (Machine.powerUp s d) := by
  unfold Machine.powerUp
  extract_lets s1 s2
  have hs1 : Steady κ s1 := (Steady.ite hs.setVolt hs).setDom
  have hs2 : Steady κ s2 := hs1.setDom
  split
  · exact hs1
  · split
    · exact hs2.startCore
    · exact hs2

theorem Steady.startMoveDom {s : State} {w : Writer} {d to_ : ℕ} (hs : Steady κ s) : Steady κ (Machine.startMoveDom s w d to_) :=
  hs.same

theorem Steady.dropMove {s : State} {d : ℕ} (hs : Steady κ s) : Steady κ (Machine.dropMove s d) := by
  unfold Machine.dropMove
  refine Steady.forS hs.same (fun _ _ hs1 => ?_)
  split
  · exact hs1.answerWaiting
  · exact hs1

theorem Steady.writeDomTarget {s : State} {w : Writer} {d : ℕ} {b : Bytes} (hs : Steady κ s) : WriteOut.Keeps κ (Machine.writeDomTarget s w d b) := by
  unfold Machine.writeDomTarget
  extract_lets v s1 s2
  have hs1 : Steady κ s1 := hs.dropMove.setNum
  have hs2 : Steady κ s2 := Steady.ite hs1.unsweep.detachLines hs1
  split
  · exact hs.refuse
  · split
    · exact hs.refuse
    · split
      · exact hs.refuse
      · exact WriteOut.Keeps.ite hs.refuse (WriteOut.Keeps.ite (WriteOut.Keeps.ite hs1.applied (WriteOut.Keeps.wait hs2.startMoveDom))
            (WriteOut.Keeps.ite (WriteOut.Keeps.wait hs1.startMoveDom) (WriteOut.Keeps.ite (WriteOut.Keeps.wait hs1.startMoveDom) hs1.applied)))

theorem Steady.writePadRelease {s : State} {b : Bytes} (hs : Steady κ s) : WriteOut.Keeps κ (Machine.writePadRelease s b) :=
  WriteOut.Keeps.ite hs.refuse ((hs.forS (fun _ _ hs1 => hs1.releasePad)).applied)

theorem Steady.brownoutLoss {s : State} {d : ℕ} (hs : Steady κ s) : Steady κ (Machine.brownoutLoss s d) := by
  unfold Machine.brownoutLoss
  extract_lets restart
  have hrestart : ∀ t c, Steady κ t → Steady κ (restart t c) := fun t c ht => by
    unfold restart
    split
    · exact ht.startCore.latch
    · exact ht
  refine Steady.ite ?_ (Steady.ite (Steady.foldl hs.recoverAgent hrestart) (Steady.ite hs.enterLadder (Steady.ite hs.enterLadder
      (Steady.ite hs.enterLadder (Steady.ite hs.enterLadder
    (Steady.ite hs.same (Steady.ite hs (Steady.ite ?_ (Steady.ite ?_ hs)))))))))
  · split
    · exact hs.latch
    · exact hs
  · exact Steady.loseBank hs.same
  · exact Steady.foldl hs.loseTrackers fun t ln ht => ht.detectFault.submitTxn

theorem Steady.raiseLevel {s : State} {d : ℕ} (hs : Steady κ s) : Steady κ (Machine.raiseLevel s d) :=
  Steady.ite hs.same (Steady.ite hs.same hs.same)

theorem Steady.levelPeriod {s : State} {low : List ℕ} {d : ℕ} (hs : Steady κ s) : Steady κ (Machine.levelPeriod s low d) := by
  unfold Machine.levelPeriod
  extract_lets p stamp
  split
  · exact hs
  · split
    · exact hs.same
    · split
      · exact hs
      · exact Steady.ite (Steady.ite hs hs.same) (Steady.ite hs hs.same)

theorem Steady.avsDom {s : State} {d margin : ℕ} (hs : Steady κ s) : Steady κ (Machine.avsDom s d margin) :=
  Steady.ite (Steady.ite hs.same hs.same.setVolt.bump) (Steady.ite hs (Steady.ite (Steady.ite hs.same hs.same.setVolt.bump) (Steady.ite
      (Steady.ite hs.same hs.same.setVolt.bump) hs)))

theorem Steady.clockVolts {s : State} {c : Bool} {div : ℕ} (hs : Steady κ s) : Steady κ (Machine.clockVolts s c div) :=
  hs.forS (fun _ _ hs1 => hs1.setVolt)

theorem Steady.setPowerDemand {s : State} {x : ℕ × ℕ} (hs : Steady κ s) : Steady κ (Machine.setPowerDemand s x) :=
  hs.same

theorem Steady.execDomTarget {w : Writer} {dom : ℕ} {value : Bytes} {s : State} (hs : Steady κ s) : Res.Keeps κ (Machine.execDomTarget w dom value s) :=
  Steady.endWrite (WriteOut.Keeps.ite hs.writeDomTarget hs.refuse)

theorem Steady.execDomTransitionEnd {dom : ℕ} {s : State} (hs : Steady κ s) : Res.Keeps κ (Machine.execDomTransitionEnd dom s) := by
  unfold Machine.execDomTransitionEnd
  split
  · exact Res.Keeps.next hs
  · split
    · split
      · exact Res.Keeps.next hs
      · extract_lets __src s1 s2
        have hs1 : Steady κ s1 := hs.same
        have hs2 : Steady κ s2 := by
          dsimp only [s2]
          split
          · exact hs1.switchOff
          · exact hs1.powerUp
          · exact hs1.setDom
        refine Res.Keeps.next ?_
        refine Steady.bellScan ?_
        refine Steady.fin ?_
        split
        · exact hs2.answerWaiting
        · exact hs2
    · split
      · exact Res.Keeps.next hs
      · extract_lets __src s1 s2
        have hs1 : Steady κ s1 := hs.same
        have hs2 : Steady κ s2 := by
          dsimp only [s2]
          split
          · exact hs1.switchOff
          · exact hs1.powerUp
          · exact hs1.setDom
        refine Res.Keeps.next ?_
        refine Steady.bellScan ?_
        refine Steady.fin ?_
        split
        · exact hs2.answerWaiting
        · exact hs2

theorem Steady.execDomIdleCg {dom : ℕ} {s : State} (hs : Steady κ s) : Res.Keeps κ (Machine.execDomIdleCg dom s) :=
  Res.Keeps.next (Steady.ite hs.setDom.bellScan hs)

theorem Steady.execDomIdleRet {dom : ℕ} {tempC : ℤ} {s : State} (hs : Steady κ s) : Res.Keeps κ (Machine.execDomIdleRet dom tempC s) :=
  Res.Keeps.next (Steady.ite hs.setDom.bellScan hs)

theorem Steady.execDomWake {dom : ℕ} {s : State} (hs : Steady κ s) : Res.Keeps κ (Machine.execDomWake dom s) :=
  Res.Keeps.next (Steady.ite (((Steady.ite hs.wakeCluster hs).setDom).bellScan) hs)

theorem Steady.execRetOverTemperature {dom : ℕ} {tempC : ℤ} {s : State} (hs : Steady κ s) : Res.Keeps κ (Machine.execRetOverTemperature dom tempC s) :=
  Res.Keeps.next (Steady.ite hs.setDom.bellScan hs)

theorem Steady.execPadRelease {w : Writer} {value : Bytes} {s : State} (hs : Steady κ s) : Res.Keeps κ (Machine.execPadRelease w value s) :=
  Steady.endWrite hs.writePadRelease

theorem Steady.execCwPadRelease {h : Head} {dom : ℕ} {s : State} (hs : Steady κ s) : Res.Keeps κ (Machine.execCwPadRelease h dom s) :=
  Res.Keeps.next hs.cwStore.fin

theorem Steady.execCwPadReleaseAll {h : Head} {s : State} (hs : Steady κ s) : Res.Keeps κ (Machine.execCwPadReleaseAll h s) :=
  Res.Keeps.next hs.cwStore.fin

theorem Steady.execPowerBrownout {dom : ℕ} {s : State} (hs : Steady κ s) : Res.Keeps κ (Machine.execPowerBrownout dom s) :=
  Res.Keeps.ite (Res.Keeps.next hs) (Res.Keeps.ite (Res.Keeps.next hs.noteFault.latch.deviceReset) (Res.Keeps.next
      (((Steady.ite hs.noteFault.latch.brownoutLoss.switchOff hs.noteFault.latch.brownoutLoss.switchOff.same).fin).bellScan)))

theorem Steady.execPowerMargin {dom : ℕ} {s : State} (hs : Steady κ s) : Res.Keeps κ (Machine.execPowerMargin dom s) :=
  Res.Keeps.ite (Res.Keeps.next hs) (Res.Keeps.next (((Steady.ite hs.noteFault.latch hs).same).raiseLevel))

theorem Steady.execMarginStep {dom : ℕ} {s : State} (hs : Steady κ s) : Res.Keeps κ (Machine.execMarginStep dom s) := by
  unfold Machine.execMarginStep
  refine Res.Keeps.next ?_
  split
  · exact Steady.ite hs.raiseLevel hs
  · exact hs

theorem Steady.execAvsPeriod {margins : List (ℕ × ℕ)} {low : List ℕ} {s : State} (hs : Steady κ s) : Res.Keeps κ (Machine.execAvsPeriod margins low s) :=
  Res.Keeps.ite (Res.Keeps.next hs) (Res.Keeps.next ((hs.same.forS (fun _ _ hs1 => hs1.avsDom)).forS (fun _ _ hs1 => hs1.levelPeriod)))

theorem Steady.execDivisorStep {clockC : Bool} {s : State} (hs : Steady κ s) : Res.Keeps κ (Machine.execDivisorStep clockC s) :=
  Res.Keeps.next (Steady.ite hs (Steady.ite (Steady.ite hs (Steady.ite hs.setNum.same.bump hs.setNum.same.bump.clockVolts))
      (Steady.ite hs hs.clockVolts.setNum.same.bump)))

theorem Steady.execPl2Eval {meanMw : ℕ} {s : State} (hs : Steady κ s) : Res.Keeps κ (Machine.execPl2Eval meanMw s) := by
  unfold Machine.execPl2Eval
  extract_lets early __src s1
  have hs1 : Steady κ s1 := Steady.ite hs hs.same.setNum
  refine Res.Keeps.next ?_
  split
  · exact hs1
  · split
    · exact hs1.setPowerDemand.bump.latch
    · exact hs1

theorem Steady.execPl2Sustained {s : State} (hs : Steady κ s) : Res.Keeps κ (Machine.execPl2Sustained s) :=
  Res.Keeps.next (Steady.ite hs.setPowerDemand hs.setPowerDemand.bumpBy.latch)

theorem Steady.execPl1Eval {tauMw last10Mw : Nat} {s : State} (hs : Steady κ s) : Res.Keeps κ (Machine.execPl1Eval tauMw last10Mw s) := by
  unfold Machine.execPl1Eval
  extract_lets lim early p s' act
  have hs' : Steady κ s' := Steady.ite hs hs.same
  have hact : ∀ x, Steady κ (act x) := by
    intro x
    cases x with
    | none => exact hs'
    | some y => exact hs'.setPowerDemand.bump
  refine .next ?_
  split
  · exact hs'
  · split
    · exact hact _
    · split
      · exact hact _
      · exact hs'

theorem Steady.execThrottleStep {dom : ℕ} {tempC : ℤ} {s : State} (hs : Steady κ s) : Res.Keeps κ (Machine.execThrottleStep dom tempC s) := by
  unfold Machine.execThrottleStep
  refine Res.Keeps.next ?_
  split
  · exact hs
  · extract_lets __src s1 __src1
    have hs1 : Steady κ s1 := hs.same
    split
    · exact hs1.same.bump
    · exact hs1

theorem Steady.execThrottleStepUp {hottestC : ℤ} {s : State} (hs : Steady κ s) : Res.Keeps κ (Machine.execThrottleStepUp hottestC s) := by
  unfold Machine.execThrottleStepUp
  refine Res.Keeps.next ?_
  split
  · exact hs
  · split
    · exact hs.same
    · exact hs

theorem Steady.execThermalTrip {dom : ℕ} {tempC : ℤ} {s : State} (hs : Steady κ s) : Res.Keeps κ (Machine.execThermalTrip dom tempC s) :=
  Res.Keeps.next (Steady.ite hs hs.noteFault.same)

theorem Steady.execThermalTripClear {hottestC : ℤ} {s : State} (hs : Steady κ s) : Res.Keeps κ (Machine.execThermalTripClear hottestC s) :=
  Res.Keeps.next (Steady.ite hs hs.same)

theorem Steady.execHardTrip {dom : ℕ} {tempC : ℤ} {s : State} (hs : Steady κ s) : Res.Keeps κ (Machine.execHardTrip dom tempC s) :=
  Res.Keeps.next (Steady.ite hs hs.recordFault.wipe.setNum.same)

theorem Steady.execDramEyePass {channel : ℕ} {tempC : ℤ} {steps : List (ℕ × ℤ × ℤ)} {s : State} (hs : Steady κ s) : Res.Keeps κ
    (Machine.execDramEyePass channel tempC steps s) :=
  Res.Keeps.ite (Res.Keeps.next hs) (Res.Keeps.next (Steady.ite (((hs.same.forS (fun _ _ hs1 => Steady.ite hs1 hs1.same.bump)).enterLadder).fin)
      (hs.same.forS (fun _ _ hs1 => Steady.ite hs1 hs1.same.bump))))
end Sys2Proof.Machine
end

section
/-! What the model's `Boot` part leaves `Steady`. -/
namespace Sys2Proof.Machine
variable {κ : Option (List Instr × Hem)}

theorem Steady.setDevState {s : State} {st : ℕ} (hs : Steady κ s) : Steady κ (Machine.setDevState s st) :=
  Steady.ite hs hs.setNum.bump.latch

theorem Steady.wakeDevice {s : State} (hs : Steady κ s) : Steady κ (Machine.wakeDevice s) :=
  ((Steady.ite ((hs.forS (fun _ _ hs1 => hs1.setDom)).same) (hs.forS (fun _ _ hs1 => hs1.setDom))).setDevState).bellScan

theorem Steady.enterN2 {s : State} (hs : Steady κ s) : Steady κ (Machine.enterN2 s) :=
  Steady.ite hs ((((hs.forS (fun _ _ hs1 => hs1.setDom)).same).setDevState).bellScan)

theorem Steady.writeDevTarget {s : State} {b : Bytes} (hs : Steady κ s) : WriteOut.Keeps κ (Machine.writeDevTarget s b) :=
  WriteOut.Keeps.ite hs.refuse (WriteOut.Keeps.ite hs.refuse (WriteOut.Keeps.ite hs.refuse (((Steady.ite hs.setNum.wakeDevice hs.setNum).enterN2).applied)))

theorem Steady.flushClusters {s : State} (hs : Steady κ s) : Steady κ (Machine.flushClusters s) :=
  ((hs.forS (fun _ _ hs1 => Steady.ite hs1.lineWrite hs1)).forS ((fun _ _ hs1 => hs1.forS (fun _ _ hs2 => hs2.dropHolder)))).same

theorem Steady.writeResetCmd {s : State} {b : Bytes} (hs : Steady κ s) : WriteOut.Keeps κ (Machine.writeResetCmd s b) :=
  WriteOut.Keeps.ite hs.refuse (WriteOut.Keeps.ite hs.refuse hs.deviceReset.applied)

theorem Steady.mainLost {s : State} (hs : Steady κ s) : Steady κ (Machine.mainLost s) :=
  hs.deviceReset.same

theorem Steady.flashWrite {s : State} {a : ℕ} {d : Bytes} (hs : Steady κ s) : Steady κ (Machine.flashWrite s a d) :=
  hs.same

theorem Steady.flashErase {s : State} {a n : ℕ} (hs : Steady κ s) : Steady κ (Machine.flashErase s a n) :=
  hs.same

theorem Steady.putRecord {s : State} {copy seq active trial : ℕ} (hs : Steady κ s) : Steady κ (Machine.putRecord s copy seq active trial) :=
  hs.flashWrite

theorem Steady.newBootRecord {s : State} {active trial : ℕ} (hs : Steady κ s) : Steady κ (Machine.newBootRecord s active trial) := by
  unfold Machine.newBootRecord
  split
  · exact hs.putRecord
  · exact hs.putRecord

theorem Steady.bootImage {s : State} {i : ℕ} (hs : Steady κ s) : Steady κ (Machine.bootImage s i) :=
  hs.same.setNum.setNum.setBlob.setBlob.setNum.same.setNum

theorem Steady.fwBegin {s : State} (hs : Steady κ s) : WriteOut.Keeps κ (Machine.fwBegin s) :=
  WriteOut.Keeps.ite hs.refuse hs.flashErase.same.setNum.setNum.applied

theorem Steady.fwCommit {s : State} (hs : Steady κ s) : WriteOut.Keeps κ (Machine.fwCommit s) :=
  WriteOut.Keeps.ite hs.refuse (WriteOut.Keeps.ite hs.setNum.setBlob.applied hs.setNum.applied)

theorem Steady.fwActivate {s : State} (hs : Steady κ s) : WriteOut.Keeps κ (Machine.fwActivate s) := by
  unfold Machine.fwActivate
  extract_lets off h ld put carries s1 s2
  have hs1 : Steady κ s1 := Steady.ite hs.flashErase.flashWrite hs
  have hs2 : Steady κ s2 := Steady.ite hs1.flashErase.flashWrite hs1
  exact WriteOut.Keeps.ite hs.refuse (WriteOut.Keeps.ite hs1.setNum.applied hs2.newBootRecord.setNum.setNum.applied)

theorem Steady.fwAbort {s : State} (hs : Steady κ s) : WriteOut.Keeps κ (Machine.fwAbort s) :=
  hs.setNum.applied

theorem Steady.writeFwCmd {s : State} {b : Bytes} (hs : Steady κ s) : WriteOut.Keeps κ (Machine.writeFwCmd s b) := by
  unfold Machine.writeFwCmd
  split
  · exact hs.refuse
  · split
    · exact hs.fwBegin
    · exact hs.fwCommit
    · exact hs.fwActivate
    · exact hs.fwAbort
    · exact hs.refuse

theorem Steady.writeFwChunk {s : State} {b : Bytes} (hs : Steady κ s) : WriteOut.Keeps κ (Machine.writeFwChunk s b) :=
  WriteOut.Keeps.ite hs.refuse (WriteOut.Keeps.ite hs.refuse (WriteOut.Keeps.ite hs.refuse hs.flashWrite.same.setNum.applied))

theorem Steady.writeFwConfirm {s : State} {b : Bytes} (hs : Steady κ s) : WriteOut.Keeps κ (Machine.writeFwConfirm s b) := by
  unfold Machine.writeFwConfirm
  refine Steady.boolWrite hs (fun _ => ?_)
  refine Steady.applied ?_
  split
  · exact Steady.ite hs hs.newBootRecord.setNum
  · exact hs

theorem Steady.execDevTarget {w : Writer} {value : Bytes} {s : State} (hs : Steady κ s) : Res.Keeps κ (Machine.execDevTarget w value s) :=
  Steady.endWrite hs.writeDevTarget

theorem Steady.execN1Idle {s : State} (hs : Steady κ s) : Res.Keeps κ (Machine.execN1Idle s) :=
  Res.Keeps.next (Steady.ite hs ((((hs.forS (fun _ _ hs1 => hs1.setDom)).same).setDevState).bellScan))

theorem Steady.execWakeEvent {wakeL : Bool} {s : State} (hs : Steady κ s) : Res.Keeps κ (Machine.execWakeEvent wakeL s) :=
  Res.Keeps.next (Steady.ite ((Steady.ite hs.latch hs).wakeDevice) (Steady.ite (((Steady.ite hs.latch hs).setNum).wakeDevice) (Steady.ite
      ((Steady.ite hs.latch hs).setNum) (Steady.ite hs.latch hs))))

theorem Steady.execN3Entry {s : State} (hs : Steady κ s) : Res.Keeps κ (Machine.execN3Entry s) := by
  unfold Machine.execN3Entry
  refine .next ?_
  split
  · exact hs
  · extract_lets s1 s2 on p s3 s4
    have h1 : Steady κ s1 := hs.forS fun _ _ h => h.endSession
    have h2 : Steady κ s2 := h1.flushClusters
    clear_value s2
    have h3 : Steady κ s3 := h2.same.keysMade
    have h4 : Steady κ s4 := h3.forS fun _ _ h => Steady.ite h.setDom (Steady.ite h.domLost h).forgetDom.setDom
    exact h4.setDevState.bellScan

theorem Steady.execN3Wake {landingBad : List ℕ} {otherBad : Bool} {s : State} (hs : Steady κ s) : Res.Keeps κ (Machine.execN3Wake landingBad otherBad s) :=
  Res.Keeps.next (Steady.ite hs (Steady.ite hs.deviceReset ((((hs.same.keysGone.forS (fun _ _ hs1 => Steady.ite hs1.powerUp hs1)).forS
      (fun _ _ hs1 => hs1.releasePad)).wakeDevice).enterN2)))

theorem Steady.execResetCmd {w : Writer} {value : Bytes} {s : State} (hs : Steady κ s) : Res.Keeps κ (Machine.execResetCmd w value s) :=
  Steady.endWrite hs.writeResetCmd

theorem Steady.execPerst {hottestC : ℤ} {s : State} (hs : Steady κ s) : Res.Keeps κ (Machine.execPerst hottestC s) :=
  Res.Keeps.next (Steady.ite hs hs.deviceReset.same)

theorem Steady.execPerstRelease {s : State} (hs : Steady κ s) : Res.Keeps κ (Machine.execPerstRelease s) :=
  Res.Keeps.next (Steady.ite hs.same hs)

theorem Steady.execWatchdogReset {s : State} (hs : Steady κ s) : Res.Keeps κ (Machine.execWatchdogReset s) :=
  Res.Keeps.next (Steady.ite hs.deviceReset hs)

theorem Steady.execRefclkLoss {s : State} (hs : Steady κ s) : Res.Keeps κ (Machine.execRefclkLoss s) :=
  Res.Keeps.next (Steady.ite hs (hs.wipe.setNum.same.forS (fun _ _ hs1 => hs1.setDom)))

theorem Steady.execRefclkReturn {s : State} (hs : Steady κ s) : Res.Keeps κ (Machine.execRefclkReturn s) :=
  Res.Keeps.next (Steady.ite hs hs.same.deviceReset)

theorem Steady.execVstbyApply {s : State} (hs : Steady κ s) : Res.Keeps κ (Machine.execVstbyApply s) :=
  Res.Keeps.next (Steady.ite hs hs.same.deviceReset.same)

theorem Steady.execVstbyLoss {s : State} (hs : Steady κ s) : Res.Keeps κ (Machine.execVstbyLoss s) :=
  Res.Keeps.next hs.deviceReset.setNum.setNum.same

theorem Steady.execMainPwrgdFall {s : State} (hs : Steady κ s) : Res.Keeps κ (Machine.execMainPwrgdFall s) :=
  Res.Keeps.next (Steady.ite hs.mainLost.setNum.latch hs)

theorem Steady.execVinCoreLow {s : State} (hs : Steady κ s) : Res.Keeps κ (Machine.execVinCoreLow s) :=
  Res.Keeps.next (Steady.ite hs.mainLost hs)

theorem Steady.execMainPwrgdRise {s : State} (hs : Steady κ s) : Res.Keeps κ (Machine.execMainPwrgdRise s) :=
  Res.Keeps.next (Steady.ite hs.setNum.latch hs)

theorem Steady.execSledPrsntAsserted {s : State} (hs : Steady κ s) : Res.Keeps κ (Machine.execSledPrsntAsserted s) :=
  Res.Keeps.next (Steady.ite hs hs.setNum.latch)

theorem Steady.execSledPrsnt {s : State} (hs : Steady κ s) : Res.Keeps κ (Machine.execSledPrsnt s) :=
  Res.Keeps.next (Steady.ite hs (Steady.ite hs.setNum.latch ((((Steady.ite hs.setNum.latch.same.setNum hs.setNum.latch.same).forS
      (fun _ _ hs1 => hs1.portDown)).portsStopEnd).fin)))

theorem Steady.execBootRom {s : State} (hs : Steady κ s) : Res.Keeps κ (Machine.execBootRom s) :=
  Res.Keeps.ite (Res.Keeps.next hs) (Res.Keeps.next (Steady.ite hs.setNum hs.same.setNum))

theorem Steady.execLoaderBoot {s : State} (hs : Steady κ s) : Res.Keeps κ (Machine.execLoaderBoot s) := by
  unfold Machine.execLoaderBoot
  split
  · exact Res.Keeps.next hs
  · extract_lets ok
    refine Res.Keeps.next ?_
    split
    · extract_lets a s1 a1
      have hs1 : Steady κ s1 := Steady.ite hs.newBootRecord.setNum (Steady.ite hs.newBootRecord hs)
      exact Steady.ite hs1.bootImage (Steady.ite hs1.bootImage hs1.setNum)
    · exact Steady.ite hs.putRecord.putRecord.bootImage (Steady.ite hs.putRecord.putRecord.bootImage hs.setNum)

theorem Steady.execFwUpdateBegin {w : Writer} {s : State} (hs : Steady κ s) : Res.Keeps κ (Machine.execFwUpdateBegin w s) :=
  Steady.endWrite hs.fwBegin

theorem Steady.execFwUpdateChunk {w : Writer} {value : Bytes} {s : State} (hs : Steady κ s) : Res.Keeps κ (Machine.execFwUpdateChunk w value s) :=
  Steady.endWrite hs.writeFwChunk

theorem Steady.execFwUpdateCommit {w : Writer} {s : State} (hs : Steady κ s) : Res.Keeps κ (Machine.execFwUpdateCommit w s) :=
  Steady.endWrite hs.fwCommit

theorem Steady.execFwUpdateActivate {w : Writer} {s : State} (hs : Steady κ s) : Res.Keeps κ (Machine.execFwUpdateActivate w s) :=
  Steady.endWrite hs.fwActivate

theorem Steady.execFwUpdateAbort {w : Writer} {s : State} (hs : Steady κ s) : Res.Keeps κ (Machine.execFwUpdateAbort w s) :=
  Steady.endWrite hs.fwAbort

theorem Steady.execFwConfirm {w : Writer} {value : Bytes} {s : State} (hs : Steady κ s) : Res.Keeps κ (Machine.execFwConfirm w value s) :=
  Steady.endWrite hs.writeFwConfirm
end Sys2Proof.Machine
end

section
/-! What the model's `HostSecurity` part leaves `Steady`. -/
namespace Sys2Proof.Machine
variable {κ : Option (List Instr × Hem)}

theorem Steady.hostSays {s : State} {p code : ℕ} {d : Bytes} (hs : Steady κ s) : Steady κ (Machine.hostSays s p code d) :=
  hs.same

theorem Steady.spdmError {s : State} {p why : ℕ} (hs : Steady κ s) : Steady κ (Machine.spdmError s p why) :=
  hs.hostSays

theorem Steady.setHost {s : State} {p : ℕ} {f : HostFn → HostFn} (hs : Steady κ s) : Steady κ (Machine.setHost s p f) :=
  hs.setPort

theorem Steady.ideSettle {s : State} {p : ℕ} (hs : Steady κ s) : Steady κ (Machine.ideSettle s p) :=
  hs.setHost.setBlob

theorem Steady.mailFree {s : State} {n : ℕ} (hs : Steady κ s) : Steady κ (Machine.mailFree s n).2 :=
  hs.freshFree

theorem Steady.onDoe {s : State} {p : ℕ} {f : State} (hs : Steady κ s) (hf : Steady κ f) : Res.Keeps κ (Machine.onDoe s p f) :=
  Res.Keeps.next (Steady.ite hf hs)

theorem Steady.onSpdm {s : State} {p : ℕ} {f : State} (hs : Steady κ s) (hf : Steady κ f) : Res.Keeps κ (Machine.onSpdm s p f) :=
  hs.onDoe (Steady.ite hf hs.spdmError)

theorem Steady.execSpdmGetVersion {port : ℕ} {s : State} (hs : Steady κ s) : Res.Keeps κ (Machine.execSpdmGetVersion port s) :=
  hs.onDoe hs.setHost.hostSays

theorem Steady.execSpdmGetCapabilities {port : ℕ} {s : State} (hs : Steady κ s) : Res.Keeps κ (Machine.execSpdmGetCapabilities port s) :=
  hs.onDoe (Steady.ite hs.spdmError hs.setHost.hostSays)

theorem Steady.execSpdmNegotiateAlgorithms {port : ℕ} {offered : Bool} {s : State} (hs : Steady κ s) : Res.Keeps κ (Machine.execSpdmNegotiateAlgorithms port offered s) :=
  hs.onDoe (Steady.ite hs.spdmError (Steady.ite hs.spdmError hs.setHost.hostSays))

theorem Steady.execSpdmGetDigests {port : ℕ} {s : State} (hs : Steady κ s) : Res.Keeps κ (Machine.execSpdmGetDigests port s) :=
  hs.onSpdm hs.hostSays

theorem Steady.execSpdmGetCertificate {port slot off len : ℕ} {s : State} (hs : Steady κ s) : Res.Keeps κ (Machine.execSpdmGetCertificate port slot off len s) :=
  hs.onSpdm (Steady.ite hs.spdmError hs.hostSays)

theorem Steady.execSpdmChallenge {port slot : ℕ} {s : State} (hs : Steady κ s) : Res.Keeps κ (Machine.execSpdmChallenge port slot s) :=
  hs.onSpdm (Steady.ite hs.spdmError hs.drawBytes.hostSays)

theorem Steady.execSpdmGetMeasurements {port index : ℕ} {signed : Bool} {s : State} (hs : Steady κ s) : Res.Keeps κ
    (Machine.execSpdmGetMeasurements port index signed s) :=
  hs.onSpdm (Steady.ite (Steady.ite hs.drawBytes.hostSays hs.hostSays) (Steady.ite (Steady.ite hs.drawBytes.hostSays hs.hostSays) (Steady.ite
      (Steady.ite hs.drawBytes.hostSays hs.hostSays) hs.spdmError)))

theorem Steady.execSpdmKeyExchange {port slot : ℕ} {s : State} (hs : Steady κ s) : Res.Keeps κ (Machine.execSpdmKeyExchange port slot s) :=
  hs.onSpdm (Steady.ite hs.spdmError hs.drawBytes.setHost.keysMade.hostSays)

theorem Steady.execSpdmFinish {port : ℕ} {ok : Bool} {s : State} (hs : Steady κ s) : Res.Keeps κ (Machine.execSpdmFinish port ok s) :=
  hs.onSpdm (Steady.ite hs.spdmError (Steady.ite hs.setHost.hostSays hs.setHost.keysGone.spdmError))

theorem Steady.execSpdmEndSession {port : ℕ} {s : State} (hs : Steady κ s) : Res.Keeps κ (Machine.execSpdmEndSession port s) :=
  hs.onSpdm (Steady.ite hs.spdmError hs.setHost.keysGone.hostSays)

theorem Steady.onKm {s : State} {p : ℕ} {cxl : Bool} {f : State} (hs : Steady κ s) (hf : Steady κ f) : Res.Keeps κ (Machine.onKm s p cxl f) :=
  hs.onDoe (Steady.ite hs.spdmError (Steady.ite hs.spdmError hf))

theorem Steady.execIdeKmQuery {port : ℕ} {s : State} (hs : Steady κ s) : Res.Keeps κ (Machine.execIdeKmQuery port s) :=
  hs.onKm hs.hostSays

theorem Steady.execIdeKmKeyProg {port : ℕ} {cxl tx : Bool} {s : State} (hs : Steady κ s) : Res.Keeps κ (Machine.execIdeKmKeyProg port cxl tx s) :=
  hs.onKm (((Steady.ite hs.keysGone hs).setHost).hostSays)

theorem Steady.execIdeKmKSetGo {port : ℕ} {cxl tx : Bool} {s : State} (hs : Steady κ s) : Res.Keeps κ (Machine.execIdeKmKSetGo port cxl tx s) :=
  hs.onKm ((Steady.ite hs.setHost.ideSettle hs).hostSays)

theorem Steady.execIdeKmKSetStop {port : ℕ} {cxl tx : Bool} {s : State} (hs : Steady κ s) : Res.Keeps κ (Machine.execIdeKmKSetStop port cxl tx s) :=
  hs.onKm hs.setHost.ideSettle.hostSays

theorem Steady.onMail {s : State} {p : ℕ} {f : State} (hs : Steady κ s) (hf : Steady κ f) : Res.Keeps κ (Machine.onMail s p f) :=
  Res.Keeps.next (Steady.ite hf hs)

theorem Steady.execIdentifyMemoryDevice {port : ℕ} {s : State} (hs : Steady κ s) : Res.Keeps κ (Machine.execIdentifyMemoryDevice port s) :=
  hs.onMail hs.mailFree.hostSays

theorem Steady.execGetSupportedLogs {port : ℕ} {s : State} (hs : Steady κ s) : Res.Keeps κ (Machine.execGetSupportedLogs port s) :=
  hs.onMail hs.hostSays

theorem Steady.execGetLog {port off len : ℕ} {s : State} (hs : Steady κ s) : Res.Keeps κ (Machine.execGetLog port off len s) :=
  hs.onMail hs.hostSays

theorem Steady.execGetEventRecords {port : ℕ} {s : State} (hs : Steady κ s) : Res.Keeps κ (Machine.execGetEventRecords port s) :=
  hs.onMail hs.hostSays

theorem Steady.execClearEventRecords {port count : ℕ} {s : State} (hs : Steady κ s) : Res.Keeps κ (Machine.execClearEventRecords port count s) :=
  hs.onMail hs.setHost.hostSays

theorem Steady.execGetHealthInfo {port : ℕ} {s : State} (hs : Steady κ s) : Res.Keeps κ (Machine.execGetHealthInfo port s) :=
  hs.onMail hs.mailFree.hostSays

theorem Steady.execGetPartitionInfo {port : ℕ} {s : State} (hs : Steady κ s) : Res.Keeps κ (Machine.execGetPartitionInfo port s) :=
  hs.onMail hs.hostSays
end Sys2Proof.Machine
end

section
/-! What the model's `PbWrite` part leaves `Steady`. -/
namespace Sys2Proof.Machine
variable {κ : Option (List Instr × Hem)}

theorem Steady.writeSessionClose {s : State} {b : Bytes} (hs : Steady κ s) : WriteOut.Keeps κ (Machine.writeSessionClose s b) :=
  WriteOut.Keeps.ite hs.refuse ((hs.forS (fun _ _ hs1 => Steady.ite hs1.endSession hs1)).applied)

theorem Steady.writeRoleKey {s : State} {k : ℕ} {b : Bytes} (hs : Steady κ s) : WriteOut.Keeps κ (Machine.writeRoleKey s k b) :=
  WriteOut.Keeps.ite hs.refuse (WriteOut.Keeps.ite hs.refuse ((hs.setBlob.forS (fun _ _ hs1 => Steady.ite hs1.endSession hs1)).applied))

theorem Steady.writeEndpoint {s : State} {b : Bytes} (hs : Steady κ s) : WriteOut.Keeps κ (Machine.writeEndpoint s b) :=
  WriteOut.Keeps.ite hs.refuse hs.setNum.setNum.applied

theorem Steady.writeDefaultCid {s : State} {p v : ℕ} (hs : Steady κ s) : Steady κ (Machine.writeDefaultCid s p v) :=
  Steady.ite (hs.setNum.forS (fun _ _ hs1 => hs1.same)) hs.setNum

theorem Steady.writeStrCmd {s : State} {w v : ℕ} (hs : Steady κ s) : WriteOut.Keeps κ (Machine.writeStrCmd s w v) :=
  WriteOut.Keeps.ite hs.strStart hs.strStop

theorem Steady.putValue {s : State} {i k : ℕ} {v : Val} (hs : Steady κ s) : Steady κ (Machine.putValue s i k v) := by
  unfold Machine.putValue
  split
  · exact hs.writeDefaultCid
  · exact Steady.ite hs.setBlob hs
  · exact hs.setObj

theorem Steady.putBank {s : State} {entries : Sparse Val} (hs : Steady κ s) : Steady κ (Machine.putBank s entries) :=
  hs.same

theorem Steady.storeFault {s : State} (hs : Steady κ s) : Steady κ (Machine.storeFault s) :=
  hs.noteFault

theorem Steady.pendValue {s : State} {w : Writer} {i k : ℕ} {v : Val} {group : ℕ} {isGroup : Bool} (hs : Steady κ s) : Steady κ
    (Machine.pendValue s w i k v group isGroup) :=
  hs.same.forS (fun _ _ hs1 => hs1.changeEvent)

theorem Steady.classWrite {s : State} {w : Writer} {r : ORow} {i k : ℕ} {v : Val} {group : ℕ} {isGroup joint flashOk : Bool}
    (hs : Steady κ s) : WriteOut.Keeps κ (Machine.classWrite s w r i k v group isGroup joint flashOk) := by
  unfold Machine.classWrite
  split
  · exact hs.refuse
  · split
    · exact hs.applied
    · exact hs.putValue.applied
    · exact WriteOut.Keeps.ite hs.putValue.applied (WriteOut.Keeps.done hs.pendValue)
    · exact WriteOut.Keeps.ite hs.refuse hs.putValue.applied
    · exact WriteOut.Keeps.ite (WriteOut.Keeps.done hs.putBank) (WriteOut.Keeps.done hs.storeFault)

theorem Steady.offLast {s : State} {i k : ℕ} {o : WriteOut} (hs : Steady κ s) (ho : WriteOut.Keeps κ o) : WriteOut.Keeps κ (Machine.offLast s i k o) := by
  unfold Machine.offLast
  split
  · exact ho
  · split
    · exact WriteOut.Keeps.ite ho hs.refuse
    · exact hs.refuse

/-- The outcome of a write that is a command, if it is one, leaves a state that is `Steady`. -/
inductive Commanded (κ : Option (List Instr × Hem)) : Option WriteOut → Prop
  | none : Commanded κ none
  | some {o : WriteOut} (ho : o.Keeps κ) : Commanded κ (some o)

theorem Commanded.of_some {o : Option WriteOut} {x : WriteOut} (h : Commanded κ o) (e : o = Option.some x) : x.Keeps κ := by
  subst e; cases h; assumption

theorem Commanded.or {c : Prop} {_ : Decidable c} {o : WriteOut} {q : Option WriteOut} (ho : o.Keeps κ) (hq : Commanded κ q) :
    Commanded κ (if c then Option.some o else q) := by
  split
  · exact .some ho
  · exact hq

theorem Steady.commandWrite {s : State} {w : Writer} {i k : ℕ} {b : Bytes} (hs : Steady κ s) : Commanded κ (Machine.commandWrite s w i k b) := by
  unfold Machine.commandWrite
  extract_lets n far
  refine .or hs.writeSessionClose ?_
  refine .or hs.writeRoleKey ?_
  refine .or hs.writeDevTarget ?_
  refine .or hs.writeResetCmd ?_
  refine .or hs.writeFwCmd ?_
  refine .or hs.writeFwChunk ?_
  refine .or hs.writeFwConfirm ?_
  refine .or hs.writeDomTarget ?_
  refine .or hs.writePadRelease ?_
  refine .or hs.writePortsCmd ?_
  refine .or hs.writeJoin ?_
  refine .or hs.writePortCmd ?_
  refine .or hs.writeEndpoint ?_
  refine .or hs.writeCommit ?_
  refine .or hs.writeStage ?_
  refine .or hs.writePlaceFreeze ?_
  refine .or hs.writeEvacuate ?_
  refine .or hs.writePlaceReset ?_
  refine .or hs.writeHint ?_
  refine .or hs.writeBoltQuery ?_
  refine .or hs.writeStrCmd ?_
  refine .or hs.writeRecall ?_
  refine .or hs.writeDirQuery ?_
  refine .or hs.writeExpel ?_
  refine .or hs.writeAgent ?_
  refine .or hs.writeAgent ?_
  refine .or hs.writeVerQuery ?_
  refine .or hs.writeLeaseExpire ?_
  refine .or hs.writeLeaseQuery ?_
  refine .or hs.writeBlkCmd ?_
  refine .or hs.writeTabDesc ?_
  refine .or hs.writeTabCmd ?_
  refine .or hs.writeBlkCmd ?_
  refine .or hs.writeVecDesc ?_
  refine .or hs.writeVecCmd ?_
  refine .or hs.writeBlkCmd ?_
  refine .or hs.writeBlkCmd ?_
  refine .or hs.writeMcastGroup ?_
  refine .or hs.writeBarBlob ?_
  refine .or hs.writeBarBlob ?_
  refine .or hs.writeBarCmd ?_
  refine .or hs.writePartCreate ?_
  refine .or hs.writePartRemove ?_
  refine .or hs.writeViolSticky ?_
  refine .or hs.writeArbFw ?_
  refine .or hs.writeArbLoader ?_
  refine .or hs.writeDebugUnlock ?_
  refine .or hs.writeDetMode ?_
  refine .or hs.writeDetStep ?_
  refine .or hs.writeRunReset ?_
  refine .or hs.writeSyncRole ?_
  refine .or hs.writeStickyClear ?_
  refine .or hs.writeResourceQuery ?_
  refine .or hs.writeRelease ?_
  refine .or hs.writeLimpCmd ?_
  refine .or hs.writeTakeover ?_
  refine .or hs.writePartHearth ?_
  refine .or hs.writeRegion ?_
  refine .or hs.writeWindow ?_
  refine .or hs.writeVerView ?_
  refine .or hs.writeSticky ?_
  exact .none

theorem Steady.writeOne {s : State} {w : Writer} {r : ORow} {i k : ℕ} {b : Bytes} {group : ℕ} {isGroup joint flashOk : Bool}
    (hs : Steady κ s) : WriteOut.Keeps κ (Machine.writeOne s w r i k b group isGroup joint flashOk) := by
  unfold Machine.writeOne
  extract_lets c
  refine WriteOut.Keeps.ite (.done hs) (WriteOut.Keeps.ite (.done hs) (hs.offLast ?_))
  split
  next o ho => exact hs.commandWrite.of_some ho
  · exact hs.classWrite

theorem Steady.newGroup {s : State} (hs : Steady κ s) : Steady κ (Machine.newGroup s).2 :=
  hs.same

theorem Steady.writeWhole {s : State} {w : Writer} {r : ORow} {i k : ℕ} {b : Bytes} {flashOk : Bool} (hs : Steady κ s) : WriteOut.Keeps κ
    (Machine.writeWhole s w r i k b flashOk) :=
  hs.newGroup.writeOne

theorem Steady.groupSeq {w : Writer} {i group : ℕ} {joint flashOk : Bool} {x : List GroupItem} {y : State} {z u : ℕ} (hy : Steady κ y) : Steady κ
    (Machine.groupSeq w i group joint flashOk x y z u).2.2.2.2 := by
  unfold Machine.groupSeq
  split
  · exact hy
  · split
    · rename_i e3
      exact Steady.ite2222 (hy.writeOne.of_done e3) ((hy.writeOne.of_done e3).groupSeq)
    · rename_i e3
      exact (hy.writeOne.of_wait e3).groupSeq

theorem Steady.groupWrite {s : State} {w : Writer} {i : ℕ} {l : List GroupItem} {flashOk : Bool} (hs : Steady κ s) : Steady κ
    (Machine.groupWrite s w i l flashOk).2.2.2.2 := by
  unfold Machine.groupWrite
  extract_lets g class_ plain put r
  have hg : Steady κ g.2 := hs.newGroup
  have hr : Steady κ r.2.2.2.2 := hg.groupSeq
  split
  · exact hs
  · split
    · exact hs
    · split
      · exact hs
      · exact hs
      · exact hs
      · exact Steady.ite2222 (Steady.ite2222 hs.putBank hs) (Steady.ite2222 hr hs)

theorem Steady.drainEnd {s : State} {b : DrainBlock} (hs : Steady κ s) : Steady κ (Machine.drainEnd s b) := by
  unfold Machine.drainEnd
  refine Steady.forS ((hs.same.forS (fun _ _ hs1 => hs1.putValue)).acceptHeldShares) (fun _ _ hs1 => ?_)
  split
  · exact hs1
  · exact Steady.ite hs1.changeEvent hs1.changeEvent

theorem Steady.drainAtOnce {s : State} (hs : Steady κ s) : Steady κ (Machine.drainAtOnce s) :=
  Steady.ite ((Steady.ite hs.drainEnd hs).drainEnd) (Steady.ite hs.drainEnd hs)
end Sys2Proof.Machine
end

section
/-! What the model's `PbRows` part leaves `Steady`. -/
namespace Sys2Proof.Machine
variable {κ : Option (List Instr × Hem)}

theorem Steady.discardFrame {s : State} {k : ℕ} (hs : Steady κ s) : Steady κ (Machine.discardFrame s k) :=
  hs.setNum

theorem Steady.takeFrame {s : State} {f : Frame} {ftype : ℕ} {g : State → ℕ → State} (hs : Steady κ s) (hg : ∀ x1 x2, Steady κ x1 → Steady κ
    (g x1 x2)) : Steady κ (Machine.takeFrame s f ftype g) := by
  unfold Machine.takeFrame
  split
  · exact hs
  · split
    · exact hs.discardFrame
    · split
      · exact hs
      · split
        · exact hs
        · exact Steady.ite hs.discardFrame (Steady.ite hs.discardFrame (Steady.ite hs (hg _ _ hs.setSess)))

theorem Steady.takeRequest {s : State} {f : Frame} {opcode : ℕ} {g : State → ℕ → State} (hs : Steady κ s) (hg : ∀ x1 x2, Steady κ x1 → Steady κ
    (g x1 x2)) : Steady κ (Machine.takeRequest s f opcode g) := by
  unfold Machine.takeRequest
  split
  · exact hs
  · refine Steady.takeFrame hs (fun _ _ hs2 => ?_)
    extract_lets x s1
    have hs1 : Steady κ s1 := hs2.setSess
    split
    · exact hs2.sendFrame
    · exact Steady.ite hs2.bump.sendFrame (Steady.ite hs1.respond (hg _ _ hs1))

theorem Steady.pbViolation {s : State} {k opcode i sub : ℕ} (hs : Steady κ s) : Steady κ (Machine.pbViolation s k opcode i sub) :=
  hs.violation

theorem Steady.sendBusy {s : State} {f : Frame} (hs : Steady κ s) : Steady κ (Machine.sendBusy s f) := by
  unfold Machine.sendBusy
  extract_lets s1 __src
  have hs1 : Steady κ s1 := hs.bump
  split
  · exact hs1.emit
  · exact hs1.same.emit

theorem Steady.openSession {s : State} {f : Frame} {k : ℕ} (hs : Steady κ s) : Steady κ (Machine.openSession s f k) :=
  hs.drawBytes.same.setSess.keysMade.sendFrame

theorem Steady.answerWrite {s0 : State} {k tag : ℕ} {x : WriteOut} (hs0 : Steady κ s0) (hx : WriteOut.Keeps κ x) : Steady κ (Machine.answerWrite s0 k tag x) := by
  unfold Machine.answerWrite
  split
  · exact ((Steady.ite (hx.of_done rfl) (Steady.ite (hx.of_done rfl) hs0)).respondWrite).drainAtOnce
  · exact (hx.of_wait rfl).drainAtOnce

theorem Steady.writeRequest {s : State} {k tag : ℕ} {r : ORow} {o : WriteOps} {v : Verdicts} (hs : Steady κ s) : Steady κ (Machine.writeRequest s k tag r o v) := by
  unfold Machine.writeRequest
  extract_lets w x s1
  have hs1 : Steady κ s1 := hs.setSess
  split
  · exact Steady.ite hs.respondWrite (hs.answerWrite hs.writeWhole)
  · split
    · exact hs.setSess.respondWrite
    · exact Steady.ite (hs1.answerWrite hs1.writeWhole) hs.setSess.respondWrite

theorem Steady.storeRequest {s : State} {f : Frame} {opcode : ℕ} {flashOk : Bool} {set : State → ℕ → ℕ → ℕ → Sparse Val} (hs : Steady κ s) : Steady κ
    (Machine.storeRequest s f opcode flashOk set) :=
  hs.takeRequest ((fun _ _ hs1 => Steady.ite hs1.respond (Steady.ite hs1.pbViolation.respond (Steady.ite hs1.respond
      (Steady.ite hs1.storeFault.respond hs1.putBank.respond)))))

theorem Steady.dropSub {s : State} {slot id : ℕ} (hs : Steady κ s) : Steady κ (Machine.dropSub s slot id) :=
  hs.same.setSess

theorem Steady.respondGroup {s : State} {k tag abort result failSub : ℕ} (hs : Steady κ s) : Steady κ (Machine.respondGroup s k tag abort result failSub) :=
  hs.respond

theorem Steady.valueEvent {s : State} {y : Subscription} {k : ℕ} (hs : Steady κ s) : Steady κ (Machine.valueEvent s y k) := by
  unfold Machine.valueEvent
  split
  · exact hs
  · exact hs.setSess.sendEvent

theorem Steady.setSub {s : State} {y : Subscription} (hs : Steady κ s) : Steady κ (Machine.setSub s y) :=
  hs.same

theorem Steady.execPbpHello {f : Frame} {s : State} (hs : Steady κ s) : Res.Keeps κ (Machine.execPbpHello f s) := by
  unfold Machine.execPbpHello
  refine Res.Keeps.next ?_
  split
  · exact hs
  · split
    · exact hs.discardFrame
    · split
      · exact hs
      · split
        · exact hs
        · extract_lets used free
          split
          · split
            · exact hs.openSession
            · exact hs
          · split
            · exact hs.sendBusy
            · extract_lets s1
              have hs1 : Steady κ s1 := hs.endSession
              split
              · exact hs1.openSession
              · exact hs1

theorem Steady.execPbpProve {f : Frame} {s : State} (hs : Steady κ s) : Res.Keeps κ (Machine.execPbpProve f s) := by
  unfold Machine.execPbpProve
  refine Res.Keeps.next ?_
  split
  · exact hs
  · split
    · exact hs.discardFrame
    · split
      · exact hs
      · split
        · exact hs
        · exact Steady.ite hs (Steady.ite hs.endSession hs.setSess.sendFrame)

theorem Steady.execPbpProveTimeout {slot : ℕ} {s : State} (hs : Steady κ s) : Res.Keeps κ (Machine.execPbpProveTimeout slot s) :=
  Res.Keeps.next (Steady.ite hs.endSession hs)

theorem Steady.execPbpRead {f : Frame} {s : State} (hs : Steady κ s) : Res.Keeps κ (Machine.execPbpRead f s) :=
  Res.Keeps.next (hs.takeRequest ((fun _ _ hs1 => Steady.ite hs1.respond (Steady.ite hs1.respond (Steady.ite hs1.pbViolation.respond
      (Steady.ite hs1.respond hs1.respond))))))

theorem Steady.execPbpWrite {f : Frame} {v : Verdicts} {s : State} (hs : Steady κ s) : Res.Keeps κ (Machine.execPbpWrite f v s) :=
  Res.Keeps.next ((hs.takeRequest ((fun _ _ hs1 => Steady.ite hs1.respondWrite (Steady.ite hs1.respondWrite (Steady.ite hs1.pbViolation.respondWrite
      (Steady.ite hs1.respondWrite hs1.writeRequest)))))).fin)

theorem Steady.execPbpDescribe {f : Frame} {s : State} (hs : Steady κ s) : Res.Keeps κ (Machine.execPbpDescribe f s) :=
  Res.Keeps.next (hs.takeRequest ((fun _ _ hs1 => Steady.ite hs1.respond (Steady.ite hs1.respond hs1.respond))))

theorem Steady.execPbpEnumNext {f : Frame} {s : State} (hs : Steady κ s) : Res.Keeps κ (Machine.execPbpEnumNext f s) :=
  Res.Keeps.next (hs.takeRequest (fun _ _ hs1 => Steady.ite hs1.respond hs1.respond))

theorem Steady.execPbpStore {f : Frame} {flashOk : Bool} {s : State} (hs : Steady κ s) : Res.Keeps κ (Machine.execPbpStore f flashOk s) :=
  Res.Keeps.next hs.storeRequest

theorem Steady.execPbpRestoreDefaults {f : Frame} {flashOk : Bool} {s : State} (hs : Steady κ s) : Res.Keeps κ (Machine.execPbpRestoreDefaults f flashOk s) :=
  Res.Keeps.next hs.storeRequest

theorem Steady.execPbpSubscribe {f : Frame} {s : State} (hs : Steady κ s) : Res.Keeps κ (Machine.execPbpSubscribe f s) :=
  Res.Keeps.next (hs.takeRequest ((fun _ _ hs1 => Steady.ite hs1.respond (Steady.ite hs1.respond (Steady.ite hs1.respond (Steady.ite hs1.respond
      (Steady.ite hs1.respond (((Steady.ite hs1 hs1.pbViolation).same).respond))))))))

theorem Steady.execPbpUnsubscribe {f : Frame} {s : State} (hs : Steady κ s) : Res.Keeps κ (Machine.execPbpUnsubscribe f s) :=
  Res.Keeps.next (hs.takeRequest ((fun _ _ hs1 => Steady.ite hs1.respond (Steady.ite hs1.dropSub.respond hs1.respond))))

theorem Steady.execPbpPing {f : Frame} {s : State} (hs : Steady κ s) : Res.Keeps κ (Machine.execPbpPing f s) :=
  Res.Keeps.next (hs.takeRequest (fun _ _ hs1 => hs1.respond))

theorem Steady.execPbpWriteGroup {f : Frame} {v : Verdicts} {s : State} (hs : Steady κ s) : Res.Keeps κ (Machine.execPbpWriteGroup f v s) := by
  unfold Machine.execPbpWriteGroup
  refine Res.Keeps.next ?_
  refine Steady.fin ?_
  refine Steady.takeRequest hs (fun _ _ hs4 => ?_)
  extract_lets index count say
  split
  · exact hs4.respondGroup
  · extract_lets rows r t __src
    have hr : Steady κ r.2.2.2.2 := hs4.groupWrite
    have ht : Steady κ t := hr
    split
    · exact hs4.respondGroup
    · exact hs4.pbViolation.respondGroup
    · exact Steady.ite ((Steady.ite hs4.storeFault hs4).respondGroup) (Steady.ite ht.respondGroup.drainAtOnce ht.setSess)

theorem Steady.execPbpEventAck {f : Frame} {s : State} (hs : Steady κ s) : Res.Keeps κ (Machine.execPbpEventAck f s) :=
  Res.Keeps.next (hs.takeFrame (fun _ _ hs1 => Steady.ite hs1 hs1.setSess.flushEvents))

theorem Steady.execPbpClose {f : Frame} {s : State} (hs : Steady κ s) : Res.Keeps κ (Machine.execPbpClose f s) :=
  Res.Keeps.next (hs.takeFrame (fun _ _ hs1 => hs1.endSession))

theorem Steady.execSessionIdleTimeout {slot : ℕ} {s : State} (hs : Steady κ s) : Res.Keeps κ (Machine.execSessionIdleTimeout slot s) :=
  Res.Keeps.next (Steady.ite hs.endSession hs)

theorem Steady.execSessionLimitReached {slot : ℕ} {s : State} (hs : Steady κ s) : Res.Keeps κ (Machine.execSessionLimitReached slot s) :=
  Res.Keeps.next (Steady.ite hs.endSession hs)

theorem Steady.execEventRetryTimeout {slot eventSeq : ℕ} {s : State} (hs : Steady κ s) : Res.Keeps κ (Machine.execEventRetryTimeout slot eventSeq s) := by
  unfold Machine.execEventRetryTimeout
  extract_lets x again
  refine Res.Keeps.next ?_
  split
  · exact hs
  · exact Steady.ite hs (Steady.ite hs.setSess.flushEvents (Steady.ite hs.setSess.sendFrame hs.setSess.dropSub.sendEvent.flushEvents))

theorem Steady.execSubscriptionPeriod {subId : ℕ} {s : State} (hs : Steady κ s) : Res.Keeps κ (Machine.execSubscriptionPeriod subId s) := by
  unfold Machine.execSubscriptionPeriod
  refine Res.Keeps.next ?_
  split
  · exact hs
  · exact Steady.ite hs (hs.setSub.forS (fun _ _ hs4 => hs4.valueEvent))

theorem Steady.execEventSend {subId : ℕ} {s : State} (hs : Steady κ s) : Res.Keeps κ (Machine.execEventSend subId s) := by
  unfold Machine.execEventSend
  refine Res.Keeps.next ?_
  split
  · exact hs
  · extract_lets x changed
    clear_value changed
    split
    · exact hs
    · exact Steady.ite hs.setSub hs.setSub.valueEvent

theorem Steady.execDrainEnd {block : DrainBlock} {s : State} (hs : Steady κ s) : Res.Keeps κ (Machine.execDrainEnd block s) :=
  Res.Keeps.next (Steady.ite hs.drainEnd.fin hs)

theorem Steady.execI3cPrivateRead {handle : ℕ} {s : State} (hs : Steady κ s) : Res.Keeps κ (Machine.execI3cPrivateRead handle s) := by
  unfold Machine.execI3cPrivateRead
  extract_lets slot give __src x
  refine Res.Keeps.next ?_
  split
  · exact hs
  · split
    · exact Steady.ite hs.emit hs.same.emit
    · split
      · exact hs
      · split
        · exact hs.same.emit
        · exact hs.emit
        · exact hs.setSess.emit

theorem Steady.execI3cEntdaa {byId : Bool} {named addr : ℕ} {s : State} (hs : Steady κ s) : Res.Keeps κ (Machine.execI3cEntdaa byId named addr s) :=
  Res.Keeps.next (Steady.ite hs.same hs)

theorem Steady.execSessionClose {w : Writer} {value : Bytes} {s : State} (hs : Steady κ s) : Res.Keeps κ (Machine.execSessionClose w value s) :=
  Steady.endWrite hs.writeSessionClose

theorem Steady.execRoleKeys {w : Writer} {element : ℕ} {value : Bytes} {s : State} (hs : Steady κ s) : Res.Keeps κ (Machine.execRoleKeys w element value s) :=
  Res.Keeps.ite (Res.Keeps.next hs) (Steady.endWrite hs.writeRoleKey)

theorem Steady.execObjectWrite {w : Writer} {index sub : ℕ} {value : Bytes} {s : State} (hs : Steady κ s) : Res.Keeps κ (Machine.execObjectWrite w index sub value s) :=
  Res.Keeps.next ((Steady.ite hs (hs.answerWrite hs.writeWhole)).fin)
end Sys2Proof.Machine
end

section
/-! What the model's `Bringup` part leaves `Steady`. -/
namespace Sys2Proof.Machine
variable {κ : Option (List Instr × Hem)}

theorem Steady.endFuses {s : State} (hs : Steady κ s) : Steady κ (Machine.endFuses s) :=
  Steady.ite hs.same (hs.same.setNum.forS (fun _ _ hs1 => hs1.powerUp))

theorem Steady.sizeTiers {s : State} {f : MemoryFound} (hs : Steady κ s) : Steady κ (Machine.sizeTiers s f) := by
  unfold Machine.sizeTiers
  extract_lets larder cells raw __src fitted parl e g up64 m sp sl sc
  split
  · exact hs.same.noteFault
  · exact hs.same

theorem Steady.restoreRuled {s : State} {key : ℕ} {b : Bytes} (hs : Steady κ s) : OptKeeps κ (fun t => t) (Machine.restoreRuled s key b) := by
  unfold Machine.restoreRuled
  split
  next ho => exact OptKeeps.ite (.some ((hs.commandWrite.of_some ho).of_done rfl)) .none
  next ho => exact .some ((hs.commandWrite.of_some ho).of_wait rfl)
  · exact .none

theorem Steady.rejectEntry {s : State} (hs : Steady κ s) : Steady κ (Machine.rejectEntry s) :=
  hs.same

theorem Steady.restoreList {s : State} {l : List (ℕ × Bytes)} (hs : Steady κ s) : Steady κ (Machine.restoreList s l) := by
  unfold Machine.restoreList
  refine Steady.forS hs (fun _ _ hs1 => ?_)
  split
  · rename_i e4
    exact hs1.restoreRuled.of_some e4
  · exact hs1.rejectEntry

theorem Steady.applyStored {s : State} (hs : Steady κ s) : Steady κ (Machine.applyStored s) :=
  (((((((((Steady.ite hs.same.noteFault hs.same.setNum).forS (fun _ _ hs1 => hs1.rejectEntry)).forS (fun _ _ hs1 => hs1.setObj)).setNum).forS
      (fun _ _ hs1 => hs1.createPart)).forS (fun _ _ hs1 => hs1.rejectEntry)).forS
      (fun _ _ hs1 => hs1.putValue)).restoreList).restoreList).restoreList

theorem Steady.endConfig {s : State} (hs : Steady κ s) : Steady κ (Machine.endConfig s) := by
  unfold Machine.endConfig
  extract_lets s1
  have hs1 : Steady κ s1 := hs.setNum
  split
  · split
    · rename_i e4
      exact hs1.portsStart.of_done e4
    · rename_i e4
      exact hs1.portsStart.of_wait e4
  · exact hs1

theorem Steady.powerAll {s : State} (hs : Steady κ s) : Steady κ (Machine.powerAll s) :=
  hs.forS (fun _ _ hs1 => Steady.ite hs1.powerUp hs1)

theorem Steady.nextStage {s : State} {found : MemoryFound} (hs : Steady κ s) : Steady κ (Machine.nextStage s found) := by
  unfold Machine.nextStage
  split
  · exact Steady.ite hs.setNum hs
  · exact hs.endFuses
  · exact Steady.ite hs hs.setNum
  · exact Steady.ite hs hs.setNum.powerAll
  · exact hs.setNum.forS (fun _ _ hs2 => hs2.releasePad)
  · exact hs.sizeTiers.setNum.applyStored
  · exact hs.endConfig
  · exact hs

theorem Steady.execBringupStage {found : MemoryFound} {s : State} (hs : Steady κ s) : Res.Keeps κ (Machine.execBringupStage found s) :=
  Res.Keeps.next hs.nextStage.fin.bellScan
end Sys2Proof.Machine
end

section
/-! What the model's `Tick` part leaves `Steady`. -/
namespace Sys2Proof.Machine
variable {κ : Option (List Instr × Hem)}

theorem Steady.meterCores {s : State} (hs : Steady κ s) : Steady κ (Machine.meterCores s) := by
  unfold Machine.meterCores
  refine Steady.forS hs (fun _ _ hs1 => ?_)
  split
  · exact hs1.pbumpBy
  · exact hs1

theorem Steady.tick {s : State} (hs : Steady κ s) : Steady κ (Machine.tick s) := by
  unfold Machine.tick
  extract_lets s1 d s2
  have h1 : Steady κ s1 := Steady.ite hs.meterCores.syncAdvance hs
  have h2 : Steady κ s2 := h1.same
  exact h2.copyTick.bellScan.limpReset.enterN2
end Sys2Proof.Machine
end

section
/-! Every command, every step and every run. -/
namespace Sys2Proof.Machine
variable {κ : Option (List Instr × Hem)}
theorem Steady.exec {c : Instr} {s : State} (hs : Steady κ s) : Res.Keeps κ (Machine.exec c s) := by
  cases c with
  | pbpHello => exact hs.execPbpHello
  | pbpProve => exact hs.execPbpProve
  | pbpProveTimeout => exact hs.execPbpProveTimeout
  | pbpRead => exact hs.execPbpRead
  | pbpWrite => exact hs.execPbpWrite
  | pbpDescribe => exact hs.execPbpDescribe
  | pbpEnumNext => exact hs.execPbpEnumNext
  | pbpStore => exact hs.execPbpStore
  | pbpRestoreDefaults => exact hs.execPbpRestoreDefaults
  | pbpSubscribe => exact hs.execPbpSubscribe
  | pbpUnsubscribe => exact hs.execPbpUnsubscribe
  | pbpPing => exact hs.execPbpPing
  | pbpWriteGroup => exact hs.execPbpWriteGroup
  | pbpEventAck => exact hs.execPbpEventAck
  | pbpClose => exact hs.execPbpClose
  | sessionIdleTimeout => exact hs.execSessionIdleTimeout
  | sessionLimitReached => exact hs.execSessionLimitReached
  | eventRetryTimeout => exact hs.execEventRetryTimeout
  | subscriptionPeriod => exact hs.execSubscriptionPeriod
  | eventSend => exact hs.execEventSend
  | drainEnd => exact hs.execDrainEnd
  | i3cPrivateRead => exact hs.execI3cPrivateRead
  | sessionClose => exact hs.execSessionClose
  | roleKeys => exact hs.execRoleKeys
  | objectWrite => exact hs.execObjectWrite
  | regionCreate => exact hs.execRegionCreate
  | regionChange => exact hs.execRegionChange
  | regionRelease => exact hs.execRegionRelease
  | regionReleaseEnd => exact hs.execRegionReleaseEnd
  | windowWrite => exact hs.execWindowWrite
  | routeStage => exact hs.execRouteStage
  | mapCommit => exact hs.execMapCommit
  | mapStageCopyEnd => exact hs.execMapStageCopyEnd
  | mapGraceEnd => exact hs.execMapGraceEnd
  | cwInvAsid => exact hs.execCwInvAsid
  | cwInvAllAsid => exact hs.execCwInvAllAsid
  | cwInvByVa => exact hs.execCwInvByVa
  | invComplete => exact hs.execInvComplete
  | cwFrResume => exact hs.execCwFrResume
  | cwFrTerminate => exact hs.execCwFrTerminate
  | frRecordFreed => exact hs.execFrRecordFreed
  | trackerAllocate => exact hs.execTrackerAllocate
  | requestTimeout => exact hs.execRequestTimeout
  | holdDiscard => exact hs.execHoldDiscard
  | retryReceived => exact hs.execRetryReceived
  | ordLoad => exact hs.execOrdLoad
  | ordStore => exact hs.execOrdStore
  | atomicAdd => exact hs.execAtomicAdd
  | atomicMin => exact hs.execAtomicMin
  | atomicMax => exact hs.execAtomicMax
  | atomicSwap => exact hs.execAtomicSwap
  | atomicCas => exact hs.execAtomicCas
  | atomicAnd => exact hs.execAtomicAnd
  | atomicOr => exact hs.execAtomicOr
  | atomicXor => exact hs.execAtomicXor
  | reduceSum => exact hs.execReduceSum
  | reduceMin => exact hs.execReduceMin
  | reduceMax => exact hs.execReduceMax
  | blkWrite => exact hs.execBlkWrite
  | blkKnot => exact hs.execBlkKnot
  | knotPerform => exact hs.execKnotPerform
  | knotHoldTimeout => exact hs.execKnotHoldTimeout
  | ordCmp => exact hs.execOrdCmp
  | blkCmp => exact hs.execBlkCmp
  | ordData => exact hs.execOrdData
  | rdS => exact hs.execRdS
  | rdOwn => exact hs.execRdOwn
  | upgrade => exact hs.execUpgrade
  | rdPeek => exact hs.execRdPeek
  | sliceTxnStart => exact hs.execSliceTxnStart
  | snpAck => exact hs.execSnpAck
  | snpData => exact hs.execSnpData
  | cmpAck => exact hs.execCmpAck
  | wbDirty => exact hs.execWbDirty
  | evictClean => exact hs.execEvictClean
  | snpFwdS => exact hs.execSnpFwdS
  | snpFwdOwn => exact hs.execSnpFwdOwn
  | snpRecall => exact hs.execSnpRecall
  | snpPeek => exact hs.execSnpPeek
  | dataHome => exact hs.execDataHome
  | dataFwd => exact hs.execDataFwd
  | cmp => exact hs.execCmp
  | wbAck => exact hs.execWbAck
  | regionRecall => exact hs.execRegionRecall
  | regionRecallEnd => exact hs.execRegionRecallEnd
  | snpTimeout => exact hs.execSnpTimeout
  | agentExpel => exact hs.execAgentExpel
  | agentAdmit => exact hs.execAgentAdmit
  | agentDetach => exact hs.execAgentDetach
  | agentDetachEnd => exact hs.execAgentDetachEnd
  | dirEccError => exact hs.execDirEccError
  | dirQuery => exact hs.execDirQuery
  | cboFlush => exact hs.execCboFlush
  | cboClean => exact hs.execCboClean
  | cboInval => exact hs.execCboInval
  | cboZero => exact hs.execCboZero
  | hearthAmo => exact hs.execHearthAmo
  | hearthLr => exact hs.execHearthLr
  | hearthSc => exact hs.execHearthSc
  | hearthFence => exact hs.execHearthFence
  | fenceAcquire => exact hs.execFenceAcquire
  | fenceRelease => exact hs.execFenceRelease
  | fenceFull => exact hs.execFenceFull
  | fenceComplete => exact hs.execFenceComplete
  | flushRange => exact hs.execFlushRange
  | vcOpenRead => exact hs.execVcOpenRead
  | vcCloseRead => exact hs.execVcCloseRead
  | vcOpenWork => exact hs.execVcOpenWork
  | vcPublish => exact hs.execVcPublish
  | vcRebase => exact hs.execVcRebase
  | vcDiscardWork => exact hs.execVcDiscardWork
  | vcQuery => exact hs.execVcQuery
  | verFold => exact hs.execVerFold
  | bastePageFreed => exact hs.execBastePageFreed
  | verView => exact hs.execVerView
  | verQuery => exact hs.execVerQuery
  | leaseQuery => exact hs.execLeaseQuery
  | leaseRenew => exact hs.execLeaseRenew
  | leaseAckExpired => exact hs.execLeaseAckExpired
  | leaseDeadline => exact hs.execLeaseDeadline
  | leaseExpiry => exact hs.execLeaseExpiry
  | staleHoldEnd => exact hs.execStaleHoldEnd
  | leaseExpire => exact hs.execLeaseExpire
  | queueTailWrite => exact hs.execQueueTailWrite
  | slotReadComplete => exact hs.execSlotReadComplete
  | completionRingSpace => exact hs.execCompletionRingSpace
  | bnStart => exact hs.execBnStart
  | bnStop => exact hs.execBnStop
  | bnStopEnd => exact hs.execBnStopEnd
  | tabStart => exact hs.execTabStart
  | tabStop => exact hs.execTabStop
  | tabStopEnd => exact hs.execTabStopEnd
  | lookup => exact hs.execLookup
  | fanoutReceive => exact hs.execFanoutReceive
  | chunkDeal => exact hs.execChunkDeal
  | memberReport => exact hs.execMemberReport
  | memberMissingTimeout => exact hs.execMemberMissingTimeout
  | tabLoad => exact hs.execTabLoad
  | refreshHot => exact hs.execRefreshHot
  | versionOpenRead => exact hs.execVersionOpenRead
  | versionCloseRead => exact hs.execVersionCloseRead
  | versionQuery => exact hs.execVersionQuery
  | versionOpenWork => exact hs.execVersionOpenWork
  | versionPublish => exact hs.execVersionPublish
  | versionRebase => exact hs.execVersionRebase
  | versionDiscardWork => exact hs.execVersionDiscardWork
  | reencSweep => exact hs.execReencSweep
  | rowReencode => exact hs.execRowReencode
  | recordCutover => exact hs.execRecordCutover
  | oldRecordFree => exact hs.execOldRecordFree
  | stepOpen => exact hs.execStepOpen
  | accumulate => exact hs.execAccumulate
  | sealApply => exact hs.execSealApply
  | stepDiscard => exact hs.execStepDiscard
  | accBankFail => exact hs.execAccBankFail
  | tpStart => exact hs.execTpStart
  | tpStop => exact hs.execTpStop
  | tpStopEnd => exact hs.execTpStopEnd
  | vecStart => exact hs.execVecStart
  | vecStop => exact hs.execVecStop
  | search => exact hs.execSearch
  | roundOpen => exact hs.execRoundOpen
  | passStart => exact hs.execPassStart
  | roundEnd => exact hs.execRoundEnd
  | tapeMemberTimeout => exact hs.execTapeMemberTimeout
  | insert => exact hs.execInsert
  | delete => exact hs.execDelete
  | listLoad => exact hs.execListLoad
  | areaLoad => exact hs.execAreaLoad
  | merge => exact hs.execMerge
  | mergeStart => exact hs.execMergeStart
  | mergeSwap => exact hs.execMergeSwap
  | mergeFree => exact hs.execMergeFree
  | graphRetire => exact hs.execGraphRetire
  | graphAdd => exact hs.execGraphAdd
  | graphLink => exact hs.execGraphLink
  | tdStart => exact hs.execTdStart
  | tdStop => exact hs.execTdStop
  | tdStopEnd => exact hs.execTdStopEnd
  | launch => exact hs.execLaunch
  | launchPick => exact hs.execLaunchPick
  | syncStartReached => exact hs.execSyncStartReached
  | tdLoadTile => exact hs.execTdLoadTile
  | tdLoadScale => exact hs.execTdLoadScale
  | tdMma => exact hs.execTdMma
  | tdMmaZero => exact hs.execTdMmaZero
  | tdAccZero => exact hs.execTdAccZero
  | tdAccCopy => exact hs.execTdAccCopy
  | tdAccAdd => exact hs.execTdAccAdd
  | tdAccLoad => exact hs.execTdAccLoad
  | tdPull => exact hs.execTdPull
  | tdPullAny => exact hs.execTdPullAny
  | tdCvt => exact hs.execTdCvt
  | tdMuls => exact hs.execTdMuls
  | tdAdds => exact hs.execTdAdds
  | tdRelu => exact hs.execTdRelu
  | tdGelu => exact hs.execTdGelu
  | tdExp => exact hs.execTdExp
  | tdRmax => exact hs.execTdRmax
  | tdRsum => exact hs.execTdRsum
  | tdSubr => exact hs.execTdSubr
  | tdDivr => exact hs.execTdDivr
  | tdAddv => exact hs.execTdAddv
  | tdMulv => exact hs.execTdMulv
  | tdVload => exact hs.execTdVload
  | tdItof => exact hs.execTdItof
  | tdStoreTile => exact hs.execTdStoreTile
  | tdStoreScale => exact hs.execTdStoreScale
  | tdWaitLocal => exact hs.execTdWaitLocal
  | tdWaitLaunch => exact hs.execTdWaitLaunch
  | tdWaitMem => exact hs.execTdWaitMem
  | tdSignalLaunch => exact hs.execTdSignalLaunch
  | tdSignalStore => exact hs.execTdSignalStore
  | tdSignalAdd => exact hs.execTdSignalAdd
  | tdEnd => exact hs.execTdEnd
  | launchEnd => exact hs.execLaunchEnd
  | watchdogExpire => exact hs.execWatchdogExpire
  | shStart => exact hs.execShStart
  | shStop => exact hs.execShStop
  | shStopEnd => exact hs.execShStopEnd
  | pieceDeal => exact hs.execPieceDeal
  | copy => exact hs.execCopy
  | mcast => exact hs.execMcast
  | shReduce => exact hs.execShReduce
  | shReduceTree => exact hs.execShReduceTree
  | stageCounterReached => exact hs.execStageCounterReached
  | stageWaitTimeout => exact hs.execStageWaitTimeout
  | shWait => exact hs.execShWait
  | waitTimeout => exact hs.execWaitTimeout
  | arrivalAdd => exact hs.execArrivalAdd
  | mcastGroup => exact hs.execMcastGroup
  | barStart => exact hs.execBarStart
  | barStop => exact hs.execBarStop
  | barAbort => exact hs.execBarAbort
  | barArrive => exact hs.execBarArrive
  | barTimeout => exact hs.execBarTimeout
  | portsStart => exact hs.execPortsStart
  | portsStop => exact hs.execPortsStop
  | joinEpoch => exact hs.execJoinEpoch
  | portAttach => exact hs.execPortAttach
  | portDetach => exact hs.execPortDetach
  | portRetrainCmd => exact hs.execPortRetrainCmd
  | portForceDown => exact hs.execPortForceDown
  | attachPoll => exact hs.execAttachPoll
  | detectDone => exact hs.execDetectDone
  | pollDone => exact hs.execPollDone
  | pollTimeout => exact hs.execPollTimeout
  | eqPhaseEnd => exact hs.execEqPhaseEnd
  | eqTimeout => exact hs.execEqTimeout
  | fit => exact hs.execFit
  | fitTimeout => exact hs.execFitTimeout
  | keyPart1 => exact hs.execKeyPart1
  | keyPart2 => exact hs.execKeyPart2
  | keyResend => exact hs.execKeyResend
  | keyTimeout => exact hs.execKeyTimeout
  | dataFlit => exact hs.execDataFlit
  | idleFlit => exact hs.execIdleFlit
  | ackTimeout => exact hs.execAckTimeout
  | eqReq => exact hs.execEqReq
  | eqAck _ _ lane refused => exact hs.execEqAck (_lane := lane) (_refused := refused)
  | retrainReq => exact hs.execRetrainReq
  | downNotice _ _ reason => exact hs.execDownNotice (_reason := reason)
  | lossOfSignal => exact hs.execLossOfSignal
  | retrainTimeout => exact hs.execRetrainTimeout
  | detachTimeout => exact hs.execDetachTimeout
  | ping => exact hs.execPing
  | pong => exact hs.execPong
  | quiesce => exact hs.execQuiesce
  | resume => exact hs.execResume
  | detachReq => exact hs.execDetachReq
  | detachAck => exact hs.execDetachAck
  | keyUpdate => exact hs.execKeyUpdate
  | rekeyDue => exact hs.execRekeyDue
  | counterExhausted => exact hs.execCounterExhausted
  | notice => exact hs.execNotice
  | pcieMemRead => exact hs.execPcieMemRead
  | pcieMemWrite => exact hs.execPcieMemWrite
  | cxlMemRd => exact hs.execCxlMemRd
  | cxlMemWr => exact hs.execCxlMemWr
  | flr => exact hs.execFlr
  | spdmGetVersion => exact hs.execSpdmGetVersion
  | spdmGetCapabilities => exact hs.execSpdmGetCapabilities
  | spdmNegotiateAlgorithms => exact hs.execSpdmNegotiateAlgorithms
  | spdmGetDigests => exact hs.execSpdmGetDigests
  | spdmGetCertificate => exact hs.execSpdmGetCertificate
  | spdmChallenge => exact hs.execSpdmChallenge
  | spdmGetMeasurements => exact hs.execSpdmGetMeasurements
  | spdmKeyExchange => exact hs.execSpdmKeyExchange
  | spdmFinish => exact hs.execSpdmFinish
  | spdmEndSession => exact hs.execSpdmEndSession
  | ideKmQuery => exact hs.execIdeKmQuery
  | ideKmKeyProg => exact hs.execIdeKmKeyProg
  | ideKmKSetGo => exact hs.execIdeKmKSetGo
  | ideKmKSetStop => exact hs.execIdeKmKSetStop
  | identifyMemoryDevice => exact hs.execIdentifyMemoryDevice
  | getSupportedLogs => exact hs.execGetSupportedLogs
  | getLog => exact hs.execGetLog
  | getEventRecords => exact hs.execGetEventRecords
  | clearEventRecords => exact hs.execClearEventRecords
  | getHealthInfo => exact hs.execGetHealthInfo
  | getPartitionInfo => exact hs.execGetPartitionInfo
  | partCreate => exact hs.execPartCreate
  | partRemove => exact hs.execPartRemove
  | partDrainEnd => exact hs.execPartDrainEnd
  | partScrubEnd => exact hs.execPartScrubEnd
  | partHearth => exact hs.execPartHearth
  | violSticky => exact hs.execViolSticky
  | debugUnlock => exact hs.execDebugUnlock
  | arbAdvanceFw => exact hs.execArbAdvanceFw
  | arbAdvanceLoader => exact hs.execArbAdvanceLoader
  | thimbleHealthFail => exact hs.execThimbleHealthFail
  | bbDeliver => exact hs.execBbDeliver
  | bbComplete => exact hs.execBbComplete
  | bbRoute => exact hs.execBbRoute
  | bbCauseSet => exact hs.execBbCauseSet
  | bbPSoftSet => exact hs.execBbPSoftSet
  | bbWakeTimeout => exact hs.execBbWakeTimeout
  | detStep => exact hs.execDetStep
  | runReset => exact hs.execRunReset
  | syncInterval => exact hs.execSyncInterval
  | syncSample => exact hs.execSyncSample
  | stickyWrite => exact hs.execStickyWrite
  | stickyClearAll => exact hs.execStickyClearAll
  | recoveryStart => exact hs.execRecoveryStart
  | recoveryEnd => exact hs.execRecoveryEnd
  | windowClose => exact hs.execWindowClose
  | trackerBankLoss => exact hs.execTrackerBankLoss
  | resourceRelease => exact hs.execResourceRelease
  | resourceQuery => exact hs.execResourceQuery
  | limpEnter => exact hs.execLimpEnter
  | limpExit => exact hs.execLimpExit
  | mirrorBind => exact hs.execMirrorBind
  | mirrorBound _ unit => exact hs.execMirrorBound (_unit := unit)
  | mirrorRefused _ unit => exact hs.execMirrorRefused (_unit := unit)
  | mirrorUnbind _ unit => exact hs.execMirrorUnbind (_unit := unit)
  | mirrorBindTimeout => exact hs.execMirrorBindTimeout
  | mirrorWrite => exact hs.execMirrorWrite
  | mirrorWriteTimeout => exact hs.execMirrorWriteTimeout
  | mirrorRebindRetry => exact hs.execMirrorRebindRetry
  | rebuildBolt => exact hs.execRebuildBolt
  | mirrorTakeover => exact hs.execMirrorTakeover
  | ageSweep => exact hs.execAgeSweep
  | evict => exact hs.execEvict
  | promote => exact hs.execPromote
  | demotePolicy => exact hs.execDemotePolicy
  | demoteQuota => exact hs.execDemoteQuota
  | demandMoveUp => exact hs.execDemandMoveUp
  | moveCutover => exact hs.execMoveCutover
  | moveSourceFree => exact hs.execMoveSourceFree
  | learnEnd => exact hs.execLearnEnd
  | allocSlotFreed => exact hs.execAllocSlotFreed
  | placeHint => exact hs.execPlaceHint
  | placeReset => exact hs.execPlaceReset
  | placeFreeze => exact hs.execPlaceFreeze
  | evacuate => exact hs.execEvacuate
  | boltQuery => exact hs.execBoltQuery
  | patrolScrub => exact hs.execPatrolScrub
  | tierThermal => exact hs.execTierThermal
  | strStart => exact hs.execStrStart
  | strStop => exact hs.execStrStop
  | strStopEnd => exact hs.execStrStopEnd
  | strAdvance => exact hs.execStrAdvance
  | strLayerFetched => exact hs.execStrLayerFetched
  | domTarget => exact hs.execDomTarget
  | domTransitionEnd => exact hs.execDomTransitionEnd
  | domIdleCg => exact hs.execDomIdleCg
  | domIdleRet => exact hs.execDomIdleRet
  | domWake => exact hs.execDomWake
  | padRelease => exact hs.execPadRelease
  | cwPadRelease => exact hs.execCwPadRelease
  | cwPadReleaseAll => exact hs.execCwPadReleaseAll
  | powerBrownout => exact hs.execPowerBrownout
  | powerMargin => exact hs.execPowerMargin
  | marginStep => exact hs.execMarginStep
  | avsPeriod => exact hs.execAvsPeriod
  | divisorStep => exact hs.execDivisorStep
  | pl2Eval => exact hs.execPl2Eval
  | pl2Sustained => exact hs.execPl2Sustained
  | pl1Eval => exact hs.execPl1Eval
  | throttleStep => exact hs.execThrottleStep
  | thermalTrip => exact hs.execThermalTrip
  | hardTrip => exact hs.execHardTrip
  | dramEyePass => exact hs.execDramEyePass
  | devTarget => exact hs.execDevTarget
  | n1Idle => exact hs.execN1Idle
  | wakeEvent => exact hs.execWakeEvent
  | n3Entry => exact hs.execN3Entry
  | n3Wake => exact hs.execN3Wake
  | resetCmd => exact hs.execResetCmd
  | perst => exact hs.execPerst
  | watchdogReset => exact hs.execWatchdogReset
  | refclkLoss => exact hs.execRefclkLoss
  | refclkReturn => exact hs.execRefclkReturn
  | vstbyApply => exact hs.execVstbyApply
  | bootRom => exact hs.execBootRom
  | loaderBoot => exact hs.execLoaderBoot
  | bringupStage => exact hs.execBringupStage
  | fwUpdateBegin => exact hs.execFwUpdateBegin
  | fwUpdateChunk => exact hs.execFwUpdateChunk
  | fwUpdateCommit => exact hs.execFwUpdateCommit
  | fwUpdateActivate => exact hs.execFwUpdateActivate
  | fwUpdateAbort => exact hs.execFwUpdateAbort
  | fwConfirm => exact hs.execFwConfirm
  | sledPrsnt => exact hs.execSledPrsnt
  | mainPwrgdFall => exact hs.execMainPwrgdFall
  | vinCoreLow => exact hs.execVinCoreLow
  | mainPwrgdRise => exact hs.execMainPwrgdRise
  | hearthLoadStore => exact hs.execHearthLoadStore
  | flitBoundary => exact hs.execFlitBoundary
  | eyeHeightLow => exact hs.execEyeHeightLow
  | compatLinkState => exact hs.execCompatLinkState
  | pcieConfigRequest => exact hs.execPcieConfigRequest
  | pcieCompletion => exact hs.execPcieCompletion
  | queueCfgWrite => exact hs.execQueueCfgWrite
  | i3cEntdaa => exact hs.execI3cEntdaa
  | engineFault => exact hs.execEngineFault
  | slotScrubbed => exact hs.execSlotScrubbed
  | throttleStepUp => exact hs.execThrottleStepUp
  | thermalTripClear => exact hs.execThermalTripClear
  | retOverTemperature => exact hs.execRetOverTemperature
  | perstRelease => exact hs.execPerstRelease
  | sledPrsntAsserted => exact hs.execSledPrsntAsserted
  | vstbyLoss => exact hs.execVstbyLoss
  -- `SEAL`, whose name is a word of Lean's own
  | _ => exact hs.execSeal

/-- A step answers a next state, in which the queue has lost its front. -/
theorem Steady.step {q : List Instr} {f : Hem} {s : State} (hs : Steady (some (q, f)) s) : ∃ t, Machine.step s = .next t ∧ Steady (some (q.tail, f)) t := by
  obtain ⟨hq, hf, hm, ho⟩ := steady_some.mp hs
  unfold Machine.step
  split
  · rename_i e
    obtain rfl : q = [] := hq.symm.trans e
    exact ⟨_, rfl, hs.tick⟩
  · rename_i c rest e
    obtain rfl : q = c :: rest := hq.symm.trans e
    exact (Steady.exec (κ := some (rest, f)) (s := { s with pending := rest }) (steady_some.mpr ⟨rfl, hf, hm, ho⟩)).exists_next

/-- Every command answers a next state, whatever the state. -/
theorem exec_next (c : Instr) (s : State) : ∃ t, exec c s = .next t :=
  (Steady.exec (steady_none s)).exists_next.imp fun _ h => h.1

/-- Every step answers a next state, whatever the state. -/
theorem step_next (s : State) : ∃ t, step s = .next t := by
  unfold Machine.step
  split
  · exact ⟨_, rfl⟩
  · exact exec_next _ _

/-- A run goes on from the state that its first step answers. -/
theorem run_succ {M : Host.Core} {k : Nat} {s t : M.State} (h : M.step s = .next t) : M.run (k + 1) s = M.run k t := by
  rw [Host.Core.run, h]

end Sys2Proof.Machine

open Sys2Proof Sys2Proof.Machine

/-- Settles O5: a state that meets the invariant is `Steady` for its own queue and fuses, and a step keeps it so. -/
theorem everyStepKeepsInvariant : Obligations.EveryStepKeepsInvariant := by
  intro s t ⟨hm, ho⟩ hst
  obtain ⟨u, hu, hk⟩ := Steady.step (q := s.pending) (f := s.sec.hem.fused) (s := s) (steady_some.mpr ⟨rfl, rfl, hm, ho⟩)
  obtain rfl : u = t := Host.Outcome.next.inj (hu.symm.trans hst)
  obtain ⟨hq, hf, hm', ho'⟩ := steady_some.mp hk
  exact ⟨⟨hm', ho'⟩, hf, hq⟩

/-- Settles O6: the walk over the commands that O5 rests on asks nothing of a state when no queue and no fuses are given. -/
theorem everyCommandAnswers : Obligations.EveryCommandAnswers := exec_next

/-- Settles O7, by induction on the length of the run. -/
theorem runsNeverStop : Obligations.RunsNeverStop := by
  intro s k
  induction k generalizing s with
  | zero => exact ⟨s, rfl⟩
  | succ k ih =>
    obtain ⟨t, ht⟩ := step_next s
    obtain ⟨u, hu⟩ := ih t
    exact ⟨u, (run_succ (M := core) ht).trans hu⟩
end

section
/-! A write of the wrong length (R60 step 4). -/
namespace Sys2Proof.Machine

/-- A write whose first judgement is its length, and whose length is wrong, is refused with TYPE_MISMATCH. -/
theorem endWrite_wrongLength {w : Writer} {s : State} {c : Prop} {_ : Decidable c} {o : WriteOut} (h : c) :
    endWrite w (if c then refuse s abTYPE else o) = .next (refused w abTYPE s) := by
  rw [if_pos h, endWrite_refuse]

theorem execDomTarget_wrongLength {s : State} {w : Writer} {d : Nat} {v : Bytes} (hlt : d < 196) (hd : domDisabled s d = false) (h : v.length ≠ 2) :
    execDomTarget w d v s = .next (refused w abTYPE s) := by
  simp [execDomTarget, writeDomTarget, hlt, hd, h, endWrite_refuse]

end Sys2Proof.Machine

open Sys2Proof Sys2Proof.Machine

/-- Settles O53: each of these writes judges its length before it looks at anything else; a domain's target looks first at whether the domain is disabled. -/
theorem wrongLengthsAreRefused : Obligations.WrongLengthsAreRefused := by
  refine ⟨fun w v s h => ?_, fun w d v s hlt hd h => execDomTarget_wrongLength hlt hd h, fun w v s h => endWrite_wrongLength h, fun w v s h => ?_, fun w v s h => ?_, fun w v s h => ?_,
    fun w v s h => endWrite_wrongLength h, fun w v s h => endWrite_wrongLength h, fun w k v s h => endWrite_wrongLength h, fun w r v s h => ?_⟩
  · exact ⟨endWrite_wrongLength h, endWrite_wrongLength h, endWrite_wrongLength h, endWrite_wrongLength h, endWrite_wrongLength h, endWrite_wrongLength h,
      endWrite_wrongLength h, endWrite_wrongLength h, endWrite_wrongLength h, endWrite_wrongLength h, endWrite_wrongLength h, endWrite_wrongLength h⟩
  · exact ⟨endWrite_wrongLength h, endWrite_wrongLength h, endWrite_wrongLength h, endWrite_wrongLength h⟩
  · exact ⟨endWrite_wrongLength h, endWrite_wrongLength h, endWrite_wrongLength h, endWrite_wrongLength h⟩
  · exact ⟨endWrite_wrongLength h, endWrite_wrongLength h⟩
  · exact ⟨endWrite_wrongLength h, endWrite_wrongLength h⟩
end

section
/-! What the statements on completion share: time limits, and what a write that is taken and waits comes to. -/
namespace Sys2Proof.Machine

/-- What is past its time limit is due. -/
theorem due_of_le {s : State} {t d : Nat} (h : t + d ≤ s.det.now) : due s t d = true := decide_eq_true h

/-- What is within its time limit is not due. -/
theorem not_due_of_lt {s : State} {t d : Nat} (h : s.det.now < t + d) : due s t d = false := decide_eq_false (Nat.not_le.mpr h)

theorem endWrite_wait (w : Writer) (t : State) : endWrite w (.wait t) = .next (fin t) := rfl

end Sys2Proof.Machine
end

section
/-! The commands that open, prove and end a session, and its I3C side. -/
open Sys2Proof Sys2Proof.Machine

/-- Settles O10: each command's guards are decided by the hypotheses of its clause, and what is left is its effect. -/
theorem sessionsOpenAndEnd : Obligations.SessionsOpenAndEnd := by
  refine ⟨?_, ?_, ?_, ?_, ?_, ?_, ?_, ?_, ?_, ?_, ?_, ?_, ?_⟩
  · intro f k s h1 h2 h3 h4 h5 h6 h7 h8
    change execPbpHello _ _ = _
    simp [execPbpHello, h1, h2, h3, h4, h5, h6, h7, h8]
  · intro f j k s h1 h2 h3 h4 h5 h6 h7 h8 h9
    change execPbpHello _ _ = _
    simp [execPbpHello, h1, h2, h3, h4, h5, h6, Nat.not_lt.mpr h7, h8, h9]
  · intro f k s h1 h2 h3 h4 h5 h6 h7
    change execPbpProve _ _ = _
    have early : due s (getSess s k).openedAt (secT 5 + 1) = false := not_due_of_lt (Nat.lt_succ_of_le h7)
    simp [execPbpProve, h1, h2, h3, h4, h5, h6, early]
    rfl
  · intro slot s h1 h2 h3
    change execPbpProveTimeout _ _ = _
    simp [execPbpProveTimeout, h1, h2, due_of_le h3]
  · intro f k s h1
    change execPbpClose _ _ = _
    simp [execPbpClose, takeFrame_taken _ _ _ _ _ h1]
  · intro slot s h1 h2 h3
    change execSessionIdleTimeout _ _ = _
    simp [execSessionIdleTimeout, h1, h2, due_of_le h3]
  · intro slot s h1 h2 h3
    change execSessionLimitReached _ _ = _
    have past : (decide (2 ^ 31 ≤ (getSess s slot).framesIn) || decide (2 ^ 31 ≤ (getSess s slot).framesOut) || due s (getSess s slot).openedAt (secT 86400)) = true := by
      simpa [due_iff, or_assoc] using h3
    simp only [execSessionLimitReached, h1, h2, past, Bool.not_false, Bool.and_true, if_true]
  · intro w v s h1
    change execSessionClose _ _ _ = _
    simp [execSessionClose, writeSessionClose, h1, endWrite_applied]
  · intro w e v s h1 h2 h3 h4 h5
    have helem : ¬ (e = 0 ∨ 16 < e) := by omega
    have hrole : ¬ 2 < bfld v 0 1 ∧ bfld v 0 1 ≠ 0 := by omega
    have hkey : ecDecode v.tail ≠ none := by simpa [Option.isSome_iff_ne_none] using h5
    change execRoleKeys _ _ _ _ = _
    simp [execRoleKeys, writeRoleKey, helem, h3, hrole, hkey, endWrite_applied]
  · intro w e s h1 h2
    change execRoleKeys _ _ _ _ = _
    simp [execRoleKeys, writeRoleKey, Nat.ne_of_gt h1, Nat.not_lt.mpr h2]
    rfl
  · intro handle f t s h1 h2 h3 h4 h5 h6
    change execI3cPrivateRead _ _ = _
    simp [execI3cPrivateRead, h1, h2, Nat.ne_of_gt h3, Nat.not_lt.mpr h4, h5, h6]
  · intro handle e s h1 h2 h3 h4 h5
    change execI3cPrivateRead _ _ = _
    simp [execI3cPrivateRead, h1, h2, Nat.ne_of_gt h3, Nat.not_lt.mpr h4, h5]
  · intro byId named addr s h1 h2 h3 h4
    change execI3cEntdaa _ _ _ _ = _
    simp [execI3cEntdaa, h1, h2, h3, h4]
end

section
/-! Subscriptions, events and drains. -/
open Sys2Proof Sys2Proof.Machine

/-- Settles O12: the entry that a command names is there and due, and the command does to it what the clause says. -/
theorem eventsComplete : Obligations.EventsComplete := by
  refine ⟨?_, ?_, ?_, ?_, ?_⟩
  · intro f k s h1 h2
    change execPbpEventAck _ _ = _
    simp [execPbpEventAck, takeFrame_taken _ _ _ _ _ h1, h2]
  · intro slot eventSeq u s h1 h2 h3 h4
    change execEventRetryTimeout _ _ _ = _
    simp [execEventRetryTimeout, h1, due_of_le h2, h3, h4]
  · intro subId y s h1 h2 h3
    change execSubscriptionPeriod _ _ = _
    simp [execSubscriptionPeriod, h1, Nat.not_lt.mpr h2, Nat.not_lt.mpr h3]
  · intro subId y e s h1 h2 h3 h4 h5 h6
    change execEventSend _ _ = _
    rcases h6 with h6 | h6 <;> simp [execEventSend, due, h1, h2, h3, Nat.not_le.mpr h4, h5, h6]
  · intro block s h1 h2
    change execDrainEnd _ _ = _
    simp [execDrainEnd, drainReady, h1, h2]
end

section
/-! The writes of the address map. -/
open Sys2Proof Sys2Proof.Machine

/-- Settles O13: R60's checks of a write of the map are decided by the hypotheses of its clause. -/
theorem mapWritesComplete : Obligations.MapWritesComplete := by
  refine ⟨?_, ?_, ?_, ?_, ?_, ?_, ?_, ?_, ?_, ?_, ?_⟩
  · intro w r v s h1 h2 h3 h4 h5 h6 h7 h8
    change execRegionCreate _ _ _ _ = _
    rcases h8 with h8 | h8 <;> simp [execRegionCreate, writeRegion, h1, h2, h3, h4, h5, h6, h7, h8, endWrite_applied]
  · intro w r v s h1 h2 h3 h4 h5 h6 h7 h8 h9
    change execRegionCreate _ _ _ _ = _
    simp [execRegionCreate, writeRegion, h1, h2, h3, h4, h5, h6, h7, h8, h9, endWrite_wait]
  · intro w r v s h1 h2 h3 h4 h5 h6 h7 h8 h9
    change execRegionChange _ _ _ _ = _
    simp [execRegionChange, writeRegion, h1, h2, h3, h4, h5, h6, h7, h8, h9, endWrite_wait]
  · intro w r v s h1 h2 h3 h4 h5 h6 h7
    change execRegionRelease _ _ _ _ = _
    simp [execRegionRelease, writeRegion, h1, h2, h3, h4, h5, h6, h7, endWrite_applied]
  · intro r s h1
    change execRegionReleaseEnd _ _ = _
    simp [execRegionReleaseEnd, h1]
  · intro w k v s h1 h2
    change execWindowWrite _ _ _ _ = _
    rcases h2 with h2 | h2 <;> simp [execWindowWrite, writeWindow, h1, h2, endWrite_applied]
  · intro w v s h1 h2 h3
    change execRouteStage _ _ _ = _
    simp [execRouteStage, writeStage, Nat.not_lt.mpr h1, h2, h3]
    rfl
  · intro w v s h1 h2
    change execRouteStage _ _ _ = _
    simp [execRouteStage, writeStage, Nat.not_lt.mpr h1, h2, endWrite_wait]
  · intro w v s h1 h2
    change execMapCommit _ _ _ = _
    simp [execMapCommit, writeCommit, h1, h2, endWrite_applied]
  · intro s h1 h2
    change execMapStageCopyEnd _ = _
    simp [execMapStageCopyEnd, copyEnd, h1, h2]
    rfl
  · intro e t s h1 h2
    change execMapGraceEnd _ = _
    simp [execMapGraceEnd, h1, due_of_le h2]
end

section
/-! Control windows, translation and holds. -/
open Sys2Proof Sys2Proof.Machine

/-- Settles O14: a store to a control window is a store at its register's offset; the events find what they name at the place where the hypotheses say it is. -/
theorem translationCommandsComplete : Obligations.TranslationCommandsComplete := by
  refine ⟨fun _ _ _ => rfl, fun _ _ => rfl, fun _ _ _ _ => rfl, fun _ _ _ => rfl, fun _ _ _ => rfl, ?_, ?_, ?_, ?_, ?_, ?_, ?_, ?_, ?_, ?_⟩
  · intro i rest s h1 h2 h3 h4
    change execInvComplete _ = _
    simp [execInvComplete, h1, h2, h3, h4]
  · intro x t q n u s h1 h2
    change execFrRecordFreed _ = _
    simp [execFrRecordFreed, h1, h2]
  · intro d x t q n u s h1 h2
    change execFrRecordFreed _ = _
    simp [execFrRecordFreed, h1, h2]
  · intro bank x s h1 h2
    change execTrackerAllocate _ _ = _
    simp [execTrackerAllocate, h1, h2]
  · intro tag i s h1 h2 h3
    change execRequestTimeout _ _ = _
    simp [execRequestTimeout, timeoutRef, h1, Nat.not_lt.mpr h2, h3]
  · intro seq x p n s h1 h2 h3 h4
    change execRequestTimeout _ _ = _
    simp [execRequestTimeout, timeoutRef, timeoutHeld, h1, Nat.not_lt.mpr h2, h3, h4]
  · intro seq x s h1 h2 h3
    change execRequestTimeout _ _ = _
    simp [execRequestTimeout, timeoutRef, timeoutHeld, h1, Nat.not_lt.mpr h2, h3]
  · intro seq x s h1 h2 h3 h4 h5
    change execHoldDiscard _ _ = _
    simp [execHoldDiscard, h1, Nat.not_le.mpr h4, h5]
  · intro seq x s h1 h2 h3 h4 h5
    change execHoldDiscard _ _ = _
    simp [execHoldDiscard, h1, Nat.not_le.mpr h4, h5]
  · intro c i s h1
    change execRetryReceived _ _ = _
    simp [execRetryReceived, h1]
end

section
/-! The requests of the node's units to its own memory. -/
namespace Sys2Proof.Machine

/-- A request of a unit of the node to the node's own addresses is held ready to be served. -/
theorem takeReq_own {s : State} {h : Head} {op : MemOp} (hk : h.kind ≠ 0) (hd : (unitHead s h).dst = endpointId s) :
    takeReq s h op = .next (fin (heldReady s (unitHead s h) op)) := by
  have hu : (unitHead s h).kind ≠ 0 := by
    unfold unitHead
    split
    · simp [coreOwn]
    · exact hk
  change Host.Outcome.next (fin (arriveBy s none (unitHead s h) op)) = _
  simp [arriveBy, hu, hd, heldReady, holdReqFor]

/-- A store of a block goes to its line. -/
theorem takeReq_blkReq {s : State} {h : Head} {g n : Nat} {knot span p : Bool} {d : Bytes} (hk : h.kind ≠ 0) (hd : (unitHead s h).dst = endpointId s) :
    takeReq s (blkReq h g knot span n d p).1 (blkReq h g knot span n d p).2 =
      .next (fin (heldReady s (unitHead s { h with addr := alignDown h.addr 64 }) (.blk (g % 65536) knot span n (slice d 0 64) p))) := by
  refine takeReq_own hk ?_
  unfold unitHead at *
  split <;> simp_all [coreOwn, blkReq]

/-- A completion of an access that returns no data ends it, whether or not the access was one of a mirrored pair. -/
theorem takeCmp_noData {s : State} {c : Completion} {i : Issued} {kind : Nat} (hi : findIssued s c.tag = some i) (hc : cmpKind i.req.op = kind) (hs : c.status = 0)
    (hr : opReads i.req.op = false) (hkind : kind ≠ 2) : takeCmp s c kind = finishIssued (meterPort s 0x4D0A (cidPart i.req.head.cid) 24) i 0 [] := by
  cases hm : i.mirror <;> simp [takeCmp, hi, hc, hs, hr, hkind, hm]

end Sys2Proof.Machine

open Sys2Proof Sys2Proof.Machine

/-- Settles O15: every request goes through `takeReq_own`; a completion finds the access that it answers. -/
theorem memoryRequestsComplete : Obligations.MemoryRequestsComplete := by
  refine ⟨fun _ _ _ => takeReq_own, fun _ _ _ => takeReq_own, fun _ _ _ _ _ => takeReq_own, fun _ _ _ _ _ => takeReq_own, fun _ _ _ _ _ => takeReq_own,
    fun _ _ _ _ _ => takeReq_own, fun _ _ _ _ _ _ => takeReq_own, fun _ _ _ _ _ => takeReq_own, fun _ _ _ _ _ => takeReq_own, fun _ _ _ _ _ => takeReq_own,
    fun _ _ _ _ => takeReq_own, fun _ _ _ _ => takeReq_own, fun _ _ _ _ => takeReq_own, fun h g sp d p s hk hd => takeReq_blkReq hk hd,
    fun h g sp n d s hk hd => takeReq_blkReq hk hd, ?_, ?_, ?_, ?_, ?_⟩
  · intro ep cid g sp k x c s h1 h2 h3
    change execKnotPerform _ _ _ _ _ = _
    simp [execKnotPerform, h1, h2, Nat.not_lt.mpr h3]
  · intro ep cid g sp k x c s h1 h2 h3 h4
    change execKnotHoldTimeout _ _ _ _ _ = _
    simp [execKnotHoldTimeout, h1, h2, Nat.not_lt.mpr h3, Nat.not_le.mpr h4]
  · intro c i s hi hc hs hr
    change Host.Outcome.next (fin (takeCmp _ _ _)) = _
    rw [takeCmp_noData hi hc hs hr (by decide)]
  · intro c i s hi hc hs hr
    change Host.Outcome.next (fin (takeCmp _ _ _)) = _
    rw [takeCmp_noData hi hc hs hr (by decide)]
  · intro c i s h1 h2 h3 h4 h5
    change execOrdData _ _ = _
    simp [execOrdData, takeCmp, h1, h2, h3, h4, h5]
end

section
/-! The instructions of a Treadle program. -/
open Sys2Proof Sys2Proof.Machine

/-- Settles O25: each instruction is `tdStep` at its own class and operation, and a step of the unit's next instruction is `tdStep_issues` or, for memory, `tdStep_issuesMem`. -/
theorem treadleInstructionsComplete : Obligations.TreadleInstructionsComplete := by
  refine ⟨?_, ?_, ?_, ?_⟩
  · intro a c cls op f u j t s hm h hf ht
    have hstep : tiAccesses cls op = false ∧ exec c s = .next (tdStep s a cls op f (fun s _ _ => s)) := by
      simp only [List.mem_cons, Prod.mk.injEq, List.not_mem_nil, or_false] at hm
      casesm* _ ∨ _, _ ∧ _ <;> subst_vars <;> exact ⟨rfl, rfl⟩
    obtain ⟨hplain, hexec⟩ := hstep
    rw [hexec, tdStep_issues h hplain hf ht]
  · intro a arrivals u j t s h hf ht
    exact congrArg Host.Outcome.next (tdStep_issues h rfl hf ht)
  · intro a env c cls op f x u j t s hm h hx hx1 hx2 hf ht
    have hstep : ∃ e, exec c s = .next (tdStep s a cls op f e) := by
      simp only [List.mem_cons, Prod.mk.injEq, List.not_mem_nil, or_false] at hm
      casesm* _ ∨ _, _ ∧ _ <;> subst_vars <;> exact ⟨_, rfl⟩
    obtain ⟨e, hexec⟩ := hstep
    rw [hexec, tdStep_issuesMem h hx hx1 hx2 hf ht]
  · intro a l u v j s h hdone hv hl ht
    subst hv
    refine congrArg Host.Outcome.next (tdStep_issues h rfl ?_ ht)
    simp [hdone, hl]
end

section
/-! The accesses of the Hearth cores. -/
namespace Sys2Proof.Machine

/-- A CBO of a running core on a line that its cluster holds coherent goes to the cluster. -/
theorem coreCbo_coherent {s : State} {core k : Nat} {h : Head} (hrun : coreStopped s core = false)
    (hcoh : (l2Get (wakeCluster s (core / 4)) (core / 4) (lineOf (coreOwn (wakeCluster s (core / 4)) core h).addr)).coh = true)
    (hw : coreWay (wakeCluster s (core / 4)) (coreOwn (wakeCluster s (core / 4)) core h) 1 false = .coherent) :
    coreCbo s core h k = coreCoherent (wakeCluster s (core / 4)) core (coreOwn (wakeCluster s (core / 4)) core h) (.cbo k) := by
  simp [coreCbo, hrun, hcoh, hw]

end Sys2Proof.Machine

open Sys2Proof Sys2Proof.Machine

/-- Settles O18: a core that runs issues its access with its own head, on the way that its line takes. -/
theorem hearthCommandsComplete : Obligations.HearthCommandsComplete := by
  refine ⟨?_, ?_, ?_, ?_, ?_, ?_, ?_, ?_, ?_, ?_, ?_⟩
  · intro core h n s u o hrun hu ho hb hw
    subst hu ho
    change execHearthLoadStore core h (.load n) s = _
    simp only [execHearthLoadStore, hrun, hb, hw, opLen, opWrites, Bool.false_eq_true, if_false]
  · intro core h d s u o hrun hu ho hb hw
    subst hu ho
    change execHearthLoadStore core h (.store d) s = _
    simp only [execHearthLoadStore, hrun, hb, hw, opLen, opWrites, Bool.false_eq_true, if_false]
  · intro core h n s u o hrun hu ho hb hw
    subst hu ho
    change execHearthLoadStore core h (.fetch n) s = _
    simp only [execHearthLoadStore, hrun, hb, hw, opLen, opWrites, Bool.false_eq_true, if_false]
  · intro core h op us wide x s u o hrun hu ho hw
    subst hu ho
    change execHearthAmo _ _ _ _ _ _ _ = _
    simp only [execHearthAmo, hrun, hw, Bool.false_eq_true, if_false]
  · intro core h op us wide x s u o hrun hu ho hw
    subst hu ho
    change execHearthAmo _ _ _ _ _ _ _ = _
    simp only [execHearthAmo, hrun, hw, Bool.false_eq_true, if_false]
  · intro core h wide s u o hrun hu ho hw
    subst hu ho
    change execHearthLr _ _ _ _ = _
    simp only [execHearthLr, hrun, hw, Bool.false_eq_true, if_false]
  · intro core h wide x s u o hrun hu ho hw
    subst hu ho
    change execHearthSc _ _ _ _ _ = _
    simp only [execHearthSc, hrun, hw, Bool.false_eq_true, if_false]
  · intro core h wide x s u o hrun hu ho hw
    subst hu ho
    change execHearthSc _ _ _ _ _ = _
    simp only [execHearthSc, hrun, Bool.false_eq_true, if_false]
  · intro core h s u o hrun hu ho hw
    subst hu ho
    change execCboZero _ _ _ = _
    simp only [execCboZero, hrun, hw, Bool.false_eq_true, if_false]
  · intro core h s u o hrun hu ho hcoh hw
    subst hu ho
    exact ⟨congrArg Host.Outcome.next (coreCbo_coherent hrun hcoh hw), congrArg Host.Outcome.next (coreCbo_coherent hrun hcoh hw),
      congrArg Host.Outcome.next (coreCbo_coherent hrun hcoh hw)⟩
  · intro core pi si pr sr s hrun hclass hnone
    change execHearthFence _ _ _ _ _ _ = _
    have hkeep : s.ord.coreFences.filter (fun x => x.1 != core ||
        (s.acc.held.any (fun y => y.req.head.kind == 5 && y.req.head.unit == core && decide (x.2.1 ≤ y.seq)))) = s.ord.coreFences := by
      rw [List.filter_eq_self]
      intro x hx
      have := List.any_eq_false.mp hnone x hx
      simp_all
    simp only [execHearthFence, hrun, hclass, hkeep, Bool.false_eq_true, if_false, if_true]
end

section
/-! The requests of an established session. -/
open Sys2Proof Sys2Proof.Machine

/-- Settles O11: the frame is taken (`takeRequest_taken`), and the hypotheses of a clause decide what the request's own checks come to. -/
theorem requestsComplete : Obligations.RequestsComplete := by
  refine ⟨?_, ?_, ?_, ?_, ?_, ?_, ?_, ?_, ?_, ?_, ?_⟩
  · intro f k s h1 h2 h3 h4 h5 h6
    change execPbpRead _ _ = _
    have hi : (readOps f).index = opIndex f := rfl
    have hs : (readOps f).sub = opSub f := rfl
    simp [execPbpRead, takeRequest_taken _ _ _ _ _ h1, hi, hs, h2, Nat.not_lt.mpr h3, h4, h5, h6]
  · intro f v k r t s h1 h2 h3 h4 h5 h6 h7 h8 h9 h10
    change execPbpWrite _ _ _ = _
    have hi : (writeOps f).index = opIndex f := rfl
    have hs : (writeOps f).sub = opSub f := rfl
    rw [h9] at h2 h3
    simp [execPbpWrite, writeRequest, answerWrite, takeRequest_taken _ _ _ _ _ h1, hi, hs, h2, Nat.not_lt.mpr h3, h4, h5, h6, h7, h8, h9, h10]
  · intro f k s h1 h2 h3
    change execPbpDescribe _ _ = _
    simp [execPbpDescribe, takeRequest_taken _ _ _ _ _ h1, h2, h3]
  · intro f k s h1 h2
    change execPbpEnumNext _ _ = _
    simp [execPbpEnumNext, takeRequest_taken _ _ _ _ _ h1, h2] <;> rfl
  · intro f k s h1 h2 h3 h4
    change execPbpStore _ _ _ = _
    have hrole : ¬ (getSess (requested s f k) k).role ≤ 1 := by omega
    simp [execPbpStore, storeRequest, takeRequest_taken _ _ _ _ _ h1, h2, hrole, h4]
  · intro f k s h1 h2 h3 h4
    change execPbpRestoreDefaults _ _ _ = _
    have hrole : ¬ (getSess (requested s f k) k).role ≤ 1 := by omega
    simp [execPbpRestoreDefaults, storeRequest, takeRequest_taken _ _ _ _ _ h1, h2, hrole, h4]
  · intro f k s h1 h2 h3 h4 h5 h6 h7 h8 h9 h10 h11 h12 h13
    change execPbpSubscribe _ _ = _
    have hi : (subscribeOps f).index = opIndex f := rfl
    have hs : (subscribeOps f).sub = opSub f := rfl
    simp [execPbpSubscribe, takeRequest_taken _ _ _ _ _ h1, subsOf, hi, hs, h2, h3, h4, h5, h6, Nat.ne_of_gt h7, h8, h9, h10, h11, Nat.not_le.mpr h12, Nat.not_le.mpr h13]
  · intro f k s h1 h2 h3
    change execPbpUnsubscribe _ _ = _
    simp only [execPbpUnsubscribe, takeRequest_taken _ _ _ _ _ h1, h2, h3, ne_eq, not_true_eq_false, if_false, if_true]
  · intro f k s h1 h2
    change execPbpPing _ _ = _
    simp [execPbpPing, takeRequest_taken _ _ _ _ _ h1, h2]
  · intro f entries v k s h1 h2 h3 h4 h5 h6 h7 h8
    change execPbpWriteGroup _ _ _ = _
    have hentry : ∀ e ∈ entries, (findObject (requested s f k) (opIndex f) e.sub).1 = 0 ∧
        mayWrite (getSess (requested s f k) k).role (findObject (requested s f k) (opIndex f) e.sub).2 = true := by simpa using h6
    have hrows : entries.find? (fun e => (findObject (requested s f k) (opIndex f) e.sub).1 != 0) = none := by
      simpa using fun e he => (hentry e he).1
    have hwrite : entries.find? (fun e => !mayWrite (getSess (requested s f k) k).role (findObject (requested s f k) (opIndex f) e.sub).2) = none := by
      simpa using fun e he => (hentry e he).2
    have hform : ¬ ((opSub f = 0 ∨ 16 < opSub f) ∨ f.body.length < 8) := by omega
    simp [execPbpWriteGroup, takeRequest_taken _ _ _ _ _ h1, hform, h5, Function.comp_def, hrows, hwrite, h7, h8]
  · intro w index sub v r t s h1 h2 h3
    change execObjectWrite _ _ _ _ _ = _
    simp [execObjectWrite, h1, h2, h3]
    rfl
end

section
/-! Fences, version commands and leases. -/
open Sys2Proof Sys2Proof.Machine

/-- Settles O19: a fence whose accesses are done is answered, a version command arrives at its slot, and the events of a page or a lease find it in the state that they name. -/
theorem fencesAndVersionsComplete : Obligations.FencesAndVersionsComplete := by
  refine ⟨?_, ?_, ?_, ?_, ?_, fun _ _ _ _ _ => rfl, fun _ _ _ _ _ => rfl, fun _ _ _ _ _ => rfl, fun _ _ _ _ _ => rfl, fun _ _ _ _ _ => rfl, fun _ _ _ _ _ => rfl,
    fun _ _ _ _ _ => rfl, ?_, ?_, ?_, ?_, ?_, fun _ _ _ => rfl, fun _ _ => rfl, ?_, ?_, ?_, ?_⟩
  · intro d x s h1 h2 h3 h4
    change execFenceAcquire _ _ = _
    simp [execFenceAcquire, runFence, h1, h2, h3, h4]
  · intro d x s h1 h2 h3 h4
    change execFenceRelease _ _ = _
    simp [execFenceRelease, runFence, h1, h2, h3, h4]
  · intro d x s h1 h2 h3 h4
    change execFenceFull _ _ = _
    simp [execFenceFull, runFence, h1, h2, h3, h4]
  · intro q x s h1 h2
    change execFenceComplete _ _ = _
    simp [execFenceComplete, h1, h2]
  · intro d x s h1 h2
    change execFlushRange _ _ = _
    simp [execFlushRange, h1, h2]
  · intro r page s h1
    change execVerFold _ _ _ = _
    simp [execVerFold, h1]
  · intro r v x s h1 h2 h3
    change execBastePageFreed _ _ = _
    simp [execBastePageFreed, h1, Option.isSome_iff_ne_none.mp h2, h3]
  · intro w r b v s h1 h2 h3
    change execVerView _ _ _ _ = _
    simp [execVerView, writeVerView, h1, h2, h3, endWrite_applied]
  · intro w b s h1
    change execVerQuery _ _ _ = _
    simp [execVerQuery, writeVerQuery, h1, endWrite_applied]
  · intro w b s h1 h2
    change execLeaseQuery _ _ _ = _
    simp [execLeaseQuery, writeLeaseQuery, h1, Nat.not_lt.mpr h2, endWrite_applied]
  · intro n l s h1 h2 h3 h4
    change execLeaseDeadline _ _ = _
    simp [execLeaseDeadline, h1, h2, h3, h4]
  · intro n l s h1 h2 h3 h4
    change execLeaseExpiry _ _ = _
    rcases h2 with h2 | h2 <;> simp [execLeaseExpiry, h1, h2, h3, h4]
  · intro n l s h1 h2 h3
    change execStaleHoldEnd _ _ = _
    simp [execStaleHoldEnd, h1, h2, due_of_le h3]
  · intro w b l s h1 h2 h3 h4 h5
    change execLeaseExpire _ _ _ = _
    rcases h4 with h4 | h4 <;> simp [execLeaseExpire, writeLeaseExpire, h1, Nat.not_lt.mpr h2, h3, h4, h5, endWrite_applied]
end

section
/-! The coherence commands that the home takes. -/
namespace Sys2Proof.Machine

/-- R241 to R245: a request of an agent in the domain that nothing refuses and nothing holds back is counted and submitted to its line. -/
theorem cohReq_served {s u : State} {m : CohMsg} {k : TxnKind} {r : Nat} (hgate : reqGate s m k = .pass u) (hfrom : fromAgent u m = true)
    (hport : byPort m = true → (getAgent u m.agent).part = cidPart m.cid ∧ ((getAgent u m.agent).cacheless = false ∨ k = .peek))
    (hplace : placeOf u m.line = .memory) (htrack : trackerFree u (reqPort m) m.line = true)
    (hmem : checkMem u m.cid (lineOf m.line * 64) 64 (k == .rdOwn || k == .upgrade) = some r) (hbast : inBasting u r (lineOf m.line * 64) 64 = false)
    (hdead : boltDead u r m.cid m.ep (lineOf m.line * 64) = false) (hkind : (getRegion u r).kind = 0) (hcopy : isCopy u r = false)
    (hbelow : boltBelow (reachFrom (countReq u k) (agentQuad u m.agent) (lineOf m.line * 64)) r m.cid m.ep (lineOf m.line * 64) = none) :
    cohReq s m k =
      let v := reachFrom (countReq u k) (agentQuad u m.agent) (lineOf m.line * 64)
      submitTxn (if readsMemory v m k then readError v (lineOf m.line * 64) m.ecc else v) (reqTxn u m k (getRegion u r).lostPolicy) := by
  have hpart : (byPort m && decide ((getAgent u m.agent).part ≠ cidPart m.cid)) = false := by
    cases hb : byPort m
    · rfl
    · simp [(hport hb).1]
  have hread : (byPort m && (getAgent u m.agent).cacheless && k != .peek) = false := by
    cases hb : byPort m
    · rfl
    · rcases (hport hb).2 with h | h <;> simp [h]
  simp only [cohReq, cohReqBy, hgate, reqOn, hfrom, hpart, hplace, htrack, reqCredit, cohServe, hmem, hbast, hdead, hread, hkind, hcopy, hbelow,
    Bool.not_true, Bool.or_false, Bool.false_eq_true, if_false, if_true, ne_eq, not_true_eq_false, decide_false]

end Sys2Proof.Machine

open Sys2Proof Sys2Proof.Machine

/-- Settles O16: a request goes through `cohReq_served`; the other commands find the line, the agent or the recall that they name. -/
theorem homeCommandsComplete : Obligations.HomeCommandsComplete := by
  refine ⟨?_, ?_, ?_, ?_, ?_, ?_, ?_, ?_, ?_, ?_, ?_, ?_, ?_, ?_, ?_, ?_, ?_, ?_⟩
  · intro c k m r s u hm hgate hfrom hport hplace htrack hmem hbast hdead hkind hcopy hbelow
    have hexec : exec c s = .next (fin (cohReq s m k)) := by
      simp only [List.mem_cons, Prod.mk.injEq, List.not_mem_nil, or_false] at hm
      casesm* _ ∨ _, _ ∧ _ <;> subst_vars <;> rfl
    rw [hexec, cohReq_served hgate hfrom hport hplace htrack hmem hbast hdead hkind hcopy hbelow]
  · intro line s h1
    change execSliceTxnStart _ _ = _
    simp [execSliceTxnStart, h1]
  · intro m t s h1 h2 h3 h4
    change execSnpAck _ _ = _
    simp [execSnpAck, snoopReply, fromHolder, h1, h2, h3, h4]
  · intro m t s h1 h2 h3 h4
    change execSnpData _ _ = _
    have hfrom : fromAgent s { m with flag := false } = true := h2
    simp only [execSnpData, snoopReply, fromHolder, h1, hfrom, h3, h4, Bool.not_true, Bool.false_eq_true, if_false, if_true]
  · intro m t s h1 h2 h3 h4
    change execCmpAck _ _ = _
    simp [execCmpAck, takeCmpAck, fromHolder, h1, h2, h3, h4]
  · intro m s h1 h2
    change execWbDirty _ _ = _
    simp [execWbDirty, takeWriteback, fromHolder, h1, h2]
  · intro m s h1 h2
    change execEvictClean _ _ = _
    simp [execEvictClean, takeWriteback, fromHolder, h1, h2]
  · intro w v s h1 h2 h3
    change execRegionRecall _ _ _ = _
    simp [execRegionRecall, writeRecall, h1, h2, Nat.not_le.mpr h3, endWrite_wait]
  · intro c rest x s h1 h2 h3 h4
    change execRegionRecallEnd _ = _
    simp [execRegionRecallEnd, h1, h2, h3, h4]
  · intro c rest x g s h1 h2 h3 h4
    change execRegionRecallEnd _ = _
    simp [execRegionRecallEnd, h1, h2, h3, h4]
  · intro line agent t op at_ s h1 h2 h3 h4 h5
    change execSnpTimeout _ _ _ = _
    simp only [execSnpTimeout, h1, h2, due_of_le h3, h4, h5, Bool.not_true, Bool.or_false, Bool.false_eq_true, if_false, if_true]
  · intro line agent t op at_ s h1 h2 h3 h4 h5
    change execSnpTimeout _ _ _ = _
    simp [execSnpTimeout, h1, h2, due_of_le h3, Nat.not_lt.mpr h4, h5]
  · intro w v s h1 h2
    change execAgentExpel _ _ _ = _
    simp [execAgentExpel, writeExpel, h1, Nat.not_lt.mpr h2, endWrite_applied]
  · intro w a v s h1 h2 h3 h4
    dsimp only
    intro h5 h6 h7 h8 h9 h10 h11 h12
    change execAgentAdmit _ _ _ _ = _
    have ha : ¬ a < 4 := by omega
    simp only [execAgentAdmit, writeAgent, h1, ha, h3, h4, h5, h6, h7, h8, Nat.not_lt.mpr h9, h10, h11, h12]
    simp [endWrite_applied]
  · intro w a v s h1 h2 h3 h4 h5 h6 h7 h8 h9 h10
    change execAgentDetach _ _ _ _ = _
    simp [execAgentDetach, writeAgent, h1, Nat.not_lt.mpr h2, h3, h4, h5, h6, h7, h8, h9, h10, endWrite_wait]
  · intro a s h1 h2 h3
    change execAgentDetachEnd _ _ = _
    simp [execAgentDetachEnd, h1, h2, h3]
  · intro line x s h1
    change execDirEccError _ _ = _
    simp [execDirEccError, h1]
  · intro w v s h1
    change execDirQuery _ _ _ = _
    simp [execDirQuery, writeDirQuery, h1, endWrite_applied]
end

section
/-! The coherence messages that an L2 cluster takes. -/
open Sys2Proof Sys2Proof.Machine

/-- Settles O17: what the cluster holds of the line decides its answer. -/
theorem clusterCommandsComplete : Obligations.ClusterCommandsComplete := by
  refine ⟨fun _ _ _ => rfl, fun _ _ _ => rfl, fun _ _ _ => rfl, fun _ _ _ => rfl, ?_, ?_, ?_, fun _ _ _ => rfl, fun _ _ _ => rfl, fun _ _ _ => rfl, ?_⟩
  · intro c m op s h1
    simp [snoopCluster, h1]
  · intro c m op s h1 h2
    rcases h2 with h2 | h2 <;> simp [snoopCluster, h1, h2]
  · intro c m s h1 h2 h3
    simp [snoopCluster, h1, h2, h3]
  · intro c m p s h1 h2 h3
    change execWbAck _ _ _ = _
    simp only [execWbAck]
    split
    · next hnone => exact absurd (h1.symm.trans hnone) (Option.some_ne_none p)
    · next q hsome =>
      obtain rfl : p = q := Option.some.inj (h1.symm.trans hsome)
      simp [h2, h3]
end

section
/-! The engine queues. -/
open Sys2Proof Sys2Proof.Machine

/-- Settles O20: a slot is read and its descriptor accepted, a completion that waits goes out, and the members of a fan-out report or end DEAD. -/
theorem queueCommandsComplete : Obligations.QueueCommandsComplete := by
  refine ⟨fun _ _ _ _ => rfl, fun _ _ _ _ => rfl, ?_, ?_, ?_, ?_, ?_, ?_, ?_, ?_⟩
  · intro q env b u s h1 h2 h3 h4 h5 h6 h7 h8 h9 h10 h11
    have hnew : (!(getQueue s q).en || (getQueue s q).halted || decide ((getQueue s q).head = (getQueue s q).tail) || decide (8 ≤ q.q) || !partExists s q.part ||
        decide (blkRun s q.blk ≠ 3) || draining s q.blk || decide (acceptMax q.blk ≤ blkAccepted s q.blk)) = false := by
      simp [h1, h2, h3, h4, h5, h6, h7, h8]
    change execSlotReadComplete _ _ _ = _
    simp only [execSlotReadComplete, hnew, h9, h10, Bool.false_eq_true, if_false, ne_eq, not_true_eq_false]
    exact congrArg Host.Outcome.next (if_pos h11)
  · intro q env st b u s h1 h2 h3 h4 h5 h6 h7 h8 h9 h10 h11
    change execSlotReadComplete _ _ _ = _
    simp [execSlotReadComplete, h1, h2, h3, Nat.not_le.mpr h4, h5, h6, h7, Nat.not_le.mpr h8, h9, h10, h11]
  · intro q e rest s h1 h2 h3
    change execCompletionRingSpace _ _ = _
    simp [execCompletionRingSpace, h1, h2, Nat.not_le.mpr h3]
  · intro d m x s h1 h2 h3 h4
    change execMemberReport _ _ _ = _
    simp only [execMemberReport, h1, h2, h3, h4, Bool.not_true, if_false, reduceCtorEq]
  · intro d x s h1 h2 h3 h4
    change execMemberMissingTimeout _ _ = _
    simp [execMemberMissingTimeout, h1, h2, h3, due_of_le h4]
  · intro d x s h1 h2 h3 h4 h5
    change execTapeMemberTimeout _ _ = _
    simp [execTapeMemberTimeout, h1, h2, h3, h4, due_of_le h5]
  · intro m env s h1 h2 h3
    have hknown : knownOp .bobbin 0x10 (bfld m.bytes 1 1) = true := by simp [knownOp]
    refine ⟨_, ?_, rfl⟩
    change execFanoutReceive _ _ _ = execLookup _ _ _
    simp [execFanoutReceive, h1, h2, h3, hknown, runShare]
  · intro m env s h1 h2 h3 h4
    change execFanoutReceive _ _ _ = _
    simp [execFanoutReceive, h1, h2, h3, h4]
end

section
/-! Bobbin's re-encoding and its training steps. -/
open Sys2Proof Sys2Proof.Machine

/-- Settles O22: the record, the move or the step that a command names is there, and the command does its part of the work. -/
theorem bobbinStepsComplete : Obligations.BobbinStepsComplete := by
  refine ⟨?_, ?_, ?_, ?_, ?_, ?_, ?_, ?_, ?_, ?_⟩
  · intro s h1 h2
    change execReencSweep _ = _
    simp [execReencSweep, h1, due_of_le h2]
  · intro t row f u s h1 h2 h3 h4
    change execRowReencode _ _ _ = _
    simp [execRowReencode, h1, h2, h3, h4]
  · intro t row m s h1
    change execRecordCutover _ _ _ = _
    simp [execRecordCutover, h1]
  · intro t b k s h1 h2
    change execOldRecordFree _ _ _ _ = _
    simp only [execOldRecordFree, h1, h2, Bool.not_true, if_false, if_true, reduceCtorEq]
  · intro d x e y u s h1 h2 h3 h4
    change execStepOpen _ _ = _
    simp [execStepOpen, bobReady, h1, h2, h3, h4]
  · intro d env x e y u s h1 h2 h3 h4
    change execAccumulate _ _ _ = _
    simp [execAccumulate, bobReady, h1, h2, h3, h4]
  · intro d x e y u s h1 h2 h3 h4
    change execSeal _ _ = _
    simp [execSeal, bobReady, h1, h2, h3, h4]
  · intro d x y e sel s h1 h2 h3 h4 h5 h6 h7 h8 h9 h10 h11
    change execSealApply _ _ = _
    simp [execSealApply, h1, h2, h3, h4, h5, h6, Nat.not_lt.mpr h7, h8, h9, h10, h11]
  · intro d x e y u s h1 h2 h3 h4
    change execStepDiscard _ _ = _
    simp [execStepDiscard, bobReady, h1, h2, h3, h4]
  · intro bank s h1
    change execAccBankFail _ _ _ = _
    simp [execAccBankFail, Nat.not_le.mpr h1]
end

section
/-! Bobbin tables, lookups and versions. -/
open Sys2Proof Sys2Proof.Machine

/-- Settles O21: a table or the block that may start or stop does so, and a descriptor that is taken runs on the engine that takes it. -/
theorem bobbinTablesComplete : Obligations.BobbinTablesComplete := by
  refine ⟨?_, ?_, ?_, ?_, ?_, ?_, ?_, ?_, ?_, ?_, ?_⟩
  · intro w s h1 h2
    change execBnStart _ _ = _
    simp [execBnStart, writeBlkCmd, blkStart, h1, h2]
    rfl
  · intro w s h1
    change execBnStop _ _ = _
    simp [execBnStop, writeBlkCmd, blkStop, h1]
    rfl
  · intro s h1 h2 h3
    change execBnStopEnd _ = _
    simp [execBnStopEnd, blkStopEnd, h1, h2, h3]
  · intro w t s h1 h2 h3 h4
    have hmaster : ∀ v e, tabMaster { s with ver := v, eng := e } t = true := fun _ _ => h3
    change endWrite w (tabStart s t) = _
    simp only [tabStart, Nat.not_le.mpr h1, h2, h4, hmaster, Bool.not_true, Bool.false_and, Bool.true_or, Bool.false_eq_true, if_false, if_true, endWrite_applied]
  · intro w t s h1
    change execTabStop _ _ _ = _
    simp [execTabStop, tabStop, writeTabCmd, h1]
    rfl
  · intro t s h1 h2
    change execTabStopEnd _ _ = _
    simp [execTabStopEnd, h1, h2]
  · intro d e x s h1 h2 h3 h4 h5
    change execChunkDeal _ _ _ = _
    simp [execChunkDeal, h1, h2, h3, h4, h5]
  · intro d env x e y u s h1 h2 h3 h4
    change execLookup _ _ _ = _
    simp [execLookup, h1, h2, h3, h4]
  · intro d env x e y u s h1 h2 h3 h4
    change execTabLoad _ _ _ = _
    simp [execTabLoad, bobReady, h1, h2, h3, h4]
  · intro d env x e y u s h1 h2 h3 h4 h5
    change execRefreshHot _ _ _ = _
    simp [execRefreshHot, bobReady, h1, h2, h3, h4, h5]
  · intro d c op x s hm h1 h2 h3 h4 h5 h6 h7
    have hexec : exec c s = .next (runVersion s d op) := by
      clear h2 h5 h7
      simp only [List.mem_cons, Prod.mk.injEq, List.not_mem_nil, or_false] at hm
      casesm* _ ∨ _, _ ∧ _ <;> subst_vars <;> rfl
    have hseal : (decide (op = 4) && sealBefore s d.q.part (bfld x.bytes 4 2) x.ord) = false := by
      by_cases hop : op = 4
      · simp [h7 hop]
      · simp [hop]
    simp only [hexec, runVersion, h1, h2, h3, h4, h5, h6, hseal, ne_eq, not_true_eq_false, Bool.not_true, Bool.false_eq_true, if_false]
end

section
/-! Tape. -/
namespace Sys2Proof.Machine

/-- A descriptor that Tape takes runs. -/
theorem tapeReady_taken {s : State} {d : DescRef} {op : Nat} {form : Nat → Bytes → Bool} {y : Desc} {run : Desc → Nat → State} (h : tapeTaken s d op form y) :
    tapeReady s d op form run = run y (bfld y.bytes 4 2) := by
  obtain ⟨hblk, hready, hserved, hform, hareas⟩ := h
  simp [tapeReady, hblk, hready, hserved, hform, hareas]

/-- An edit of the graph that Tape takes, of a node that is there, runs. -/
theorem graphEdit_taken {s : State} {d : DescRef} {sub : Nat} {env : List Reply} {y : Desc}
    {f : State → EngCtx → Nat → Bytes → Nat → Nat → VecNode → Ran × State} (hd : findDesc s d = some y) (hsub : bfld y.bytes 1 1 = sub)
    (h : tapeTaken s d 0x36 (editForm s) y) (hr : vecRight s (bfld y.bytes 4 2) (searchCtx s d y.bytes env) true = true)
    (hn : bfld y.bytes 8 3 < vecNlist s (bfld y.bytes 4 2)) :
    graphEdit s d sub env f = runDesc s d (fun v =>
      f v (searchCtx s d y.bytes env) (bfld y.bytes 4 2) y.bytes (bfld y.bytes 8 3) (bfld y.bytes 0x0B 1) (vecNode v (bfld y.bytes 4 2) (bfld y.bytes 8 3))) := by
  simp [graphEdit, hd, hsub, tapeReady_taken h, hr, Nat.not_le.mpr hn]

end Sys2Proof.Machine

open Sys2Proof Sys2Proof.Machine

/-- Settles O23: a descriptor that Tape takes runs (`tapeReady_taken`), a round opens, and the loads and merges do their work. -/
theorem tapeCommandsComplete : Obligations.TapeCommandsComplete := by
  refine ⟨?_, ?_, ?_, ?_, ?_, ?_, ?_, ?_, ?_, ?_, ?_, ?_, ?_, ?_, ?_, ?_, ?_, ?_, ?_, ?_⟩
  · intro w s h1 h2
    change execTpStart _ _ = _
    simp [execTpStart, writeBlkCmd, blkStart, h1, h2]
    rfl
  · intro w s h1
    change execTpStop _ _ = _
    simp [execTpStop, writeBlkCmd, blkStop, h1]
    rfl
  · intro s h1 h2 h3 h4 h5
    change execTpStopEnd _ = _
    simp [execTpStopEnd, blkStopEnd, h1, h2, h3, h4, h5]
  · intro w x s h1 h2
    change execVecStart _ _ _ = _
    simp [execVecStart, writeVecCmd, vecStart, Nat.not_le.mpr h1, h2]
    rfl
  · intro w x s h1
    change execVecStop _ _ _ = _
    simp [execVecStop, writeVecCmd, vecStop, h1]
    rfl
  · intro d env z s h1 h2 h3 h4 h5 h6 h7
    change execSearch _ _ _ = _
    simp [execSearch, h1, h2, h3, h4, h5, h6, h7]
  · intro index e w s h1 h2 h3 h4 h5 h6
    change execRoundOpen _ _ = _
    have hopen : ((findRound s index).isSome || decide (blkRun s .tape < 2) || !serviceOn s ||
        (decide (sumQueries (e :: w) < num s 0x2700 4) && !due s e.2.acceptedAt (usT (num s 0x2700 5)))) = false := by
      simp [h2, Nat.not_lt.mpr h3, h4, Nat.not_lt.mpr h5]
    simp only [execRoundOpen, h1, hopen, h6, Bool.not_true, Bool.false_eq_true, if_false]
  · intro index e r p s h1 h2 h3 h4
    change execPassStart _ _ _ = _
    simp [execPassStart, h1, h2, h3, h4] <;> rfl
  · intro index env r u s h1 h2 h3 h4
    change execRoundEnd _ _ _ = _
    simp [execRoundEnd, h1, h2, h3, h4]
  · intro d env y s h1 h2
    change execInsert _ _ _ = _
    simp [execInsert, tapeReady, h1, h2]
  · intro d env y l u s h1 h2 h3 h4 h5
    change execDelete _ _ _ = _
    simp only [execDelete, tapeReady_taken h1, h2, h3, h4, h5, Bool.not_true, Bool.false_eq_true, if_false]
  · intro d env y items u v z s h1 h2 h3 h4 h5 h6 h7 h8 h9
    change execListLoad _ _ _ = _
    simp [execListLoad, tapeReady, h1, h2, h3, h4, h5, h6, h7, h8, h9]
  · intro d env y s h1 h2 h3
    change execAreaLoad _ _ _ = _
    simp [execAreaLoad, tapeReady, h1, h2, h3]
  · intro d y z s h1 h2 h3 h4 h5
    change execMerge _ _ = _
    simp only [execMerge, tapeReady_taken h1, h2, h3, h4, h5, Bool.not_true, Bool.false_eq_true, if_false]
  · intro e x l u s h1 h2 h3 h4 h5
    change execMergeStart _ _ = _
    simp [execMergeStart, h1, h2, Nat.not_lt.mpr h3, h4, h5]
  · intro x l m s h1 h2
    change execMergeSwap _ _ _ = _
    simp [execMergeSwap, h1, h2]
  · intro x l f s h1
    change execMergeFree _ _ _ = _
    simp [execMergeFree, h1]
    rfl
  · intro d y s h1 h2 h3 h4 h5
    exact congrArg Host.Outcome.next (graphEdit_taken h1 h2 h3 h4 h5)
  · intro d env y s h1 h2 h3 h4 h5
    exact congrArg Host.Outcome.next (graphEdit_taken h1 h2 h3 h4 h5)
  · intro d env y s h1 h2 h3 h4 h5
    exact congrArg Host.Outcome.next (graphEdit_taken h1 h2 h3 h4 h5)
end

section
/-! Shuttle and the barriers. -/
open Sys2Proof Sys2Proof.Machine

/-- Settles O26: the piece, the descriptor, the group or the barrier that a command names is there and ready for it. -/
theorem shuttleCommandsComplete : Obligations.ShuttleCommandsComplete := by
  refine ⟨?_, ?_, ?_, ?_, ?_, ?_, ?_, ?_, ?_, ?_, ?_, ?_, ?_, ?_, ?_, ?_, ?_, fun _ _ _ _ => rfl, ?_⟩
  · intro w s h1 h2
    change execShStart _ _ = _
    simp [execShStart, writeBlkCmd, blkStart, h1, h2]
    rfl
  · intro w s h1
    change execShStop _ _ = _
    simp [execShStop, writeBlkCmd, blkStop, h1]
    rfl
  · intro s h1 h2 h3
    change execShStopEnd _ = _
    simp [execShStopEnd, blkStopEnd, h1, h2, h3]
  · intro d e x s h1 h2 h3 h4 h5 h6 h7 h8 h9 h10
    change execPieceDeal _ _ _ = _
    simp [execPieceDeal, h1, h2, Nat.not_lt.mpr h3, h4, Nat.not_le.mpr h5, h6, h7, h8, Nat.not_le.mpr h9, h10]
  · intro d p env x e s h1 h2 h3
    change execCopy _ _ _ _ = _
    simp [execCopy, h1, h2, h3]
  · intro d p env x e s h1 h2 h3 h4
    change execMcast _ _ _ _ = _
    simp [execMcast, h1, h2, h3, h4]
  · intro d p env x e s h1 h2 h3 h4 h5
    change execShReduce _ _ _ _ = _
    simp [execShReduce, h1, h2, h3, h4, h5]
  · intro d env x e s h1 h2 h3 h4 h5
    change execShReduceTree _ _ _ = _
    simp [execShReduceTree, h1, h2, h3, h4, h5]
  · intro d env x e s h1 h2 h3
    change execStageCounterReached _ _ _ = _
    simp [execStageCounterReached, h1, h2, h3]
  · intro d x s h1 h2 h3 h4
    change execStageWaitTimeout _ _ = _
    simp [execStageWaitTimeout, h1, h2, h3, due_of_le h4]
  · intro d env x s h1 h2 h3
    change execShWait _ _ _ = _
    simp [execShWait, h1, h2, h3] <;> rfl
  · intro d x s h1 h2 h3
    change execWaitTimeout _ _ = _
    simp [execWaitTimeout, h1, h2, due_of_le h3]
  · intro d dest x a s h1 h2 h3 h4
    change execArrivalAdd _ _ _ = _
    simp only [execArrivalAdd, h1, h2, due_of_le h3, Nat.not_le.mpr h4.2, Nat.ne_of_gt h4.1, if_false, if_true]
  · intro w g v s h1 h2 h3 h4 h5 h6 h7
    change execMcastGroup _ _ _ _ = _
    simp only [execMcastGroup, writeMcastGroup, Nat.not_le.mpr h1, h2, Nat.ne_of_gt h3, Nat.not_lt.mpr h4, h5, h6, h7, endWrite_applied, ne_eq,
      not_true_eq_false, decide_false, Bool.or_false, Bool.false_eq_true,  if_false]
  · intro w b s h1 h2 h3
    change execBarStart _ _ _ = _
    simp [execBarStart, writeBarCmd, barStart, Nat.not_le.mpr h1, h2, h3]
    rfl
  · intro w b s h1 h2
    change execBarStop _ _ _ = _
    simp [execBarStop, writeBarCmd, barStop, Nat.not_le.mpr h1, h2]
    rfl
  · intro w b s h1 h2
    change execBarAbort _ _ _ = _
    simp [execBarAbort, writeBarCmd, Nat.not_le.mpr h1, h2]
    rfl
  · intro b s h1 h2 h3 h4 h5
    change execBarTimeout _ _ = _
    simp [execBarTimeout, Nat.not_le.mpr h1, h2, h3, h4, due_of_le h5]
end

section
/-! Treadle's block and launches. -/
open Sys2Proof Sys2Proof.Machine

/-- Settles O24: a launch is accepted, picked in its turn, started and ended where nothing stands against it. -/
theorem treadleLaunchComplete : Obligations.TreadleLaunchComplete := by
  refine ⟨?_, ?_, ?_, ?_, ?_, ?_, ?_, ?_⟩
  · intro w s h1 h2
    change execTdStart _ _ = _
    simp [execTdStart, writeBlkCmd, blkStart, h1, h2]
    rfl
  · intro w s h1
    change execTdStop _ _ = _
    simp [execTdStop, writeBlkCmd, blkStop, h1]
    rfl
  · intro s h1 h2 h3
    change execTdStopEnd _ = _
    simp [execTdStopEnd, blkStopEnd, h1, h2, h3]
  · intro d env x st b u s h1 h2 h3 h4 h5 h6 h7
    change execLaunch _ _ _ = _
    have hroom : (hdrOk b && decide ((mayUse (unstall u d) d x.bytes).length < hdrNeed b)) = false := by
      cases hb : hdrOk b
      · rfl
      · simpa using h7 hb
    simp only [execLaunch, h1, h2, h3, h4, h5, h6, hroom, ne_eq, not_true_eq_false, Bool.false_eq_true, if_false]
  · intro d env x st b u l s h1 h2 h3 h4 h5 h6 h7 h8 h9 h10 h11 h12 hl h13
    change execLaunchPick _ _ _ = _
    subst hl
    have htreadle : (decide (d.q.blk ≠ .treadle) || decide (blkRun s .treadle < 2) || decide (descOp x ≠ 0x40)) = false := by
      simp [h2, Nat.not_lt.mpr h3, h4]
    have hturn : (decide (x.phase ≠ 1) || earlierWaits s d x || !turnOf s.eng.td.dealt (pnum s 0x4801) d.q.part (pickRivals s d.q.part)) = false := by
      simp [h6, h7, h8]
    simp only [execLaunchPick, h1, htreadle, h5, hturn, h9, h10, h11, h12, Nat.not_lt.mpr h13, Bool.not_true, Bool.false_eq_true, if_false]
  · intro d l x s h1 h2 h3 h4 h5 h6
    change execSyncStartReached _ _ = _
    simp [execSyncStartReached, h1, h2, h3, h4, h5, Nat.not_lt.mpr h6]
  · intro d l x s h1 h2 h3 h4 h5 h6
    change execLaunchEnd _ _ = _
    simp [execLaunchEnd, h1, h2, h3, h4, h5, h6]
  · intro d l x s h1 h2 h3 h4 h5 h6 h7
    change execWatchdogExpire _ _ = _
    simp only [execWatchdogExpire, h1, h2, h3, h4, h5, h6, h7, Option.isNone_none, Bool.not_false, Bool.and_true, decide_true, if_true] <;> rfl
end

section
/-! Ports up and down. -/
open Sys2Proof Sys2Proof.Machine

/-- Settles O27: a port is in the state or stage that the command names, and the command takes it to the next. -/
theorem portBringUpComplete : Obligations.PortBringUpComplete := by
  refine ⟨?_, ?_, ?_, ?_, ?_, ?_, ?_, ?_, ?_, ?_, ?_, ?_, ?_, ?_, ?_, ?_, ?_, ?_, ?_, ?_⟩
  · intro w s h1 h2
    change execPortsStart _ _ = _
    simp [execPortsStart, portsStart, h1, h2, endWrite_applied]
  · intro w s h1
    change execPortsStop _ _ = _
    simp [execPortsStop, portsStop, h1, endWrite_applied]
  · intro w v s h1 h2
    change execJoinEpoch _ _ _ = _
    simp [execJoinEpoch, writeJoin, h1, Nat.not_le.mpr h2, endWrite_applied]
  · intro w p s h1 h2
    change execPortAttach _ _ _ = _
    simp [execPortAttach, portAttach, attach, applied, h1, h2]
    rfl
  · intro w p s h1 h2 h3 h4
    change execPortDetach _ _ _ = _
    rcases h4 with h4 | h4 <;> simp [execPortDetach, portDetachCmd, h1, h2, h3, h4, endWrite_applied]
  · intro w p s h1
    change execPortRetrainCmd _ _ _ = _
    simp [execPortRetrainCmd, h1]
    rfl
  · intro w p s h1 h2 h3 h4
    change execPortForceDown _ _ _ = _
    simp [execPortForceDown, portForceDown, h1, h2, h3, h4, endWrite_applied]
  · intro p s h1 h2 h3 h4 h5
    change execAttachPoll _ _ = _
    simp [execAttachPoll, Nat.not_le.mpr h1, h2, h3, h4, due_of_le h5]
  · intro p lanes s h1 h2 h3 h4
    change execDetectDone _ _ _ = _
    rcases h4 with h4 | h4 <;> simp [execDetectDone, Nat.not_le.mpr h1, h2, h3, h4]
  · intro p s h1 h2 h3
    change execPollDone _ _ = _
    rcases h3 with h3 | h3 <;> simp [execPollDone, Nat.not_le.mpr h1, h2, h3]
  · intro p s h1 h2 h3
    change execPollTimeout _ _ = _
    simp [execPollTimeout, stateTimeout, Nat.not_le.mpr h1, h2, due_of_le h3]
  · intro p s h1 h2 h3
    change execEqTimeout _ _ = _
    simp [execEqTimeout, Nat.not_le.mpr h1, h2, due_of_le h3]
  · intro p lanes good pg s h1 h2 h3 h4
    change execEqPhaseEnd _ _ _ _ _ = _
    have hstate := fun b => (portState_setBlob s 0x210B p b (by decide)).trans h3
    simp only [execEqPhaseEnd, Nat.not_le.mpr h1, h2, h3, hstate, h4, decide_false, ne_eq, not_true_eq_false, Bool.true_or, beq_self_eq_true, Bool.not_true,
      Bool.or_false, show decide ((4 : Nat) = 8) = false from rfl, Bool.and_false, Bool.false_eq_true, if_false, if_true] <;> rfl
  · intro p lanes good pg s h1 h2 h3 h4 h5
    change execEqPhaseEnd _ _ _ _ _ = _
    simp only [execEqPhaseEnd, Nat.not_le.mpr h1, h2, h3, Nat.not_lt.mpr h4, h5, decide_false, ne_eq, not_true_eq_false, Bool.true_or, beq_self_eq_true,
      Bool.not_true, Bool.or_false, Bool.false_eq_true, if_false]
  · intro p b s h1
    change execFit _ _ _ = _
    simp [execFit, Nat.not_le.mpr h1]
  · intro p s h1 h2 h3
    change execFitTimeout _ _ = _
    simp [execFitTimeout, stateTimeout, Nat.not_le.mpr h1, h2, due_of_le h3]
  · intro p b s h1
    change execKeyPart1 _ _ _ = _
    simp [execKeyPart1, Nat.not_le.mpr h1]
  · intro p b s h1
    change execKeyPart2 _ _ _ = _
    simp [execKeyPart2, Nat.not_le.mpr h1]
  · intro p k s h1 h2 h3
    change execKeyResend _ _ = _
    simp [execKeyResend, h1, h2, due_of_le h3]
  · intro p s h1 h2 h3
    change execKeyTimeout _ _ = _
    simp [execKeyTimeout, stateTimeout, Nat.not_le.mpr h1, h2, due_of_le h3]
end

section
/-! Data, idle and control flits. -/
open Sys2Proof Sys2Proof.Machine

/-- Settles O29: a port that takes flits holds the key, the credit or the acknowledgement that the flit or the event needs. -/
theorem portFlitsComplete : Obligations.PortFlitsComplete := by
  refine ⟨?_, ?_, ?_, ?_, ?_, ?_, ?_, ?_, ?_, ?_, ?_, ?_, ?_, ?_⟩
  · intro p f s h1
    change execDataFlit _ _ _ = _
    simp [execDataFlit, h1]
  · intro p f s h1
    change execIdleFlit _ _ _ = _
    simp [execIdleFlit, h1]
  · intro p s h1 h2 h3
    change execAckTimeout _ _ = _
    simp [execAckTimeout, h1, h2, due_of_le h3]
  · intro p s h1
    change execFlitBoundary _ _ = _
    simp [execFlitBoundary, h1]
  · intro p src tag loc s h1
    change execPing _ _ _ _ _ = _
    simp [execPing, onMsg, h1]
  · intro p tag s h1
    change execPong _ _ _ = _
    simp [execPong, onMsg, h1]
  · intro p mask s h1
    change execQuiesce _ _ _ = _
    simp [execQuiesce, onMsg, h1]
  · intro p s h1
    change execResume _ _ = _
    simp [execResume, onMsg, h1]
  · intro p s h1 h2
    change execDetachReq _ _ = _
    simp [execDetachReq, takeDetachReq, onMsg, h1, h2]
  · intro p s h1 h2
    change execDetachAck _ _ = _
    rcases h2 with h2 | h2 <;> simp [execDetachAck, takeDetachAck, onMsg, ownDetach, h1, h2]
  · intro p nonce gen k s h1 h2 h3
    change execKeyUpdate _ _ _ _ = _
    simp only [execKeyUpdate, onMsg, takeKeyUpdate, h1, h2, h3, if_false, if_true, ne_eq, not_true_eq_false]
  · intro p k s h1 h2 h3 h4 h5 h6
    change execRekeyDue _ _ = _
    simp [execRekeyDue, h1, h2, h3, h4, h5, Nat.not_lt.mpr h6]
  · intro p k s h1 h2
    change execCounterExhausted _ _ = _
    simp only [execCounterExhausted, h1, h2, if_true]
  · intro p ep code unit data s h1
    change execNotice _ _ _ _ _ _ = _
    simp [execNotice, onMsg, h1]
end

section
/-! The requests of a host. -/
open Sys2Proof Sys2Proof.Machine

/-- Settles O30: a port in compatibility whose link is up serves the request, and the link events find it in their state. -/
theorem hostTrafficComplete : Obligations.HostTrafficComplete := by
  refine ⟨?_, ?_, ?_, ?_, ?_, ?_, ?_, ?_, ?_⟩
  · intro p tag bar off len s h1 h2 h3 h4
    change execPcieMemRead _ _ _ _ _ _ = _
    simp [execPcieMemRead, h1, Nat.ne_of_gt h2, Nat.not_lt.mpr h3, h4]
  · intro p off d relaxed a s h1 h2 h3 h4 h5
    change execPcieMemWrite _ _ _ _ _ _ = _
    simp [execPcieMemWrite, forS, h1, h2, Nat.not_lt.mpr h3, h4, h5]
  · intro p tag addr s h1 h2 h3 h4
    change execCxlMemRd _ _ _ _ = _
    simp [execCxlMemRd, h1, h2, h3, Nat.not_le.mpr h4]
  · intro p tag addr d en s h1 h2 h3 h4 h5
    change execCxlMemWr _ _ _ _ _ _ = _
    simp [execCxlMemWr, h1, h2, h3, Nat.not_le.mpr h4, h5]
  · intro p tag cpl poison d i s h1 h2 h3 h4 h5 h6
    change execPcieCompletion _ _ _ _ _ _ = _
    simp [execPcieCompletion, Nat.not_le.mpr h1, h2, h3, h4, h5, h6]
  · intro p space off v s h1
    change execPcieConfigRequest _ _ _ _ _ _ = _
    simp [execPcieConfigRequest, h1]
  · intro p space off v s h1
    change execPcieConfigRequest _ _ _ _ _ _ = _
    simp [execPcieConfigRequest, h1]
  · intro p s h1
    change execFlr _ _ = _
    simp [execFlr, h1]
  · intro p ltssm gen width s h1 h2 h3
    change execCompatLinkState _ _ _ _ _ _ _ = _
    have hstate := fun b => (portState_setBlob s 0x2111 p b (by decide)).trans h3
    simp only [execCompatLinkState, Nat.not_le.mpr h1, h2, h3, hstate, Bool.false_and, b2n, decide_true, decide_false, Bool.true_and, Bool.true_or,
      Bool.not_true, Bool.or_false, Bool.false_eq_true, if_false, if_true]
end

section
/-! Partitions, keys and fuses. -/
open Sys2Proof Sys2Proof.Machine

/-- Settles O32: R60's checks of a write are decided by the hypotheses of its clause, and a slot or a region that waits is served. -/
theorem partitionCommandsComplete : Obligations.PartitionCommandsComplete := by
  refine ⟨?_, ?_, ?_, ?_, ?_, ?_, fun _ _ => rfl, ?_, ?_, ?_, ?_, fun _ _ => rfl⟩
  · intro w v s h1 h2 h3 h4
    change execPartCreate _ _ _ = _
    simp [execPartCreate, writePartCreate, h1, Nat.not_le.mpr h2, h3, h4, endWrite_applied]
  · intro w v s h1 h2 h3
    change execPartRemove _ _ _ = _
    simp [execPartRemove, writePartRemove, h1, h2, h3, endWrite_applied]
  · intro p s h1 h2
    change execPartDrainEnd _ _ = _
    rcases h2 with h2 | h2 <;> simp [execPartDrainEnd, due, h1, h2]
  · intro p s h1 h2 h3
    change execPartScrubEnd _ _ = _
    simp [execPartScrubEnd, h1, h2, h3]
  · intro tier slot s h1
    change execSlotScrubbed _ _ _ = _
    simp [execSlotScrubbed, h1]
  · intro w p v s h1 h2 h3 h4 h5 h6
    change execPartHearth _ _ _ _ = _
    simp only [execPartHearth, writePartHearth, h1, h2, h3, h4, h5, h6, ne_eq, not_true_eq_false, decide_false, Bool.or_false, Bool.false_eq_true, if_false, endWrite_applied]
  · intro w v s h1 h2 h3
    change execDebugUnlock _ _ _ = _
    rcases h3 with h3 | h3 <;> simp [execDebugUnlock, writeDebugUnlock, h1, h2, h3, endWrite_applied]
  · intro w v u s h1
    change execDebugUnlock _ _ _ = _
    simp [execDebugUnlock, h1]
    rfl
  · intro w v s h1 h2 h3 h4 h5
    change execArbAdvanceFw _ _ _ = _
    simp [execArbAdvanceFw, writeArbFw, h1, Nat.not_le.mpr h2, Nat.not_lt.mpr h3, Nat.not_lt.mpr h4, Nat.not_lt.mpr h5, endWrite_applied]
  · intro w v s h1 h2 h3 h4
    change execArbAdvanceLoader _ _ _ = _
    simp [execArbAdvanceLoader, writeArbLoader, h1, Nat.not_le.mpr h2, Nat.not_lt.mpr h3, Nat.not_lt.mpr h4, endWrite_applied]
end

section
/-! Doorbells. -/
open Sys2Proof Sys2Proof.Machine

/-- Settles O33: the winning source is delivered, and a store to the doorbell block is the core's own. -/
theorem doorbellsComplete : Obligations.DoorbellsComplete := by
  refine ⟨?_, ?_, ?_, fun _ _ _ => rfl, ?_, ?_⟩
  · intro t src red lvl s h1 h2 h3 h4 h5 h6 h7
    change execBbDeliver _ _ = _
    simp [execBbDeliver, Nat.not_le.mpr h1, h2, h3, h4, h5, h6, h7] <;> rfl
  · intro core m t v s h1
    change execBbComplete _ _ _ _ _ = _
    simp [execBbComplete, Nat.not_le.mpr h1]
  · intro core src v s h1
    change execBbRoute _ _ _ _ _ = _
    simp [execBbRoute, Nat.not_le.mpr h1]
  · intro core p v s h1
    change execBbPSoftSet _ _ _ _ = _
    simp [execBbPSoftSet, Nat.not_le.mpr h1]
  · intro t s h1 h2 h3 h4 h5
    change execBbWakeTimeout _ _ = _
    simp only [execBbWakeTimeout, Nat.not_le.mpr h1, h2, h3, h4, due_of_le h5, decide_false, Bool.not_true, Bool.or_false, Bool.false_eq_true, if_false]
end

section
/-! Determinism and node time. -/
open Sys2Proof Sys2Proof.Machine

/-- Settles O34: each command finds the loop or the reset in the state that it names. -/
theorem determinismComplete : Obligations.DeterminismComplete := by
  refine ⟨fun _ _ => rfl, fun _ _ => rfl, ?_, ?_, ?_⟩
  · intro z s h1 h2 h3
    change execSyncInterval _ = _
    simp [execSyncInterval, h1, due_of_le h2, h3]
  · intro s h1 h2 h3 h4 h5
    change execSyncInterval _ = _
    simp [execSyncInterval, h1, due_of_le h2, h3, h4, h5]
  · intro s h1 h2 h3
    change execSyncSample _ = _
    rcases h3 with h3 | h3 <;> simp [execSyncSample, due, h1, Nat.not_le.mpr h2, h3]
end

section
/-! Faults, recovery and limp mode. -/
open Sys2Proof Sys2Proof.Machine

/-- Settles O35: a write of the sticky and recovery objects passes R60's checks, and a report of a fault is recorded. -/
theorem recoveryComplete : Obligations.RecoveryComplete := by
  refine ⟨?_, fun _ _ => rfl, ?_, ?_, ?_, ?_, ?_, ?_, ?_, ?_, ?_, ?_⟩
  · intro w code s h1 h2
    change execStickyWrite _ _ _ _ = _
    simp [execStickyWrite, h1, h2]
    rfl
  · intro bank s h1 h2
    change execTrackerBankLoss _ _ = _
    simp [execTrackerBankLoss, Nat.not_le.mpr h1, h2]
  · intro e rest s h1 h2 h3
    change execRecoveryStart _ = _
    simp [execRecoveryStart, h1, h2, h3]
  · intro e s h1 h2 h3 h4
    change execRecoveryEnd _ = _
    simp [execRecoveryEnd, h1, h2, h3, h4]
  · intro res t s h1 h2
    change execWindowClose _ _ = _
    simp [execWindowClose, h1, Nat.not_lt.mpr h2]
  · intro w v s h1 h2 h3
    change execResourceRelease _ _ _ = _
    simp [execResourceRelease, writeRelease, h1, h2, h3, endWrite_applied]
  · intro w v s h1
    change execResourceQuery _ _ _ = _
    simp [execResourceQuery, writeResourceQuery, h1, endWrite_applied]
  · intro w s h1
    change execLimpEnter _ _ = _
    simp [execLimpEnter, writeLimpCmd, h1]
    rfl
  · intro w s h1
    change execLimpExit _ _ = _
    simp [execLimpExit, writeLimpCmd, h1]
    rfl
  · intro kind unit d x s h1 h2 h3
    refine (show exec (.engineFault kind unit (some d)) s = execEngineFault kind unit (some d) s from rfl).trans ?_
    have hkind : ¬ ((decide (kind = 0) || decide (6 < kind)) = true) := by
      simp [Nat.ne_of_gt h1, Nat.not_lt.mpr h2]
    refine (if_neg hkind).trans ?_
    simp only [Option.bind_some, h3]
  · intro kind unit s h1 h2
    refine (show exec (.engineFault kind unit none) s = execEngineFault kind unit none s from rfl).trans ?_
    have hkind : ¬ ((decide (kind = 0) || decide (6 < kind)) = true) := by
      simp [Nat.ne_of_gt h1, Nat.not_lt.mpr h2]
    exact if_neg hkind
end

section
/-! Mirrored regions. -/
open Sys2Proof Sys2Proof.Machine

/-- Settles O36: a notice finds the binding or the copy that it names. -/
theorem mirrorComplete : Obligations.MirrorComplete := by
  refine ⟨?_, ?_, ?_, ?_, ?_, fun _ _ _ _ => rfl, fun _ _ _ _ _ _ _ _ => rfl, ?_, ?_, ?_, ?_⟩
  · intro ep unit data r s h1 h2
    change execMirrorBind _ _ _ _ = _
    simp [execMirrorBind, takeBind, h1, h2]
  · intro ep unit data b s h1 h2 h3 h4 h5
    change execMirrorBound ep unit data s = _
    simp only [execMirrorBound, takeBound, h1, h2, h3, h4, h5, decide_false, ne_eq, not_true_eq_false, Bool.or_false, Bool.false_eq_true, if_false]
  · intro ep unit data b s h1 h2
    change execMirrorRefused ep unit data s = _
    simp only [execMirrorRefused, takeRefused, h1, h2, if_true]
  · intro ep unit data r s h1 h2
    change execMirrorUnbind ep unit data s = _
    simp only [execMirrorUnbind, takeUnbind, h1, h2, if_true]
  · intro r b s h1 h2 h3
    change execMirrorBindTimeout _ _ = _
    simp [execMirrorBindTimeout, h1, h2, due_of_le h3]
  · intro tag i r s h1 h2 h3
    change execMirrorWriteTimeout _ _ = _
    simp [execMirrorWriteTimeout, h1, h2, due_of_le h3]
  · intro r s h1 h2 h3 h4 h5 h6 h7
    change execMirrorRebindRetry _ _ = _
    simp [execMirrorRebindRetry, h1, h2, h3, h4, h5, h6, due_of_le h7]
  · intro r s h1 h2 h3 h4 h5 h6
    change execRebuildBolt _ _ = _
    simp [execRebuildBolt, h1, h2, h3, Nat.not_le.mpr h4, h5, h6]
  · intro w v s h1 h2 h3 h4 h5
    change execMirrorTakeover _ _ _ = _
    simp [execMirrorTakeover, writeTakeover, h1, h2, h3, h4, h5, endWrite_applied]
end

section
/-! Stream windows. -/
namespace Sys2Proof.Machine

/-- A window with its advance writes taken. -/
def takeWrites (s : State) (w : Nat) : State := setStream s w { getStream s w with writes := [] }

theorem getStream_takeWrites {s : State} {w : Nat} (h : (getStream s w).run = 3) :
    getStream (takeWrites s w) w = { getStream s w with writes := [] } :=
  sget_sput_new _ w _ (fun hreset => by
    have hrun := congrArg StreamRun.run hreset
    exact absurd (h.symm.trans hrun) (by decide)) _

/-- What stays in a window when a cyclic stream moves to position `v`. -/
def keptLayers (s : State) (n v : Nat) : List Nat := (windowPos s n v).map (layerAt s n)

/-- A write of the advance word that stays within the window of a running cyclic stream. -/
theorem advanceTo_cyclic {s : State} {n v : Nat} (hrun : (getStream s n).run = 3) (hpos : (getStream s n).pos < v)
    (hwindow : v ≤ (getStream s n).pos + strW s n) (hcycle : strCycle s n = true) :
    advanceTo s n v =
      let u := unpinBolts s n (fun b => (keptLayers s n v).any (fun k => (layerBolts s n k).contains b))
      let x := getStream u n
      storeReady (startFetch (setStream u n { x with
        pos := v
        fetched := x.fetched.filter (keptLayers s n v).contains
        fetching := x.fetching.filter (keptLayers s n v).contains }) n) n := by
  simp only [advanceTo, hrun, Nat.not_le.mpr hpos, Nat.not_lt.mpr hwindow, hcycle, ne_eq, not_true_eq_false, decide_false, Bool.or_false,
    Bool.false_eq_true, if_false, if_true, keptLayers]
  split <;> simp_all [Option.filter]

end Sys2Proof.Machine

open Sys2Proof Sys2Proof.Machine

/-- Settles O38: a window is in the state that the command names, and an advance within the window goes through `advanceTo_cyclic`. -/
theorem streamsComplete : Obligations.StreamsComplete := by
  refine ⟨?_, ?_, ?_, ?_, ?_, ?_, ?_⟩
  · intro w n s h1 h2
    change execStrStart _ _ _ = _
    simp [execStrStart, strStart, Nat.not_le.mpr h1, h2, endWrite_applied]
  · intro w n s h1
    change execStrStop _ _ _ = _
    simp [execStrStop, strStop, h1, endWrite_applied]
  · intro n s h1
    change execStrStopEnd _ _ = _
    simp [execStrStopEnd, h1]
  · intro n s h1
    change execStrAdvance _ _ = _
    simp [execStrAdvance, h1]
  · intro n v s h1 h2 h3 h4 h5 h6
    change execStrAdvance _ _ = _
    have hget := getStream_takeWrites h2
    have hadvance : advanceTo (takeWrites s n) n v = _ :=
      advanceTo_cyclic (by rw [hget]; exact h2) (by rw [hget]; exact h3) (by rw [hget]; exact h4) h5
    simp only [execStrAdvance, h6, List.isEmpty_cons, forS, List.foldl_cons, List.foldl_nil, Bool.false_eq_true, if_false]
    exact congrArg (fun u => Host.Outcome.next (fin u)) hadvance
  · intro n k s h1 h2
    change execStrLayerFetched _ _ = _
    simp [execStrLayerFetched, h1, h2]
  · intro n k s h1 h2
    change execStrLayerFetched _ _ = _
    simp [execStrLayerFetched, h1, h2]
end

section
/-! LINK flits and the events of a port. -/
namespace Sys2Proof.Machine

/-- A LINK flit that its port takes and whose header is not refused. -/
theorem onLink_taken {s : State} {p : Nat} {l : LinkHdr} {f : State → State} (hport : p < 32)
    (hstate : portState s p = 7 ∨ portState s p = 8 ∨ portState s p = 9) (htaken : linkRefused s p l = false) :
    onLink s p l f = .next (fin (f (takeLinkHdr (portCount s p 8 1) p l))) := by
  have hup : (portState s p == 7 || portState s p == 8 || portState s p == 9) = true := by
    simpa [or_assoc] using hstate
  simp only [onLink, hport, hup, htaken, decide_true, Bool.and_self, Bool.false_eq_true, if_false, if_true]

end Sys2Proof.Machine

open Sys2Proof Sys2Proof.Machine

/-- Settles O28: a LINK flit goes through `onLink_taken`; an event finds the port in the state that it names. -/
theorem portLinkComplete : Obligations.PortLinkComplete := by
  refine ⟨?_, ?_, ?_, ?_, ?_, ?_, ?_, ?_⟩
  · intro p l lane post up s h1 h2 h3
    change execEqReq p l lane post up s = _
    exact onLink_taken h1 h2 h3
  · intro p l lane r s h1 h2 h3
    change execEqAck p l lane r s = _
    exact onLink_taken h1 h2 h3
  · intro p l s h1 h2 h3
    change execRetrainReq p l s = _
    exact onLink_taken h1 h2 h3
  · intro p l r s h1 h2 h3
    change execDownNotice p l r s = _
    exact onLink_taken h1 h2 h3
  · intro p s h1
    change execLossOfSignal _ _ = _
    simp [execLossOfSignal, Nat.not_le.mpr h1]
  · intro p lane mv post up s h1 h2 h3 h4 h5 h6
    change execEyeHeightLow _ _ _ _ _ _ = _
    simp [execEyeHeightLow, Nat.not_le.mpr h1, Nat.not_le.mpr h2, Nat.not_le.mpr h3, h4, h5, h6]
  · intro p s h1 h2 h3
    change execRetrainTimeout _ _ = _
    simp [execRetrainTimeout, stateTimeout, Nat.not_le.mpr h1, h2, due_of_le h3]
  · intro p s h1 h2 h3 h4
    change execDetachTimeout _ _ = _
    have hown : ownDetach (getPort s p) = true := by simpa [ownDetach] using h2
    simp only [execDetachTimeout, h1, hown, h3, due_of_le h4, decide_true, Bool.true_or, Bool.and_self, if_true]
end

section
/-! SPDM, IDE_KM and mailbox requests of a host. -/
namespace Sys2Proof.Machine

theorem onSpdm_ready {s : State} {p : Nat} {f : State} (hup : hostUp s p = true) (hstate : (getPort s p).host.spdm = 3) :
    onSpdm s p f = .next f := by
  simp only [onSpdm, onDoe, hup, hstate, if_true]

theorem onKm_ready {s : State} {p : Nat} {cxl : Bool} {f : State} (hup : hostUp s p = true) (hsession : (getPort s p).host.session = true)
    (hcxl : cxl = true → num s 0x2101 (p + 1) = 3) : onKm s p cxl f = .next f := by
  have hkind : (cxl && decide (num s 0x2101 (p + 1) ≠ 3)) = false := by
    cases cxl
    · rfl
    · simpa using hcxl rfl
  simp only [onKm, onDoe, hup, hsession, hkind, Bool.not_true, Bool.false_eq_true, if_false, if_true]

end Sys2Proof.Machine

open Sys2Proof Sys2Proof.Machine

/-- Settles O31: SPDM goes through `onSpdm_ready` and IDE_KM through `onKm_ready`; a mailbox request finds its port up. -/
theorem hostSecurityComplete : Obligations.HostSecurityComplete := by
  refine ⟨?_, ?_, ?_, ?_, ?_, ?_, ?_, ?_, ?_, ?_, ?_, ?_, ?_, ?_, ?_, ?_, ?_, ?_, ?_, ?_, ?_⟩
  · intro p s h1
    change execSpdmGetVersion _ _ = _
    simp [execSpdmGetVersion, onDoe, h1]
  · intro p s h1 h2
    change execSpdmGetCapabilities _ _ = _
    simp [execSpdmGetCapabilities, onDoe, h1, h2]
  · intro p s h1 h2
    change execSpdmNegotiateAlgorithms _ _ _ = _
    simp [execSpdmNegotiateAlgorithms, onDoe, h1, h2]
  · intro p s h1 h2
    change execSpdmGetDigests _ _ = _
    simp [execSpdmGetDigests, onSpdm, onDoe, h1, h2]
  · intro p off len s h1 h2
    change execSpdmGetCertificate _ _ _ _ _ = _
    simp [execSpdmGetCertificate, onSpdm, onDoe, h1, h2]
  · intro p s h1 h2
    change execSpdmChallenge _ _ _ = _
    simp [execSpdmChallenge, onSpdm, onDoe, h1, h2]
  · intro p i s h1 h2 h3 h4
    have hsay : ∀ signed, exec (.spdmGetMeasurements p i signed) s = .next _ := fun signed => onSpdm_ready h1 h2
    simp only [hsay, Nat.ne_of_gt h3, h4, if_false, if_true, Bool.false_eq_true, and_self]
  · intro p s h1 h2 h3 h4 h5
    change execSpdmKeyExchange _ _ _ = _
    simp [execSpdmKeyExchange, onSpdm, onDoe, h1, h2, h3, h4, h5]
  · intro p s h1 h2 h3
    refine (onSpdm_ready h1 h2).trans ?_
    simp only [h3, Bool.not_true, Bool.false_eq_true, if_false, if_true]
  · intro p s h1 h2 h3
    change execSpdmEndSession _ _ = _
    simp [execSpdmEndSession, onSpdm, onDoe, h1, h2, h3]
  · intro p s h1 h2
    change execIdeKmQuery _ _ = _
    simp [execIdeKmQuery, onKm, onDoe, h1, h2]
  · intro p cxl tx s h1 h2 h3 h4
    refine (onKm_ready h1 h2 h3).trans ?_
    simp only [h4, Bool.false_eq_true, if_false]
  · intro p cxl tx s h1 h2 h3 h4
    refine (onKm_ready h1 h2 h3).trans ?_
    simp only [h4, if_true]
  · intro p cxl tx s h1 h2 h3
    exact onKm_ready h1 h2 h3
  · intro p s h1 h2
    change execIdentifyMemoryDevice _ _ = _
    simp [execIdentifyMemoryDevice, onMail, h1, h2]
  · intro p s h1 h2
    change execGetSupportedLogs _ _ = _
    simp [execGetSupportedLogs, onMail, h1, h2]
  · intro p off len s h1 h2
    change execGetLog _ _ _ _ = _
    simp [execGetLog, onMail, h1, h2]
  · intro p s h1 h2
    change execGetEventRecords _ _ = _
    simp [execGetEventRecords, onMail, h1, h2]
  · intro p n s h1 h2
    change execClearEventRecords _ _ _ = _
    simp [execClearEventRecords, onMail, h1, h2]
  · intro p s h1 h2
    change execGetHealthInfo _ _ = _
    simp [execGetHealthInfo, onMail, h1, h2]
  · intro p s h1 h2
    change execGetPartitionInfo _ _ = _
    simp [execGetPartitionInfo, onMail, h1, h2]
end

section
/-! Device states, resets, supplies and sideband pins. -/
open Sys2Proof Sys2Proof.Machine

/-- Settles O41: a command finds the device state, the supply or the pin as it names them. -/
theorem deviceCommandsComplete : Obligations.DeviceCommandsComplete := by
  refine ⟨?_, ?_, ?_, ?_, ?_, ?_, ?_, ?_, fun _ _ => rfl, ?_, ?_, ?_, ?_, ?_, ?_, fun _ => rfl, ?_, ?_, ?_, ?_⟩
  · intro w s h1
    constructor
    · change execDevTarget _ _ _ = _
      have hstate : num (setNum s 0x2000 2 0) 0x2000 1 = 0 := by rwa [num_setNum_ne _ _ _ _ _ _ (by decide)]
      have hval : leNat [0#8, 0#8] = 0 := by decide
      simp [execDevTarget, writeDevTarget, hval, hstate, endWrite_applied]
    · change execDevTarget _ _ _ = _
      have hstate : num (setNum s 0x2000 2 1) 0x2000 1 = 0 := by rwa [num_setNum_ne _ _ _ _ _ _ (by decide)]
      have hval : leNat [1#8, 0#8] = 1 := by decide
      simp [execDevTarget, writeDevTarget, hval, hstate, endWrite_applied]
  · intro w s h1 h2
    change execDevTarget _ _ _ = _
    have hstate : num (setNum s 0x2000 2 2) 0x2000 1 = 0 := by rwa [num_setNum_ne _ _ _ _ _ _ (by decide)]
    have hval : leNat [2#8, 0#8] = 2 := by decide
    simp [execDevTarget, writeDevTarget, hval, hstate, endWrite_applied, h2]
  · intro s h1 h2 h3 h4
    change execN1Idle _ = _
    simp [execN1Idle, h1, h2, h3, h4]
  · intro s h1
    constructor
    · change execWakeEvent _ _ = _
      simp only [execWakeEvent, h1, if_true]
    · change execWakeEvent _ _ = _
      simp only [execWakeEvent, h1, if_true, Bool.false_eq_true, if_false]
  · intro s h1
    change execWakeEvent _ _ = _
    simp [execWakeEvent, h1]
  · intro s h1 h2 h3 h4
    change execN3Entry _ = _
    simp [execN3Entry, h1, h2, h3, h4]
  · intro bad s h1 h2
    change execN3Wake _ _ _ = _
    simp [execN3Wake, h1, h2]
  · intro bad s h1 h2
    change execN3Wake _ _ _ = _
    simp [execN3Wake, h1, h2]
  · intro c s h1
    change execPerst _ _ = _
    simp [execPerst, mainGood, h1]
  · intro s h1 h2 h3
    change execPerstRelease _ = _
    simp [execPerstRelease, mainGood, h1, h2, h3]
  · intro s h1 h2
    change execWatchdogReset _ = _
    simp [execWatchdogReset, Nat.not_lt.mpr h1, Nat.not_lt.mpr h2]
  · intro s h1
    change execRefclkLoss _ = _
    simp [execRefclkLoss, h1]
  · intro s h1
    change execRefclkReturn _ = _
    simp [execRefclkReturn, h1]
  · intro s h1
    change execVstbyApply _ = _
    simp [execVstbyApply, h1]
  · intro s h1
    have hgood : mainGood s = true := by simp only [mainGood, h1, beq_self_eq_true]
    constructor
    · change execMainPwrgdFall _ = _
      simp only [execMainPwrgdFall, hgood, if_true]
    · change execVinCoreLow _ = _
      simp only [execVinCoreLow, hgood, if_true]
  · intro s h1 h2
    change execMainPwrgdRise _ = _
    simp [execMainPwrgdRise, mainGood, h1, h2]
  · intro s h1
    change execSledPrsntAsserted _ = _
    simp [execSledPrsntAsserted, h1]
  · intro s h1 u h2 h3
    change execSledPrsnt _ = _
    have hstate : ¬ 3 ≤ num (latch (setNum s 0x2020 1 0) 9) 0x2000 1 := Nat.not_le.mpr (Nat.lt_succ_of_le h2)
    have hrun : num u 0x2100 1 ≠ 3 := h3
    unfold execSledPrsnt
    rw [if_neg (by rw [h1]; decide)]
    dsimp only
    rw [if_neg hstate, if_neg h3]
end

section
/-! Boot, bring-up and the firmware update. -/
open Sys2Proof Sys2Proof.Machine

/-- Settles O42: a command of boot finds the device in its stage, and a write of the update passes R60's checks. -/
theorem bootCommandsComplete : Obligations.BootCommandsComplete := by
  refine ⟨?_, ?_, ?_, ?_, ?_, ?_, ?_, ?_, ?_, ?_, ?_, ?_, ?_, ?_, ?_, fun _ _ => rfl, ?_, fun _ _ => rfl⟩
  · intro s h1 h2 h3
    change execBootRom _ = _
    simp [execBootRom, h1, h2, h3]
  · intro s h1 h2 h3 h4
    change execBootRom _ = _
    simp [execBootRom, h1, h2, h3, h4]
  · intro c seq a s h1 h2 h3 h4 h5
    change execLoaderBoot _ = _
    simp only [execLoaderBoot, h1, h2, h3, h5, ne_eq, not_true_eq_false, decide_false, Bool.or_false, Bool.false_eq_true, show ((0 : Nat) = 2) = False from by decide,
      show ((0 : Nat) = 1) = False from by decide, if_false, if_true]
  · intro found s h1 h2 h3 h4 h5 h6
    change execBringupStage _ _ = _
    simp only [execBringupStage, nextStage, mainGood, h1, h2, h3, h4, h5, h6, beq_self_eq_true, Bool.not_false, Bool.and_self, if_true]
  · intro found s h1 h2
    change execBringupStage _ _ = _
    simp only [execBringupStage, nextStage, endFuses, h1, h2, Bool.not_true, Bool.false_eq_true, if_false]
  · intro found s h1 h2
    change execBringupStage _ _ = _
    simp [execBringupStage, nextStage, h1, h2]
  · intro found s h1 h2
    change execBringupStage _ _ = _
    simp [execBringupStage, nextStage, h1, h2]
  · intro found s h1
    change execBringupStage _ _ = _
    simp [execBringupStage, nextStage, h1]
  · intro found s h1
    change execBringupStage _ _ = _
    simp [execBringupStage, nextStage, h1]
  · intro found s h1 h2
    change execBringupStage _ _ = _
    have hports : num (setNum s 0x2000 4 7) 0x2100 3 ≠ 1 := by rwa [num_setNum_ne _ _ _ _ _ _ (by decide)]
    simp only [execBringupStage, nextStage, endConfig, h1, hports, decide_false, Bool.false_and, Bool.false_eq_true, if_false]
  · intro w s h1
    change execFwUpdateBegin _ _ = _
    simp [execFwUpdateBegin, fwBegin, h1, endWrite_applied]
  · intro w v s h1 h2 h3 h4
    change execFwUpdateChunk _ _ _ = _
    simp [execFwUpdateChunk, writeFwChunk, Nat.not_lt.mpr h1, h2, h3, Nat.not_lt.mpr h4, endWrite_applied]
  · intro w s h1 h2
    change execFwUpdateCommit _ _ = _
    simp [execFwUpdateCommit, fwCommit, h1, h2, endWrite_applied]
  · intro w s h1 h2
    change execFwUpdateCommit _ _ = _
    simp [execFwUpdateCommit, fwCommit, h1, h2, endWrite_applied]
  · intro w s h1 h2
    change execFwUpdateActivate _ _ = _
    simp [execFwUpdateActivate, fwActivate, h1, h2, endWrite_applied]
  · intro w x s h1 h2
    change execFwConfirm _ _ _ = _
    have hone : leNat [1] = 1 := by decide
    simp only [execFwConfirm, writeFwConfirm, boolWrite, hone, h1, h2, List.length_cons, List.length_nil, Nat.zero_add, ne_eq, not_true_eq_false,
      lt_self_iff_false, beq_self_eq_true, if_false, endWrite_applied]
end

section
/-! The placement loop. -/
namespace Sys2Proof.Machine

theorem evacuated_queueDecision (s : State) (b what t slot : Nat) :
    evacuated (queueDecision s b what) t (unitOfSlot (queueDecision s b what) t slot) = evacuated s t (unitOfSlot s t slot) := by
  unfold queueDecision
  split <;> rfl

/-- A bolt's entry among the promotions that wait, after a sweep of it. -/
def requeued (s : State) (b : Nat) (x : Bolt) : State :=
  if promotable s x && !s.tier.learning then queueDecision s b 0 else unqueue s b 0

theorem evacuated_requeued (s : State) (b : Nat) (x : Bolt) (t slot : Nat) :
    evacuated (requeued s b x) t (unitOfSlot (requeued s b x) t slot) = evacuated s t (unitOfSlot s t slot) := by
  unfold requeued
  split
  · exact evacuated_queueDecision s b 0 t slot
  · rfl

/-- The sweep of a bolt that no retirement moves. -/
theorem execAgeSweep_due {s : State} {b : Nat} (hhome : (getBolt s b).home ≠ 0)
    (hdue : ∀ t, (getBolt s b).sweptAt = some t → t + agePeriod s (getBolt s b).home ≤ s.det.now)
    (hstays : evacuated s (getBolt s b).home (unitOfSlot s (getBolt s b).home (getBolt s b).slot) = false) :
    execAgeSweep b s = .next (requeued (setBolt s b (swept s (getBolt s b))) b (swept s (getBolt s b))) := by
  have hwait : (match (getBolt s b).sweptAt with | some t => !due s t (agePeriod s (getBolt s b).home) | none => false) = false := by
    split
    · next t ht => rw [due_of_le (hdue t ht)]; rfl
    · rfl
  have hkeeps := (evacuated_requeued (setBolt s b (swept s (getBolt s b))) b (swept s (getBolt s b)) (getBolt s b).home (getBolt s b).slot).trans hstays
  unfold execAgeSweep
  refine (if_neg ?_).trans (congrArg Host.Outcome.next (if_neg (Bool.eq_false_iff.mp hkeeps)))
  rw [Bool.not_eq_true, Bool.or_eq_false_iff]
  exact ⟨decide_eq_false hhome, hwait⟩

end Sys2Proof.Machine

open Sys2Proof Sys2Proof.Machine

/-- Settles O37: a command of the loop is due and its bolt, tier or move is as the clause says; a sweep goes through `execAgeSweep_due`. -/
theorem placementComplete : Obligations.PlacementComplete := by
  refine ⟨?_, ?_, ?_, ?_, ?_, ?_, ?_, ?_, ?_, ?_, ?_, ?_, ?_, fun _ _ => rfl, fun _ _ => rfl, ?_, fun _ _ => rfl, ?_, ?_, ?_, ?_⟩
  · intro b s h1 h2 h3
    exact execAgeSweep_due h1 h2 h3
  · intro t v s h1 h2 h3 h4 h5 h6
    change execEvict _ _ = _
    have htier : (decide (t = 1) || decide (t = 2)) = true := by simpa using h1
    simp only [execEvict, htier, Nat.ne_of_gt h2, h3, h4, h5, Nat.ne_of_gt h6, Option.isSome_none, Bool.or_false, Bool.and_self, Bool.not_false, Bool.false_eq_true, if_false, if_true]
  · intro t p v s h1 h2 h3 h4 h5 h6
    change execEvict _ _ = _
    have htier : (decide (t = 1) || decide (t = 2)) = true := by simpa using h1
    simp only [execEvict, htier, h2, h3, h4, h5, Nat.ne_of_gt h6, Option.isSome_some, Bool.or_true, Bool.and_self, Bool.not_false, if_false, if_true]
  · intro b slot u s h1 h2 h3 h4 h5 h6 h7 h8
    change execPromote _ _ = _
    have hnow : promoteNow s b = (true, startMove u b 1 slot .promote) := by
      simp only [promoteNow, h5, h6, h7, promoteTo, h8, Bool.not_true, Bool.false_eq_true, if_false, if_true]
    simp only [execPromote, h1, h2, h3, h4, hnow, Bool.not_true, Bool.or_false, Bool.false_eq_true, if_false, if_true]
  · intro b s h1 h2 h3 h4 h5 h6 h7 h8 h9 h10
    change execDemotePolicy _ _ = _
    rcases h10 with h10 | h10 <;> simp [execDemotePolicy, demotePolicyNow, h1, h2, h3, h4, Nat.not_lt.mpr h5, h6, h7, h8, Nat.not_le.mpr h9, h10]
  · intro p t v s h1 h2 h3 h4 h5 h6
    change execDemoteQuota _ _ _ = _
    have htier : (decide (t = 1) || decide (t = 2)) = true := by simpa using h4
    simp only [execDemoteQuota, demoteQuotaNow, htier, h1, h2, h3, h5, h6, decide_true, Bool.and_self, Bool.or_false, Bool.false_eq_true, if_false, if_true]
  · intro b s h1
    change execDemandMoveUp _ _ = _
    simp only [execDemandMoveUp, h1, if_true]
  · intro b bad rs m s h1 h2 h3 h4 h5 h6
    change execMoveCutover _ _ _ _ = _
    have hcopied : (!unbudgeted m.cause && !m.copied) = false := by
      rcases h5 with h | h <;> simp [h, unbudgeted]
    have hdemand : (m.cause == .demand) = false := beq_eq_false_iff_ne.mpr h4
    simp only [execMoveCutover, h1, h2, h3, hcopied, hdemand, h6, Bool.not_true, Bool.or_false, Bool.false_eq_true, if_false]
  · intro b bad rs m s h1 h2 h3 h4 h5
    change execMoveCutover _ _ _ _ = _
    have hbolt : m.bolt = b := by simpa using List.find?_some h1
    have hbudget : budgetLC s m = true := by simp [budgetLC, hbolt, h5]
    simp only [execMoveCutover, h1, h2, h3, h4, hbudget, h5, unbudgeted, beq_self_eq_true, Bool.not_true, Bool.false_and, Bool.or_false, Bool.false_eq_true, if_false, if_true]
  · intro t slot f s h1 h2
    change execMoveSourceFree _ _ _ = _
    simp [execMoveSourceFree, h1, h2]
  · intro s h1 h2 h3
    change execLearnEnd _ = _
    simp [execLearnEnd, h1, Nat.not_lt.mpr h2, due_of_le h3]
  · intro h s h1
    change execAllocSlotFreed _ = _
    unfold execAllocSlotFreed
    split
    · next k hsome =>
      obtain rfl : h = k := Option.some.inj (h1.symm.trans hsome)
      rfl
    · next hnone => exact absurd (h1.symm.trans hnone) (Option.some_ne_none h)
  · intro w v s h1 h2 h3 h4 h5
    change execPlaceHint _ _ _ = _
    rcases h5 with h5 | h5 <;> simp [execPlaceHint, writeHint, h1, h2, h3, Nat.not_lt.mpr h4, h5, endWrite_applied]
  · intro w s
    change execPlaceFreeze _ _ _ = _
    have hone : leNat [1] = 1 := by decide
    have hfrozen : placeFrozen (setNum s 0x2301 1 1) = true := by
      rw [placeFrozen, num_setNum_new _ _ _ _ (by decide)]
      rfl
    simp only [execPlaceFreeze, writePlaceFreeze, boolWrite, hone, b2n, hfrozen, List.length_cons, List.length_nil, Nat.zero_add, ne_eq, not_true_eq_false, lt_self_iff_false,
      beq_self_eq_true, Bool.true_or, if_false, if_true, endWrite_applied]
  · intro w v s h1 u out h2
    change execEvacuate _ _ _ = _
    have hroom : ¬ (tierFree u 1 + tierFree u 2 + tierFree u 3 < out.length) := Nat.not_lt.mpr h2
    unfold execEvacuate writeEvacuate
    rw [if_neg (not_not_intro h1)]
    dsimp only
    rw [if_neg hroom, endWrite_applied]
  · intro w v s h1
    change execBoltQuery _ _ _ = _
    simp [execBoltQuery, writeBoltQuery, h1, endWrite_applied]
  · intro b found s h1 h2
    change execPatrolScrub _ _ _ = _
    have hhome : (decide ((getBolt s b).home = 1) || decide ((getBolt s b).home = 2)) = true := by simpa using h1
    simp only [execPatrolScrub, hhome, h2, ne_eq, not_true_eq_false, decide_false, Bool.false_and, Bool.not_true, Bool.or_false, Bool.false_eq_true, if_false]
  · intro larder u c s h1 h2 h3
    change execTierThermal _ _ _ _ = _
    have hwait : (match (heatOf s larder u).changedAt with | some t => !due s t (msT 100) | none => false) = false := by
      split
      · next t ht => rw [due_of_le (h3 t ht)]; rfl
      · rfl
    unfold execTierThermal
    refine (if_neg ?_).trans ?_
    · rw [Bool.not_eq_true, Bool.or_eq_false_iff, Bool.or_eq_false_iff]
      exact ⟨⟨decide_eq_false (Nat.not_le.mpr h1), decide_eq_false h2⟩, hwait⟩
    · cases larder <;> rfl
end

section
/-! Power domains and pads. -/
open Sys2Proof Sys2Proof.Machine

/-- Settles O39: a write of a target passes R60's checks and finds the domain without a transition; the other commands find the domain in the state that they name. -/
theorem powerDomainsComplete : Obligations.PowerDomainsComplete := by
  refine ⟨?_, ?_, ?_, ?_, ?_, ?_, ?_, ?_, ?_, ?_, ?_, ?_, ?_, fun _ _ _ => rfl, fun _ _ => rfl, ?_, ?_, ?_, ?_⟩
  · intro w d s h1 h2 h3 h4
    have hstate := fun v => (domState_target s d d v h1 h1).trans h4
    constructor
    · change execDomTarget _ _ _ _ = _
      have hval : leNat [0#8, 0#8] = 0 := by decide
      simp [execDomTarget, writeDomTarget, h1, h2, hval, dropMove_none s d h3, hstate, endWrite_applied]
    · change execDomTarget _ _ _ _ = _
      have hval : leNat [1#8, 0#8] = 1 := by decide
      simp [execDomTarget, writeDomTarget, h1, h2, hval, dropMove_none s d h3, hstate, endWrite_applied]
  · intro w d s h1 h2 h3 h4 h5 h6
    change execDomTarget _ _ _ _ = _
    have hval : leNat [2#8, 0#8] = 2 := by decide
    have hport : (decide (16 ≤ d) && decide (d < 20)) = false := by
      rw [← Bool.decide_and]
      exact decide_eq_false (by omega)
    simp [execDomTarget, writeDomTarget, h1, h3, h6, hval, hport, dropMove_none s d h4, domState_target s d d _ h1 h1, h5, endWrite_wait]
  · intro w d s h1 h2 h3 h4
    change execDomTarget _ _ _ _ = _
    have hval : leNat [1#8, 0#8] = 1 := by decide
    simp [execDomTarget, writeDomTarget, h1, h2, hval, dropMove_none s d h3, domState_target s d d _ h1 h1, h4, endWrite_wait]
  · intro d x s h1 h2
    change execDomTransitionEnd _ _ = _
    simp [execDomTransitionEnd, h1, h2]
  · intro d x s h1 h2
    change execDomTransitionEnd _ _ = _
    simp [execDomTransitionEnd, h1, h2]
  · intro d x s h1 h2
    change execDomTransitionEnd _ _ = _
    simp [execDomTransitionEnd, h1, h2]
  · intro d s h1 h2 h3 h4
    change execDomIdleCg _ _ = _
    simp [execDomIdleCg, h1, h2, h3, h4]
  · intro d c s h1 h2 h3 h4
    change execDomIdleRet _ _ _ = _
    have hon : (decide (domState s d = 4) || decide (domState s d = 3)) = true := by simpa using h2
    have hcool : aboveRet s c = false := decide_eq_false (Int.not_lt.mpr h4)
    simp only [execDomIdleRet, h1, hon, h3, hcool, decide_true, Bool.and_self, Bool.false_eq_true, if_false, if_true]
  · intro d c s h1 h2 h3 h4
    change execDomIdleRet _ _ _ = _
    have hon : (decide (domState s d = 4) || decide (domState s d = 3)) = true := by simpa using h2
    have hhot : aboveRet s c = true := decide_eq_true h4
    simp only [execDomIdleRet, h1, hon, h3, hhot, decide_true, Bool.and_self, if_true]
  · intro d s h1 h2 h3
    change execDomWake _ _ = _
    rcases h2 with h2 | h2 <;> simp [execDomWake, Nat.not_lt.mpr h1, h2, Nat.not_lt.mpr h3]
  · intro d s h1 h2 h3
    change execDomWake _ _ = _
    rcases h2 with h2 | h2 <;> simp [execDomWake, h1, h2, Nat.not_lt.mpr h3]
  · intro d c s h1 h2 h3
    change execRetOverTemperature _ _ _ = _
    have hhot : aboveRet s c = true := decide_eq_true h3
    simp only [execRetOverTemperature, h1, h2, hhot, decide_true, Bool.and_self, if_true]
  · intro w v s h1
    change execPadRelease _ _ _ = _
    simp [execPadRelease, writePadRelease, h1, endWrite_applied]
  · intro d s h1 h2 h3 h4 u h5
    change execPowerBrownout _ _ = _
    have hother : (decide (d ≤ 1) || decide (d = 16)) = false := by
      rw [← Bool.decide_or]
      exact decide_eq_false (by omega)
    unfold execPowerBrownout
    rw [h1, h2, if_neg (by decide)]
    dsimp only
    rw [hother, if_neg Bool.false_ne_true, if_pos h5]
  · intro d s h1 h2
    change execPowerBrownout _ _ = _
    have hret : mayRet d = true := by
      rcases h2 with h | rfl
      · interval_cases d <;> rfl
      · rfl
    have hdevice : (decide (d ≤ 1) || decide (d = 16)) = true := by
      rw [← Bool.decide_or]
      exact decide_eq_true h2
    simp only [execPowerBrownout, h1, hret, hdevice, ne_eq, not_true_eq_false, decide_false, Bool.not_true, Bool.or_false, Bool.false_eq_true, if_false, if_true]
  · intro d s h1 h2 h3 h4
    change execPowerMargin _ _ = _
    simp [execPowerMargin, h1, h2, h3, h4]
  · intro d t s h1 h2
    change execMarginStep _ _ = _
    simp only [execMarginStep, h1, h2, if_true]
end

section
/-! The voltage, frequency, power and thermal loops. -/
open Sys2Proof Sys2Proof.Machine

/-- Settles O40: the loop is due and its comparison is decided by the hypotheses of its clause. -/
theorem powerLoopsComplete : Obligations.PowerLoopsComplete := by
  refine ⟨?_, ?_, ?_, ?_, ?_, ?_, ?_, ?_, ?_, ?_, ?_, ?_, ?_, ?_, ?_, ?_⟩
  · intro margins low s h1 h2
    change execAvsPeriod _ _ _ = _
    simp [execAvsPeriod, h1, due_of_le h2]
  · intro s h1 h2 h3
    change execDivisorStep _ _ = _
    simp only [execDivisorStep, h1, Bool.false_eq_true, if_false, beq_eq_false_iff_ne.mpr h3, Nat.ne_of_lt h2, Nat.lt_asymm h2, decide_false, Bool.or_false]
  · intro s h1 h2 h3
    change execDivisorStep _ _ = _
    simp only [execDivisorStep, h1, Bool.false_eq_true, if_false, beq_eq_false_iff_ne.mpr h3, Nat.ne_of_gt h2, h2, decide_false, Bool.or_false, Bool.false_and, if_true]
  · intro s h1 h2 h3
    change execDivisorStep _ _ = _
    simp only [execDivisorStep, h1, Bool.false_eq_true, if_false, beq_eq_false_iff_ne.mpr h3, Nat.ne_of_lt h2, Nat.lt_asymm h2, decide_false, Bool.or_false, if_true]
  · intro s h1 h2 h3 h4
    change execDivisorStep _ _ = _
    simp only [execDivisorStep, h1, Bool.false_eq_true, if_false, beq_eq_false_iff_ne.mpr h3, beq_eq_false_iff_ne.mpr h4, Nat.ne_of_gt h2, h2, decide_false,
      Bool.or_false, Bool.and_false, Bool.false_and, if_true]
  · intro m s h1 h2
    change execPl2Eval _ _ = _
    simp [execPl2Eval, due_of_le h1, Nat.not_lt.mpr h2]
  · intro m x s h1 h2 h3
    change execPl2Eval _ _ = _
    simp [execPl2Eval, due_of_le h1, Nat.not_le.mpr h2, h3]
  · intro s h1
    change execPl2Sustained _ = _
    have hsteps : (8 - max (divT s) s.pwr.powerT) + (6 - max (divC s) s.pwr.powerC) ≠ 0 := by omega
    simp only [execPl2Sustained, hsteps, if_false]
  · intro tau last x s h1 h2 h3 h4 h5
    change execPl1Eval _ _ _ = _
    have hdown : stepDown { s with pwr := { s.pwr with pl1At := s.det.now } } s.pwr.powerT s.pwr.powerC = some x := h5
    have hfree : num { s with pwr := { s.pwr with pl1At := s.det.now } } 0x2001 5 ≠ 1 := h1
    simp only [execPl1Eval, due_of_le h2, hfree, h3, h4, hdown, Bool.not_true, Bool.false_eq_true, decide_false, decide_true, Bool.or_false, Bool.and_self,
      if_false, if_true]
  · intro tau last x s h1 h2 h3 h4 h5
    change execPl1Eval _ _ _ = _
    have hbelow : ¬ pl1W s * 1000 < tau := by omega
    have hfree : num { s with pwr := { s.pwr with pl1At := s.det.now } } 0x2001 5 ≠ 1 := h1
    simp only [execPl1Eval, due_of_le h2, hfree, hbelow, h3, h4, h5, Bool.not_true, Bool.false_eq_true, decide_false, decide_true, Bool.or_false,
      Bool.false_and, Bool.and_self, if_false, if_true]
  · intro d c x s h1 h2 h3 h4
    change execThrottleStep _ _ _ = _
    have hdown : stepDown { s with pwr := { s.pwr with throttleAt := some s.det.now } } s.pwr.thermalT s.pwr.thermalC = some x := h4
    simp only [execThrottleStep, Int.not_lt.mpr h1, Nat.not_lt.mpr h2, h3, hdown, decide_false, Bool.not_true, Bool.or_false, Bool.false_eq_true, if_false]
  · intro c x s h1 h2 h3
    change execThrottleStepUp _ _ = _
    simp only [execThrottleStepUp, Int.not_le.mpr h1, h2, h3, decide_false, Bool.not_true, Bool.or_false, Bool.false_eq_true, if_false]
  · intro d c s h1 h2 h3
    change execThermalTrip _ _ _ = _
    simp only [execThermalTrip, Int.not_lt.mpr h1, Nat.not_lt.mpr h2, h3, decide_false, Bool.or_false, Bool.false_eq_true, if_false]
  · intro c s h1
    change execThermalTripClear _ _ = _
    simp only [execThermalTripClear, Int.not_le.mpr h1, if_false]
  · intro d c s h1 h2 h3
    change execHardTrip _ _ _ = _
    simp only [execHardTrip, Int.not_lt.mpr h1, Nat.not_lt.mpr h2, h3, decide_false, Bool.or_false, Bool.false_eq_true, if_false]
  · intro ch c s h1 h2 h3 h4 h5 h6
    change execDramEyePass _ _ _ _ = _
    simp [execDramEyePass, forS, Nat.not_le.mpr h1, h2, h3, h4, h5, h6]
end
